-- ==== Sys2Proof/Syntax.lean ====
section
/-! DEFINITION. The commands of the block: one constructor of `Instr` for each row of spec/opcode_table.json,
with the operands the rule of the row gives it, and the plain records those operands are made of. -/

namespace Sys2Proof

/-- What is wrong with a stored code word when it is next read (13 R414-R417). -/
inductive UpsetKind where
  | correctable
  | uncorrectable
  deriving DecidableEq, Repr

/-- A stored error: the granule-aligned address (scratchpads: the 8-byte word) and its kind. -/
structure Upset where
  addr : Nat
  kind : UpsetKind
  deriving DecidableEq, Repr

/-- What PMBus returned for one rail (22 R631): no valid answer after three tries, or the three readings and what
STATUS_WORD reports. -/
structure RailReading where
  answered : Bool
  vout : BitVec 16
  iout : BitVec 16
  status : BitVec 16
  warning : Bool
  shutdown : Bool
  deriving DecidableEq, Repr

/-- An endpoint of the port: a source MAC under CWP_ETHERTYPE, or an address and UDP port (17 R513). -/
inductive Endpoint where
  | mac (addr : BitVec 48)
  | ipv4 (addr : BitVec 32) (port : BitVec 16)
  | ipv6 (addr : BitVec 128) (port : BitVec 16)
  deriving DecidableEq, Repr

/-- The fields of the CWP frame header (17 R511). -/
structure CwpHeader where
  version : BitVec 4
  cls : BitVec 4
  kind : BitVec 8
  sync : Bool
  first : Bool
  last : Bool
  ackv : Bool
  bad : Bool
  src : BitVec 16
  dst : BitVec 16
  tseq : BitVec 32
  ack : BitVec 32
  msg : BitVec 32
  offset : BitVec 48
  segLen : BitVec 16
  deriving DecidableEq, Repr

/-- A received Ethernet frame that carries CWP: its source, its length from destination address to FCS, its VLAN tag,
the priority it came on, whether the encapsulation is one that 17 R507 accepts, its header as bytes, and its segment. -/
structure WireFrame where
  ep : Endpoint
  length : Nat
  vlan : Option (BitVec 12)
  prio : BitVec 3
  wellAddressed : Bool
  header : List Byte
  data : List Byte
  deriving DecidableEq, Repr

/-- A share-mode message as it arrives (07 R205): the inner header, and the body followed by the AEAD tag when the
message is protected. -/
structure ShareMsg where
  ep : Endpoint
  kind : BitVec 8
  version : BitVec 8
  session : BitVec 16
  slot : BitVec 12
  round : BitVec 16
  seq : BitVec 64
  serial : BitVec 64
  bodyLen : BitVec 32
  body : List Byte
  deriving DecidableEq, Repr

/-- A block that the BLOCK reaction resets (21 R605, R616). -/
inductive Block where
  | cluster (c : Nat)
  | channel (k : Nat)
  | electrum (e : Nat)
  | update (m : Nat)
  deriving DecidableEq, Repr

/-- The three programs of a core (08). -/
inductive Program where
  | tin
  | access
  | execute
  deriving DecidableEq, Repr

/-- Format R of the execute stream, fields [57:32] (08 R269, R271). -/
structure RFields where
  modIdx : BitVec 6
  dst : BitVec 4
  sa : BitVec 4
  sb : BitVec 4
  sc : BitVec 4
  slice : BitVec 2
  mb : Bool
  w : Bool
  deriving DecidableEq, Repr

/-- Format B of the execute stream: the butterflies (08 R272, R273). -/
structure BFields where
  modIdx : BitVec 6
  dst : BitVec 4
  sa : BitVec 4
  sb : BitVec 4
  dst2 : BitVec 4
  slice : BitVec 2
  hc : BitVec 3
  e0 : BitVec 18
  dcode : BitVec 5
  lv : BitVec 3
  ls : BitVec 5
  deriving DecidableEq, Repr

/-- What the limb-exchange links did while a routine ran (04 R125, R126): nothing wrong; flits resent; or a transfer
that failed after `units` units of the commit order were complete. -/
inductive LinkEvent where
  | clean
  | resent (src dst flits : Nat)
  | failed (src dst units : Nat)
  deriving DecidableEq, Repr

/-- How an extension routine is called: its argument block, and what the links do while it runs (04 R125, 09 R301). -/
structure LinkedArgs where
  block : BitVec 16
  link : LinkEvent
  deriving DecidableEq, Repr

/-- What a data phase meets: errors in stored data, and whether the expander or the channel fails (05 R162). -/
structure PhaseErrors where
  stored : List Upset
  internal : Bool
  deriving DecidableEq, Repr

/-- The commands. Each constructor's comment is its row: rule, then what the row says. -/
inductive Instr where
  /-- POWER_ON (R645). The on-die detector releases power-on reset once the rails are within tolerance, which clears the sticky record and starts the boot sequence. -/
  | powerOn
  /-- RESET_N_ASSERT (R645). RESET_N is driven low for at least 10 µs, which holds the device in reset with its outputs in the states of R648 and clears the sticky record. -/
  | resetNAssert
  /-- RESET_RELEASE (R586). The release of RESET_N latches the straps, then clears Sterling, derives the identity key, initialises the slabs, trains the port and begins fetching firmware. -/
  | resetRelease (bootMode : BitVec 2) (masterSel : Bool)
  /-- HELLO_REPEAT (R588). The 1 s timer expires with no OFFER accepted, and BOOT_HELLO is sent again. -/
  | helloRepeat
  /-- BOOT_OFFER (R588). A BOOT_OFFER arrives; it is accepted under the boot mode and the boot ROM starts reading the image header. -/
  | bootOffer (src : BitVec 48) (imageId : BitVec 64) (imageLen : BitVec 64)
  /-- BOOT_READ_RESEND (R588). An unanswered BOOT_READ times out after 100 ms and is resent; after 8 resends the attempt fails with NO_ANSWER. -/
  | bootReadResend
  /-- BOOT_DATA (R592). Image bytes arrive; the boot ROM makes the header checks or hashes the code in order, and on reaching the end passes or fails the attempt. -/
  | bootData (src : BitVec 48) (imageId : BitVec 64) (offset : BitVec 64) (data : List Byte)
  /-- ATTEMPT_RETRY (R589). One second after a failed attempt, the next attempt starts with ATTEMPT one higher. -/
  | attemptRetry
  /-- SLAB_INIT_DONE (R408). A controller finishes zero-initialising a slab with valid codes, so the slab stops refusing accesses. -/
  | slabInitDone (slab : Nat)
  /-- RAIL_OUT_OF_TOLERANCE (R628). A rail stays outside tolerance for more than 1 µs while RESET_N is high, which raises a fatal power-rail fault. -/
  | railOutOfTolerance (rail : Nat)
  /-- REFCLK_LOSS (R644). REFCLK is lost for more than 1 µs, or a clock generator loses lock, which raises a fatal clock fault. -/
  | refclkLoss
  /-- PMBUS_POLL (R631). The 1 ms timer expires; the management processor reads READ_VOUT, READ_IOUT and STATUS_WORD of every rail and raises faults on warnings or shutdowns. -/
  | pmbusPoll (readings : List RailReading)
  /-- PMB_ALERT (R631). PMB_ALERT_N falls, and STATUS_WORD of every rail is read within 100 µs. -/
  | pmbAlert (readings : List RailReading)
  /-- SENSOR_SAMPLE (R638). The 10 µs sampling timer expires; each sensor is sampled, outliers are replaced, and the samples are compared with the throttle and shutdown thresholds. -/
  | sensorSample (temps : List (BitVec 32))
  /-- POWER_ESTIMATE (R636). Every 1,024 cycles each requester estimates its energy, then withholds or resumes issue against its grant. -/
  | powerEstimate (energies : List Nat)
  /-- PPS_EDGE (R468). A rising edge of PPS_IN marks a second of PTP time, and the counter discipline is updated. -/
  | ppsEdge (timeNs : Nat)
  /-- PTP_MESSAGE (R510). A PTP event or general message is received and time-stamped, and it feeds the counter discipline. -/
  | ptpMessage (event : Bool) (timeNs : Nat)
  /-- SCRUB (R418). The controller scrubs a granule of a correct slab, in idle cycles or at the floor rate, and corrects it or poison-codes it. -/
  | scrub (controller : Nat) (addr : Nat) (found : Option UpsetKind)
  /-- LINK_UP (R506). Port training completes and PORT_STATE becomes up. -/
  | linkUp
  /-- LINK_DOWN (R506). The link goes down; every endpoint's transport state is reset and a port fault is recorded. -/
  | linkDown
  /-- ARP_REQUEST (R507). An ARP request for IPV4_ADDR is received and answered. -/
  | arpRequest (mac : BitVec 48) (target : BitVec 32)
  /-- NEIGHBOUR_SOLICITATION (R507). An IPv6 neighbour solicitation for IPV6_ADDR is received and answered. -/
  | neighbourSolicitation (mac : BitVec 48) (target : BitVec 128)
  /-- PFC_PAUSE (R509). A priority flow-control frame from the peer pauses or releases sending on a priority. -/
  | pfcPause (prio : BitVec 3) (pause : Bool)
  /-- CWP_FRAME (R513). A CWP frame is received, judged against the expected TSEQ and SYNC, then accepted and placed in its message, or dropped with a repeated ACK. -/
  | cwpFrame (frame : WireFrame)
  /-- ACK (R513). An ACK-class frame cumulatively acknowledges sent frames of an endpoint and priority. -/
  | ack (ep : Endpoint) (prio : BitVec 3) (ackTo : BitVec 32)
  /-- RESEND_TIMER (R514). At 5, 10 or 15 µs after the first send, an unacknowledged frame and every later frame of its endpoint and priority are resent. -/
  | resendTimer (ep : Endpoint) (prio : BitVec 3)
  /-- TRANSPORT_FAIL (R514). A frame is still unacknowledged 20 µs after its first send, so the transport to that endpoint fails and its pending frames and messages are discarded. -/
  | transportFail (ep : Endpoint) (prio : BitVec 3)
  /-- REASSEMBLY_TIMEOUT (R515). A message's LAST segment has not arrived within REASSEMBLY_TIMEOUT of its FIRST segment, and the message is discarded. -/
  | reassemblyTimeout (ep : Endpoint) (prio : BitVec 3) (msg : BitVec 32)
  /-- REQUEST (R520). The FIRST segment of a request arrives; admission, the header, replay mode and the duplicate window are judged, and the request is either answered at once or reassembled. -/
  | request (ep : Endpoint) (prio : BitVec 3) (msg : BitVec 32)
  /-- MEM_WRITE (R518). The command writes LEN bytes of memory image to a device address. -/
  | memWrite (ctx : Nat) (addr : Nat) (data : List Byte)
  /-- MEM_READ (R518). The command reads LEN bytes from a device address into the reply. -/
  | memRead (ctx : Nat) (addr : Nat) (len : Nat) (ups : List Upset)
  /-- DICT_READ (R542). The command returns the value of a dictionary entry, which for a rwt entry is its pending value. -/
  | dictRead (ctx : Nat) (addr : BitVec 48) (len : BitVec 64)
  /-- DICT_WRITE (R544). A write to any dictionary entry without its own row is checked under R550 and then applied directly or stored as a pending value. -/
  | dictWrite (ctx : Nat) (addr : BitVec 48) (len : BitVec 64) (value : BitVec 64)
  /-- CREATE_TENSOR (R343). The host's create request with LEN 0 checks a tensor descriptor and writes STATE and CHECK into it. -/
  | createTensor (ctx : Nat) (addr : Nat)
  /-- CREATE_COPY (R364). The host's create request with LEN 1 checks a copy descriptor and writes STATE, NOOP and CHECK into it. -/
  | createCopy (ctx : Nat) (addr : Nat)
  /-- PSET_COMMIT (R41). A write of 0x01 to PSET_COMMIT sets PENDING and starts derivation of the parameter set. -/
  | psetCommit (ctx : Nat) (pset : Nat)
  /-- PSET_WITHDRAW (R45). A write of 0x02 to PSET_COMMIT sets PENDING so that the set is withdrawn at the next boundary. -/
  | psetWithdraw (ctx : Nat) (pset : Nat)
  /-- DERIVATION_DONE (R43). Derivation of a committed set finishes, with the checks of R48 passed or failed, and waits for a tick boundary. -/
  | derivationDone (pset : Nat)
  /-- SP_OWN_SET (R326). A host write queues a bank ownership change that applies at the next boundary at which the cluster's frame is not running. -/
  | spOwnSet (ctx : Nat) (cluster : Nat) (value : BitVec 64)
  /-- LIB_EXT_LOAD (R299). A write of a non-zero address sets LIB_EXT_STATE to pending, then the image is verified and copied into the extension store. -/
  | libExtLoad (ctx : Nat) (addr : BitVec 64)
  /-- LIB_EXT_REMOVE (R299). A write of zero to LIB_EXT_LOAD schedules removal of the extension at the next boundary. -/
  | libExtRemove (ctx : Nat)
  /-- EXT_COPY_DONE (R300). Verification and copy of an extension image finish; a failure sets state 0x03, and success waits for a boundary, or takes effect at once while TICK_RUN is 0. -/
  | extCopyDone
  /-- SHARE_CLOSE_TAG (R200). A write closes the live share-mode session bound to the written key tag. -/
  | shareCloseTag (ctx : Nat) (tag : BitVec 64)
  /-- COUNTER_SET (R467). A write sets the global counter while TICK_RUN is 0, and returns the busy abort code otherwise. -/
  | counterSet (ctx : Nat) (value : BitVec 64)
  /-- LOSS_CMD (R495). A write names a lost device and a frame; on the master it clears the device's membership bit at once, and on others the loss is held pending. -/
  | lossCmd (ctx : Nat) (value : BitVec 64)
  /-- ERR_CLEAR (R619). A write of 0x01 releases the ERR_N assertion made by ERRN reactions. -/
  | errClear (ctx : Nat) (value : BitVec 64)
  /-- FORCE (R620). A write raises one forced fault of a source, with a given class and UNIT. -/
  | force (ctx : Nat) (source : Nat) (value : BitVec 64)
  /-- OWNER_ENROL (R601). A write of 0x454E_524F starts programming the hash of the owner key into fuses. -/
  | ownerEnrol (ctx : Nat) (value : BitVec 64)
  /-- OWNER_PROGRAM_DONE (R602). Owner-key fuse programming completes, and OWNER_STATE becomes enrolled. -/
  | ownerProgramDone
  /-- SECVER_RAISE (R603). A write starts programming fuse bits until MIN_SECURITY_VERSION reaches the written value. -/
  | secverRaise (ctx : Nat) (value : BitVec 64)
  /-- SECVER_PROGRAM_DONE (R603). Security-version fuse programming completes. -/
  | secverProgramDone
  /-- ATTEST_REQUEST (R600). A write names an address whose REPORT_DATA is read, and report signing starts as a sealed job. -/
  | attestRequest (ctx : Nat) (addr : BitVec 64)
  /-- ATTEST_REPORT (R600). 200 µs after the request, the signed 512-byte report is written and ATTEST_COUNT rises by one. -/
  | attestReport
  /-- TICK_RUN_START (R452). A write of 1 to TICK_RUN starts edge emission on the master, or listening for symbols on a follower. -/
  | tickRunStart (ctx : Nat)
  /-- TICK_RUN_STOP (R547). A write of 0 to TICK_RUN applies every pending value, and a master then sends HOLD symbols. -/
  | tickRunStop (ctx : Nat)
  /-- PORT_MODE (R505). A write to PORT_MODE retrains the link in the new mode at once. -/
  | portMode (ctx : Nat) (value : BitVec 64)
  /-- REQ_ADMIT (R557). A write to the admission entries is refused if it would leave the writing endpoint unadmitted, and otherwise applies to later requests. -/
  | reqAdmit (ctx : Nat) (addr : BitVec 48) (value : BitVec 64)
  /-- NICKEL_SUBMIT_SHORT (R577). A write queues a Nickel job record on the short queue. -/
  | nickelSubmitShort (ctx : Nat) (addr : BitVec 64)
  /-- NICKEL_SUBMIT_LONG (R577). A write queues a Nickel job record on the long queue. -/
  | nickelSubmitLong (ctx : Nat) (addr : BitVec 64)
  /-- EDGE_EMIT (R642). The master's counter reaches the edge value plus STRETCH_TOTAL, and the master finishes sending a tick symbol of the chosen kind. -/
  | edgeEmit
  /-- READINESS_DEADLINE (R459). READY_LEAD cycles before an edge, the master chooses ENTER, SKIP or HOLD, and every device that is still running frame work has overrun. -/
  | readinessDeadline
  /-- TICK_SYMBOL (R464). A tick symbol arrives at TICK_IN; its arrival is recorded, and it is adopted or accepted, or rejected, which sets HELD. -/
  | tickSymbol (symbol : BitVec 128)
  /-- TICK_LOST (R464). No valid symbol arrives for 2 × TICK_PERIOD + 4,096 cycles, and the follower sets LOST and records a fault. -/
  | tickLost
  /-- ENTER_EDGE (R453). TICK_TRIM cycles after an ENTER symbol, the device runs the boundary sequence: tick and frame numbers advance, grants apply, streams close, and shadowed changes and requests take effect. -/
  | enterEdge
  /-- SKIP_EDGE (R451). At a SKIP edge, TICK_NUMBER advances and SKIPS rises by one, and nothing else changes. -/
  | skipEdge
  /-- HOLD_EDGE (R451). At a HOLD edge, TICK_NUMBER advances and nothing else changes. -/
  | holdEdge
  /-- BANK_WAKE (R331). A waking bank becomes usable 1,050 or 2,100 cycles after the boundary, and waiting accesses are admitted. -/
  | bankWake (cluster : Nat) (bank : Nat)
  /-- FRAME_BARRIER (R244). At cycle 512 of the boundary, the frame barrier reaches every core, which reads its entry record and starts its frame entry; fills and the header read also start here. -/
  | frameBarrier
  /-- DEVICE_READY (R458). Once all readiness conditions for the next frame hold, the device sends READY to the tick master. -/
  | deviceReady
  /-- FRAME_COMPLETE (R529). The device's part of a frame completes; the completion record is written to the ring and sent as an EVENT. -/
  | frameComplete
  /-- PORT_TX (R531). A PORT_TX launch fires at its counter value, checks its transfer descriptor and sends one PEER_WRITE. -/
  | portTx (ups : List Upset)
  /-- CHECKPOINT (R484). A CHECKPOINT launch fires at its counter value, or is refused when the tick is not running. -/
  | checkpoint
  /-- CHECKPOINT_START (R486). When both the firing and the completion of the frame have occurred, the checkpoint checks its extents, stops prefetch, and starts sending images. -/
  | checkpointStart (ups : List Upset)
  /-- COLLECTIVE (R532). A COLLECTIVE launch fires, exchanges digests, and starts a ring reduce-scatter and all-gather of an exact-sum or int32 tensor. -/
  | collective
  /-- REPLAY_INPUT (R481). A replay launch of KIND 0x03 fires and makes a logged input take effect in its logged frame. -/
  | replayInput
  /-- READY (R530). The tick master receives a member's READY message for a frame. -/
  | ready (src : BitVec 16) (ep : Endpoint) (frame : BitVec 64)
  /-- PEER_WRITE (R530). A peer's data is written to the stack range, with BAD segments poison-coded, and PEER_DONE is sent. -/
  | peerWrite (src : BitVec 16) (ep : Endpoint) (msg : BitVec 32) (addr : Nat) (data : List Byte) (bad : List Nat)
  /-- PEER_DONE (R531). A PEER_DONE completes the sender's port transfer or checkpoint message with the given status. -/
  | peerDone (src : BitVec 16) (ep : Endpoint) (msg : BitVec 32) (status : BitVec 8)
  /-- COLL (R532). A collective step's data from a ring neighbour arrives and is reduced or gathered. -/
  | coll (src : BitVec 16) (ep : Endpoint) (collId : BitVec 64) (step : BitVec 16) (data : List Byte)
  /-- CKPT_DATA (R491). Checkpoint data from the area's source device is written into slot SEQ mod 2. -/
  | ckptData (src : BitVec 16) (ep : Endpoint) (area : Nat) (seq : BitVec 64) (offset : Nat) (data : List Byte)
  /-- CKPT_END (R491). After all data, the image header is written into the slot and PEER_DONE is sent. -/
  | ckptEnd (src : BitVec 16) (ep : Endpoint) (msg : BitVec 32) (area : Nat) (seq : BitVec 64) (header : List Byte)
  /-- SH_HELLO (R195). A key holder's hello is decoded and judged; an unbound session is created and a sealed job computes the shared secret, or SH_ABORT is sent. -/
  | shHello (ep : Endpoint) (body : List Byte)
  /-- SH_REPORT (R201). 400 µs after SH_HELLO, the device sends its attestation report and P_D. -/
  | shReport (session : Nat)
  /-- SH_BIND (R198). An authenticated BIND with body T makes the session live, replaces any earlier session for the tag, and is answered with the device's BIND. -/
  | shBind (m : ShareMsg)
  /-- BIND_TIMEOUT (R198). No valid BIND arrives within 100 ms of SH_REPORT, and the unbound session is discarded. -/
  | bindTimeout (session : Nat)
  /-- SH_ACK (R230). The key holder acknowledges all parts, and the device sends round 1 or, with no rounds, SH_FINAL. -/
  | shAck (m : ShareMsg)
  /-- SH_REPLY (R229). The key holder's shares of a round's openings arrive, and the device computes and sends the next round or the final message. -/
  | shReply (m : ShareMsg)
  /-- SH_IN (R223). An output part from the key holder arrives, and the exchange is complete when all parts have arrived. -/
  | shIn (m : ShareMsg)
  /-- SH_ABORT (R232). The key holder aborts, and the exchange fails through the key holder. -/
  | shAbort (m : ShareMsg)
  /-- SH_CLOSE (R200). Either party's close ends the session and fails its exchanges. -/
  | shClose (m : ShareMsg)
  /-- ROUND_TIMEOUT (R231). SHARE_ROUND_TIMEOUT expires without a reply; the last message is resent, or the exchange fails when the resends are exhausted. -/
  | roundTimeout (slot : Nat)
  /-- EXCHANGE_DEADLINE (R232). The deadline tick arrives with the exchange incomplete, and it fails through the key holder. -/
  | exchangeDeadline (slot : Nat)
  /-- SLOT_RELEASE (R227). The deadline tick plus 16 ticks passes, and the exchange slot is released. -/
  | slotRelease (slot : Nat)
  /-- SEALED_JOB (R580). The Nickel datapath runs waiting sealed work at a job boundary or a yield point. -/
  | sealedJob
  /-- FAULT_CLASSIFY (R608). Within 256 cycles of being raised, a fault is classified: SEQ is assigned, counters move, the record is logged, and reactions are carried out. -/
  | faultClassify
  /-- BLOCK_RESET_END (R616). A block leaves reset after 2,048 cycles, and stopped units write their status records. -/
  | blockResetEnd (block : Block)
  /-- CHIP_RESET (R617). After a CHIP reaction or a fatal fault, the sticky record and RESET_CAUSE are set and a chip reset starts. -/
  | chipReset
  /-- CHIP_RESET_END (R647). After 65,536 REFCLK periods and any thermal or clock wait, the reset sequence of R586 begins. -/
  | chipResetEnd
  /-- CORE_DEADLOCK (R285). A core's programs stay blocked for CORE_DEADLOCK_WINDOW cycles, and the watchdog stops the core as deadlocked. -/
  | coreDeadlock (core : Nat)
  /-- CORE_EXIT (R247). When all three programs have retired or stopped and all transfers are complete, the core writes its status record and reports to the barrier. -/
  | coreExit (core : Nat)
  /-- HANDOVER_COMPLETE (R324). Four cycles after the last admitted access and hold end, the bank's owner code changes and waiting requests of the new owner are admitted. -/
  | handoverComplete (cluster : Nat) (writer : Nat)
  /-- AG_TRANSFER_DONE (R267). A background LD or ST transfer completes, and the next transfer on its queue may start. -/
  | agTransferDone (core : Nat) (queue : BitVec 2)
  /-- ALU_ADD (R252). Tin adds two registers. -/
  | aluAdd (core : Nat) (rd : BitVec 5) (ra : BitVec 5) (rb : BitVec 5)
  /-- ALU_SUB (R252). Tin subtracts two registers. -/
  | aluSub (core : Nat) (rd : BitVec 5) (ra : BitVec 5) (rb : BitVec 5)
  /-- ALU_AND (R252). Tin takes the bitwise AND of two registers. -/
  | aluAnd (core : Nat) (rd : BitVec 5) (ra : BitVec 5) (rb : BitVec 5)
  /-- ALU_OR (R252). Tin takes the bitwise OR of two registers. -/
  | aluOr (core : Nat) (rd : BitVec 5) (ra : BitVec 5) (rb : BitVec 5)
  /-- ALU_XOR (R252). Tin takes the bitwise XOR of two registers. -/
  | aluXor (core : Nat) (rd : BitVec 5) (ra : BitVec 5) (rb : BitVec 5)
  /-- ALU_SLL (R252). Tin shifts a register left by RB[5:0]. -/
  | aluSll (core : Nat) (rd : BitVec 5) (ra : BitVec 5) (rb : BitVec 5)
  /-- ALU_SRL (R252). Tin shifts a register logically right. -/
  | aluSrl (core : Nat) (rd : BitVec 5) (ra : BitVec 5) (rb : BitVec 5)
  /-- ALU_SRA (R252). Tin shifts a register arithmetically right. -/
  | aluSra (core : Nat) (rd : BitVec 5) (ra : BitVec 5) (rb : BitVec 5)
  /-- ALU_SLT (R252). Tin sets 1 if RA < RB, signed. -/
  | aluSlt (core : Nat) (rd : BitVec 5) (ra : BitVec 5) (rb : BitVec 5)
  /-- ALU_SLTU (R252). Tin sets 1 if RA < RB, unsigned. -/
  | aluSltu (core : Nat) (rd : BitVec 5) (ra : BitVec 5) (rb : BitVec 5)
  /-- ALU_MUL (R252). Tin multiplies two registers and keeps the low 64 bits. -/
  | aluMul (core : Nat) (rd : BitVec 5) (ra : BitVec 5) (rb : BitVec 5)
  /-- ALU_MULHU (R252). Tin multiplies two registers and keeps the high 64 bits, unsigned. -/
  | aluMulhu (core : Nat) (rd : BitVec 5) (ra : BitVec 5) (rb : BitVec 5)
  /-- ALU_DIVU (R252). Tin divides unsigned, giving all ones on division by zero. -/
  | aluDivu (core : Nat) (rd : BitVec 5) (ra : BitVec 5) (rb : BitVec 5)
  /-- ALU_REMU (R252). Tin takes the unsigned remainder, giving RA on division by zero. -/
  | aluRemu (core : Nat) (rd : BitVec 5) (ra : BitVec 5) (rb : BitVec 5)
  /-- ADDI (R252). Tin adds a sign-extended immediate. -/
  | addi (core : Nat) (rd : BitVec 5) (ra : BitVec 5) (imm : BitVec 16)
  /-- ANDI (R252). Tin ANDs a zero-extended immediate. -/
  | andi (core : Nat) (rd : BitVec 5) (ra : BitVec 5) (imm : BitVec 16)
  /-- ORI (R252). Tin ORs a zero-extended immediate. -/
  | ori (core : Nat) (rd : BitVec 5) (ra : BitVec 5) (imm : BitVec 16)
  /-- XORI (R252). Tin XORs a zero-extended immediate. -/
  | xori (core : Nat) (rd : BitVec 5) (ra : BitVec 5) (imm : BitVec 16)
  /-- SHI_LEFT (R252). SHI with IMM[7:6] 0b00 shifts left by an immediate amount. -/
  | shiLeft (core : Nat) (rd : BitVec 5) (ra : BitVec 5) (amount : BitVec 6)
  /-- SHI_LOGICAL_RIGHT (R252). SHI with IMM[7:6] 0b01 shifts logically right by an immediate amount. -/
  | shiLogicalRight (core : Nat) (rd : BitVec 5) (ra : BitVec 5) (amount : BitVec 6)
  /-- SHI_ARITHMETIC_RIGHT (R252). SHI with IMM[7:6] 0b10 shifts arithmetically right by an immediate amount. -/
  | shiArithmeticRight (core : Nat) (rd : BitVec 5) (ra : BitVec 5) (amount : BitVec 6)
  /-- LUI (R252). Tin loads a sign-extended immediate shifted left by 16. -/
  | lui (core : Nat) (rd : BitVec 5) (imm : BitVec 16)
  /-- SLTI (R252). Tin sets 1 if RA is below the immediate, signed. -/
  | slti (core : Nat) (rd : BitVec 5) (ra : BitVec 5) (imm : BitVec 16)
  /-- LDB (R251). Tin loads one byte from data memory, zero-extended. -/
  | ldb (core : Nat) (rd : BitVec 5) (ra : BitVec 5) (imm : BitVec 16)
  /-- LDH (R251). Tin loads two bytes from data memory, zero-extended. -/
  | ldh (core : Nat) (rd : BitVec 5) (ra : BitVec 5) (imm : BitVec 16)
  /-- LDW (R251). Tin loads four bytes from data memory, zero-extended. -/
  | ldw (core : Nat) (rd : BitVec 5) (ra : BitVec 5) (imm : BitVec 16)
  /-- LDD (R251). Tin loads eight bytes from data memory. -/
  | ldd (core : Nat) (rd : BitVec 5) (ra : BitVec 5) (imm : BitVec 16)
  /-- STB (R251). Tin stores the low byte of a register. -/
  | stb (core : Nat) (rs : BitVec 5) (ra : BitVec 5) (imm : BitVec 16)
  /-- STH (R251). Tin stores the low two bytes of a register. -/
  | sth (core : Nat) (rs : BitVec 5) (ra : BitVec 5) (imm : BitVec 16)
  /-- STW (R251). Tin stores the low four bytes of a register. -/
  | stw (core : Nat) (rs : BitVec 5) (ra : BitVec 5) (imm : BitVec 16)
  /-- STD (R251). Tin stores eight bytes of a register. -/
  | std (core : Nat) (rs : BitVec 5) (ra : BitVec 5) (imm : BitVec 16)
  /-- BEQ (R252). Tin branches if two registers are equal. -/
  | beq (core : Nat) (ra : BitVec 5) (rb : BitVec 5) (off : BitVec 16)
  /-- BNE (R252). Tin branches if two registers differ. -/
  | bne (core : Nat) (ra : BitVec 5) (rb : BitVec 5) (off : BitVec 16)
  /-- BLT (R252). Tin branches if RA < RB, signed. -/
  | blt (core : Nat) (ra : BitVec 5) (rb : BitVec 5) (off : BitVec 16)
  /-- BGE (R252). Tin branches if RA ≥ RB, signed. -/
  | bge (core : Nat) (ra : BitVec 5) (rb : BitVec 5) (off : BitVec 16)
  /-- BLTU (R252). Tin branches if RA < RB, unsigned. -/
  | bltu (core : Nat) (ra : BitVec 5) (rb : BitVec 5) (off : BitVec 16)
  /-- BGEU (R252). Tin branches if RA ≥ RB, unsigned. -/
  | bgeu (core : Nat) (ra : BitVec 5) (rb : BitVec 5) (off : BitVec 16)
  /-- J (R252). Tin jumps by a signed offset. -/
  | j (core : Nat) (off : BitVec 26)
  /-- JAL (R252). Tin jumps and writes the return address into g31. -/
  | jal (core : Nat) (off : BitVec 26)
  /-- JR (R252). Tin jumps to a register plus an offset. -/
  | jr (core : Nat) (ra : BitVec 5) (imm : BitVec 16)
  /-- CRR (R253). Tin reads a control register, and an unknown or wo index reads zero. -/
  | crr (core : Nat) (rd : BitVec 5) (index : BitVec 8)
  /-- CRW (R253). Tin writes LOG_N, or faults on a write to a ro or reserved index. -/
  | crw (core : Nat) (ra : BitVec 5) (index : BitVec 8)
  /-- CRW_PSET (R254). Tin selects the active parameter set, which stalls the core 64 cycles for constants or leaves the set unchanged if it is not live. -/
  | crwPset (core : Nat) (ra : BitVec 5)
  /-- OWN_REQ (R323). Tin hands the banks it owns in MASK to a new owner, and they become pending. -/
  | ownReq (core : Nat) (ra : BitVec 5)
  /-- TIN_SIGNAL (R255). Tin adds one to an event. -/
  | tinSignal (core : Nat) (event : BitVec 4)
  /-- TIN_WAIT (R255). Tin waits until an event is non-zero, then takes one count. -/
  | tinWait (core : Nat) (event : BitVec 4)
  /-- TIN_END (R247). Tin retires. -/
  | tinEnd (core : Nat)
  /-- ACC_NOP (R267). The access stream does nothing. -/
  | accNop (core : Nat)
  /-- LD (R267). The access stream starts a transfer from memory through an address generator into a queue. -/
  | ld (core : Nat) (ag : BitVec 3) (queue : BitVec 2) (ups : List Upset)
  /-- ST (R267). The access stream starts a transfer from a queue through an address generator into memory. -/
  | st (core : Nat) (ag : BitVec 3) (queue : BitVec 2)
  /-- ACC_AGSET (R263). The access stream loads a generator from a descriptor and range-checks it. -/
  | accAgset (core : Nat) (ag : BitVec 3) (ovr : Bool) (greg : BitVec 5) (offset : BitVec 16)
  /-- FENCE (R268). The access stream waits until every earlier transfer has completed. -/
  | fence (core : Nat)
  /-- YIELD (R281). The access stream meets a library call and resumes when the call returns. -/
  | yield (core : Nat)
  /-- ACC_LOOP (R277). The access stream opens a loop with an immediate or register count. -/
  | accLoop (core : Nat) (csrc : Bool) (greg : BitVec 5) (len : BitVec 11) (count : BitVec 32)
  /-- ACC_SIGNAL (R255). The access stream adds one to an event. -/
  | accSignal (core : Nat) (event : BitVec 4)
  /-- ACC_WAIT (R255). The access stream waits for an event and takes one count. -/
  | accWait (core : Nat) (event : BitVec 4)
  /-- ACC_END (R247). The access stream retires once all its transfers have completed. -/
  | accEnd (core : Nat)
  /-- EXE_NOP (R270). The execute stream does nothing. -/
  | exeNop (core : Nat)
  /-- MADD (R32). The lanes add modulo q. -/
  | madd (core : Nat) (f : RFields)
  /-- MSUB (R32). The lanes subtract modulo q. -/
  | msub (core : Nat) (f : RFields)
  /-- MNEG (R32). The lanes negate modulo q. -/
  | mneg (core : Nat) (f : RFields)
  /-- MMUL (R32). The lanes multiply modulo q, plain or with SB in Montgomery form. -/
  | mmul (core : Nat) (f : RFields)
  /-- MMAC (R32). The lanes multiply and accumulate modulo q. -/
  | mmac (core : Nat) (f : RFields)
  /-- MTOM (R36). The lanes convert words into Montgomery form. -/
  | mtom (core : Nat) (f : RFields)
  /-- MFROM (R36). The lanes convert words from Montgomery form into plain form. -/
  | mfrom (core : Nat) (f : RFields)
  /-- BCT (R272). The slices apply Cooley–Tukey butterflies in intra or pair mode with generated twiddles. -/
  | bct (core : Nat) (f : BFields)
  /-- BGS (R272). The slices apply Gentleman–Sande butterflies in intra or pair mode with generated twiddles. -/
  | bgs (core : Nat) (f : BFields)
  /-- PERM_ROTATE (R270). PERM pattern 0x0 rotates the lanes by AMT. -/
  | permRotate (core : Nat) (f : RFields) (amt : BitVec 6)
  /-- PERM_REVERSE (R270). PERM pattern 0x1 reverses the lanes. -/
  | permReverse (core : Nat) (f : RFields) (amt : BitVec 6)
  /-- PERM_BIT_REVERSE (R270). PERM pattern 0x2 bit-reverses the lane index. -/
  | permBitReverse (core : Nat) (f : RFields) (amt : BitVec 6)
  /-- PERM_XOR (R270). PERM pattern 0x3 exchanges lane i with lane i xor 2^AMT. -/
  | permXor (core : Nat) (f : RFields) (amt : BitVec 6)
  /-- PERM_BROADCAST (R270). PERM pattern 0x4 broadcasts lane AMT. -/
  | permBroadcast (core : Nat) (f : RFields) (amt : BitVec 6)
  /-- PERM_INTERLEAVE_LOW (R270). PERM pattern 0x5 interleaves the low halves of SA and SB. -/
  | permInterleaveLow (core : Nat) (f : RFields) (amt : BitVec 6)
  /-- PERM_INTERLEAVE_HIGH (R270). PERM pattern 0x6 interleaves the high halves of SA and SB. -/
  | permInterleaveHigh (core : Nat) (f : RFields) (amt : BitVec 6)
  /-- PERM_DEINTERLEAVE_EVEN (R270). PERM pattern 0x7 gathers the even lanes of SA and SB. -/
  | permDeinterleaveEven (core : Nat) (f : RFields) (amt : BitVec 6)
  /-- PERM_DEINTERLEAVE_ODD (R270). PERM pattern 0x8 gathers the odd lanes of SA and SB. -/
  | permDeinterleaveOdd (core : Nat) (f : RFields) (amt : BitVec 6)
  /-- MOV (R271). The execute stream copies a vector. -/
  | mov (core : Nat) (f : RFields)
  /-- VZERO (R271). The execute stream zeroes a vector. -/
  | vzero (core : Nat) (f : RFields)
  /-- CMAC (R274). The lanes accumulate clear products of one vector pair. -/
  | cmac (core : Nat) (f : RFields) (fmt : BitVec 3)
  /-- CMAC_BS (R274). CMAC with BS = 1 accumulates one block-scaled block of 32 per lane. -/
  | cmacBs (core : Nat) (f : RFields) (fmt : BitVec 3)
  /-- CVT (R275). Each lane converts its value between clear, int32 and residue types. -/
  | cvt (core : Nat) (f : RFields) (fromType : BitVec 4) (toType : BitVec 4)
  /-- PACC (R276). The execute stream writes a vector to memory as one step of AG6 or AG7. -/
  | pacc (core : Nat) (f : RFields) (agsel : Bool)
  /-- EXE_AGSET (R263). The execute stream loads AG6 or AG7 from a descriptor. -/
  | exeAgset (core : Nat) (ag : BitVec 3) (ovr : Bool) (greg : BitVec 5) (offset : BitVec 16)
  /-- EXE_LOOP (R277). The execute stream opens a loop. -/
  | exeLoop (core : Nat) (csrc : Bool) (greg : BitVec 5) (len : BitVec 11) (count : BitVec 32)
  /-- EXE_SIGNAL (R255). The execute stream adds one to an event. -/
  | exeSignal (core : Nat) (event : BitVec 4)
  /-- EXE_WAIT (R255). The execute stream waits for an event and takes one count. -/
  | exeWait (core : Nat) (event : BitVec 4)
  /-- EXE_END (R247). The execute stream retires once all its pushes and PACC writes are done. -/
  | exeEnd (core : Nat)
  /-- NTT (R107). The gang transforms limbs from coefficient form into evaluation form. -/
  | ntt (core : Nat) (args : BitVec 16) (link : LinkEvent)
  /-- INTT (R108). The gang transforms limbs from evaluation form into coefficient form. -/
  | intt (core : Nat) (args : BitVec 16) (link : LinkEvent)
  /-- ADD (R292). The routine adds two ciphertexts slot-wise. -/
  | add (core : Nat) (args : BitVec 16)
  /-- SUB (R292). The routine subtracts two ciphertexts. -/
  | sub (core : Nat) (args : BitVec 16)
  /-- NEG (R292). The routine negates a ciphertext. -/
  | neg (core : Nat) (args : BitVec 16)
  /-- ADD_PLAIN (R292). The routine adds a plaintext to c0. -/
  | addPlain (core : Nat) (args : BitVec 16)
  /-- MUL_PLAIN (R292). The routine multiplies every polynomial by a plaintext. -/
  | mulPlain (core : Nat) (args : BitVec 16)
  /-- MUL (R292). The routine forms the three-polynomial tensor product of two ciphertexts. -/
  | mul (core : Nat) (args : BitVec 16)
  /-- AXPY (R292). The routine computes y + c·x with a plaintext c. -/
  | axpy (core : Nat) (args : BitVec 16)
  /-- DROP (R292). The routine removes the limbs from a given level upwards, in place or by copying. -/
  | drop (core : Nat) (args : BitVec 16)
  /-- RESCALE (R131). The routine divides by the top modulus and removes it, by CKKS rescale or BGV modulus switch. -/
  | rescale (core : Nat) (args : BitVec 16) (link : LinkEvent)
  /-- BCONV (R129). The routine converts the base from source limbs to every other chain modulus. -/
  | bconv (core : Nat) (args : BitVec 16) (link : LinkEvent)
  /-- RELIN (R139). The routine relinearises a three-polynomial ciphertext under a RELIN key stream. -/
  | relin (core : Nat) (args : BitVec 16) (link : LinkEvent)
  /-- ROTATE (R139). The routine applies the automorphism and switches under a ROTATE key. -/
  | rotate (core : Nat) (args : BitVec 16) (link : LinkEvent)
  /-- CONJ (R139). The routine conjugates and switches under a CONJ key. -/
  | conj (core : Nat) (args : BitVec 16) (link : LinkEvent)
  /-- KSWITCH (R139). The routine switches c1 under an EXTRACT_KSK or RING_KSK key. -/
  | kswitch (core : Nat) (args : BitVec 16) (link : LinkEvent)
  /-- EVAL_POLY (R167). The routine evaluates a polynomial in every slot by Paterson–Stockmeyer. -/
  | evalPoly (core : Nat) (args : BitVec 16) (link : LinkEvent)
  /-- BOOT_STEP_FULL (R186). BOOT_STEP with plan FULL runs the given steps of a full CKKS refresh. -/
  | bootStepFull (core : Nat) (args : BitVec 16) (link : LinkEvent)
  /-- BOOT_STEP_HALF_E (R186). BOOT_STEP with plan HALF_E runs the given steps of ModRaise, C2S and EvalMod. -/
  | bootStepHalfE (core : Nat) (args : BitVec 16) (link : LinkEvent)
  /-- BOOT_STEP_S2C_ONLY (R186). BOOT_STEP with plan S2C_ONLY runs the given steps of slot-to-coefficient conversion. -/
  | bootStepS2cOnly (core : Nat) (args : BitVec 16) (link : LinkEvent)
  /-- ELEC_BR (R177). The Electrum gang runs blind-rotation steps i0 to i1 − 1 of a batch. -/
  | elecBr (core : Nat) (args : BitVec 16)
  /-- ELEC_PACK (R183). The Electrum gang packs a group's 4,096 accumulators into one ring-4,096 ciphertext. -/
  | elecPack (core : Nat) (args : BitVec 16) (link : LinkEvent)
  /-- RING_SWITCH (R184). The routine embeds the packed groups and switches them from z̄ to s. -/
  | ringSwitch (core : Nat) (args : BitVec 16) (link : LinkEvent)
  /-- SHARE_OUT (R216). The routine masks a source part, claims the exchange slot for part 0, and sends SH_OUT. -/
  | shareOut (core : Nat) (args : BitVec 16)
  /-- SHARE_IN (R223). The routine writes an output part from a completed exchange, or refuses. -/
  | shareIn (core : Nat) (args : BitVec 16)
  /-- EXTENSION_ROUTINE (R301). A call of routine 0x200 to 0x3FF runs the loaded extension's routine. -/
  | extensionRoutine (core : Nat) (routine : BitVec 10) (args : LinkedArgs)
  /-- CALL_RETURN (R289). A library call completes; the header word is written to every gang core's argument block, the event is signalled, and the execute stream resumes. -/
  | callReturn (cluster : Nat)
  /-- STREAM_OPEN (R153). At OPEN_AT, or when the channel frees, the controllers read and check a key header. -/
  | streamOpen (channel : Nat) (ups : List Upset)
  /-- STREAM_ATTACH (R155). Once every named port has room, the key stream attaches to all of them and delivers the header or a failure mark. -/
  | streamAttach (channel : Nat)
  /-- DATA_PHASE_START (R156). When the last attached subscriber requests data, the channel starts delivering the stored and regenerated limb pairs. -/
  | dataPhaseStart (channel : Nat) (ups : PhaseErrors)
  /-- KEY_STREAM_CLOSE (R158). A key stream closes when its last word reaches every port or every subscriber has detached. -/
  | keyStreamClose (channel : Nat)
  /-- STREAM_CREATE (R353). A CREATE stream record creates a tensor or copy descriptor in 64 cycles. -/
  | streamCreate (cluster : Nat) (index : Nat)
  /-- MOVE (R360). A MOVE stream copies the listed blocks between two compatible tensors. -/
  | move (cluster : Nat) (index : Nat) (ups : List Upset)
  /-- COPY (R367). A COPY stream runs a permuting copy by whole rows or through the transpose network. -/
  | copy (cluster : Nat) (index : Nat) (ups : List Upset)
  /-- WINDOW (R368). A WINDOW stream expands a source into windowed taps with padding. -/
  | window (cluster : Nat) (index : Nat) (ups : List Upset)
  /-- CT_MOVE (R361). A CT_MOVE stream copies every limb of a ciphertext between placements in commit order. -/
  | ctMove (cluster : Nat) (index : Nat) (ups : List Upset)
  /-- STREAM_DONE (R358). A DMA stream completes or stops, writes its status record, and signals its DONE event. -/
  | streamDone (cluster : Nat) (index : Nat)
  /-- MAP (R386). A MAP job runs an element program over every output position of its tensors. -/
  | map (cluster : Nat)
  /-- ENCODE (R393). An ENCODE job encodes a clear tensor into a LOCAL plaintext object. -/
  | encode (cluster : Nat)
  /-- DECODE (R396). A DECODE job decodes a plaintext object into a clear tensor. -/
  | decode (cluster : Nat)
  /-- VE_JOB_DONE (R385). A vector-engine job writes its status record and signals its DONE event. -/
  | veJobDone (cluster : Nat)
  /-- SGDM (R434). The update unit applies SGD with momentum element-wise. -/
  | sgdm (unit : Nat) (ups : List Upset)
  /-- ADAMW (R434). The update unit applies AdamW element-wise. -/
  | adamw (unit : Nat) (ups : List Upset)
  /-- PSTAT (R437). The update unit updates the left and right preconditioner statistics. -/
  | pstat (unit : Nat) (ups : List Upset)
  /-- PROOT (R438). With FUNC 0, the update unit runs coupled Newton iterations toward an inverse p-th root. -/
  | proot (unit : Nat) (ups : List Upset)
  /-- PROOT_CHOLESKY (R439). PROOT with FUNC 1 writes the lower Cholesky factor of A + EPS × I. -/
  | prootCholesky (unit : Nat) (ups : List Upset)
  /-- PSGDM (R440). The update unit applies preconditioned SGD with momentum. -/
  | psgdm (unit : Nat) (ups : List Upset)
  /-- EMB (R441). The update unit updates the touched embedding rows with a skipped-step correction. -/
  | emb (unit : Nat) (ups : List Upset)
  /-- ENC_AXPY (R442). The update unit forms KA·A + KB·B on encrypted limbs. -/
  | encAxpy (unit : Nat) (ups : List Upset)
  /-- UPDATE_CMD_DONE (R421). An update command writes its status record, signals its DONE event, and lets the next command start. -/
  | updateCmdDone (unit : Nat)
  /-- FILL (R476). A fill record writes generator words into a tensor. -/
  | fill
  /-- LOAD (R567). Nickel loads w ÷ 8 bytes from memory into a slot. -/
  | load
  /-- STORE (R567). Nickel stores a slot to memory. -/
  | store
  /-- CLEAR (R567). Nickel zeroes a range of slots. -/
  | clear
  /-- NICKEL_MADD (R567). Nickel adds modulo M. -/
  | nickelMadd
  /-- NICKEL_MSUB (R567). Nickel subtracts modulo M. -/
  | nickelMsub
  /-- NICKEL_MMUL (R567). Nickel multiplies modulo M. -/
  | nickelMmul
  /-- MINV (R570). Nickel inverts modulo M, giving zero when there is no inverse. -/
  | minv
  /-- MEXP (R567). Nickel exponentiates modulo M over all w bits of the exponent. -/
  | mexp
  /-- ED_PUBKEY (R572). Nickel derives an Ed25519 public key from a seed and pairs the two slots. -/
  | edPubkey
  /-- ED_SIGN (R572). Nickel signs a message with a seed and its paired public key. -/
  | edSign
  /-- ED_VERIFY (R568). Nickel checks a signature cofactored and writes the VERDICT. -/
  | edVerify
  /-- ED_SMUL (R567). Nickel multiplies a decoded point by a scalar. -/
  | edSmul
  /-- ED_SMUL_BASE (R567). Nickel multiplies the base point by a scalar. -/
  | edSmulBase
  /-- ED_ADD (R567). Nickel adds two decoded points. -/
  | edAdd
  /-- SHA512 (R567). Nickel hashes a message with SHA-512. -/
  | sha512
  /-- NICKEL_JOB_DONE (R566). A Nickel job writes its output slot and status record after its stated time, and the next job may start. -/
  | nickelJobDone
  /-- BYPASS (R651). The JTAG BYPASS instruction is loaded. -/
  | bypass
  /-- IDCODE (R651). The JTAG IDCODE instruction returns 0xA720_0CB1. -/
  | idcode
  /-- SAMPLE_PRELOAD (R651). The JTAG SAMPLE/PRELOAD instruction samples or preloads the boundary scan. -/
  | samplePreload (preload : List Bool)
  /-- EXTEST (R651). The JTAG EXTEST test mode drives the side pins, sets JTAG_OPENED and stops the tick. -/
  | extest
  /-- JTAG_PRIVATE (R651). A private JTAG test instruction clears Sterling, sets JTAG_OPENED and stops the tick. -/
  | jtagPrivate
  /-- POWER_DOWN (R627). After RESET_N is asserted, the board lowers the rails in reverse order and the device becomes unpowered, with its outputs undriven as R648 lays down. -/
  | powerDown
  /-- COUNTER_SOURCE_LOST (R468). The counter's discipline source is lost, and COUNTER_STATE becomes unlocked. -/
  | counterSourceLost
  /-- FILL_DONE (R476). A fill finishes writing its tensor, writes its status record, signals its DONE event and lets the next fill in the list start. -/
  | fillDone
  /-- TRAP_HANDLER_EXIT (R615). The firmware's trap handler ends, and the management processor again executes CWP commands and loads frame headers. -/
  | trapHandlerExit
  /-- MANAGEMENT_WATCHDOG_EXPIRY (R605). The management processor's watchdog expires, or it executes an illegal instruction, which raises a fatal fault of the management processor source. -/
  | managementWatchdogExpiry
  /-- STERLING_INTERNAL_ERROR (R605). An internal error of the Sterling store or its random source raises a fatal Sterling fault. -/
  | sterlingInternalError
  /-- UNDEFINED_OPCODE (R283). A Tin, access-stream or execute-stream instruction with an undefined opcode is fetched and stops the core with a program fault of reason 0x01. -/
  | undefinedOpcode (core : Nat) (program : Program)
  deriving DecidableEq, Repr

end Sys2Proof
end

