-- ==== Sys2Proof/Config.lean ====
section
/-! DEFINITION. What an implementation fixes and the spec leaves open: the free values (opaque: nothing can be proved of
one) and the fuses burned at manufacture (20 R584). -/

namespace Sys2Proof.Config

/-- A free 64-bit value; the argument is the count of free values drawn before it (log entry 1). -/
opaque freeWord : Nat → BitVec 64

/-- A free byte (log entry 1). -/
opaque freeByte : Nat → BitVec 8

/-- Word `i` of contents that no rule gives and that are settled by the inputs listed: the same inputs give the same word
(15 R471; log entries 12, 18, 88). -/
opaque openWord (inputs : List Nat) (i : Nat) : BitVec 64

/-- Output `k` of the Sterling random source after `n` draws (07 R197, R208, R216; log entry 5). -/
opaque sterlingRandom : Nat → BitVec 512

/-- The mask that the share unit draws for a stream word, reduced to its range by the caller (07 R216; log entry 15). -/
opaque shareMask : BitVec 64 → Nat

/-- The sign of a zero that no rule gives one, as the sum of two numbers that cancel; the argument stands for the larger
magnitude (log entry 6). -/
opaque zeroSign : Nat → Bool

/-- An fp32 result that no rule states, by operation code and operand (log entry 23). -/
opaque openFloat : Nat → Nat → BitVec 32

/-- SERIAL, MAC, BOOT_SERVER, BOOT_PORT_MODE: fused at manufacture (20 R584; log entry 4). -/
opaque serial : BitVec 64
opaque macAddr : BitVec 48
opaque bootServer : BitVec 48
opaque bootPortMode : BitVec 2
opaque vendorRootHash : BitVec 256
opaque identityEntropy : BitVec 256
opaque identityCert : BitVec 512
/-- Fused VID of rails 0 and 1 in mV (22 R624). -/
opaque railVid : Nat → BitVec 16

end Sys2Proof.Config
end

