-- ==== Sys2Proof/Machine/State.lean ====
section
/-! DEFINITION. What the device holds, as plain data, and its value right after reset. Registers that the object
dictionary numbers are one register file under the dictionary's own numbers (18 R536); everything else has a field of
its own. -/

namespace Sys2Proof.Machine

/-- A sparse table: an unlisted key reads as the default that the reader names. Keys rise. -/
abbrev Tbl (α : Type) := List (Nat × α)

/-! ### Memory -/

/-- Every byte the address map shows. `cells` is in canonical form (`Memory.wf`): addresses rise and no listed byte is
zero, because an unlisted address reads zero (08 R241, 10 R335, 13 R408). `upsets` are stored errors not yet met by a
read (13 R414-R416, 10 R333), `poison` the granules that carry the poison code (13 R417). -/
structure Memory where
  cells : List Host.Cell
  upsets : List Upset
  poison : List Nat
  deriving DecidableEq, Repr

/-! ### Parameter sets (02 R38-R51) -/

/-- The values of a parameter set as software writes them (02 R38). -/
structure PSetVals where
  scheme : BitVec 8
  logNMax : BitVec 8
  chain : BitVec 8
  special : BitVec 8
  dnum : BitVec 8
  plainMod : BitVec 64
  moduli : List (BitVec 64)
  deriving DecidableEq, Repr

/-- A commit or withdrawal that waits (02 R41, R45). -/
inductive PSetOp where
  | commit (vals : PSetVals) (outcome : Option (BitVec 8 × BitVec 8))
  | withdraw
  deriving DecidableEq, Repr

/-- The live values of a set, and what waits for a boundary. -/
structure PSet where
  live : Option PSetVals
  waiting : Option PSetOp
  deriving DecidableEq, Repr

/-! ### Bronze channels (05 R151-R162) -/

/-- A stream open record (05 R151). -/
structure OpenRec where
  image : BitVec 48
  channel : BitVec 3
  level : BitVec 6
  openAt : BitVec 32
  subscribers : BitVec 256
  deriving DecidableEq, Repr

/-- The stream a channel carries: its header bytes, or a failure mark; who is attached; who has requested data. -/
structure KeyStream where
  record : OpenRec
  header : Option (List Byte)
  delivered : Bool
  attached : List Nat
  requested : List Nat
  dataPhase : Bool
  deriving DecidableEq, Repr

/-- A channel: its open records to be read, the stream it carries, and the failed streams of this frame whose failure mark
some port still holds (05 R162). -/
structure Channel where
  waiting : List OpenRec
  stream : Option KeyStream
  failed : List KeyStream
  deriving DecidableEq, Repr

/-! ### Cores (08) -/

inductive RunState where
  | idle | running | retired | stopped
  deriving DecidableEq, Repr

/-- An open loop: offsets of the first and last body instruction, body runs left after this one, and the zero-based
iteration index (08 R273, R277-R279). -/
structure LoopFrame where
  first : Nat
  last : Nat
  left : Nat
  iter : Nat
  deriving DecidableEq, Repr

/-- What a program waits for (08 R660): an event; bytes or room in a queue; its transfers; a library call; a handover; the
end of the call that a change of parameter set waits for; its transfers at END; or its accumulating writes at END. -/
inductive Wait where
  | event (e : Nat)
  | data (q n : Nat)
  | room (q n : Nat)
  | transfers
  | call
  | handover
  | setLoad
  | atEnd
  | paccWrites
  deriving DecidableEq, Repr

/-- One of a core's three programs: `waits` lists what its next instruction could not issue for. -/
structure ProgState where
  pc : Nat
  run : RunState
  waits : List Wait
  loops : List LoopFrame
  deriving DecidableEq, Repr

/-- A loaded address generator (08 R261-R264) with the number of PACC steps it has made. -/
structure AddrGen where
  base : Nat
  width : Nat
  counts : List Nat
  strides : List Int
  mode : BitVec 8
  accMod : Nat
  stepsDone : Nat
  deriving DecidableEq, Repr

/-- A LD or ST in the background: the generator as it stood, the next step, the instruction's offset, and the modulus it accumulates
under (08 R267, 10 R317). -/
structure Transfer where
  load : Bool
  gen : AddrGen
  next : Nat
  pc : Nat
  q : Nat
  deriving DecidableEq, Repr

/-- A PACC write that a bank makes wait: its generator, mode and modulus, its address and bytes, and the PACC's offset (08
R276, R660). -/
structure PaccWrite where
  gen : Nat
  mode : BitVec 8
  q : Nat
  addr : Nat
  data : List Byte
  pc : Nat
  deriving DecidableEq, Repr

/-- A data queue (08 R257-R259): its bytes, oldest first; its producer and consumer in this frame; its transfers. -/
structure DQueue where
  bytes : List Byte
  producer : Option Program
  consumer : Option Program
  transfers : List Transfer
  deriving DecidableEq, Repr

/-- A requester of the address map (10 R318); `limb` and `bronze` are the deliveries of a library call's limb exchange and of
its key stream. -/
inductive Requester where
  | stream (core : Nat)
  | library (clusters : List Nat)
  | limb (clusters : List Nat)
  | bronze (clusters : List Nat)
  | vector (c : Nat) (core : Nat)
  | dma (c : Nat)
  | host
  deriving DecidableEq, Repr

/-- Where a core stands in its frame (08 R244-R250). -/
inductive FrameState where
  | between | disabled | inFrame | exited
  deriving DecidableEq, Repr

/-- A core that has issued a CALL: routine number, argument block offset, whether the call has started (08 R280), and
what the links will do to it (04 R125, R126). -/
structure CoreCall where
  routine : Nat
  args : Nat
  started : Bool
  link : LinkEvent
  deriving DecidableEq, Repr

/-- Why a core was stopped: STATE, REASON, STREAM and PC of its status record (08 R247-R250). -/
structure CoreStop where
  state : BitVec 8
  reason : BitVec 8
  stream : BitVec 2
  pc : Nat
  deriving DecidableEq, Repr

/-- A core (08). `paccs` are its PACC writes that have not reached their bank, oldest first; `unfenced` are its writes since
the last FENCE, newest first, each with the bytes that stood there before (08 R268). -/
structure Core where
  frame : FrameState
  half : Bool
  barrierAt : Nat
  tick : BitVec 64
  tin : ProgState
  acc : ProgState
  exe : ProgState
  g : Tbl Word
  events : Tbl (BitVec 4)
  queues : Tbl DQueue
  gens : Tbl AddrGen
  paccs : List PaccWrite
  unfenced : List (Nat × List Byte)
  vregs : Tbl (List (BitVec 36))
  activeSet : Option Nat
  logN : Nat
  lastSel : BitVec 8
  call : Option CoreCall
  atYield : Bool
  stop : Option CoreStop
  residue : Tbl Nat
  busy : Nat
  heldSignals : List (BitVec 4)
  deriving DecidableEq, Repr

/-! ### Library calls (08 R280, 09) -/

/-- How far a gang's call has come: waiting for partners, a bank or a stream header; or over with a status, waiting for
CALL_RETURN. `wrote` says that it passed the order of checks. -/
inductive CallPhase where
  | waiting
  | ended (status : BitVec 8) (wrote : Bool)
  deriving DecidableEq, Repr

/-- What an operation on ciphertext objects writes when it ends, as addresses with the bytes that go there: its destination's
words by unit of the commit order, the objects it has finished on the way (words, then descriptor), working storage whose
contents no rule gives, and its destination's descriptor as completion gives it; and whether an input carried POISON (03
R73, R99-R101). -/
structure Effect where
  units : List (List (Nat × List Byte))
  also : List (List (Nat × List Byte))
  work : List (Nat × List Byte)
  dest : Option (Nat × List Byte)
  poisonIn : Bool
  deriving DecidableEq, Repr

/-- The call a cluster's gang has issued (09 R288): routine, the seven argument words, whether a core named another
routine, its phase, the BOOT_STEP progress (of the argument block, then to report), the key channel it uses, the gang it
runs in and whether every gang has issued (04 R133), the banks it holds (10 R322), what it writes when it ends, the key
switches it has finished and the streams they took (09 R294), what the links do to it (04 R125, R126), its stated cost and
the cycle its cost counts from. `joined` are the clusters that issued the same call without being named (09 R288). -/
structure GangCall where
  routine : Nat
  args : List Word
  mismatched : Bool
  phase : CallPhase
  progress : BitVec 16
  channel : Option Nat
  clusters : List Nat
  joined : List Nat
  gathered : Bool
  held : List (Nat × Nat)
  effect : Effect
  stage : Nat
  keys : List KeyStream
  link : LinkEvent
  stated : Nat
  issuedAt : Nat
  deriving DecidableEq, Repr

/-! ### Clusters: scratchpads, DMA streams, vector engine (10, 11, 12) -/

inductive BankPower where
  | on | retention | off | waking
  deriving DecidableEq, Repr

/-- A handover written by a core of the cluster (10 R323, R324). -/
structure Handover where
  writer : Nat
  banks : BitVec 32
  owner : BitVec 8
  deriving DecidableEq, Repr

/-- Where a stream stands: it runs; the regulator has paused it; or it was dropped or stopped, or only its status record is
owed, which waits for a bank or for its cluster to leave reset; or its record is written. -/
inductive StreamPhase where
  | running | paused | owing | finished
  deriving DecidableEq, Repr

/-- One part of a block that a stream moves: the ranges it goes to, the ranges it comes from (none: a fill byte repeated), and
for a limb whether it is in evaluation form, since a limb's halves are put in the order of its placement (11 R361, R368). -/
structure MovePart where
  dst : List (Nat × Nat)
  src : List (Nat × Nat)
  fill : Byte
  limb : Option Bool
  deriving DecidableEq, Repr

/-- A destination block that a stream has still to move: its number, what its owner entries say of it (11 R350), the source
blocks whose bad-block bits count for it (11 R373), and its parts. -/
structure MoveBlock where
  block : Nat
  bad : Bool
  skip : Bool
  srcs : List Nat
  parts : List MovePart
  deriving DecidableEq, Repr

/-- One record of a stream list in service (11 R353-R358): the record and the descriptors as they stood at its start (R376),
the owner tables it latched as address, half and generation, source first (R349), the clusters it reaches (R362), the blocks
still to be moved, what the head part still owes the prefetch regulator, by stack, 8 standing for the scratchpads (R370,
R371), whether the head block has met something bad, whether a refusal has been recorded (10 R321), the descriptor bytes that
its end writes, and the counts of its status record. `endsAt`: an end cycle that a rule fixes (R366). -/
structure StreamRun where
  record : Nat
  bytes : List Byte
  index : Nat
  frame : BitVec 64
  phase : StreamPhase
  status : BitVec 8
  srcAt : Nat
  dstAt : Nat
  srcDesc : List Byte
  dstDesc : List Byte
  owners : List (Nat × Nat × Nat)
  reaches : List Nat
  todo : List MoveBlock
  owed : Option (Tbl Nat)
  blockBad : Bool
  noted : Bool
  out : List Byte
  blocksDone : Nat
  blocksBad : Nat
  firstBad : Nat
  skipped : Nat
  granules : Nat
  startedAt : Nat
  endsAt : Option Nat
  deriving DecidableEq, Repr

/-- A vector-engine job in service (12 R378-R385): its record and its outputs' descriptors as they stood at its start, the banks
it holds (R384), what each output row will hold, the blocks of each output that its inputs make bad (R399), what an ENCODE
writes, and the counts of its status record. -/
structure VeRun where
  record : Nat
  bytes : List Byte
  outs : List (Nat × List Byte)
  held : List (Nat × Nat)
  units : List (List (Nat × List Byte))
  spoils : List (List Nat)
  effect : Effect
  status : BitVec 8
  rowsDone : Nat
  saturated : Nat
  nonfinite : Nat
  startedAt : Nat
  stated : Nat
  deriving DecidableEq, Repr

/-- A cluster: its banks, its library call, its DMA streams, and its vector engine with the jobs whose status records a bank
still makes wait. -/
structure Cluster where
  owners : Tbl (BitVec 8)
  power : Tbl BankPower
  ownQueue : List (BitVec 32 × BitVec 8)
  handovers : List Handover
  call : Option GangCall
  streams : List StreamRun
  prefetchNow : Nat
  veList : Nat
  veCount : Nat
  veNext : Nat
  veRun : Option VeRun
  veOwed : List VeRun
  deriving DecidableEq, Repr

/-! ### Stacks (13) -/

structure Stacks where
  initialising : List Nat
  /-- Granules that prefetch streams have taken from each stack in this tick (11 R370). -/
  prefetched : Tbl Nat
  /-- Next granule each controller scrubs (13 R418). -/
  scrubAt : Tbl Nat
  deriving DecidableEq, Repr

/-! ### Update units (14) -/

/-- A command in service (14 R421): its record as the unit read it, its outputs by address and descriptor, and what it writes
when it ends: of a clear one the bytes of each unit of work, the output blocks that each unit is, and the blocks of each output
that it marks (14 R441, R444, R445); of an ENC_AXPY its destination. `rowsBad` are the list entries that EMB refused. -/
structure UpdRun where
  record : Nat
  bytes : List Byte
  outs : List (Nat × List Byte)
  units : List (List (Nat × List Byte))
  marks : List (List (Nat × Nat))
  spoils : List (List Nat)
  effect : Effect
  status : BitVec 8
  satSkip : Bool
  blocksDone : Nat
  rowsBad : List Nat
  nonfinite : Nat
  startedAt : Nat
  stated : Nat
  deriving DecidableEq, Repr

/-- A parameter update unit: its command list as latched at the boundary, the next command, the running one, whether the list
has stopped (14 R421, R445), and the commands whose status record a bank makes wait (10 R324, R332). -/
structure UpdUnit where
  list : Nat
  count : Nat
  next : Nat
  run : Option UpdRun
  halted : Bool
  owed : List UpdRun
  deriving DecidableEq, Repr

/-! ### Tick and counter unit, frames, launches, replay (15, 16) -/

inductive EdgeKind where
  | enter | skip | hold
  deriving DecidableEq, Repr

/-- An armed launch (15 R469, R470): `fire` is the counter value at which it fires, which a late one takes when it is armed;
`input` is the logged input of a replay launch (15 R481). -/
structure Launch where
  kind : BitVec 8
  at_ : BitVec 64
  arg : Nat
  fire : Nat
  input : Option (List Byte)
  deriving DecidableEq, Repr

/-- The frame header the loader holds for the next frame (15 R455-R457). -/
structure LoadedHeader where
  addr : Nat
  frame : BitVec 64
  genTick : BitVec 64
  updates : List (BitVec 16 × BitVec 8 × BitVec 64)
  opens : List OpenRec
  fills : Nat
  fillCount : Nat
  launches : List Launch
  power : List Nat
  deriving DecidableEq, Repr

/-- The frame that runs, and what its completion record will say (17 R529). -/
structure FrameRun where
  number : BitVec 64
  tick : BitVec 64
  genTick : BitVec 64
  barrier : Bool
  barrierAt : Nat
  complete : Bool
  overrun : Bool
  esSat : Bool
  poison : Bool
  satSkip : Bool
  coresStopped : Nat
  poisonWrites : Nat
  refusals : Nat
  faultsUc : Nat
  deriving DecidableEq, Repr

/-- A fill in service (15 R475, R476): its record, its tensor's descriptor, the seed and tick value of its words, the clusters
it reaches, the blocks still to be written, whether only its status record is owed, and the counts of that record. -/
structure FillRun where
  record : Nat
  bytes : List Byte
  status : BitVec 8
  desc : List Byte
  seed : List Byte
  gen : Nat
  reaches : List Nat
  todo : List Nat
  owing : Bool
  noted : Bool
  blocksDone : Nat
  blocksBad : Nat
  firstBad : Nat
  granules : Nat
  deriving DecidableEq, Repr

/-- A checkpoint waiting or sending (16 R484-R493): its descriptors, and for each message still unanswered its
number, its descriptor, and the extents and granules it carried. -/
structure CkptRun where
  descs : List Nat
  sending : Bool
  awaiting : List (BitVec 32 × Nat)
  sizes : List (Nat × Nat × Nat)
  seq : BitVec 64
  startedAt : Nat
  deriving DecidableEq, Repr

/-- What a collective holds of one block besides its elements: SAT, E_NEXT, and whether the block is bad. -/
structure CollBlock where
  sat : Bool
  eNext : Nat
  bad : Bool
  deriving DecidableEq, Repr

/-- A collective under way (17 R532): the members in ring order, the digests that have arrived, the ring step it waits
for (0 while digests are exchanged), and the partial sums. -/
structure CollRun where
  collId : BitVec 64
  desc : List Byte
  tensor : Nat
  tensorDesc : List Byte
  members : List Nat
  digest : List Byte
  digests : List (Nat × List Byte)
  nextStep : Nat
  elems : List Nat
  blocks : List CollBlock
  deriving DecidableEq, Repr

/-- A step of a collective that arrived before its launch fired here. -/
structure CollMsg where
  src : Nat
  collId : BitVec 64
  step : Nat
  data : List Byte
  deriving DecidableEq, Repr

/-- An image on its way into a replica area, and whether it was refused (16 R491). -/
structure ReplicaRun where
  seq : BitVec 64
  refused : Bool
  deriving DecidableEq, Repr

/-- A port transfer waiting for PEER_DONE (17 R531), with its descriptor as the launch found it. -/
structure PortXfer where
  msg : BitVec 32
  dev : Nat
  desc : List Byte
  status : BitVec 8
  granules : Nat
  deriving DecidableEq, Repr

structure Tick where
  frame : Option FrameRun
  next : Option LoadedHeader
  readySent : Bool
  /-- READY messages held: device and frame (15 R459, 17 R530). -/
  readyFrom : List (Nat × Nat)
  /-- Kind chosen at the readiness deadline for the coming edge, and the members whose READY was missing (15 R459). -/
  chosen : Option EdgeKind
  missing : List Nat
  /-- At the deadline the device was not ready only for want of a header (15 R461). -/
  starved : Bool
  /-- A master whose TICK_RUN was cleared sends HOLD symbols until a chip reset (15 R465). -/
  holdOnly : Bool
  /-- An invalid header already recorded: its address and bytes (15 R457). -/
  badHeader : Option (Nat × List Byte)
  /-- The loader's turn came while a trap handler ran (21 R615). -/
  loadHeld : Bool
  /-- An accepted symbol not yet acted on (15 R463). -/
  accepted : Option EdgeKind
  adopted : Bool
  /-- The first boundary after TICK_RUN is set enters FRAME_START (15 R452). -/
  firstFrame : Bool
  launches : List Launch
  holdLeft : Nat
  fillList : Nat
  fillCount : Nat
  fillNext : Nat
  fill : Option FillRun
  losses : List (Nat × BitVec 64)
  lost : List Nat
  ckpts : List CkptRun
  colls : List CollRun
  collEarly : List CollMsg
  /-- Scale records whose E_NEXT this tick wrote: address and count (02 R66). -/
  esRecords : List (Nat × Nat)
  xfers : List PortXfer
  replayInputs : List (List Byte)
  /-- LOG_TAIL was advanced while the log was full (15 R478). -/
  logResume : Bool
  /-- Images on their way into this device's replica areas (16 R491). -/
  replicas : Tbl ReplicaRun
  /-- Counts still to be added (or, negative, withheld), the clock of the last correction, the seconds in lock, and the
  last second measured (15 R467, R468). -/
  slew : Int
  slewAt : Nat
  lockSeconds : Nat
  lastSecond : Nat
  deriving DecidableEq, Repr

/-! ### Faults (21) -/

/-- A fault that a unit has raised and the collector has not classified yet. -/
structure RaisedFault where
  source : BitVec 8
  cls : BitVec 2
  unit : BitVec 16
  addr : BitVec 48
  reason : BitVec 8
  status : BitVec 8
  detail : BitVec 64
  block : Option Block
  forced : Bool
  /-- Cycle in which it was raised; the collector sets it. -/
  raisedAt : Nat := 0
  deriving DecidableEq, Repr

structure Faults where
  raised : List RaisedFault
  /-- Sources whose corrected record of this tick is made, and corrected faults since the last record (21 R612). -/
  corrRecorded : List Nat
  corrSince : Tbl Nat
  inReset : List Block
  sticky : List Byte
  resetPending : Bool
  bootErrn : Bool
  resetErrn : Bool
  trap : Bool
  deriving DecidableEq, Repr

/-! ### Port and requests (17) -/

/-- A message under reassembly or complete. -/
structure Msg where
  ep : Endpoint
  prio : BitVec 3
  number : BitVec 32
  cls : BitVec 4
  kind : BitVec 8
  version : BitVec 4
  src : BitVec 16
  segs : List (Nat × List Byte)
  last : Bool
  startedAt : Nat
  judged : Bool
  deriving DecidableEq, Repr

/-- A frame the device has sent and not yet had acknowledged: its header as bytes, its segment, and how often it was resent. -/
structure SentFrame where
  header : List Byte
  data : List Byte
  resends : Nat
  deriving DecidableEq, Repr

/-- Transport state of one endpoint and priority (17 R513, R514). -/
structure Transport where
  ep : Endpoint
  prio : BitVec 3
  expect : Option (BitVec 32)
  next : BitVec 32
  syncNext : Bool
  unacked : List SentFrame
  deriving DecidableEq, Repr

/-- One of the commands of a request (17 R517, R518). -/
structure HostCmd where
  op : BitVec 8
  cont : Bool
  len : BitVec 64
  addr : BitVec 48
  data : List Byte
  deriving DecidableEq, Repr

/-- A request after its header was accepted (17 R516-R523). -/
structure Request where
  ep : Endpoint
  prio : BitVec 3
  version : BitVec 4
  msg : BitVec 32
  reqId : BitVec 64
  count : Nat
  bulk : Bool
  complete : Bool
  assigned : Bool
  cmds : List HostCmd
  done : Nat
  ran : Nat
  failIndex : Option Nat
  failStatus : BitVec 8
  abortCode : BitVec 32
  execFrame : BitVec 64
  execTick : BitVec 64
  reads : List (List Byte)
  raw : List Byte
  /-- Made by replay from a logged request: it is not answered (15 R481). -/
  replayed : Bool
  deriving DecidableEq, Repr

/-- A stream context: its requests, oldest first, and its duplicate window (17 R521, R524). -/
structure StreamCtx where
  requests : List Request
  window : List (BitVec 64 × List Byte)
  highest : BitVec 64
  deriving DecidableEq, Repr

/-- A message that left the device, or waits on a paused priority; `bad` lists places of its body that were delivered bad. -/
structure OutMsg where
  ep : Endpoint
  prio : BitVec 3
  cls : BitVec 4
  kind : BitVec 8
  number : BitVec 32
  version : BitVec 4
  dst : BitVec 16
  body : List Byte
  bad : List Nat := []
  deriving DecidableEq, Repr

structure Port where
  transports : List Transport
  messages : List Msg
  contexts : Tbl StreamCtx
  /-- Assigned order of requests that wait for a boundary: stream and REQ_ID in arrival order of the last segment. -/
  waiting : List (Nat × BitVec 64)
  paused : List (BitVec 3)
  held : List OutMsg
  sent : List OutMsg
  acksSent : List (Endpoint × BitVec 3 × BitVec 32)
  arpReplies : List (BitVec 48 × BitVec 128)
  nextMsg : BitVec 32
  /-- Version of the last frame accepted from an endpoint, in which it is answered (17 R512). -/
  spoke : List (Endpoint × BitVec 4)
  deriving DecidableEq, Repr

/-! ### Share mode and the Sterling store (07) -/

/-- A session (07 R195-R204). -/
structure Session where
  tag : BitVec 64
  ep : Endpoint
  live : Bool
  hello : List Byte
  scalar : Option Nat
  report : List Byte
  reported : Bool
  transcript : List Byte
  keyOut : List Byte
  keyIn : List Byte
  seqOut : BitVec 64
  accepted : List (BitVec 64)
  nextSerial : BitVec 64
  deriving DecidableEq, Repr

inductive ExchState where
  | sending | awaitingAck | inRound | awaitingIn | complete | failedPeer | failedOther
  deriving DecidableEq, Repr

/-- What the Sterling store holds of an exchange (07 R206): its entry of the exchange table, and in the working memory the
device's shares and the openings that have arrived. -/
structure ExchSecret where
  sigma : List Byte
  serial : BitVec 64
  round : Nat
  sendTick : BitVec 64
  deadline : Nat
  state : ExchState
  shares : List (BitVec 64)
  transcriptIn : List (List Byte)
  deriving DecidableEq, Repr

/-- What is held of an exchange outside the store, since nothing in it is secret: the record, the frame that sent it (01
R25), the parts issued, the sources' LAYOUT and LOG_N, the ciphertexts of SH_IN, the parts for which SHARE_IN was called,
and the last message for a resend. -/
structure ExchOpen where
  record : List Byte
  session : Nat
  sendFrame : BitVec 64
  parts : Nat
  layoutIn : BitVec 8
  logN : Nat
  arrived : Tbl (BitVec 16 × List Byte)
  taken : List Nat
  lastMsg : List Byte
  lastKind : BitVec 8
  resends : Nat
  deriving DecidableEq, Repr

/-- The Sterling store (07 R206): the device secrets, the session table, the exchange table with the working memory, and
what it counts of the spill (07 R210). -/
structure Sterling where
  sealingKey : List Byte
  randomState : List Byte
  identitySeed : List Byte
  identityPub : List Byte
  fwMeasure : List Byte
  extMeasure : List Byte
  sessions : Tbl Session
  exchanges : Tbl ExchSecret
  spillWrites : Tbl Nat
  spillUsed : Nat
  spillOwner : Tbl Nat
  deriving DecidableEq, Repr

/-! ### Nickel (19) -/

/-- A job read from its record, with its result ready for NICKEL_JOB_DONE. -/
structure NickelJob where
  record : Nat
  short : Bool
  op : BitVec 8
  status : BitVec 8
  flags : BitVec 4
  out : Option (Nat × BitVec 1024)
  clearTo : Option (Nat × Nat)
  pair : Option (Nat × Nat)
  store : Option (Nat × List Byte)
  statusAddr : Option Nat
  stated : Nat
  yields : Nat
  startedAt : Nat
  refused : Bool
  points : Nat
  deriving DecidableEq, Repr

/-- A sealed job that waits (07 R200, 19 R580): for which session or for the host's report. -/
inductive SealedWork where
  | handshake (session : Nat)
  | hostReport
  | identity
  deriving DecidableEq, Repr

structure Nickel where
  slots : Tbl (BitVec 1024)
  pairs : List (Nat × Nat)
  shortQ : List (Nat × Bool)
  longQ : List (Nat × Bool)
  run : Option NickelJob
  yielded : Option NickelJob
  sealedWork : List SealedWork
  /-- Jobs discarded by a reset whose ABORTED status records wait for service (19 R563). -/
  owed : List Nat
  /-- Slot words with a stored error (19 R564). -/
  badSlots : List (Nat × UpsetKind)
  deriving DecidableEq, Repr

/-! ### Boot (20) and the library extension (09 R299-R303) -/

inductive BootStep where
  | idle | hello | reading | waitRetry | hold
  deriving DecidableEq, Repr

structure Boot where
  mode : BitVec 2
  masterSel : Bool
  step : BootStep
  attempt : BitVec 32
  server : BitVec 48
  imageId : BitVec 64
  imageLen : BitVec 64
  image : List Byte
  nextRead : Nat
  readLen : Nat
  readResends : Nat
  ownerProgramming : Option (List Byte)
  secverProgramming : Option Nat
  attestAt : Option Nat
  attestData : List Byte
  attestReport : List Byte
  jtagOpened : Bool
  deriving DecidableEq, Repr

/-- A routine an extension declares (20 R595): number and base and per-unit costs for LOG_N 12 to 17. -/
structure ExtRoutine where
  number : Nat
  costs : List (Nat × Nat)
  deriving DecidableEq, Repr

/-- An extension image in service or on its way (09 R299, R300). -/
structure ExtImage where
  digest : List Byte
  routines : List ExtRoutine
  code : List Byte
  deriving DecidableEq, Repr

structure Library where
  inService : Option ExtImage
  /-- Address being verified and copied, and OWNER_KEY_HASH as it was read when the check started (20 R594). -/
  loading : Option (Nat × BitVec 256)
  /-- A copied extension, or a removal, that waits for its boundary. -/
  waiting : Option (Option ExtImage)
  /-- Last completed BOOT_STEP step of a working ciphertext, by descriptor address (06 R186). -/
  bootProgress : Tbl Nat
  deriving DecidableEq, Repr

/-! ### Power, pins, JTAG (22) -/

structure Power where
  grants : Tbl Nat
  requests : Tbl Nat
  energy : Tbl Nat
  withholding : List Nat
  withheldNow : Tbl Nat
  elapsed : Nat
  /-- Energy and time of this tick, for POWER_ESTIMATED. -/
  tickEnergy : Nat
  tickElapsed : Nat
  voutSent : Tbl (BitVec 16)
  railWarned : List Nat
  hot : Bool
  warm : Bool
  hottest : Option (Nat × Int)
  thermHold : Bool
  deriving DecidableEq, Repr

inductive JtagInstr where
  | reset | bypass | idcode | samplePreload | extest | privateTest
  deriving DecidableEq, Repr

structure Pins where
  resetN : Bool
  jtag : JtagInstr
  jtagOut : BitVec 32
  boundary : List Bool
  tickOut : List (BitVec 128)
  deriving DecidableEq, Repr

/-- Where the device stands between power and service (20 R586, 22 R645-R648). -/
inductive Phase where
  | unpowered | held | chipReset | boot | service
  deriving DecidableEq, Repr

/-! ### The whole -/

/-- Fuses that can be programmed after manufacture (20 R584). -/
structure Fuses where
  ownerKeyHash : BitVec 256
  secver : BitVec 63
  deriving DecidableEq, Repr

/-- Everything but the fuses and the queue of commands. `regs` is the register file of the object dictionary:
key index × 256 + subindex, an unlisted key reading its default; `shadow` holds the pending values of rwt entries in
the order in which they were written (18 R544). `owedWrites` are writes of the device's units that wait for a bank, oldest
first (10 R324, R332). `draw` counts the free values drawn and `clock` the arithmetic-clock cycles passed: both are the
model's own. -/
structure Dev where
  phase : Phase
  draw : Nat
  clock : Nat
  mem : Memory
  regs : Tbl (BitVec 64)
  shadow : Tbl (BitVec 64)
  psets : Tbl PSet
  channels : Tbl Channel
  cores : Tbl Core
  clusters : Tbl Cluster
  stk : Stacks
  upd : Tbl UpdUnit
  tick : Tick
  faults : Faults
  port : Port
  sterling : Sterling
  exchOpen : Tbl ExchOpen
  nickel : Nickel
  boot : Boot
  lib : Library
  power : Power
  pins : Pins
  owedWrites : List (Requester × Nat × List Byte)
  deriving DecidableEq, Repr

structure State where
  pending : List Instr
  fuses : Fuses
  dev : Dev
  deriving DecidableEq, Repr

/-- Why a run stops for good. No rule of the spec stops the device without an effect, so no step of the model answers
one; the reason below is kept for a command whose operands no rule could be read for. -/
inductive Fault where
  /-- Raised by no step (safe: a run never ends in it). -/
  | noRule
  deriving DecidableEq, Repr

/-- Why a command has no meaning here. -/
inductive Refusal where
  /-- Raised only by an arm of exec that has no meaning yet (safe). -/
  | notModelled (mnemonic : String)
  deriving DecidableEq, Repr

/-! ### What an unlisted key of a table stands for, and the state after reset -/

def ProgState.fresh : ProgState := { pc := 0, run := .idle, waits := [], loops := [] }

def DQueue.empty : DQueue := { bytes := [], producer := none, consumer := none, transfers := [] }

/-- A core after a chip reset: between frames, every register and memory zero (08 R241). -/
def Core.fresh : Core :=
  { frame := .between, half := false, barrierAt := 0, tick := 0, tin := .fresh, acc := .fresh, exe := .fresh,
    g := [], events := [], queues := [], gens := [], paccs := [], unfenced := [], vregs := [], activeSet := none, logN := 0, lastSel := 0,
    call := none, atYield := false, stop := none, residue := [], busy := 0, heldSignals := [] }

/-- A cluster after a chip reset: every bank on and owned by the DMA (10 R335), nothing running. -/
def Cluster.fresh : Cluster :=
  { owners := [], power := [], ownQueue := [], handovers := [], call := none, streams := [], prefetchNow := 0,
    veList := 0, veCount := 0, veNext := 0, veRun := none, veOwed := [] }

def Channel.fresh : Channel := { waiting := [], stream := none, failed := [] }

def UpdUnit.fresh : UpdUnit := { list := 0, count := 0, next := 0, run := none, halted := false, owed := [] }

def PSet.fresh : PSet := { live := none, waiting := none }

def StreamCtx.fresh : StreamCtx := { requests := [], window := [], highest := 0 }

def Memory.empty : Memory := { cells := [], upsets := [], poison := [] }

def Tick.fresh : Tick :=
  { frame := none, next := none, readySent := false, readyFrom := [], chosen := none, missing := [], starved := false,
    holdOnly := false, badHeader := none, loadHeld := false, accepted := none,
    adopted := false, firstFrame := false, launches := [], holdLeft := 0, fillList := 0,
    fillCount := 0, fillNext := 0, fill := none, losses := [], lost := [], ckpts := [], colls := [], collEarly := [],
    esRecords := [], xfers := [], replayInputs := [], logResume := false, replicas := [], slew := 0, slewAt := 0, lockSeconds := 0, lastSecond := 0 }

/-- No fault raised, and the 64-byte sticky record zero, as power-on leaves it (21 R618). -/
def Faults.fresh : Faults :=
  { raised := [], corrRecorded := [], corrSince := [], inReset := [], sticky := List.replicate 64 0,
    resetPending := false, bootErrn := false, resetErrn := false, trap := false }

def Port.fresh : Port :=
  { transports := [], messages := [], contexts := [], waiting := [], paused := [], held := [],
    sent := [], acksSent := [], arpReplies := [], nextMsg := 1, spoke := [] }

/-- An empty store: every key and register zero (07 R208). -/
def Sterling.fresh : Sterling :=
  { sealingKey := [], randomState := [], identitySeed := [], identityPub := [], fwMeasure := [], extMeasure := [], sessions := [],
    exchanges := [], spillWrites := [], spillUsed := 0, spillOwner := [] }

def Nickel.fresh : Nickel :=
  { slots := [], pairs := [], shortQ := [], longQ := [], run := none, yielded := none, sealedWork := [],
    owed := [], badSlots := [] }

def Boot.fresh : Boot :=
  { mode := 0, masterSel := false, step := .idle, attempt := 0, server := 0, imageId := 0, imageLen := 0,
    image := [], nextRead := 0, readLen := 0, readResends := 0, ownerProgramming := none,
    secverProgramming := none, attestAt := none,
    attestData := [], attestReport := [], jtagOpened := false }

def Library.fresh : Library := { inService := none, loading := none, waiting := none, bootProgress := [] }

def Power.fresh : Power :=
  { grants := [], requests := [], energy := [], withholding := [], withheldNow := [], elapsed := 0, tickEnergy := 0,
    tickElapsed := 0, voutSent := [],
    railWarned := [], hot := false, warm := false, hottest := none, thermHold := false }

def Pins.fresh : Pins :=
  { resetN := false, jtag := .reset, jtagOut := 0, boundary := [], tickOut := [] }

/-- The device powered and held in reset by RESET_N, every register at its default (18 R541, 22 R645; log entry 3). -/
def Dev.fresh : Dev :=
  { phase := .held, draw := 0, clock := 0, mem := .empty, regs := [], shadow := [], psets := [], channels := [],
    cores := [], clusters := [], stk := { initialising := [], prefetched := [], scrubAt := [] }, upd := [], tick := .fresh,
    faults := .fresh, port := .fresh, sterling := .fresh, exchOpen := [], nickel := .fresh, boot := .fresh, lib := .fresh,
    power := .fresh, pins := .fresh, owedWrites := [] }

/-- The state right after reset: nothing enrolled in the programmable fuses (log entry 4), no command waiting. -/
def State.reset : State := { pending := [], fuses := { ownerKeyHash := 0, secver := 0 }, dev := .fresh }

/-- Replace the device, keeping fuses and queue. -/
def State.withDev (s : State) (d : Dev) : State := { s with dev := d }

/-- A command whose whole effect is on the device. -/
def State.onDev (s : State) (f : Dev → Dev) : Host.Outcome State Fault Refusal := .next (s.withDev (f s.dev))

end Sys2Proof.Machine
end

