-- ==== Sys2Proof/Machine/DictTable.lean ====
section
/-! DEFINITION. The object dictionary's map: every entry with its type, access right and default (18 R536, R537, R542,
R552 and the entry tables of the chapters), read by index and subindex. -/

namespace Sys2Proof.Machine

/-- Access rights (18 R542). -/
inductive Right where
  | ro | rw | rwt | wo
  deriving DecidableEq, Repr

/-- A run of entries: indices `i0` to `i1`, subindices `s0` to `s1`, type width and right. -/
structure DictRow where
  i0 : Nat
  i1 : Nat
  s0 : Nat
  s1 : Nat
  width : Nat
  right : Right
  deriving DecidableEq, Repr

/-- Identity and communication (18 R553). -/
def dictRows1 : List DictRow :=
  [⟨0x1000, 0x1000, 0x01, 0x01, 32, .ro⟩, -- VENDOR_ID
   ⟨0x1000, 0x1000, 0x02, 0x02, 32, .ro⟩, -- PART_NUMBER
   ⟨0x1000, 0x1000, 0x03, 0x03, 8, .ro⟩, -- STEPPING
   ⟨0x1000, 0x1000, 0x04, 0x04, 64, .ro⟩, -- SERIAL
   ⟨0x1000, 0x1000, 0x05, 0x05, 16, .ro⟩, -- DICT_VERSION
   ⟨0x1000, 0x1000, 0x06, 0x06, 8, .ro⟩, -- CWP_VERSIONS
   ⟨0x1000, 0x1000, 0x07, 0x07, 8, .ro⟩, -- CMD_FORMATS
   ⟨0x1010, 0x1010, 0x01, 0x01, 16, .rw⟩, -- SYSTEM_DEVICE
   ⟨0x1020, 0x1020, 0x01, 0x01, 64, .ro⟩, -- DICT_READS
   ⟨0x1020, 0x1020, 0x02, 0x02, 64, .ro⟩, -- DICT_WRITES
   ⟨0x1020, 0x1020, 0x03, 0x03, 32, .ro⟩, -- DICT_ABORTS
   ⟨0x1020, 0x1020, 0x04, 0x04, 32, .ro⟩, -- DICT_LAST_ABORT
   ⟨0x1020, 0x1020, 0x05, 0x05, 32, .ro⟩, -- DICT_LAST_ENTRY
   ⟨0x1020, 0x1020, 0x06, 0x06, 16, .ro⟩, -- DICT_PENDING
   ⟨0x1030, 0x1030, 0x01, 0x01, 16, .ro⟩, -- CLUSTERS
   ⟨0x1030, 0x1030, 0x02, 0x02, 16, .ro⟩, -- CORES
   ⟨0x1030, 0x1030, 0x03, 0x03, 8, .ro⟩, -- STACKS
   ⟨0x1030, 0x1030, 0x04, 0x04, 64, .ro⟩, -- STACK_BYTES
   ⟨0x1030, 0x1030, 0x05, 0x05, 32, .ro⟩, -- CLOCK_KHZ
   ⟨0x1030, 0x1030, 0x06, 0x06, 8, .ro⟩, -- PSETS
   ⟨0x1030, 0x1030, 0x07, 0x07, 16, .ro⟩, -- STREAM_CONTEXTS
   ⟨0x1030, 0x1030, 0x08, 0x08, 16, .ro⟩, -- RESIDENT_SEQ
   ⟨0x1030, 0x1030, 0x09, 0x09, 16, .ro⟩, -- MAX_DEVICES
   ⟨0x1040, 0x1040, 0x01, 0x01, 8, .rw⟩, -- REQ_ADMIT
   ⟨0x1040, 0x1040, 0x02, 0x02, 32, .ro⟩, -- REQ_REFUSED
   ⟨0x1041, 0x1048, 0x01, 0x01, 8, .rw⟩, -- ADMIT_ENCAP
   ⟨0x1041, 0x1048, 0x02, 0x02, 64, .rw⟩, -- ADMIT_MAC
   ⟨0x1041, 0x1048, 0x03, 0x03, 32, .rw⟩, -- ADMIT_IPV4
   ⟨0x1041, 0x1048, 0x04, 0x04, 64, .rw⟩, -- ADMIT_IPV6_HI
   ⟨0x1041, 0x1048, 0x05, 0x05, 64, .rw⟩] -- ADMIT_IPV6_LO

/-- Tick, counter, log, replay, loss (15 R483, 16 R504). -/
def dictRows2 : List DictRow :=
  [⟨0x2000, 0x2000, 0x01, 0x01, 8, .rw⟩, -- TICK_RUN
   ⟨0x2000, 0x2000, 0x02, 0x02, 8, .rw⟩, -- TICK_ROLE
   ⟨0x2000, 0x2000, 0x03, 0x03, 8, .ro⟩, -- TICK_STATE
   ⟨0x2000, 0x2000, 0x04, 0x04, 32, .rwt⟩, -- TICK_PERIOD
   ⟨0x2000, 0x2000, 0x05, 0x05, 32, .rwt⟩, -- TICK_PHASE
   ⟨0x2000, 0x2000, 0x06, 0x06, 32, .rwt⟩, -- READY_LEAD
   ⟨0x2000, 0x2000, 0x07, 0x07, 16, .rwt⟩, -- TICK_TRIM
   ⟨0x2000, 0x2000, 0x08, 0x08, 8, .rwt⟩, -- TICK_REPEAT
   ⟨0x2000, 0x2000, 0x09, 0x09, 64, .ro⟩, -- TICK_NUMBER
   ⟨0x2000, 0x2000, 0x0A, 0x0A, 64, .ro⟩, -- FRAME_NUMBER
   ⟨0x2000, 0x2000, 0x0B, 0x0B, 64, .rw⟩, -- FRAME_START
   ⟨0x2000, 0x2000, 0x0C, 0x0C, 64, .ro⟩, -- TICK_ARRIVAL
   ⟨0x2000, 0x2000, 0x0D, 0x0D, 32, .ro⟩, -- OVERRUNS
   ⟨0x2000, 0x2000, 0x0E, 0x0E, 32, .ro⟩, -- SKIPS
   ⟨0x2000, 0x2000, 0x0F, 0x0F, 32, .ro⟩, -- FRAMES_STARVED
   ⟨0x2000, 0x2000, 0x10, 0x10, 8, .ro⟩, -- TICK_CFG_RESULT
   ⟨0x2010, 0x2010, 0x01, 0x01, 64, .rwt⟩, -- FRAME_RING_BASE
   ⟨0x2010, 0x2010, 0x02, 0x02, 16, .rwt⟩, -- FRAME_RING_COUNT
   ⟨0x2010, 0x2010, 0x03, 0x03, 64, .ro⟩, -- FRAME_LOADED
   ⟨0x2020, 0x2020, 0x01, 0x01, 64, .ro⟩, -- COUNTER
   ⟨0x2020, 0x2020, 0x02, 0x02, 8, .rw⟩, -- COUNTER_SOURCE
   ⟨0x2020, 0x2020, 0x03, 0x03, 8, .ro⟩, -- COUNTER_STATE
   ⟨0x2020, 0x2020, 0x04, 0x04, 32, .ro⟩, -- COUNTER_ERROR
   ⟨0x2020, 0x2020, 0x05, 0x05, 64, .wo⟩, -- COUNTER_SET
   ⟨0x2020, 0x2020, 0x06, 0x06, 16, .ro⟩, -- LAUNCHES_ARMED
   ⟨0x2020, 0x2020, 0x07, 0x07, 32, .ro⟩, -- LAUNCHES_LATE
   ⟨0x2030, 0x2030, 0x01, 0x04, 64, .wo⟩, -- JOB_SEED_k
   ⟨0x2040, 0x2040, 0x01, 0x10, 64, .rwt⟩, -- TICK_MEMBERS_k
   ⟨0x2050, 0x2050, 0x01, 0x01, 64, .rwt⟩, -- LOG_BASE
   ⟨0x2050, 0x2050, 0x02, 0x02, 64, .rwt⟩, -- LOG_SIZE
   ⟨0x2050, 0x2050, 0x03, 0x03, 64, .ro⟩, -- LOG_HEAD
   ⟨0x2050, 0x2050, 0x04, 0x04, 64, .rw⟩, -- LOG_TAIL
   ⟨0x2050, 0x2050, 0x05, 0x05, 8, .ro⟩, -- LOG_STATE
   ⟨0x2060, 0x2060, 0x01, 0x01, 8, .rwt⟩, -- REPLAY_MODE
   ⟨0x2060, 0x2060, 0x02, 0x02, 64, .rwt⟩, -- REPLAY_SRC
   ⟨0x2060, 0x2060, 0x03, 0x03, 64, .rwt⟩, -- REPLAY_LEN
   ⟨0x2060, 0x2060, 0x04, 0x04, 64, .rwt⟩, -- REPLAY_SHIFT
   ⟨0x2060, 0x2060, 0x05, 0x05, 64, .rwt⟩, -- REPLAY_FROM
   ⟨0x2060, 0x2060, 0x06, 0x06, 8, .ro⟩, -- REPLAY_STATE
   ⟨0x2070, 0x2070, 0x01, 0x01, 64, .wo⟩, -- LOSS_CMD
   ⟨0x2070, 0x2070, 0x02, 0x02, 16, .ro⟩, -- LOSS_LAST
   ⟨0x2070, 0x2070, 0x03, 0x03, 16, .ro⟩, -- LOSS_COUNT
   ⟨0x2070, 0x2070, 0x04, 0x04, 16, .rwt⟩, -- SURVIVORS
   ⟨0x2070, 0x2070, 0x05, 0x05, 32, .ro⟩, -- LOSS_DISCARDS
   ⟨0x2070, 0x2070, 0x06, 0x06, 8, .ro⟩, -- CKPT_STATE
   ⟨0x2070, 0x2070, 0x07, 0x07, 64, .ro⟩, -- CKPT_LAST_SEQ
   ⟨0x2070, 0x2070, 0x08, 0x08, 64, .ro⟩, -- CKPT_LAST_CYCLES
   ⟨0x2080, 0x2083, 0x01, 0x01, 64, .rwt⟩, -- REPLICA_BASE
   ⟨0x2080, 0x2083, 0x02, 0x02, 64, .rwt⟩, -- REPLICA_SLOT_SIZE
   ⟨0x2080, 0x2083, 0x03, 0x03, 16, .rwt⟩, -- REPLICA_SOURCE
   ⟨0x2080, 0x2083, 0x04, 0x04, 64, .ro⟩, -- REPLICA_SEQ_0
   ⟨0x2080, 0x2083, 0x05, 0x05, 64, .ro⟩] -- REPLICA_SEQ_1

/-- Cores, scratchpads, streams, vector engine (08, 10 R336, 11 R377, 12 R401). -/
def dictRows3 : List DictRow :=
  [⟨0x3001, 0x3001, 0x01, 0x01, 32, .rwt⟩, -- CORE_DEADLOCK_WINDOW
   ⟨0x3001, 0x3001, 0x02, 0x02, 32, .ro⟩, -- CORE_PROGRAM_FAULTS
   ⟨0x3001, 0x3001, 0x03, 0x03, 32, .ro⟩, -- CORE_DEADLOCKS
   ⟨0x3100, 0x31FF, 0x01, 0x01, 8, .rwt⟩, -- SP_MODE
   ⟨0x3100, 0x31FF, 0x02, 0x02, 16, .rwt⟩, -- SP_DIVISION
   ⟨0x3100, 0x31FF, 0x03, 0x06, 64, .ro⟩, -- SP_OWNER_k
   ⟨0x3100, 0x31FF, 0x07, 0x07, 64, .wo⟩, -- SP_OWN_SET
   ⟨0x3100, 0x31FF, 0x08, 0x08, 64, .rwt⟩, -- SP_POWER
   ⟨0x3100, 0x31FF, 0x09, 0x09, 64, .ro⟩, -- SP_POWER_STATE
   ⟨0x3100, 0x31FF, 0x0A, 0x0A, 8, .ro⟩, -- SP_PENDING
   ⟨0x3100, 0x31FF, 0x0B, 0x0B, 32, .ro⟩, -- SP_VIOL_COUNT
   ⟨0x3100, 0x31FF, 0x0C, 0x0C, 64, .ro⟩, -- SP_VIOL_ADDR
   ⟨0x3100, 0x31FF, 0x0D, 0x0D, 64, .ro⟩, -- SP_VIOL_TICK
   ⟨0x3100, 0x31FF, 0x0E, 0x0E, 32, .ro⟩, -- SP_BUSY
   ⟨0x3100, 0x31FF, 0x0F, 0x0F, 32, .ro⟩, -- SP_ECC_CORRECTED
   ⟨0x3200, 0x32FF, 0x01, 0x01, 64, .rwt⟩, -- DMA_LIST_ADDR
   ⟨0x3200, 0x32FF, 0x02, 0x02, 16, .rwt⟩, -- DMA_LIST_COUNT
   ⟨0x3200, 0x32FF, 0x03, 0x03, 32, .rwt⟩, -- DMA_PREFETCH_BUDGET
   ⟨0x3200, 0x32FF, 0x04, 0x04, 32, .ro⟩, -- DMA_PREFETCH_USED
   ⟨0x3200, 0x32FF, 0x05, 0x05, 8, .ro⟩, -- DMA_RUNNING
   ⟨0x3200, 0x32FF, 0x06, 0x06, 64, .ro⟩, -- DMA_STREAMS_DONE
   ⟨0x3200, 0x32FF, 0x07, 0x07, 32, .ro⟩, -- DMA_STREAMS_REFUSED
   ⟨0x3200, 0x32FF, 0x08, 0x08, 32, .ro⟩, -- DMA_BAD_BLOCKS
   ⟨0x3300, 0x3300, 0x01, 0x01, 8, .rwt⟩, -- PREFETCH_STACK_SHARE
   ⟨0x3300, 0x3300, 0x02, 0x02, 64, .ro⟩, -- PREFETCH_THROTTLED
   ⟨0x3400, 0x34FF, 0x01, 0x01, 64, .rwt⟩, -- VE_LIST_ADDR
   ⟨0x3400, 0x34FF, 0x02, 0x02, 16, .rwt⟩, -- VE_LIST_COUNT
   ⟨0x3400, 0x34FF, 0x03, 0x03, 64, .ro⟩, -- VE_JOBS_DONE
   ⟨0x3400, 0x34FF, 0x04, 0x04, 32, .ro⟩, -- VE_JOBS_REFUSED
   ⟨0x3400, 0x34FF, 0x05, 0x05, 64, .ro⟩] -- VE_BUSY_CYCLES

/-- Stacks (13 R419). -/
def dictRows4 : List DictRow :=
  [⟨0x4000, 0x4000, 0x01, 0x01, 8, .ro⟩, -- MEM_SLABS
   ⟨0x4000, 0x4000, 0x02, 0x02, 8, .ro⟩, -- MEM_REGION_RESULT
   ⟨0x4000, 0x4000, 0x03, 0x05, 64, .ro⟩, -- MEM_SLAB_STATE
   ⟨0x4000, 0x4000, 0x06, 0x06, 64, .ro⟩, -- MEM_VIOL_ADDR
   ⟨0x4000, 0x4000, 0x07, 0x07, 64, .ro⟩, -- MEM_VIOL_TICK
   ⟨0x4000, 0x4000, 0x08, 0x08, 16, .rw⟩, -- SCRUB_PERIOD
   ⟨0x4100, 0x411F, 0x01, 0x01, 8, .rwt⟩, -- REGION_FIRST
   ⟨0x4100, 0x411F, 0x02, 0x02, 8, .rwt⟩, -- REGION_COUNT
   ⟨0x4100, 0x411F, 0x03, 0x03, 8, .rwt⟩, -- REGION_CLASS
   ⟨0x4100, 0x411F, 0x04, 0x04, 8, .rwt⟩, -- REGION_MODE
   ⟨0x4200, 0x4207, 0x01, 0x01, 32, .ro⟩, -- STK_CORRECTED
   ⟨0x4200, 0x4207, 0x02, 0x02, 32, .ro⟩, -- STK_UNCORRECTED
   ⟨0x4200, 0x4207, 0x03, 0x03, 64, .ro⟩, -- STK_LAST_ERR_ADDR
   ⟨0x4200, 0x4207, 0x04, 0x04, 64, .ro⟩, -- STK_LAST_ERR_TICK
   ⟨0x4200, 0x4207, 0x05, 0x05, 32, .ro⟩, -- STK_SCRUB_PASSES
   ⟨0x4200, 0x4207, 0x06, 0x06, 64, .ro⟩, -- STK_GRANULES_READ
   ⟨0x4200, 0x4207, 0x07, 0x07, 64, .ro⟩] -- STK_GRANULES_WRITTEN

/-- Parameter sets, Bronze, share mode (02 R38, 05 R165, 07 R236). -/
def dictRows5 : List DictRow :=
  [⟨0x5100, 0x510F, 0x01, 0x01, 8, .ro⟩, -- PSET_STATE
   ⟨0x5100, 0x510F, 0x02, 0x02, 8, .wo⟩, -- PSET_COMMIT
   ⟨0x5100, 0x510F, 0x03, 0x03, 8, .ro⟩, -- PSET_RESULT
   ⟨0x5100, 0x510F, 0x04, 0x04, 8, .ro⟩, -- PSET_FAIL_INDEX
   ⟨0x5100, 0x510F, 0x05, 0x05, 8, .rwt⟩, -- SCHEME
   ⟨0x5100, 0x510F, 0x06, 0x06, 8, .rwt⟩, -- LOG_N_MAX
   ⟨0x5100, 0x510F, 0x07, 0x07, 8, .rwt⟩, -- CHAIN_COUNT
   ⟨0x5100, 0x510F, 0x08, 0x08, 8, .rwt⟩, -- SPECIAL_COUNT
   ⟨0x5100, 0x510F, 0x09, 0x09, 8, .rwt⟩, -- DNUM
   ⟨0x5100, 0x510F, 0x0A, 0x0A, 64, .rwt⟩, -- PLAIN_MOD
   ⟨0x5100, 0x510F, 0x0B, 0x0B, 64, .ro⟩, -- COMMIT_TICK
   ⟨0x5200, 0x520F, 0x01, 0x40, 64, .rwt⟩, -- MODULUS_j
   ⟨0x5300, 0x530F, 0x01, 0x40, 64, .ro⟩, -- ROOT_j
   ⟨0x5400, 0x5407, 0x01, 0x01, 8, .ro⟩, -- CHAN_STATE
   ⟨0x5400, 0x5407, 0x02, 0x02, 64, .ro⟩, -- CHAN_IMAGE
   ⟨0x5400, 0x5407, 0x03, 0x03, 64, .ro⟩, -- CHAN_OPENED
   ⟨0x5400, 0x5407, 0x04, 0x04, 64, .ro⟩, -- CHAN_WORDS
   ⟨0x5400, 0x5407, 0x05, 0x05, 32, .ro⟩, -- CHAN_FAILS
   ⟨0x5400, 0x5407, 0x06, 0x06, 32, .ro⟩, -- CHAN_DETACH
   ⟨0x5800, 0x5800, 0x01, 0x01, 16, .ro⟩, -- SHARE_SESSIONS
   ⟨0x5800, 0x5800, 0x02, 0x02, 16, .rwt⟩, -- SHARE_RTT
   ⟨0x5800, 0x5800, 0x03, 0x03, 16, .rw⟩, -- SHARE_ROUND_TIMEOUT
   ⟨0x5800, 0x5800, 0x04, 0x04, 8, .rw⟩, -- SHARE_RESENDS
   ⟨0x5800, 0x5800, 0x05, 0x05, 64, .rwt⟩, -- SHARE_SPILL_BASE
   ⟨0x5800, 0x5800, 0x06, 0x06, 64, .rwt⟩, -- SHARE_SPILL_SIZE
   ⟨0x5800, 0x5800, 0x07, 0x07, 64, .ro⟩, -- SHARE_EXCHANGES
   ⟨0x5800, 0x5800, 0x08, 0x08, 32, .ro⟩, -- SHARE_FAILS
   ⟨0x5800, 0x5800, 0x09, 0x09, 32, .ro⟩, -- SHARE_AUTH_DROPS
   ⟨0x5800, 0x5800, 0x0A, 0x0A, 64, .wo⟩] -- SHARE_CLOSE_TAG

/-- Faults (21 R623). -/
def dictRows6 : List DictRow :=
  [⟨0x6000, 0x6000, 0x01, 0x01, 64, .rwt⟩, -- FAULT_RING_BASE
   ⟨0x6000, 0x6000, 0x02, 0x02, 32, .rwt⟩, -- FAULT_RING_COUNT
   ⟨0x6000, 0x6000, 0x03, 0x03, 32, .ro⟩, -- FAULT_RING_HEAD
   ⟨0x6000, 0x6000, 0x04, 0x04, 32, .rw⟩, -- FAULT_RING_TAIL
   ⟨0x6000, 0x6000, 0x05, 0x05, 32, .ro⟩, -- FAULT_LOST
   ⟨0x6000, 0x6000, 0x06, 0x06, 32, .ro⟩, -- FAULT_SEQ
   ⟨0x6000, 0x6000, 0x07, 0x07, 8, .ro⟩, -- ERR_STATE
   ⟨0x6000, 0x6000, 0x08, 0x08, 8, .wo⟩, -- ERR_CLEAR
   ⟨0x6000, 0x6000, 0x09, 0x09, 8, .ro⟩, -- RESET_CAUSE
   ⟨0x6010, 0x6010, 0x01, 0x08, 64, .ro⟩, -- RESET_RECORD_k
   ⟨0x6101, 0x6119, 0x01, 0x01, 8, .rw⟩, -- REACT_CORR
   ⟨0x6101, 0x6119, 0x02, 0x02, 8, .rw⟩, -- REACT_UC
   ⟨0x6101, 0x6119, 0x03, 0x03, 32, .ro⟩, -- COUNT_CORR
   ⟨0x6101, 0x6119, 0x04, 0x04, 32, .ro⟩, -- COUNT_UC
   ⟨0x6101, 0x6119, 0x05, 0x05, 16, .ro⟩, -- COUNT_FATAL
   ⟨0x6101, 0x6119, 0x06, 0x06, 64, .ro⟩, -- LAST_TICK
   ⟨0x6101, 0x6119, 0x07, 0x07, 64, .ro⟩, -- LAST_ADDR
   ⟨0x6101, 0x6119, 0x08, 0x08, 32, .wo⟩] -- FORCE

/-- Power, rails, thermal (22 R657). -/
def dictRows7 : List DictRow :=
  [⟨0x7000, 0x7000, 0x01, 0x01, 16, .rwt⟩, -- POWER_LIMIT
   ⟨0x7000, 0x7000, 0x02, 0x02, 16, .ro⟩, -- POWER_THERM_LIMIT
   ⟨0x7000, 0x7000, 0x03, 0x03, 16, .ro⟩, -- POWER_FIXED
   ⟨0x7000, 0x7000, 0x04, 0x04, 16, .ro⟩, -- POWER_BUDGET
   ⟨0x7000, 0x7000, 0x05, 0x05, 32, .ro⟩, -- POWER_REQUESTED
   ⟨0x7000, 0x7000, 0x06, 0x06, 32, .ro⟩, -- POWER_SCALED
   ⟨0x7000, 0x7000, 0x07, 0x07, 16, .ro⟩, -- POWER_ESTIMATED
   ⟨0x7000, 0x7000, 0x08, 0x08, 32, .rwt⟩, -- STRETCH_MIN
   ⟨0x7000, 0x7000, 0x09, 0x09, 32, .ro⟩, -- STRETCH_LAST
   ⟨0x7000, 0x7000, 0x0A, 0x0A, 64, .ro⟩, -- STRETCH_TOTAL
   ⟨0x7000, 0x7000, 0x0B, 0x0B, 8, .rw⟩, -- PMB_SPEED
   ⟨0x7100, 0x7210, 0x01, 0x01, 16, .ro⟩, -- GRANT
   ⟨0x7100, 0x7210, 0x02, 0x02, 16, .ro⟩, -- REQUEST
   ⟨0x7100, 0x7210, 0x03, 0x03, 32, .ro⟩, -- WITHHELD
   ⟨0x7300, 0x7307, 0x01, 0x01, 8, .rw⟩, -- RAIL_PMB_ADDR
   ⟨0x7300, 0x7307, 0x02, 0x02, 8, .rw⟩, -- RAIL_PMB_PAGE
   ⟨0x7300, 0x7307, 0x03, 0x03, 16, .rwt⟩, -- RAIL_VSET
   ⟨0x7300, 0x7307, 0x04, 0x04, 16, .ro⟩, -- RAIL_VID
   ⟨0x7300, 0x7307, 0x05, 0x05, 16, .ro⟩, -- RAIL_VOUT
   ⟨0x7300, 0x7307, 0x06, 0x06, 16, .ro⟩, -- RAIL_IOUT
   ⟨0x7300, 0x7307, 0x07, 0x07, 16, .ro⟩, -- RAIL_STATUS
   ⟨0x7400, 0x7400, 0x01, 0x01, 8, .rw⟩, -- THERM_THROTTLE_DIE
   ⟨0x7400, 0x7400, 0x02, 0x02, 8, .rw⟩, -- THERM_THROTTLE_STK
   ⟨0x7400, 0x7400, 0x03, 0x03, 8, .ro⟩, -- THERM_SHUTDOWN_DIE
   ⟨0x7400, 0x7400, 0x04, 0x04, 8, .ro⟩, -- THERM_SHUTDOWN_STK
   ⟨0x7400, 0x7400, 0x05, 0x05, 8, .rw⟩, -- THERM_HYST
   ⟨0x7400, 0x7400, 0x06, 0x06, 16, .rw⟩, -- THERM_STEP
   ⟨0x7400, 0x7400, 0x07, 0x07, 32, .ro⟩, -- THERM_HOT_TICKS
   ⟨0x7500, 0x754F, 0x01, 0x01, 32, .ro⟩] -- THERM_TEMP

/-- Port and CWP (17 R535). -/
def dictRows8 : List DictRow :=
  [⟨0x8000, 0x8000, 0x01, 0x01, 8, .rw⟩, -- PORT_MODE
   ⟨0x8000, 0x8000, 0x02, 0x02, 8, .ro⟩, -- PORT_STATE
   ⟨0x8000, 0x8000, 0x03, 0x03, 16, .rw⟩, -- PORT_MAX_FRAME
   ⟨0x8000, 0x8000, 0x04, 0x04, 64, .rw⟩, -- MAC_ADDR
   ⟨0x8000, 0x8000, 0x05, 0x05, 32, .rw⟩, -- IPV4_ADDR
   ⟨0x8000, 0x8000, 0x06, 0x06, 64, .rw⟩, -- IPV6_ADDR_HI
   ⟨0x8000, 0x8000, 0x07, 0x07, 64, .rw⟩, -- IPV6_ADDR_LO
   ⟨0x8000, 0x8000, 0x08, 0x08, 16, .rw⟩, -- CWP_ETHERTYPE
   ⟨0x8000, 0x8000, 0x09, 0x09, 16, .rw⟩, -- CWP_UDP_PORT
   ⟨0x8000, 0x8000, 0x0A, 0x0A, 16, .rw⟩, -- VLAN
   ⟨0x8000, 0x8000, 0x0B, 0x0B, 32, .rw⟩, -- PRIO_MAP
   ⟨0x8000, 0x8000, 0x0C, 0x0C, 8, .rw⟩, -- PFC_ENABLE
   ⟨0x8000, 0x8000, 0x0D, 0x0D, 32, .rw⟩, -- PTP_ASYM
   ⟨0x8000, 0x8000, 0x0E, 0x0E, 32, .ro⟩, -- PORT_RETRY_FAILS
   ⟨0x8000, 0x8000, 0x0F, 0x0F, 64, .ro⟩, -- PORT_RESENDS
   ⟨0x8000, 0x8000, 0x10, 0x10, 64, .ro⟩, -- PORT_FEC_CORRECTED
   ⟨0x8000, 0x8000, 0x11, 0x11, 64, .ro⟩, -- PORT_FEC_UNCORRECTED
   ⟨0x8000, 0x8000, 0x12, 0x12, 64, .ro⟩, -- PORT_DROPPED
   ⟨0x8010, 0x8010, 0x01, 0x01, 16, .rwt⟩, -- CWP_MASTER
   ⟨0x8010, 0x8010, 0x02, 0x02, 16, .rw⟩, -- REASSEMBLY_TIMEOUT
   ⟨0x8010, 0x8010, 0x03, 0x03, 64, .rwt⟩, -- COMP_RING_BASE
   ⟨0x8010, 0x8010, 0x04, 0x04, 16, .rwt⟩, -- COMP_RING_COUNT
   ⟨0x8010, 0x8010, 0x05, 0x05, 64, .ro⟩, -- REQ_ASSIGNED
   ⟨0x8010, 0x8010, 0x06, 0x06, 64, .ro⟩, -- DUP_REPLIES
   ⟨0x8010, 0x8010, 0x07, 0x07, 32, .ro⟩, -- DUP_DISCARDS
   ⟨0x8010, 0x8010, 0x08, 0x08, 32, .ro⟩, -- STALE_REFUSED
   ⟨0x8010, 0x8010, 0x09, 0x09, 32, .ro⟩, -- COMP_LOST
   ⟨0x8400, 0x87FF, 0x01, 0x01, 64, .rw⟩, -- PEER_MAC
   ⟨0x8400, 0x87FF, 0x02, 0x02, 32, .rw⟩, -- PEER_IPV4
   ⟨0x8400, 0x87FF, 0x03, 0x03, 64, .rw⟩, -- PEER_IPV6_HI
   ⟨0x8400, 0x87FF, 0x04, 0x04, 64, .rw⟩, -- PEER_IPV6_LO
   ⟨0x8400, 0x87FF, 0x05, 0x05, 8, .rw⟩, -- PEER_ENCAP
   ⟨0x8400, 0x87FF, 0x06, 0x06, 16, .rw⟩, -- PEER_UDP_PORT
   ⟨0x8800, 0x8800, 0x01, 0x01, 64, .rw⟩, -- EVENT_MAC
   ⟨0x8800, 0x8800, 0x02, 0x02, 32, .rw⟩, -- EVENT_IPV4
   ⟨0x8800, 0x8800, 0x03, 0x03, 64, .rw⟩, -- EVENT_IPV6_HI
   ⟨0x8800, 0x8800, 0x04, 0x04, 64, .rw⟩, -- EVENT_IPV6_LO
   ⟨0x8800, 0x8800, 0x05, 0x05, 8, .rw⟩, -- EVENT_ENCAP
   ⟨0x8800, 0x8800, 0x06, 0x06, 16, .rw⟩] -- EVENT_UDP_PORT

/-- Update units (14 R447). -/
def dictRows9 : List DictRow :=
  [⟨0x9000, 0x9000, 0x01, 0x01, 8, .ro⟩, -- UPD_SAT_LATCH
   ⟨0x9000, 0x9000, 0x02, 0x02, 32, .ro⟩, -- UPD_SAT_SKIPS
   ⟨0x9100, 0x9107, 0x01, 0x01, 64, .rwt⟩, -- UPD_LIST_ADDR
   ⟨0x9100, 0x9107, 0x02, 0x02, 16, .rwt⟩, -- UPD_LIST_COUNT
   ⟨0x9100, 0x9107, 0x03, 0x03, 64, .ro⟩, -- UPD_CMDS_DONE
   ⟨0x9100, 0x9107, 0x04, 0x04, 32, .ro⟩, -- UPD_CMDS_REFUSED
   ⟨0x9100, 0x9107, 0x05, 0x05, 32, .ro⟩, -- UPD_ROWS_BAD
   ⟨0x9100, 0x9107, 0x06, 0x06, 64, .ro⟩] -- UPD_BUSY_CYCLES

/-- Nickel, boot, identity, extension (19, 20, 09). -/
def dictRowsA : List DictRow :=
  [⟨0xA000, 0xA000, 0x01, 0x01, 64, .wo⟩, -- NICKEL_SUBMIT_SHORT
   ⟨0xA000, 0xA000, 0x02, 0x02, 64, .wo⟩, -- NICKEL_SUBMIT_LONG
   ⟨0xA000, 0xA000, 0x03, 0x03, 8, .ro⟩, -- NICKEL_STATE
   ⟨0xA000, 0xA000, 0x04, 0x04, 8, .ro⟩, -- NICKEL_SHORT_QUEUED
   ⟨0xA000, 0xA000, 0x05, 0x05, 8, .ro⟩, -- NICKEL_LONG_QUEUED
   ⟨0xA000, 0xA000, 0x06, 0x06, 64, .ro⟩, -- NICKEL_JOBS_DONE
   ⟨0xA000, 0xA000, 0x07, 0x07, 32, .ro⟩, -- NICKEL_JOBS_REFUSED
   ⟨0xA000, 0xA000, 0x08, 0x08, 64, .ro⟩, -- NICKEL_YIELDS
   ⟨0xA000, 0xA000, 0x09, 0x09, 64, .ro⟩, -- NICKEL_SEALED_JOBS
   ⟨0xA100, 0xA100, 0x01, 0x01, 8, .ro⟩, -- BOOT_MODE_STRAP
   ⟨0xA100, 0xA100, 0x02, 0x02, 32, .ro⟩, -- BOOT_ATTEMPTS
   ⟨0xA100, 0xA100, 0x03, 0x03, 64, .ro⟩, -- BOOT_SERVER_USED
   ⟨0xA100, 0xA100, 0x04, 0x04, 32, .ro⟩, -- FW_VERSION
   ⟨0xA100, 0xA100, 0x05, 0x05, 8, .ro⟩, -- FW_SECURITY_VERSION
   ⟨0xA100, 0xA100, 0x06, 0x0D, 64, .ro⟩, -- FW_MEASURE_k
   ⟨0xA110, 0xA110, 0x01, 0x04, 64, .rw⟩, -- OWNER_KEY_k
   ⟨0xA110, 0xA110, 0x05, 0x05, 32, .wo⟩, -- OWNER_ENROL
   ⟨0xA110, 0xA110, 0x06, 0x06, 8, .ro⟩, -- OWNER_STATE
   ⟨0xA110, 0xA110, 0x07, 0x07, 8, .ro⟩, -- MIN_SECURITY_VERSION
   ⟨0xA110, 0xA110, 0x08, 0x08, 8, .wo⟩, -- SECVER_RAISE
   ⟨0xA120, 0xA120, 0x01, 0x04, 64, .ro⟩, -- IDENTITY_PUB_k
   ⟨0xA120, 0xA120, 0x05, 0x05, 64, .wo⟩, -- ATTEST_REQUEST
   ⟨0xA120, 0xA120, 0x06, 0x06, 32, .ro⟩, -- ATTEST_COUNT
   ⟨0xA120, 0xA120, 0x07, 0x07, 8, .ro⟩, -- JTAG_OPENED
   ⟨0xA300, 0xA300, 0x01, 0x01, 8, .ro⟩, -- LIB_EXT_STATE
   ⟨0xA300, 0xA300, 0x02, 0x02, 64, .wo⟩, -- LIB_EXT_LOAD
   ⟨0xA300, 0xA300, 0x03, 0x03, 64, .ro⟩, -- LIB_EXT_DIGEST
   ⟨0xA300, 0xA300, 0x04, 0x04, 16, .ro⟩, -- LIB_EXT_ROUTINES
   ⟨0xA300, 0xA300, 0x05, 0x05, 32, .ro⟩, -- LIB_EXT_OVER
   ⟨0xA300, 0xA300, 0x06, 0x06, 64, .ro⟩] -- LIB_EXT_TICK

/-- The rows of an index, by its leading digit. -/
def dictRowsOf (idx : Nat) : List DictRow :=
  match idx / 4096 with
  | 0x1 => dictRows1
  | 0x2 => dictRows2
  | 0x3 => dictRows3
  | 0x4 => dictRows4
  | 0x5 => dictRows5
  | 0x6 => dictRows6
  | 0x7 => dictRows7
  | 0x8 => dictRows8
  | 0x9 => dictRows9
  | 0xA => dictRowsA
  | _ => []

def DictRow.covers (r : DictRow) (idx sub : Nat) : Bool :=
  r.i0 ≤ idx && idx ≤ r.i1 && r.s0 ≤ sub && sub ≤ r.s1

/-- The index exists (18 R552). -/
def indexExists (idx : Nat) : Bool := (dictRowsOf idx).any fun r => r.i0 ≤ idx && idx ≤ r.i1

/-- The highest subindex in use at an index: what subindex 0x00 reads (18 R536). -/
def highestSub (idx : Nat) : Nat :=
  (dictRowsOf idx).foldl (fun m r => if r.i0 ≤ idx && idx ≤ r.i1 then max m r.s1 else m) 0

/-- The row of an entry; subindex 0x00 of an index that exists is a u8, ro (18 R536). -/
def dictRow (idx sub : Nat) : Option DictRow :=
  if sub = 0 then (if indexExists idx then some ⟨idx, idx, 0, 0, 8, .ro⟩ else none)
  else (dictRowsOf idx).find? (·.covers idx sub)

/-- The width of an entry's type; 64 where there is none. -/
def dictWidth (idx sub : Nat) : Nat := ((dictRow idx sub).map (·.width)).getD 64
/-! ### Defaults -/

/-- Nominal or fused voltage of a rail in mV (22 R624, R657). -/
def railNominal (j : Nat) : Nat :=
  match j with
  | 0 => (Config.railVid 0).toNat
  | 1 => (Config.railVid 1).toNat
  | 2 => 700
  | 3 => 1100
  | 4 => 750
  | 5 => 750
  | 6 => 1200
  | _ => 1800

/-- Default reaction set for uncorrected-contained faults of a source (21 R605). -/
def reactUcDefault (i : Nat) : Nat :=
  if i = 0x05 || i = 0x0D then 5 else if i = 0x17 || i = 0x18 || i = 0x19 then 0 else 1

/-- The defaults that are not zero, for the indices that occur once. -/
def plainDefault (idx sub : Nat) : Nat :=
  match idx, sub with
  | 0x1000, 1 => 0x504C5953
  | 0x1000, 2 => 0x7200
  | 0x1000, 3 => 0xA0
  | 0x1000, 4 => Config.serial.toNat
  | 0x1000, 5 => 1
  | 0x1000, 6 => 6
  | 0x1000, 7 => 6
  | 0x1030, 1 => 256
  | 0x1030, 2 => 4096
  | 0x1030, 3 => 8
  | 0x1030, 4 => 103079215360
  | 0x1030, 5 => 1050000
  | 0x1030, 6 => 16
  | 0x1030, 7 => 8192
  | 0x1030, 8 => 2048
  | 0x1030, 9 => 1024
  | 0x2000, 4 => 1050000
  | 0x2000, 6 => 8192
  | 0x2020, 2 => 2
  | 0x2040, 1 => 1
  | 0x2070, 2 => 0xFFFF
  | 0x2070, 4 => 1
  | 0x3001, 1 => 262144
  | 0x3300, 1 => 25
  | 0x4000, 1 => 96
  | 0x4000, 8 => 24
  | 0x4100, 2 => 96
  | 0x5800, 2 => 100
  | 0x5800, 3 => 50
  | 0x5800, 4 => 2
  | 0x7000, 1 => 3000
  | 0x7000, 2 => 3400
  | 0x7000, 3 => 200
  | 0x7400, 1 => 100
  | 0x7400, 2 => 90
  | 0x7400, 3 => 115
  | 0x7400, 4 => 105
  | 0x7400, 5 => 5
  | 0x7400, 6 => 100
  | 0x8000, 3 => 9216
  | 0x8000, 4 => Config.macAddr.toNat
  | 0x8000, 8 => 0x88B5
  | 0x8000, 9 => 47266
  | 0x8000, 10 => 0xFFFF
  | 0x8000, 11 => 0x6543
  | 0x8000, 12 => 0x78
  | 0x8010, 2 => 100
  | _, _ => 0

/-- The default of an entry: the value that a chip reset sets (18 R541). -/
def regDefault (idx sub : Nat) : BitVec 64 :=
  let f := idx / 256
  BitVec.ofNat 64 <|
    if f = 0x31 then (if sub = 2 then 0x180C else 0)
    else if f = 0x32 then (if sub = 3 then 131072 else 0)
    else if f = 0x51 then (if sub = 4 then 0xFF else if sub = 6 then 16 else if sub = 9 then 1 else 0)
    else if f = 0x61 then (if sub = 2 then reactUcDefault (idx - 0x6100) else 0)
    else if f = 0x73 then
      (if sub = 1 then 0x40 + (idx - 0x7300) else if sub = 3 || sub = 4 then railNominal (idx - 0x7300) else 0)
    else if 0x8400 ≤ idx && idx ≤ 0x8800 then (if sub = 5 then 0xFF else if sub = 6 then 47266 else 0)
    else if 0x1041 ≤ idx && idx ≤ 0x1048 then (if sub = 1 then 0xFF else 0)
    else if 0x2080 ≤ idx && idx ≤ 0x2083 then (if sub = 3 then 0xFFFF else 0)
    else plainDefault idx sub

end Sys2Proof.Machine
end

