-- ==== Sys2Proof/Machine/Ops.lean ====
section
/-! DEFINITION. The named operations over tables, byte strings, registers, memory, the address map and raised faults.
Every meaning reaches the state through these. -/

namespace Sys2Proof.Machine

/-! ### Sparse tables -/

/-- The value listed under a key, else the given default. -/
def tget {α : Type} (t : Tbl α) (k : Nat) (dflt : α) : α :=
  match t with
  | [] => dflt
  | (j, v) :: r => if j = k then v else tget r k dflt

/-- The value listed under a key. -/
def tfind {α : Type} (t : Tbl α) (k : Nat) : Option α :=
  match t with
  | [] => none
  | (j, v) :: r => if j = k then some v else tfind r k

/-- List a value under a key, in the place that keeps the keys rising. -/
def tset {α : Type} (t : Tbl α) (k : Nat) (v : α) : Tbl α :=
  match t with
  | [] => [(k, v)]
  | (j, w) :: r => if k < j then (k, v) :: (j, w) :: r else if k = j then (k, v) :: r else (j, w) :: tset r k v

/-- Take a key out of the list. -/
def tdel {α : Type} (t : Tbl α) (k : Nat) : Tbl α := t.filter fun p => p.1 ≠ k

/-! ### Byte strings (00 R3, R4) -/

/-- The number that a little-endian byte string holds. -/
def leNat (bs : List Byte) : Nat :=
  match bs with
  | [] => 0
  | b :: r => b.toNat + 256 * leNat r

/-- The number that a big-endian byte string holds. -/
def beNat (bs : List Byte) : Nat := bs.foldl (fun n b => 256 * n + b.toNat) 0

/-- `n` little-endian bytes of a number. -/
def leBytes (n v : Nat) : List Byte :=
  match n with
  | 0 => []
  | k + 1 => BitVec.ofNat 8 v :: leBytes k (v / 256)

/-- `n` big-endian bytes of a number. -/
def beBytes (n v : Nat) : List Byte := (leBytes n v).reverse

/-- Bits [lo + w - 1 : lo] of a number. -/
def bitsAt (v lo w : Nat) : Nat := (v >>> lo) % 2 ^ w

/-- Bits [lo + w - 1 : lo] of a little-endian record, numbered as a field map numbers them. -/
def fld (bs : List Byte) (lo w : Nat) : Nat := bitsAt (leNat bs) lo w

/-- A two's complement value of `w` bits as an integer. -/
def signed (v w : Nat) : Int := if v % 2 ^ w < 2 ^ (w - 1) then (v % 2 ^ w : Nat) else (v % 2 ^ w : Nat) - (2 ^ w : Nat)

/-- An integer modulo 2^w. -/
def wrapInt (x : Int) (w : Nat) : Nat := (x % (2 ^ w : Nat)).toNat

/-- A record of `n` bytes from its fields (low bit, width, value); bits that no field names are zero (00 R5). -/
def mkRecord (n : Nat) (fields : List (Nat × Nat × Nat)) : List Byte :=
  leBytes n (fields.foldl (fun acc f => acc + (f.2.2 % 2 ^ f.2.1) <<< f.1) 0)

def zeroBytes (n : Nat) : List Byte := List.replicate n 0

/-! ### Memory -/

/-- What one address reads as: its listed byte, else zero (08 R241, 10 R335, 13 R408). -/
def Memory.byte (m : Memory) (a : Nat) : Byte :=
  match m.cells.find? (fun c => c.1 == a) with
  | some c => c.2
  | none => 0

/-- The bytes from `a` on, read along cells that begin at or above `a`. -/
def readRun (n a : Nat) (cells : List Host.Cell) : List Byte :=
  match n with
  | 0 => []
  | k + 1 =>
    match cells with
    | [] => 0 :: readRun k (a + 1) []
    | c :: r => if c.1 = a then c.2 :: readRun k (a + 1) r else 0 :: readRun k (a + 1) (c :: r)

/-- `n` bytes from address `a`. -/
def Memory.read (m : Memory) (a n : Nat) : List Byte :=
  readRun n a (m.cells.filter fun c => a ≤ c.1 && c.1 < a + n)

/-- The cells that list a byte string laid down at `a`: zero bytes are not listed. -/
def cellsOf (a : Nat) (bs : List Byte) : List Host.Cell :=
  match bs with
  | [] => []
  | b :: r => if b = 0 then cellsOf (a + 1) r else (a, b) :: cellsOf (a + 1) r

/-- Lay a byte string down at `a`. -/
def Memory.write (m : Memory) (a : Nat) (bs : List Byte) : Memory :=
  { m with cells := (m.cells.filter fun c => c.1 < a) ++ cellsOf a bs ++ m.cells.filter fun c => a + bs.length ≤ c.1 }

/-- Make `n` bytes from `a` read as zero. -/
def Memory.clear (m : Memory) (a n : Nat) : Memory :=
  { cells := m.cells.filter fun c => c.1 < a || a + n ≤ c.1,
    upsets := m.upsets.filter fun u => u.addr < a || a + n ≤ u.addr,
    poison := m.poison.filter fun g => g < a || a + n ≤ g }

/-- Keys strictly above `lo` (if any), rising, no zero byte. -/
def cellsWf (lo : Option Nat) (cells : List Host.Cell) : Bool :=
  match cells with
  | [] => true
  | c :: r => (match lo with | none => true | some l => l < c.1) && c.2 ≠ 0 && cellsWf (some c.1) r

/-- The canonical form of memory: addresses strictly rising and no entry equal to what an unlisted address reads as. -/
def Memory.wf (m : Memory) : Bool := cellsWf none m.cells

/-! ### Device shorthands -/

def Dev.rd (d : Dev) (a n : Nat) : List Byte := d.mem.read a n
def Dev.wr (d : Dev) (a : Nat) (bs : List Byte) : Dev := { d with mem := d.mem.write a bs }

/-- An unsigned little-endian field of `n` bytes in memory. -/
def Dev.rdLe (d : Dev) (a n : Nat) : Nat := leNat (d.rd a n)

/-- A dictionary entry's live value (18 R542). -/
def Dev.reg (d : Dev) (idx sub : Nat) : Nat := (tget d.regs (idx * 256 + sub) (regDefault idx sub)).toNat

def Dev.setReg (d : Dev) (idx sub v : Nat) : Dev :=
  { d with regs := tset d.regs (idx * 256 + sub) (BitVec.ofNat 64 v) }

/-- Add to a count that stops at the largest value of its type (18 R540). -/
def Dev.bump (d : Dev) (idx sub n : Nat) : Dev :=
  d.setReg idx sub (min (d.reg idx sub + n) (2 ^ dictWidth idx sub - 1))

def Dev.core (d : Dev) (n : Nat) : Core := tget d.cores n .fresh
def Dev.setCore (d : Dev) (n : Nat) (c : Core) : Dev := { d with cores := tset d.cores n c }
def Dev.modCore (d : Dev) (n : Nat) (f : Core → Core) : Dev := d.setCore n (f (d.core n))
def Dev.cluster (d : Dev) (c : Nat) : Cluster := tget d.clusters c .fresh
def Dev.setCluster (d : Dev) (c : Nat) (x : Cluster) : Dev := { d with clusters := tset d.clusters c x }
def Dev.modCluster (d : Dev) (c : Nat) (f : Cluster → Cluster) : Dev := d.setCluster c (f (d.cluster c))
def Dev.channel (d : Dev) (k : Nat) : Channel := tget d.channels k .fresh
def Dev.setChannel (d : Dev) (k : Nat) (x : Channel) : Dev := { d with channels := tset d.channels k x }
def Dev.updUnit (d : Dev) (m : Nat) : UpdUnit := tget d.upd m .fresh
def Dev.setUpdUnit (d : Dev) (m : Nat) (x : UpdUnit) : Dev := { d with upd := tset d.upd m x }
def Dev.pset (d : Dev) (s : Nat) : PSet := tget d.psets s .fresh
def Dev.setPset (d : Dev) (s : Nat) (x : PSet) : Dev := { d with psets := tset d.psets s x }
def Dev.ctx (d : Dev) (k : Nat) : StreamCtx := tget d.port.contexts k .fresh
def Dev.modTick (d : Dev) (f : Tick → Tick) : Dev := { d with tick := f d.tick }
def Dev.modFaults (d : Dev) (f : Faults → Faults) : Dev := { d with faults := f d.faults }
def Dev.modPort (d : Dev) (f : Port → Port) : Dev := { d with port := f d.port }
def Dev.modSterling (d : Dev) (f : Sterling → Sterling) : Dev := { d with sterling := f d.sterling }
def Dev.modNickel (d : Dev) (f : Nickel → Nickel) : Dev := { d with nickel := f d.nickel }
def Dev.modBoot (d : Dev) (f : Boot → Boot) : Dev := { d with boot := f d.boot }
def Dev.modLib (d : Dev) (f : Library → Library) : Dev := { d with lib := f d.lib }
def Dev.modPower (d : Dev) (f : Power → Power) : Dev := { d with power := f d.power }
def Dev.modPins (d : Dev) (f : Pins → Pins) : Dev := { d with pins := f d.pins }

/-- TICK_NUMBER, FRAME_NUMBER, COUNTER, TICK_RUN, SYSTEM_DEVICE (15 R483, 18 R554). -/
def Dev.tickNumber (d : Dev) : Nat := d.reg 0x2000 0x09
def Dev.frameNumber (d : Dev) : Nat := d.reg 0x2000 0x0A
def Dev.counter (d : Dev) : Nat := d.reg 0x2020 0x01
def Dev.tickRun (d : Dev) : Bool := d.reg 0x2000 0x01 = 1
def Dev.systemDevice (d : Dev) : Nat := d.reg 0x1010 0x01

/-- The running frame's record, changed. -/
def Dev.modFrame (d : Dev) (f : FrameRun → FrameRun) : Dev :=
  d.modTick fun t => { t with frame := t.frame.map f }

/-- A descriptor or status record was written with POISON or POISON_INPUT (17 R529). -/
def Dev.countPoison (d : Dev) (descriptor : Bool) : Dev :=
  d.modFrame fun f => { f with poison := f.poison || descriptor, poisonWrites := f.poisonWrites + 1 }

/-- An operation, stream, job or command was refused (17 R529). -/
def Dev.countRefusal (d : Dev) : Dev := d.modFrame fun f => { f with refusals := f.refusals + 1 }

/-! ### Free values (log entries 1 and 5) -/

/-- Draw one free 64-bit value. -/
def Dev.drawWord (d : Dev) : BitVec 64 × Dev := (Config.freeWord d.draw, { d with draw := d.draw + 1 })

/-- Draw `n` free bytes. -/
def Dev.drawBytes (d : Dev) (n : Nat) : List Byte × Dev :=
  ((List.range n).map fun i => Config.freeByte (d.draw + i), { d with draw := d.draw + n })

/-! ### The address map (10 R304, 08 core window, 13 slabs) -/

def stackEnd : Nat := 0xC000000000
def clusterBase : Nat := 0x10000000000
def clusterEnd : Nat := 0x10040000000
def coreBase : Nat := 0x11000000000
def coreEnd : Nat := 0x11020000000

inductive Region where
  | stack
  | bank (c : Nat) (off : Nat)
  | core (n : Nat) (off : Nat)
  | nowhere
  deriving DecidableEq, Repr

def regionOf (a : Nat) : Region :=
  if a < stackEnd then .stack
  else if clusterBase ≤ a ∧ a < clusterEnd then .bank ((a - clusterBase) / 0x400000) ((a - clusterBase) % 0x400000)
  else if coreBase ≤ a ∧ a < coreEnd then .core ((a - coreBase) / 0x20000) ((a - coreBase) % 0x20000)
  else .nowhere

def clusterAddr (c off : Nat) : Nat := clusterBase + c * 0x400000 + off
def coreAddr (n off : Nat) : Nat := coreBase + n * 0x20000 + off

/-- The range lies wholly in the stack range. -/
def inStack (a n : Nat) : Bool := a + n ≤ stackEnd

/-- The start of each granule's part of a range: its first byte, then every granule boundary inside it. -/
def pieces (a n : Nat) : List Nat :=
  if n = 0 then []
  else a :: (List.range ((a + n - 1) / 256 - a / 256)).map fun i => (a / 256 + 1 + i) * 256

/-- The granules that a range touches. -/
def granules (a n : Nat) : List Nat := (pieces a n).map fun p => p / 256 * 256

/-! ### Slabs (13 R402-R406) -/

/-- Class and mode of a slab under the live region table (13 R402, R404, R406). -/
def Dev.slabClass (d : Dev) (s : Nat) : Option (Nat × Nat) :=
  (List.range 32).findSome? fun r =>
    let i := 0x4100 + r
    if d.reg i 1 ≤ s ∧ s < d.reg i 1 + d.reg i 2 then some (d.reg i 3, d.reg i 4) else none

/-- Usable bytes of a slab of a class (13 R404). -/
def usableBytes (cls : Nat) : Nat := if cls = 0 then 0x1E0000000 else 0x1F8000000

/-- Every slab of a range lies in a region of a class. -/
def Dev.slabsAre (d : Dev) (cls a n : Nat) : Bool :=
  (List.range ((a + n - 1) / 0x200000000 - a / 0x200000000 + 1)).all fun i =>
    (d.slabClass (a / 0x200000000 + i)).map (·.1) = some cls

/-- Cause of the refusal of a stack access at an address (13 R410): 0 unmapped, 1 check area, 2 initialising. -/
def Dev.stackCause (d : Dev) (a : Nat) : Option Nat :=
  match d.slabClass (a / 0x200000000) with
  | none => some 0
  | some (cls, _) =>
    if usableBytes cls ≤ a % 0x200000000 then some 1
    else if d.stk.initialising.contains (a / 0x200000000) then some 2 else none

/-- The stack that a usable address maps to (13 R406). -/
def Dev.stackOf (d : Dev) (a : Nat) : Nat :=
  let u := a % 0x200000000
  match d.slabClass (a / 0x200000000) with
  | some (cls, 2) => u / (usableBytes cls / 8)
  | some (_, 1) => u / 65536 % 8
  | _ => u / 4096 % 8

/-- The slab lies in a correct region. -/
def Dev.correctAt (d : Dev) (a : Nat) : Bool :=
  match d.slabClass (a / 0x200000000) with
  | some (0, _) => true
  | _ => false

/-! ### Faults (21 R605, R616) -/

/-- The block that a source's faults belong to, by UNIT (21 R605). -/
def sourceBlock (src unit : Nat) : Option Block :=
  match src with
  | 0x02 => some (.cluster (unit / 16))
  | 0x03 => some (.cluster (unit / 16))
  | 0x05 => some (.cluster unit)
  | 0x08 => some (.channel unit)
  | 0x09 => some (.electrum unit)
  | 0x0A => some (.cluster unit)
  | 0x0B => some (.cluster unit)
  | 0x0C => some (.update unit)
  | _ => none

/-- A block is in reset. The block of an Electrum unit takes in its 16 clusters (21 R605). -/
def Faults.holds (x : Faults) (b : Block) : Bool :=
  x.inReset.contains b || (match b with
    | .cluster c => x.inReset.contains (.electrum (c / 16))
    | _ => false)

/-- A fault as the unit that meets it hands it to the collector; a block in reset raises none (21 R616). -/
def Dev.raise (d : Dev) (f : RaisedFault) : Dev :=
  let g := { f with raisedAt := d.clock }
  match f.block with
  | some b => if d.faults.holds b then d
              else d.modFaults fun x => { x with raised := x.raised ++ [g] }
  | none => d.modFaults fun x => { x with raised := x.raised ++ [g] }

/-- An uncorrected-contained fault of a source. -/
def Dev.faultUc (d : Dev) (src unit addr : Nat) (reason status : BitVec 8) (detail : Nat) : Dev :=
  d.raise { source := BitVec.ofNat 8 src, cls := 1, unit := BitVec.ofNat 16 unit, addr := BitVec.ofNat 48 addr,
            reason := reason, status := status, detail := BitVec.ofNat 64 detail, block := sourceBlock src unit,
            forced := false }

/-- A corrected fault of a source. -/
def Dev.faultCorr (d : Dev) (src unit addr detail : Nat) : Dev :=
  d.raise { source := BitVec.ofNat 8 src, cls := 0, unit := BitVec.ofNat 16 unit, addr := BitVec.ofNat 48 addr,
            reason := 0, status := 0, detail := BitVec.ofNat 64 detail, block := sourceBlock src unit,
            forced := false }

/-- A fatal fault of a source. -/
def Dev.faultFatal (d : Dev) (src unit : Nat) : Dev :=
  d.raise { source := BitVec.ofNat 8 src, cls := 2, unit := BitVec.ofNat 16 unit, addr := 0, reason := 0, status := 0,
            detail := 0, block := none, forced := false }

/-! ### Errors in stored data (13 R412-R417, 10 R333) -/

/-- A stored error that its reader cannot correct. -/
def Dev.fatalUpset (d : Dev) (u : Upset) : Bool :=
  u.kind = .uncorrectable || (decide (u.addr < stackEnd) && !d.correctAt u.addr)

/-- Add stored errors that the next reads will meet. The word that an error spoils beyond correction holds free bytes
(log entry 20). -/
def Dev.addUpsets (d : Dev) (us : List Upset) : Dev :=
  us.foldl (fun d u =>
    let d := { d with mem := { d.mem with upsets := d.mem.upsets ++ [u] } }
    if d.fatalUpset u then
      let (bs, d) := d.drawBytes 8
      d.wr (u.addr / 8 * 8) bs
    else d) d

/-- Add counts of granules read (sub 6) or written (sub 7) to the controllers (13 R419). -/
def Dev.countGranules (d : Dev) (sub : Nat) (gs : List Nat) : Dev :=
  (List.range 8).foldl (fun d k =>
    let n := (gs.filter fun g => d.stackOf g = k).length
    if n = 0 then d else d.bump (0x4200 + k) sub n) d

/-- A stack granule is read: errors are corrected or met (13 R414-R417). `blk` is the requesting cluster when the
requester is a core access stream. True: the delivery is bad. -/
def Dev.meetGranule (d : Dev) (blk : Option Block) (g : Nat) : Dev × Bool :=
  if d.mem.poison.contains g then (d, true)
  else match d.mem.upsets.find? (fun u => u.addr / 256 * 256 == g && u.addr < stackEnd) with
    | none => (d, false)
    | some u =>
      let k := d.stackOf g
      let d := { d with mem := { d.mem with upsets := d.mem.upsets.filter fun v => v.addr / 256 * 256 ≠ g } }
      if u.kind = .correctable ∧ d.correctAt g then
        ((d.bump (0x4200 + k) 1 1).raise
          { source := 0x0D, cls := 0, unit := BitVec.ofNat 16 k, addr := BitVec.ofNat 48 g, reason := 0, status := 0,
            detail := 0, block := none, forced := false }, false)
      else
        let d := ((d.bump (0x4200 + k) 2 1).setReg (0x4200 + k) 3 g).setReg (0x4200 + k) 4 d.tickNumber
        let d := { d with mem := { d.mem with poison := d.mem.poison ++ [g] } }
        (d.raise { source := 0x0D, cls := 1, unit := BitVec.ofNat 16 k, addr := BitVec.ofNat 48 g, reason := 0,
                   status := 0, detail := 0, block := blk, forced := false }, true)

/-- A word of a bank is read: a corrected error is counted and recorded, an uncorrectable one recorded (10 R333). -/
def Dev.meetWord (d : Dev) (c : Nat) (u : Upset) : Dev :=
  match u.kind with
  | .correctable =>
    (({ d with mem := { d.mem with upsets := d.mem.upsets.filter (· ≠ u) } }).bump (0x3100 + c) 0x0F 1).faultCorr
      0x05 c (u.addr / 8 * 8) 0
  | .uncorrectable => d.faultUc 0x05 c (u.addr / 8 * 8) 0 0 0

/-- Words of a range with a stored error. -/
def Dev.upsetsIn (d : Dev) (a n : Nat) : List Upset :=
  d.mem.upsets.filter fun u => a < u.addr / 8 * 8 + 8 && u.addr / 8 * 8 < a + n

/-- A performed read of a range that lies in one region: the bytes, and whether the delivery is bad (13 R416). -/
def Dev.fetch (d : Dev) (blk : Option Block) (a n : Nat) : Dev × List Byte × Bool :=
  match regionOf a with
  | .stack =>
    let gs := granules a n
    let (d, bad) := gs.foldl (fun (p : Dev × Bool) g =>
      let (d, b) := p.1.meetGranule blk g
      (d, p.2 || b)) (d, false)
    (d.countGranules 6 gs, d.rd a n, bad)
  | .bank c _ =>
    let us := d.upsetsIn a n
    (us.foldl (fun d u => d.meetWord c u) d, d.rd a n, us.any fun u => u.kind = .uncorrectable)
  | _ => (d, d.rd a n, false)

/-- A performed write of a range that lies in one region. A granule written in part is read first (13 R412, R417). -/
def Dev.store (d : Dev) (blk : Option Block) (a : Nat) (bs : List Byte) : Dev :=
  let n := bs.length
  match regionOf a with
  | .stack =>
    let gs := granules a n
    let whole := gs.filter fun g => a ≤ g && g + 256 ≤ a + n
    let part := gs.filter fun g => !(a ≤ g && g + 256 ≤ a + n)
    let d := part.foldl (fun d g => (d.meetGranule blk g).1) d
    let d := { d with mem := { d.mem with
      poison := d.mem.poison.filter fun g => !whole.contains g,
      upsets := d.mem.upsets.filter fun u => !whole.contains (u.addr / 256 * 256) || stackEnd ≤ u.addr } }
    ((d.countGranules 6 part).countGranules 7 gs).wr a bs
  | .bank _ _ =>
    { d with mem := { d.mem with
        upsets := d.mem.upsets.filter fun u => !(a ≤ u.addr / 8 * 8 && u.addr / 8 * 8 + 8 ≤ a + n) } }.wr a bs
  | _ => d.wr a bs

/-! ### Who may access what (08 R239, R240, 10 R318-R332, 13 R410) -/

/-- The requester belongs to those that an owner code admits to a bank of cluster `c` (10 R318). -/
def Requester.admittedBy (r : Requester) (c owner : Nat) : Bool :=
  match r with
  | .stream n => n / 16 = c && (owner = n % 16 || owner = 0x10)
  | .library cs => cs.contains c && owner ≤ 0x10
  | .limb cs => cs.contains c && owner ≤ 0x10
  | .bronze cs => cs.contains c && owner ≤ 0x10
  | .vector c' k => c' = c && (owner = k || owner = 0x10)
  | .dma c' => c' = c && owner = 0x1F
  | .host => owner = 0x1F

/-- The code that SP_VIOL_ADDR gives a requester (10 R336). -/
def Requester.code (r : Requester) : Nat :=
  match r with
  | .stream n => n % 16
  | .library _ => 0x10
  | .limb _ => 0x1D
  | .bronze _ => 0x1E
  | .vector _ k => k
  | .dma _ => 0x1F
  | .host => 0x1F

inductive AccessKind where
  | read | write | accumulate
  deriving DecidableEq, Repr

def AccessKind.code (k : AccessKind) : Nat :=
  match k with
  | .read => 0
  | .write => 1
  | .accumulate => 2

def Dev.bankOwner (d : Dev) (c b : Nat) : Nat := (tget (d.cluster c).owners b 0x1F).toNat
def Dev.bankPower (d : Dev) (c b : Nat) : BankPower := tget (d.cluster c).power b .on

/-- First bank of A and first bank of P under the live mode and division (10 R304, R328). -/
def Dev.division (d : Dev) (c : Nat) : Nat × Nat :=
  if d.reg (0x3100 + c) 1 = 1 then (bitsAt (d.reg (0x3100 + c) 2) 0 6, bitsAt (d.reg (0x3100 + c) 2) 8 6)
  else (12, 24)

/-- Why an access is not performed. -/
inductive Problem where
  | wait
  | stack (addr cause : Nat)
  | bank (c addr cause : Nat)
  | core (n addr : Nat)
  | nowhere
  deriving DecidableEq, Repr

/-- The handover in progress that names a bank (10 R324). -/
def Dev.handoverOf (d : Dev) (c b : Nat) : Option Handover :=
  (d.cluster c).handovers.find? fun h => h.banks.getLsbD b

/-- A bank's answer (10 R319, R324, R332, R318, R317). -/
def Dev.bankProblem (d : Dev) (r : Requester) (k : AccessKind) (c off a : Nat) : Option Problem :=
  let b := off / 0x20000
  match d.bankPower c b with
  | .off => some (.bank c a 1)
  | .retention => some (.bank c a 1)
  | .waking => some .wait
  | .on =>
    match d.handoverOf c b with
    | some h =>
      if r.admittedBy c h.owner.toNat then some .wait
      else if r.admittedBy c (d.bankOwner c b) then some (.bank c a 3) else some (.bank c a 0)
    | none =>
      if !r.admittedBy c (d.bankOwner c b) then some (.bank c a 0)
      else if k = .accumulate ∧ b < (d.division c).2 then some (.bank c a 2) else none

/-- What stands against an access to the byte at `a`. -/
def Dev.problemAt (d : Dev) (r : Requester) (k : AccessKind) (a : Nat) : Option Problem :=
  match regionOf a with
  | .stack => (d.stackCause a).map (Problem.stack a)
  | .bank c off => d.bankProblem r k c off a
  | .core n off =>
    let x := d.core n
    if 0x18000 ≤ off then some (.core n a)
    else if k ≠ .read ∧ x.frame = .inFrame ∧ 0x10000 ≤ off ∧ (off - 0x10000) / 0x4000 = (if x.half then 1 else 0) then
      some (.core n a)
    else none
  | .nowhere => some .nowhere

/-- The first thing that stands against an access to a range. -/
def Dev.problemIn (d : Dev) (r : Requester) (k : AccessKind) (a n : Nat) : Option Problem :=
  (pieces a n).findSome? fun p => d.problemAt r k p

/-- Record a refused transfer and raise its fault (08 R239, R240, 10 R321, 13 R410). -/
def Dev.noteProblem (d : Dev) (r : Requester) (k : AccessKind) (p : Problem) : Dev :=
  match p with
  | .wait => d
  | .nowhere => d
  | .core n a => d.faultUc 0x04 n a 0 0 0
  | .stack a cause =>
    ((d.setReg 0x4000 6 (a + cause <<< 48)).setReg 0x4000 7 d.tickNumber).faultUc 0x0E
      (a % 0x200000000 / 4096 % 8) a 0 0 cause
  | .bank c a cause =>
    let top := r.code + k.code <<< 8 + cause <<< 10
    (((d.setReg (0x3100 + c) 0x0C (a + top <<< 48)).setReg (0x3100 + c) 0x0D d.tickNumber).bump (0x3100 + c) 0x0B 1).faultUc
      0x06 c a 0 0 top

/-- Write a range for a requester. A refusal is recorded and leaves it as it was; a write that has to wait for a bank is kept
until it can be made (10 R320, R324, R332). -/
def Dev.writeAs (d : Dev) (r : Requester) (a : Nat) (bs : List Byte) : Dev :=
  match d.problemIn r .write a bs.length with
  | some .wait => { d with owedWrites := d.owedWrites ++ [(r, a, bs)] }
  | some q => d.noteProblem r .write q
  | none => (pieces a bs.length).foldl (fun d p =>
      d.store none p ((bs.drop (p - a)).take (p / 256 * 256 + 256 - p))) d

/-- Make the writes that have waited for a bank. -/
def Dev.payWrites (d : Dev) : Dev := d.owedWrites.foldl (fun d w => d.writeAs w.1 w.2.1 w.2.2) { d with owedWrites := [] }

/-- Set the POISON byte of a tensor descriptor (11 R373). -/
def Dev.poisonTensor (d : Dev) (r : Requester) (a : Nat) : Dev := (d.writeAs r (a + 121) [1]).countPoison true

end Sys2Proof.Machine
end

