-- ==== Sys2Proof/Machine/Flags.lean ====
section
/-! DEFINITION. Status codes, and the status words that the device derives from its state when they are read. -/

namespace Sys2Proof.Machine

/-! ### Status codes (00 R7) -/

def stOk : BitVec 8 := 0x00
def stDuplicate : BitVec 8 := 0x01
def stKeyMismatch : BitVec 8 := 0x10
def stBudget : BitVec 8 := 0x11
def stUnderflow : BitVec 8 := 0x12
def stUncommitted : BitVec 8 := 0x13
def stMismatch : BitVec 8 := 0x14
def stBounds : BitVec 8 := 0x20
def stOverlap : BitVec 8 := 0x21
def stNotOwner : BitVec 8 := 0x22
def stBusy : BitVec 8 := 0x23
def stAborted : BitVec 8 := 0x30
def stTorn : BitVec 8 := 0x31
def stPoison : BitVec 8 := 0x40
def stOverrun : BitVec 8 := 0x41
def stNotOnCurve : BitVec 8 := 0x50
def stDivZero : BitVec 8 := 0x51
def stUnreduced : BitVec 8 := 0x52
def stPeerFail : BitVec 8 := 0x60

/-! ### Words of the dictionary that show state held elsewhere -/

/-- A bit as a number. -/
def bit (b : Bool) : Nat := if b then 1 else 0

/-- SP_OWNER_k: owner codes of banks 8k to 8k + 7, one a byte (10 R336). -/
def Dev.ownerWord (d : Dev) (c k : Nat) : Nat :=
  (List.range 8).foldl (fun v b => v + d.bankOwner c (8 * k + b) <<< (8 * b)) 0

def BankPower.code (p : BankPower) : Nat :=
  match p with
  | .on => 0
  | .retention => 1
  | .off => 2
  | .waking => 3

/-- SP_POWER_STATE (10 R336). -/
def Dev.powerWord (d : Dev) (c : Nat) : Nat :=
  (List.range 32).foldl (fun v b => v + (d.bankPower c b).code <<< (2 * b)) 0

/-- An entry holds a pending value. -/
def Dev.hasPending (d : Dev) (idx sub : Nat) : Bool := d.shadow.any fun p => p.1 = idx * 256 + sub

/-- SP_PENDING (10 R336). -/
def Dev.spPending (d : Dev) (c : Nat) : Nat :=
  bit (d.hasPending (0x3100 + c) 1 || d.hasPending (0x3100 + c) 2) + 2 * bit ((d.cluster c).ownQueue ≠ []) +
    4 * bit (d.hasPending (0x3100 + c) 8)

/-- MEM_SLAB_STATE at subindex 3 + k (13 R419). -/
def Dev.slabWord (d : Dev) (k : Nat) : Nat :=
  (List.range 32).foldl (fun v i => v + bit (d.stk.initialising.contains (32 * k + i)) <<< i) 0

/-- PSET_STATE (02 R38). -/
def Dev.psetState (d : Dev) (s : Nat) : Nat :=
  bit ((d.pset s).live ≠ none) + 2 * bit ((d.pset s).waiting ≠ none)

/-- CHAN_STATE while a stream is on the channel (05 R165); 0x03 stays from a failure to the frame's end. -/
def Dev.chanState (d : Dev) (k : Nat) : Nat :=
  match (d.channel k).stream with
  | some s => if s.header = none ∧ d.reg (0x5400 + k) 1 = 3 then 3 else if s.dataPhase then 2 else 1
  | none => d.reg (0x5400 + k) 1

/-- DMA_RUNNING: streams in service of a cluster (11 R377). -/
def Dev.dmaRunning (d : Dev) (c : Nat) : Nat :=
  ((d.cluster c).streams.filter fun s => s.phase = .running || s.phase = .paused).length

/-- SHARE_SESSIONS (07). -/
def Dev.liveSessions (d : Dev) : Nat := (d.sterling.sessions.filter fun s => s.2.live).length

/-- NICKEL_STATE (19 R582). -/
def Dev.nickelState (d : Dev) : Nat :=
  match d.nickel.run with
  | some j => if j.short then 1 else 2
  | none => if d.nickel.sealedWork ≠ [] then 3 else if d.nickel.yielded ≠ none then 2 else 0

/-- DICT_PENDING: entries that hold a pending value now (18 R553). -/
def Dev.dictPending (d : Dev) : Nat :=
  (d.shadow.filter fun p => (dictRow (p.1 / 256) (p.1 % 256)).map (·.right) = some .rwt).length

/-- OWNER_STATE (20): programming while the fuses are being programmed, else enrolled exactly when they hold a hash. -/
def ownerState (f : Fuses) (d : Dev) : Nat :=
  if d.boot.ownerProgramming ≠ none then 1 else if f.ownerKeyHash ≠ 0 then 2 else 0

/-- The number of fuse bits programmed: MIN_SECURITY_VERSION (20 R584, R603). -/
def secverCount (f : Fuses) : Nat := (List.range 63).foldl (fun n i => n + bit (f.secver.getLsbD i)) 0

/-- A frame has been entered and its barrier has passed: its streams, jobs, commands, fills and key streams may start
(15 R453). -/
def Dev.frameOpen (d : Dev) : Bool :=
  match d.tick.frame with
  | some f => f.barrier
  | none => false

/-- ERR_N is asserted (21 R619). -/
def Dev.errN (d : Dev) : Bool := d.reg 0x6000 7 = 1 || d.faults.resetErrn || d.faults.bootErrn

end Sys2Proof.Machine
end

