-- ==== Sys2Proof/Machine/Crypto.lean ====
section
/-! DEFINITION. The published algorithms the device uses: SHA-512 (FIPS 180-4), ChaCha20 and Poly1305 (RFC 8439),
Ed25519 (RFC 8032). All work on byte strings and natural numbers. -/

namespace Sys2Proof.Machine

/-! ### SHA-512 -/

def sha512K0 : List (BitVec 64) :=
  [0x428A2F98D728AE22, 0x7137449123EF65CD, 0xB5C0FBCFEC4D3B2F, 0xE9B5DBA58189DBBC,
   0x3956C25BF348B538, 0x59F111F1B605D019, 0x923F82A4AF194F9B, 0xAB1C5ED5DA6D8118,
   0xD807AA98A3030242, 0x12835B0145706FBE, 0x243185BE4EE4B28C, 0x550C7DC3D5FFB4E2,
   0x72BE5D74F27B896F, 0x80DEB1FE3B1696B1, 0x9BDC06A725C71235, 0xC19BF174CF692694]

def sha512K1 : List (BitVec 64) :=
  [0xE49B69C19EF14AD2, 0xEFBE4786384F25E3, 0x0FC19DC68B8CD5B5, 0x240CA1CC77AC9C65,
   0x2DE92C6F592B0275, 0x4A7484AA6EA6E483, 0x5CB0A9DCBD41FBD4, 0x76F988DA831153B5,
   0x983E5152EE66DFAB, 0xA831C66D2DB43210, 0xB00327C898FB213F, 0xBF597FC7BEEF0EE4,
   0xC6E00BF33DA88FC2, 0xD5A79147930AA725, 0x06CA6351E003826F, 0x142929670A0E6E70]

def sha512K2 : List (BitVec 64) :=
  [0x27B70A8546D22FFC, 0x2E1B21385C26C926, 0x4D2C6DFC5AC42AED, 0x53380D139D95B3DF,
   0x650A73548BAF63DE, 0x766A0ABB3C77B2A8, 0x81C2C92E47EDAEE6, 0x92722C851482353B,
   0xA2BFE8A14CF10364, 0xA81A664BBC423001, 0xC24B8B70D0F89791, 0xC76C51A30654BE30,
   0xD192E819D6EF5218, 0xD69906245565A910, 0xF40E35855771202A, 0x106AA07032BBD1B8]

def sha512K3 : List (BitVec 64) :=
  [0x19A4C116B8D2D0C8, 0x1E376C085141AB53, 0x2748774CDF8EEB99, 0x34B0BCB5E19B48A8,
   0x391C0CB3C5C95A63, 0x4ED8AA4AE3418ACB, 0x5B9CCA4F7763E373, 0x682E6FF3D6B2B8A3,
   0x748F82EE5DEFB2FC, 0x78A5636F43172F60, 0x84C87814A1F0AB72, 0x8CC702081A6439EC,
   0x90BEFFFA23631E28, 0xA4506CEBDE82BDE9, 0xBEF9A3F7B2C67915, 0xC67178F2E372532B]

def sha512K4 : List (BitVec 64) :=
  [0xCA273ECEEA26619C, 0xD186B8C721C0C207, 0xEADA7DD6CDE0EB1E, 0xF57D4F7FEE6ED178,
   0x06F067AA72176FBA, 0x0A637DC5A2C898A6, 0x113F9804BEF90DAE, 0x1B710B35131C471B,
   0x28DB77F523047D84, 0x32CAAB7B40C72493, 0x3C9EBE0A15C9BEBC, 0x431D67C49C100D4C,
   0x4CC5D4BECB3E42B6, 0x597F299CFC657E2A, 0x5FCB6FAB3AD6FAEC, 0x6C44198C4A475817]

def sha512K : List (BitVec 64) := sha512K0 ++ sha512K1 ++ sha512K2 ++ sha512K3 ++ sha512K4

def sha512Init : List (BitVec 64) :=
  [0x6A09E667F3BCC908, 0xBB67AE8584CAA73B, 0x3C6EF372FE94F82B, 0xA54FF53A5F1D36F1,
   0x510E527FADE682D1, 0x9B05688C2B3E6C1F, 0x1F83D9ABFB41BD6B, 0x5BE0CD19137E2179]

def shaMaj (x y z : BitVec 64) : BitVec 64 := (x &&& y) ^^^ (x &&& z) ^^^ (y &&& z)
def shaCh (x y z : BitVec 64) : BitVec 64 := (x &&& y) ^^^ (~~~x &&& z)
def shaS0 (x : BitVec 64) : BitVec 64 := x.rotateRight 28 ^^^ x.rotateRight 34 ^^^ x.rotateRight 39
def shaS1 (x : BitVec 64) : BitVec 64 := x.rotateRight 14 ^^^ x.rotateRight 18 ^^^ x.rotateRight 41
def shaR0 (x : BitVec 64) : BitVec 64 := x.rotateRight 1 ^^^ x.rotateRight 8 ^^^ (x >>> 7)
def shaR1 (x : BitVec 64) : BitVec 64 := x.rotateRight 19 ^^^ x.rotateRight 61 ^^^ (x >>> 6)

/-- The next `n` words of the message schedule, from the last sixteen. -/
def shaSchedule (n : Nat) (w : List (BitVec 64)) : List (BitVec 64) :=
  match n with
  | 0 => []
  | k + 1 =>
    let x := shaR1 (w.getD 14 0) + w.getD 9 0 + shaR0 (w.getD 1 0) + w.getD 0 0
    x :: shaSchedule k (w.drop 1 ++ [x])

def shaRound (v : List (BitVec 64)) (kw : BitVec 64 × BitVec 64) : List (BitVec 64) :=
  match v with
  | [a, b, c, d, e, f, g, h] =>
    let t1 := h + shaS1 e + shaCh e f g + kw.1 + kw.2
    [t1 + shaS0 a + shaMaj a b c, a, b, c, d + t1, e, f, g]
  | _ => v

/-- One 128-byte block. -/
def shaBlock (h : List (BitVec 64)) (block : List Byte) : List (BitVec 64) :=
  let w := (List.range 16).map fun i => BitVec.ofNat 64 (beNat ((block.drop (8 * i)).take 8))
  List.zipWith (· + ·) h ((List.zip sha512K (w ++ shaSchedule 64 w)).foldl shaRound h)

def shaBlocks (n : Nat) (h : List (BitVec 64)) (bs : List Byte) : List (BitVec 64) :=
  match n with
  | 0 => h
  | k + 1 => shaBlocks k (shaBlock h (bs.take 128)) (bs.drop 128)

/-- SHA-512 of a byte string: 64 bytes. -/
def sha512 (msg : List Byte) : List Byte :=
  let n := (msg.length + 17 + 127) / 128
  let padded := msg ++ [0x80] ++ zeroBytes (128 * n - msg.length - 17) ++ beBytes 16 (8 * msg.length)
  (shaBlocks n sha512Init padded).flatMap fun x => beBytes 8 x.toNat

/-! ### ChaCha20 and Poly1305 -/

/-- The quarter round on words a, b, c, d of the state. -/
def chachaQuarter (s : List (BitVec 32)) (a b c d : Nat) : List (BitVec 32) :=
  let va := s.getD a 0 + s.getD b 0
  let vd := (s.getD d 0 ^^^ va).rotateLeft 16
  let vc := s.getD c 0 + vd
  let vb := (s.getD b 0 ^^^ vc).rotateLeft 12
  let va := va + vb
  let vd := (vd ^^^ va).rotateLeft 8
  let vc := vc + vd
  let vb := (vb ^^^ vc).rotateLeft 7
  (((s.set a va).set b vb).set c vc).set d vd

def chachaDouble (s : List (BitVec 32)) : List (BitVec 32) :=
  let s := chachaQuarter (chachaQuarter (chachaQuarter (chachaQuarter s 0 4 8 12) 1 5 9 13) 2 6 10 14) 3 7 11 15
  chachaQuarter (chachaQuarter (chachaQuarter (chachaQuarter s 0 5 10 15) 1 6 11 12) 2 7 8 13) 3 4 9 14

def chachaRounds (n : Nat) (s : List (BitVec 32)) : List (BitVec 32) :=
  match n with
  | 0 => s
  | k + 1 => chachaRounds k (chachaDouble s)

def leWords32 (n : Nat) (bs : List Byte) : List (BitVec 32) :=
  match n with
  | 0 => []
  | k + 1 => BitVec.ofNat 32 (leNat (bs.take 4)) :: leWords32 k (bs.drop 4)

/-- The ChaCha20 block function (RFC 8439 2.3): key of 32 bytes, 32-bit counter, nonce of 12 bytes; 64 bytes. -/
def chachaBlock (key : List Byte) (counter : Nat) (nonce : List Byte) : List Byte :=
  let s := [0x61707865, 0x3320646e, 0x79622d32, 0x6b206574] ++ leWords32 8 key ++ [BitVec.ofNat 32 counter] ++
    leWords32 3 nonce
  (List.zipWith (· + ·) (chachaRounds 10 s) s).flatMap fun x => leBytes 4 x.toNat

/-- `n` bytes of keystream from a starting counter. -/
def chachaStream (key : List Byte) (counter : Nat) (nonce : List Byte) (n : Nat) : List Byte :=
  ((List.range ((n + 63) / 64)).flatMap fun i => chachaBlock key (counter + i) nonce).take n

def xorBytes (a b : List Byte) : List Byte := List.zipWith (· ^^^ ·) a b

/-- Poly1305 over 16-byte pieces (RFC 8439 2.5). -/
def polyGo (n r acc : Nat) (bs : List Byte) : Nat :=
  match n with
  | 0 => acc
  | k + 1 =>
    let p := bs.take 16
    polyGo k r ((acc + leNat (p ++ [1])) * r % (2 ^ 130 - 5)) (bs.drop 16)

def poly1305 (key msg : List Byte) : List Byte :=
  let r := leNat (key.take 16) &&& 0x0ffffffc0ffffffc0ffffffc0fffffff
  leBytes 16 (polyGo ((msg.length + 15) / 16) r 0 msg + leNat ((key.drop 16).take 16))

def pad16 (bs : List Byte) : List Byte := zeroBytes ((16 - bs.length % 16) % 16)

/-- The tag of the AEAD construction over additional data and ciphertext (RFC 8439 2.8). -/
def aeadTag (key nonce aad ct : List Byte) : List Byte :=
  poly1305 ((chachaBlock key 0 nonce).take 32)
    (aad ++ pad16 aad ++ ct ++ pad16 ct ++ leBytes 8 aad.length ++ leBytes 8 ct.length)

/-- Seal: ciphertext followed by the 16-byte tag. -/
def aeadSeal (key nonce aad pt : List Byte) : List Byte :=
  let ct := xorBytes pt (chachaStream key 1 nonce pt.length)
  ct ++ aeadTag key nonce aad ct

/-- Open: the plaintext, or none when the tag fails. -/
def aeadOpen (key nonce aad sealedText : List Byte) : Option (List Byte) :=
  if sealedText.length < 16 then none
  else
    let ct := sealedText.take (sealedText.length - 16)
    if sealedText.drop ct.length = aeadTag key nonce aad ct then
      some (xorBytes ct (chachaStream key 1 nonce ct.length))
    else none

/-! ### Modular arithmetic -/

/-- b^e mod m over the low `n` bits of e. -/
def powModGo (n b e m acc : Nat) : Nat :=
  match n with
  | 0 => acc
  | k + 1 => powModGo k (b * b % m) (e / 2) m (if e % 2 = 1 then acc * b % m else acc)

def powMod (b e m : Nat) : Nat := powModGo (Nat.log2 e + 1) (b % m) e m (1 % m)

/-- Extended Euclid on (r0, r1) with coefficients (s0, s1); `n` bounds the divisions. -/
def egcdGo (n : Nat) (r0 r1 : Nat) (s0 s1 : Int) : Nat × Int :=
  match n with
  | 0 => (r0, s0)
  | k + 1 => if r1 = 0 then (r0, s0) else egcdGo k r1 (r0 % r1) s1 (s0 - (r0 / r1 : Nat) * s1)

/-- The inverse of a modulo m, if there is one. -/
def invMod? (a m : Nat) : Option Nat :=
  let (g, s) := egcdGo (2 * Nat.log2 m + 4) (a % m) m 1 0
  if g = 1 then some ((s % (m : Int)).toNat) else none

def invMod (a m : Nat) : Nat := (invMod? a m).getD 0

/-! ### Ed25519 -/

def edP : Nat := 2 ^ 255 - 19
def edL : Nat := 2 ^ 252 + 27742317777372353535851937790883648493
def edD : Nat := 37095705934669439343138083508754565189542113879843219016388785533085940283555

/-- A point in extended coordinates (X, Y, Z, T). -/
structure EdPoint where
  x : Nat
  y : Nat
  z : Nat
  t : Nat
  deriving DecidableEq, Repr

def edZero : EdPoint := ⟨0, 1, 1, 0⟩

def edBase : EdPoint :=
  let x := 15112221349535400772501151409588531511454012693041857206046113283949847762202
  let y := 46316835694926478169428394003475163141307993866256225615783033603165251855960
  ⟨x, y, 1, x * y % edP⟩

/-- Point addition (RFC 8032 5.1.4). -/
def edAddPt (p q : EdPoint) : EdPoint :=
  let a := (p.y + edP - p.x) * (q.y + edP - q.x) % edP
  let b := (p.y + p.x) * (q.y + q.x) % edP
  let c := p.t * 2 * edD * q.t % edP
  let d := p.z * 2 * q.z % edP
  let e := b + edP - a
  let f := d + edP - c
  let g := d + c
  let h := b + a
  ⟨e * f % edP, g * h % edP, f * g % edP, e * h % edP⟩

/-- k·P over the low `n` bits of k. -/
def edMulGo (n k : Nat) (p acc : EdPoint) : EdPoint :=
  match n with
  | 0 => acc
  | j + 1 => edMulGo j (k / 2) (edAddPt p p) (if k % 2 = 1 then edAddPt acc p else acc)

def edMul (k : Nat) (p : EdPoint) : EdPoint := edMulGo (Nat.log2 k + 1) k p edZero

def edEncode (p : EdPoint) : List Byte :=
  let zi := powMod p.z (edP - 2) edP
  let x := p.x * zi % edP
  let y := p.y * zi % edP
  leBytes 32 (y + (x % 2) <<< 255)

/-- Decoding (RFC 8032 5.1.3, 19 R569): fails when y is not reduced, when x² has no root, or for x = 0 with sign 1. -/
def edDecode (bs : List Byte) : Option EdPoint :=
  let n := leNat (bs.take 32)
  let sign := n >>> 255
  let y := n % 2 ^ 255
  if edP ≤ y then none
  else
    let u := (y * y + edP - 1) % edP
    let v := (edD * (y * y % edP) + 1) % edP
    let w := u * powMod v (edP - 2) edP % edP
    let r := powMod w ((edP + 3) / 8) edP
    let r := if r * r % edP = w then r else r * powMod 2 ((edP - 1) / 4) edP % edP
    if r * r % edP ≠ w then none
    else if r = 0 ∧ sign = 1 then none
    else
      let x := if r % 2 = sign then r else (edP - r) % edP
      some ⟨x, y, 1, x * y % edP⟩

/-- The same point of the curve. -/
def edEq (p q : EdPoint) : Bool :=
  p.x * q.z % edP = q.x * p.z % edP && p.y * q.z % edP = q.y * p.z % edP

/-- The clamped scalar and the hash's upper half of a seed (RFC 8032 5.1.5). -/
def edExpand (seed : List Byte) : Nat × List Byte :=
  let h := sha512 (seed.take 32)
  let a := leNat (h.take 32)
  (((a % 2 ^ 254) / 8 * 8) + 2 ^ 254, h.drop 32)

def edPublic (seed : List Byte) : List Byte := edEncode (edMul (edExpand seed).1 edBase)

/-- Signature of a message with a seed and the public key given (RFC 8032 5.1.6). -/
def edSignMsg (seed pub msg : List Byte) : List Byte :=
  let (a, pre) := edExpand seed
  let r := leNat (sha512 (pre ++ msg)) % edL
  let big := edEncode (edMul r edBase)
  let k := leNat (sha512 (big ++ pub ++ msg)) % edL
  big ++ leBytes 32 ((r + k * a) % edL)

/-- Cofactored verification (19 R568). None: a point of the key or the signature does not decode. -/
def edVerifyMsg (pub sig msg : List Byte) : Option Bool :=
  match edDecode (pub.take 32), edDecode (sig.take 32) with
  | some a, some r =>
    let s := leNat ((sig.drop 32).take 32)
    let k := leNat (sha512 (sig.take 32 ++ pub.take 32 ++ msg)) % edL
    some (s < edL && edEq (edMul (8 * s) edBase) (edAddPt (edMul 8 r) (edMul (8 * k) a)))
  | _, _ => none

/-- Draw 64 bytes from the Sterling random source: the noise source's next output, conditioned through SHA-512 with the
source's state, which it replaces (07 R197, R206, R208, R216; log entry 5). -/
def Dev.drawRandom (d : Dev) : List Byte × Dev :=
  let out := sha512 (d.sterling.randomState ++ leBytes 64 (Config.sterlingRandom d.draw).toNat)
  (out, { d.modSterling fun x => { x with randomState := out } with draw := d.draw + 1 })

end Sys2Proof.Machine
end

