-- ==== Sys2Proof/Machine/Residue.lean ====
section
/-! DEFINITION. Residue arithmetic: lane operations, parameter-set derivation, the transforms, base conversion, rescaling
and automorphisms on limbs held as lists of words (02 R29-R51, 03 R78, 04 R107-R132). -/

namespace Sys2Proof.Machine

/-! ### Packed words (02 R29) -/

/-- Pack words of 36 bits, two to nine bytes. -/
def packWords (ws : List Nat) : List Byte :=
  match ws with
  | [] => []
  | [x] => leBytes 5 (x % 2 ^ 36)
  | x :: y :: r => leBytes 9 (x % 2 ^ 36 + (y % 2 ^ 36) <<< 36) ++ packWords r

/-- Unpack `n` pairs of words. -/
def unpackPairs (n : Nat) (bs : List Byte) : List Nat :=
  match n with
  | 0 => []
  | k + 1 =>
    let v := leNat (bs.take 9)
    v % 2 ^ 36 :: v >>> 36 :: unpackPairs k (bs.drop 9)

/-- The words of a byte string whose length is a multiple of nine. -/
def unpackWords (bs : List Byte) : List Nat := unpackPairs (bs.length / 9) bs

/-- Bytes of `n` words, `n` even. -/
def wordBytes (n : Nat) : Nat := n / 2 * 9

/-! ### Parameter-set values -/

/-- Modulus j and its reduction method (02 R38). -/
def PSetVals.q (v : PSetVals) (j : Nat) : Nat := ((v.moduli.getD j 0).toNat) % 2 ^ 36
def PSetVals.method (v : PSetVals) (j : Nat) : Nat := ((v.moduli.getD j 0).toNat) >>> 36 % 4
def PSetVals.sparse (v : PSetVals) (j : Nat) : Bool := v.method j = 1
def PSetVals.l (v : PSetVals) : Nat := v.chain.toNat
def PSetVals.k (v : PSetVals) : Nat := v.special.toNat
/-- L + K: the moduli of the set. -/
def PSetVals.count (v : PSetVals) : Nat := v.l + v.k

/-- The radix residue ρ_q (02 Montgomery form). -/
def PSetVals.rho (v : PSetVals) (j : Nat) : Nat := if v.sparse j then 1 else 2 ^ 36 % v.q j

/-! ### Lane operations (02 R32, R36) -/

def resAdd (q x y : Nat) : Nat := (x + y) % q
def resSub (q x y : Nat) : Nat := (x + (q - y % q)) % q
def resNeg (q x : Nat) : Nat := (q - x % q) % q
def resMul (q x y : Nat) : Nat := x * y % q
/-- 2^-36 modulo an odd q. -/
def radixInv (q : Nat) : Nat := invMod (2 ^ 36) q
/-- Product with y marked as Montgomery form. -/
def resMulMb (q : Nat) (sparse : Bool) (x y : Nat) : Nat :=
  if sparse then x * y % q else x * y % q * radixInv q % q
def resToMont (q : Nat) (sparse : Bool) (x : Nat) : Nat := if sparse then x % q else x * 2 ^ 36 % q
def resFromMont (q : Nat) (sparse : Bool) (x : Nat) : Nat := if sparse then x % q else x % q * radixInv q % q

/-- lift_q of a canonical word (04, before R129). -/
def liftQ (q x : Nat) : Int := if x < (q + 1) / 2 then (x : Int) else (x : Int) - q

/-- [x]_q of an integer. -/
def resOf (q : Nat) (x : Int) : Nat := (x % (q : Int)).toNat

/-! ### Derivation (02 R48-R51, 03 R78) -/

/-- n - 1 = d × 2^s with d odd. -/
def splitTwo (n m s : Nat) : Nat × Nat :=
  match n with
  | 0 => (m, s)
  | k + 1 => if m % 2 = 0 ∧ m ≠ 0 then splitTwo k (m / 2) (s + 1) else (m, s)

/-- Some of x, x², x⁴, … (n terms) is q - 1. -/
def mrSquares (n x q : Nat) : Bool :=
  match n with
  | 0 => false
  | k + 1 => x = q - 1 || mrSquares k (x * x % q) q

/-- One Miller-Rabin base. -/
def mrBase (q a : Nat) : Bool :=
  let (dd, s) := splitTwo 64 (q - 1) 0
  let x := powMod a dd q
  q = a || x = 1 || mrSquares s x q

/-- The primality test of 02 R49. -/
def isPrimeMr (q : Nat) : Bool := 1 < q && [2, 3, 5, 7, 11].all fun a => mrBase q a

/-- q - 1 = 2^a ± 2^b with b + 8 ≤ a ≤ 36 (02 R48): the exponents and whether the sign is plus. -/
def sparseForm (q : Nat) : Option (Nat × Nat × Bool) :=
  (List.range 37).findSome? fun a => (List.range 37).findSome? fun b =>
    if b + 8 ≤ a ∧ q = 2 ^ a + 2 ^ b + 1 then some (a, b, true)
    else if b + 8 ≤ a ∧ q + 2 ^ b = 2 ^ a + 1 then some (a, b, false) else none

/-- Constants that a commit derives for a modulus of at least 20 bits (02 R50): ρ_q, ρ_q² (for the conversion into Montgomery
form), and q′ = -q^-1 mod 2^36, which only the Montgomery reduction has. -/
def PSetVals.rhoSq (v : PSetVals) (j : Nat) : Nat := v.rho j * v.rho j % v.q j
def PSetVals.qPrime (v : PSetVals) (j : Nat) : Option Nat :=
  if v.sparse j then none else some (2 ^ 36 - invMod (v.q j) (2 ^ 36))

/-- Folds after which a number of `bits` bits has at most a + 1 bits: a fold leaves max(a, bits - a + b) + 1. -/
def foldsFrom (fuel bits a b : Nat) : Nat :=
  match fuel with
  | 0 => 0
  | n + 1 => if bits ≤ a + 1 then 0 else 1 + foldsFrom n (max a (bits - a + b) + 1) a b

/-- a, b, the sign and the fold count of a sparse modulus: the folds that a 72-bit product needs (02 R33, R50; the rules fix the
count by a and b and do not state it, log entry 101). -/
def PSetVals.foldForm (v : PSetVals) (j : Nat) : Option (Nat × Nat × Bool × Nat) :=
  if v.sparse j then (sparseForm (v.q j)).map fun f => (f.1, f.2.1, f.2.2, foldsFrom 72 72 f.1 f.2.1) else none

/-- Step 3 of 02 R48 on modulus j: the commit result of the first failed check. -/
def PSetVals.modulusFault (v : PSetVals) (j : Nat) : Option Nat :=
  let q := v.q j
  if 2 ≤ v.method j then some 3
  else if ¬(2 ^ 20 < q ∧ q < 2 ^ 36) then some 4
  else if q % 2 ^ 18 ≠ 1 then some 5
  else if !isPrimeMr q then some 6
  else if v.sparse j ∧ sparseForm q = none then some 7
  else if (List.range j).any fun i => v.q i = q then some 8
  else none

/-- The checks of 02 R48: none when they pass, else PSET_RESULT and PSET_FAIL_INDEX. -/
def PSetVals.fault (v : PSetVals) : Option (Nat × Nat) :=
  if 3 ≤ v.scheme.toNat then some (1, 0xFF)
  else if ¬(12 ≤ v.logNMax.toNat ∧ v.logNMax.toNat ≤ 17 ∧ 1 ≤ v.l ∧ v.l ≤ 60 ∧ 1 ≤ v.dnum.toNat ∧ v.dnum.toNat ≤ 8 ∧
      1 ≤ v.k ∧ v.count ≤ 64) then some (2, 0xFF)
  else match (List.range v.count).findSome? fun j => (v.modulusFault j).map fun r => (r, j) with
    | some f => some f
    | none =>
      if v.scheme ≠ 1 then (if v.plainMod = 0 then none else some (9, 0xFF))
      else if ¬(2 ≤ v.plainMod.toNat ∧ v.plainMod.toNat < 2 ^ 36) then some (9, 0xFF)
      else (List.range v.count).findSome? fun j => if v.plainMod.toNat % v.q j = 0 then some (9, j) else none

/-- The least x from `x` on that is a quadratic non-residue modulo q. -/
def nonResidue (fuel q x : Nat) : Nat :=
  match fuel with
  | 0 => 0
  | k + 1 => if powMod x ((q - 1) / 2) q = q - 1 then x else nonResidue k q (x + 1)

/-- ψ of a modulus (02 R51). The least non-residue of a prime below 2^36 is below 2^18 + 1. -/
def psiOf (q : Nat) : Nat := powMod (nonResidue 262146 q 2) ((q - 1) / 2 ^ 18) q

/-- The 2N-th root at ring dimension 2^k (02 R51). -/
def psiN (q k : Nat) : Nat := powMod (psiOf q) (2 ^ (17 - k)) q

/-- ⌊16 × log2 q⌋ (03 R78). -/
def lq16 (q : Nat) : Nat := Nat.log2 (q ^ 16)

/-- `n` more binary digits of log2 of x ÷ 2^256, for x from 2^256 to 2^257, by repeated squaring. -/
def log2Bits (n x acc : Nat) : Nat :=
  match n with
  | 0 => acc
  | k + 1 =>
    let y := x * x / 2 ^ 256
    if 2 ^ 257 ≤ y then log2Bits k (y / 2) (2 * acc + 1) else log2Bits k y (2 * acc)

/-- log2 q × 2^24 to the nearest integer (03 R78; log entry 7). -/
def lq24 (q : Nat) : Nat :=
  let e := Nat.log2 q
  (log2Bits 25 (q * 2 ^ 256 / 2 ^ e) e + 1) / 2

def PSetVals.lq16 (v : PSetVals) (j : Nat) : Nat := Sys2Proof.Machine.lq16 (v.q j)
def PSetVals.lq24 (v : PSetVals) (j : Nat) : Nat := Sys2Proof.Machine.lq24 (v.q j)
/-- LOG2Q(ℓ) (03 R78). -/
def PSetVals.log2Q (v : PSetVals) (l : Nat) : Nat := (List.range l).foldl (fun s j => s + v.lq16 j) 0

/-- Digit width α and digit count D (05, before R137). -/
def PSetVals.alpha (v : PSetVals) : Nat := (v.l + v.dnum.toNat - 1) / v.dnum.toNat
def ceilDiv (a b : Nat) : Nat := (a + b - 1) / b

/-! ### Transforms (04 R107, R108) -/

/-- The n-bit reversal of k. -/
def brv (n k : Nat) : Nat :=
  match n with
  | 0 => 0
  | m + 1 => (k % 2) * 2 ^ m + brv m (k / 2)

/-- Cooley-Tukey layers with w = ψ of order 2^18: the polynomial modulo X^(2^k) - w^e gives its values at the 2^k
roots of w^e, in the order of 04 R107. -/
def nttLayers (k q w e : Nat) (a : List Nat) : List Nat :=
  match k with
  | 0 => a.map (· % q)
  | j + 1 =>
    let lo := a.take (2 ^ j)
    let hi := a.drop (2 ^ j)
    let t := powMod w (e / 2) q
    let x := List.zipWith (fun x y => (x + t * y) % q) lo hi
    let y := List.zipWith (fun x y => (x + (q - t * y % q)) % q) lo hi
    nttLayers j q w (e / 2) x ++ nttLayers j q w (e / 2 + 2 ^ 17) y

/-- Gentleman-Sande layers: the inverse, halving at each layer. -/
def inttLayers (k q w e : Nat) (a : List Nat) : List Nat :=
  match k with
  | 0 => a.map (· % q)
  | j + 1 =>
    let x := inttLayers j q w (e / 2) (a.take (2 ^ j))
    let y := inttLayers j q w (e / 2 + 2 ^ 17) (a.drop (2 ^ j))
    let t := invMod (powMod w (e / 2) q) q
    let h := (q + 1) / 2
    List.zipWith (fun x y => (x + y) * h % q) x y ++ List.zipWith (fun x y => (x + (q - y)) * t % q * h % q) x y

/-- NTT of a limb of 2^n words (04 R107): X^N + 1 is X^N - ψ^(2^17). -/
def ntt (n q : Nat) (a : List Nat) : List Nat := nttLayers n q (psiOf q) (2 ^ 17) a

/-- INTT (04 R108). -/
def intt (n q : Nat) (a : List Nat) : List Nat := inttLayers n q (psiOf q) (2 ^ 17) a

/-- Apply X → X^g to a limb in evaluation form: word k comes from word k' (04 R132). -/
def autoEval (n g : Nat) (a : List Nat) : List Nat :=
  let v := a.toArray
  (List.range (2 ^ n)).map fun k => v.getD (brv n (((2 * brv n k + 1) * g % 2 ^ (n + 1) - 1) / 2)) 0

/-- Apply X → X^g to a limb in coefficient form. -/
def autoCoeff (n q g : Nat) (a : List Nat) : List Nat :=
  let ginv := invMod g (2 ^ (n + 1))
  let v := a.toArray
  (List.range (2 ^ n)).map fun k =>
    let j := k * ginv % 2 ^ (n + 1)
    if j < 2 ^ n then v.getD j 0 % q else (q - v.getD (j - 2 ^ n) 0 % q) % q

/-- Multiply by X^m, negacyclically, m below 2N. -/
def negaShift (n q m : Nat) (a : List Nat) : List Nat :=
  let big := 2 ^ n
  let m := m % (2 * big)
  let neg := fun x => (q - x % q) % q
  let rot := fun (r : Nat) (xs : List Nat) => (xs.drop (big - r)).map neg ++ (xs.take (big - r)).map (· % q)
  if m < big then rot m a else (rot (m - big) a).map neg

/-- Word-wise operations on limbs. -/
def limbAdd (q : Nat) (a b : List Nat) : List Nat := List.zipWith (resAdd q) a b
def limbSub (q : Nat) (a b : List Nat) : List Nat := List.zipWith (resSub q) a b
def limbMul (q : Nat) (a b : List Nat) : List Nat := List.zipWith (resMul q) a b
def limbNeg (q : Nat) (a : List Nat) : List Nat := a.map (resNeg q)
def limbScale (q c : Nat) (a : List Nat) : List Nat := a.map fun x => x * c % q

/-! ### Base conversion and rescaling (04 R129-R131, 06 R189) -/

def prodList (xs : List Nat) : Nat := xs.foldl (· * ·) 1

/-- Conv_(S→p) of coefficient-form limbs: pairs of a source modulus and its limb (04 R129). -/
def baseConv (src : List (Nat × List Nat)) (p size : Nat) : List Nat :=
  let qs := src.map (·.1)
  src.foldl (fun acc s =>
    let hat := prodList (qs.filter (· ≠ s.1))
    let up := invMod (hat % s.1) s.1
    List.zipWith (fun t x => (t + (x * up % s.1) * (hat % p)) % p) acc s.2) (List.replicate size 0)

/-- One limb of a CKKS rescale: the top limb `b` in coefficient form under q_t, the limb `a` in evaluation form under
q_j (04 R131). -/
def rescaleLimb (n qt qj : Nat) (b a : List Nat) : List Nat :=
  let lifted := ntt n qj (b.map fun x => resOf qj (liftQ qt x))
  limbScale qj (invMod qt qj) (limbSub qj a lifted)

/-- One limb of a BGV modulus switch (06 R189). -/
def bgvSwitchLimb (n t qt qj : Nat) (b a : List Nat) : List Nat :=
  let ti := invMod t qt
  let delta := ntt n qj (b.map fun x => resOf qj ((t : Int) * liftQ qt (x * ti % qt)))
  limbScale qj (invMod qt qj) (limbSub qj a delta)

end Sys2Proof.Machine
end

