-- ==== Sys2Proof/Machine/Cipher.lean ====
section
/-! DEFINITION. Ciphertext objects: the descriptor, where limbs lie, reading and writing them, and the order of checks
(03 R69-R103, 04 R113-R117). -/

namespace Sys2Proof.Machine

/-! ### The descriptor (03 R72) -/

/-- The fields of a ciphertext descriptor. -/
structure CtDesc where
  tag : Nat
  base : Nat
  pset : Nat
  logN : Nat
  kind : Nat
  polys : Nat
  level : Nat
  alloc : Nat
  valid : Nat
  layout : Nat
  pclass : Nat
  ntt : Bool
  poison : Bool
  torn : Bool
  noise : Nat
  scale : Nat
  placement : Nat
  cluster0 : Nat
  lastStatus : Nat
  writeTick : Nat
  deriving DecidableEq, Repr

def CtDesc.parse (b : List Byte) : CtDesc :=
  { tag := fld b 0 64, base := fld b 64 48, pset := fld b 112 4, logN := fld b 116 5, kind := fld b 121 2,
    polys := fld b 123 2, level := fld b 128 6, alloc := fld b 134 6, valid := fld b 140 8, layout := fld b 148 8,
    pclass := fld b 156 2, ntt := fld b 158 1 = 1, poison := fld b 160 1 = 1, torn := fld b 161 1 = 1,
    noise := fld b 176 16, scale := fld b 192 40, placement := fld b 232 8, cluster0 := fld b 240 8,
    lastStatus := fld b 256 8, writeTick := fld b 320 64 }

def CtDesc.bytes (t : CtDesc) : List Byte :=
  mkRecord 64 [(0, 64, t.tag), (64, 48, t.base), (112, 4, t.pset), (116, 5, t.logN), (121, 2, t.kind),
    (123, 2, t.polys), (128, 6, t.level), (134, 6, t.alloc), (140, 8, t.valid), (148, 8, t.layout),
    (156, 2, t.pclass), (158, 1, bit t.ntt), (160, 1, bit t.poison), (161, 1, bit t.torn), (176, 16, t.noise),
    (192, 40, t.scale), (232, 8, t.placement), (240, 8, t.cluster0), (256, 8, t.lastStatus), (320, 64, t.writeTick)]

def CtDesc.n (t : CtDesc) : Nat := 2 ^ t.logN
def CtDesc.isPlain (t : CtDesc) : Bool := t.kind = 1

/-- A layout with slots (03 R82). -/
def slotLayout (l : Nat) : Bool := l ≠ 0

/-- The layout is defined (03 R82). -/
def layoutDefined (l : Nat) : Bool := l ≤ 1 || (0x10 ≤ l && l ≤ 0x2F) || l = 0x30 || 0xF0 ≤ l

/-- A grouped layout fits the slots: G ≤ S = N ÷ 2 (03 R82). -/
def layoutFits (l logN : Nat) : Bool := if 0x10 ≤ l ∧ l ≤ 0x2F then l % 16 + 1 ≤ logN else true

/-! ### Where limbs lie (03 R69, R70, 04 R114-R116) -/

/-- The placement code is defined (04 R114). -/
def placementDefined (p : Nat) : Bool := p ≤ 1 || (0x10 ≤ p && p ≤ 0x1F)

def CtDesc.spread (t : CtDesc) : Bool := 0x10 ≤ t.placement && t.placement ≤ 0x1F
def CtDesc.scratch (t : CtDesc) : Bool := t.placement = 1 || t.spread
def CtDesc.stride (t : CtDesc) : Nat := t.placement % 16 + 1
/-- The window offset of a scratchpad placement. -/
def CtDesc.offset (t : CtDesc) : Nat := t.base - clusterAddr t.cluster0 0
/-- Bytes of one limb (02 R29). -/
def limbBytes (logN : Nat) : Nat := wordBytes (2 ^ logN)

/-- The clusters of limb position i at a ring dimension (04 R114). -/
def CtDesc.clustersAt (t : CtDesc) (logN i : Nat) : List Nat :=
  if t.placement = 1 then [t.cluster0]
  else if t.spread then
    (if logN = 17 then [(t.cluster0 + 2 * t.stride * i) % 256, (t.cluster0 + 2 * t.stride * i + 1) % 256]
     else [(t.cluster0 + t.stride * i) % 256])
  else []

/-- Address and length of the pieces of limb i of polynomial p. -/
def CtDesc.limbPieces (t : CtDesc) (logN p i : Nat) : List (Nat × Nat) :=
  let b := limbBytes logN
  if t.placement = 1 then [(clusterAddr t.cluster0 (t.offset + (p * t.alloc + i) * b), b)]
  else if t.spread then
    (if logN = 17 then (t.clustersAt 17 i).map fun c => (clusterAddr c (t.offset + p * 294912), 294912)
     else (t.clustersAt logN i).map fun c => (clusterAddr c (t.offset + p * b), b))
  else [(t.base + (p * t.alloc + i) * b, b)]

/-- The whole limb storage at the descriptor's ALLOC (03 R87 step 1). -/
def CtDesc.storage (t : CtDesc) (logN polys : Nat) : List (Nat × Nat) :=
  let b := limbBytes logN
  if t.placement = 1 then [(clusterAddr t.cluster0 t.offset, polys * t.alloc * b)]
  else if t.spread then
    (List.range t.alloc).flatMap fun i => (t.clustersAt logN i).map fun c =>
      (clusterAddr c t.offset, polys * (if logN = 17 then 294912 else b))
  else [(t.base, polys * t.alloc * b)]

/-- Two storages share a byte. -/
def overlaps (a b : List (Nat × Nat)) : Bool :=
  a.any fun x => b.any fun y => x.1 < y.1 + y.2 && y.1 < x.1 + x.2

/-- Order of the words of a limb at N = 2^17 in a scratchpad: the two halves to natural order (04 R116). -/
def joinHalves (ntt : Bool) (h0 h1 : List Nat) : List Nat :=
  if ntt then h0 ++ h1
  else h0.take 32768 ++ h1.take 32768 ++ h0.drop 32768 ++ h1.drop 32768

def splitHalves (ntt : Bool) (ws : List Nat) : List (List Nat) :=
  if ntt then [ws.take 65536, ws.drop 65536]
  else [ws.take 32768 ++ (ws.drop 65536).take 32768, (ws.drop 32768).take 32768 ++ ws.drop 98304]

/-- Read pieces through the checks on stored data; true: some delivery from the stacks was bad (13 R416). -/
def Dev.fetchPieces (d : Dev) (ps : List (Nat × Nat)) : Dev × List (List Byte) × Bool :=
  ps.foldl (fun (acc : Dev × List (List Byte) × Bool) p =>
    let (d, bs, bad) := acc.1.fetch none p.1 p.2
    (d, acc.2.1 ++ [bs], acc.2.2 || (bad && p.1 < stackEnd))) (d, [], false)

/-- Read limb i of polynomial p: its words in natural order. -/
def Dev.readLimb (d : Dev) (t : CtDesc) (p i : Nat) : Dev × List Nat × Bool :=
  let (d, bs, bad) := d.fetchPieces (t.limbPieces t.logN p i)
  match bs with
  | [h0, h1] => (d, joinHalves t.ntt (unpackWords h0) (unpackWords h1), bad)
  | _ => (d, unpackWords bs.flatten, bad)

/-- Read limbs 0 to l - 1 of every polynomial: `polys` lists of `l` limbs. -/
def Dev.readPolys (d : Dev) (t : CtDesc) (l : Nat) : Dev × List (List (List Nat)) × Bool :=
  (List.range t.polys).foldl (fun (acc : Dev × List (List (List Nat)) × Bool) p =>
    let (d, ls, bad) := (List.range l).foldl (fun (a : Dev × List (List Nat) × Bool) i =>
      let (d, w, b) := a.1.readLimb t p i
      (d, a.2.1 ++ [w], a.2.2 || b)) (acc.1, [], acc.2.2)
    (d, acc.2.1 ++ [ls], bad)) (d, [], false)

/-- Bytes and the addresses where they lie or go. -/
abbrev Pieces := List (Nat × List Byte)

/-- The pieces of limb i of polynomial p, from its words in natural order (04 R114, R116). -/
def CtDesc.limbParts (t : CtDesc) (p i : Nat) (ws : List Nat) : Pieces :=
  let ps := t.limbPieces t.logN p i
  let parts := if ps.length = 2 then splitHalves t.ntt ws else [ws]
  (List.zip ps parts).map fun x => (x.1.1, packWords x.2)

/-- The units of a result in commit order: unit i × POLYS + p is limb i of polynomial p (03, before R99). -/
def CtDesc.units (t : CtDesc) (polys : List (List (List Nat))) : List Pieces :=
  (List.range t.level).flatMap fun i => (List.range polys.length).map fun p =>
    t.limbParts p i ((polys.getD p []).getD i [])

/-- Write pieces in order. -/
def Dev.putPieces (d : Dev) (u : Pieces) : Dev := u.foldl (fun d p => d.store none p.1 p.2) d

/-- The banks, as cluster and bank, that pieces of scratchpad touch. -/
def banksOf (ps : List (Nat × Nat)) : List (Nat × Nat) :=
  (ps.flatMap fun p =>
    match regionOf p.1 with
    | .bank c off => (List.range ((off + p.2 - 1) / 0x20000 - off / 0x20000 + 1)).map fun i => (c, off / 0x20000 + i)
    | _ => []).eraseDups

/-- Banks of limbs 0 to l - 1. -/
def CtDesc.banks (t : CtDesc) (polys l : Nat) : List (Nat × Nat) :=
  if t.scratch then
    banksOf ((List.range l).flatMap fun i => (List.range polys).flatMap fun p => t.limbPieces t.logN p i)
  else []

/-- The clusters of limb positions 0 to l - 1 and of the special positions ALLOC to ALLOC + k - 1 (04 R114, R117). -/
def CtDesc.gang (t : CtDesc) (logN l k : Nat) : List Nat :=
  (((List.range l) ++ (List.range k).map (t.alloc + ·)).flatMap (t.clustersAt logN)).eraseDups

/-! ### Reading a descriptor -/

/-- A range lies in the usable bytes of one mapped slab that is not initialising (03 R87 step 1, 13 R405). -/
def Dev.stackRangeOk (d : Dev) (a n : Nat) : Bool :=
  n = 0 || (inStack a n && a / 0x200000000 = (a + n - 1) / 0x200000000 && d.stackCause a = none &&
    d.stackCause (a + n - 1) = none)

/-- An object of the routine: its descriptor's address and fields, and whether its place and its read are good. -/
structure Operand where
  addr : Nat
  desc : CtDesc
  placed : Bool
  deriving DecidableEq, Repr

/-- A 64-byte record lies at a multiple of 64 in core data memory, a scratchpad or usable stack bytes (03 R71). -/
def Dev.recordPlaced (d : Dev) (a : Nat) : Bool :=
  a % 64 = 0 &&
    match regionOf a with
    | .stack => d.stackRangeOk a 64
    | .bank _ _ => true
    | .core _ off => off < 0x10000
    | .nowhere => false

/-- Read the descriptor at an address; a bad delivery counts as misplaced (03 R87 step 1). -/
def Dev.readOperand (d : Dev) (a : Nat) : Dev × Operand :=
  if d.recordPlaced a then
    let (d, bs, bad) := d.fetch none a 64
    (d, { addr := a, desc := CtDesc.parse bs, placed := !(bad && a < stackEnd) })
  else (d, { addr := a, desc := CtDesc.parse [], placed := false })

def Dev.readOperands (d : Dev) (as : List Nat) : Dev × List Operand :=
  as.foldl (fun (acc : Dev × List Operand) a =>
    let (d, o) := acc.1.readOperand a
    (d, acc.2 ++ [o])) (d, [])

/-! ### Step 1 (03 R87, 04 R115) -/

/-- The memory, W, A or P, that a window offset lies in, by bank (10 R304, R328). -/
def Dev.memoryOf (d : Dev) (c off : Nat) : Nat :=
  let b := off / 0x20000
  if b < (d.division c).1 then 0 else if b < (d.division c).2 then 1 else 2

/-- Storage lies within its range: stacks in usable bytes under the region's class, scratchpads inside one memory of
each cluster with every position's cluster different (04 R115). -/
def Dev.storageOk (d : Dev) (t : CtDesc) (logN polys : Nat) : Bool :=
  let st := t.storage logN polys
  if t.placement = 0 then
    st.all (fun p => d.stackRangeOk p.1 p.2) &&
      (match d.slabClass (t.base / 0x200000000) with
       | some (cls, _) => cls = t.pclass
       | none => false)
  else
    clusterAddr t.cluster0 0 ≤ t.base && t.base < clusterAddr t.cluster0 0x400000 &&
    (t.placement ≠ 1 || logN ≤ 16) &&
    (logN ≠ 17 || t.cluster0 % 2 = 0) &&
    (t.placement = 1 || ((List.range t.alloc).flatMap (t.clustersAt logN)).Nodup) &&
    st.all fun p =>
      match regionOf p.1 with
      | .bank c off => p.2 = 0 || (off + p.2 ≤ 0x400000 && d.memoryOf c off = d.memoryOf c (off + p.2 - 1))
      | _ => false

/-- Form of an input's descriptor (03 R87 step 1). -/
def Dev.inputForm (d : Dev) (o : Operand) : Bool :=
  let t := o.desc
  o.placed && t.kind ≤ 1 && 1 ≤ t.polys && layoutDefined t.layout && t.pclass ≤ 1 && 12 ≤ t.logN && t.logN ≤ 17 &&
    1 ≤ t.level && t.level ≤ t.alloc && t.alloc ≤ 60 && layoutFits t.layout t.logN &&
    (t.torn || t.valid = t.level * t.polys) && ((t.polys = 1) == t.isPlain) && placementDefined t.placement &&
    t.base % 256 = 0 && d.storageOk t t.logN t.polys

/-- Form of a destination that is not an input: its rw fields, with storage at the result's dimensions. -/
def Dev.destForm (d : Dev) (o : Operand) (logN polys : Nat) : Bool :=
  let t := o.desc
  o.placed && t.pclass ≤ 1 && 1 ≤ t.alloc && t.alloc ≤ 60 && t.base % 256 = 0 && placementDefined t.placement &&
    12 ≤ logN && logN ≤ 17 && d.storageOk t logN polys

/-! ### The order of checks (03 R87, R159) -/

/-- A check: whether it holds, the status of its failure, and the object that a refusal names (03 R93). -/
structure Check where
  holds : Bool
  status : BitVec 8
  object : Nat
  deriving DecidableEq, Repr

/-- The first check that fails. -/
def firstFailed (cs : List Check) : Option Check := cs.find? fun c => !c.holds

/-- A key header (05 R140). -/
structure KeyHdr where
  tag : Nat
  magic : Nat
  format : Nat
  pset : Nat
  logN : Nat
  kind : Nat
  chainL : Nat
  specialK : Nat
  dnum : Nat
  noise : Nat
  galois : Nat
  rot : Nat
  number : Nat
  bodyLen : Nat
  seed : List Byte
  deriving DecidableEq, Repr

def KeyHdr.parse (b : List Byte) : KeyHdr :=
  { tag := fld b 0 64, magic := fld b 64 32, format := fld b 96 8, pset := fld b 104 4, logN := fld b 108 5,
    kind := fld b 120 8, chainL := fld b 128 6, specialK := fld b 134 6, dnum := fld b 140 4, noise := fld b 144 16,
    galois := fld b 160 18, rot := fld b 192 16, number := fld b 224 32, bodyLen := fld b 256 64,
    seed := (b.drop 40).take 32 }

/-- The key stream of a call as the order of checks sees it (05 R159): the image's address, the header or a failure
mark, the stream's level, the key kinds and the rotation that suit, and the level of what is switched where that is not the
first input's. -/
structure KeyIn where
  image : Nat
  hdr : Option KeyHdr
  level : Nat
  kinds : List Nat
  rot : Option Nat
  need : Option Nat := none
  deriving DecidableEq, Repr

/-- What an operation asks of the order of checks: operands, its own step-1 and step-4b conditions, the level it
consumes, the fields of its result, the banks it touches beyond its operands' limbs, and what step 6 asks beyond the
destination. -/
structure OpCheck where
  inputs : List Operand
  dest : Operand
  key : Option KeyIn
  form : List (Bool × Nat)
  requires : List (Bool × Nat)
  consumes : Nat
  result : CtDesc
  banks : List (Nat × Nat)
  inPlace : Bool
  room : List (Bool × Nat) := []
  deriving DecidableEq, Repr

def OpCheck.cipherTag (o : OpCheck) : Option Nat :=
  (o.inputs.find? fun i => !i.desc.isPlain).map fun i => i.desc.tag

def Dev.live (d : Dev) (s : Nat) : Option PSetVals := (d.pset s).live

/-- Steps 1 to 7 for an operation on ciphertext objects. Within step 1, where several objects fail, the inputs come first in
the order of the arguments, then the key stream's mark, the routine's own conditions, the destination, and its overlap
with an input; the spec gives no order there (DESIGN CHOICE, log entry 30). -/
def Dev.opChecks (d : Dev) (o : OpCheck) : List Check :=
  let first := (o.inputs.head?).getD o.dest
  let set := d.live first.desc.pset
  let keyImage := (o.key.map (·.image)).getD 0
  let hdr := o.key.bind (·.hdr)
  let tag := o.cipherTag
  -- 1
  (o.inputs.map fun i => Check.mk (d.inputForm i) stBounds i.addr) ++
  (match o.key with
   | some k => [Check.mk (k.hdr ≠ none) stBounds k.image]
   | none => []) ++
  (o.form.map fun f => Check.mk f.1 stBounds f.2) ++
  [Check.mk (if o.inPlace then d.storageOk o.dest.desc o.result.logN o.result.polys
    else d.destForm o.dest o.result.logN o.result.polys) stBounds o.dest.addr] ++
  (o.inputs.map fun i => Check.mk (i.addr = o.dest.addr ||
    !overlaps (o.dest.desc.storage o.result.logN o.result.polys) (i.desc.storage i.desc.logN i.desc.polys))
    stBounds o.dest.addr) ++
  -- 2
  (o.inputs.map fun i => Check.mk (!i.desc.torn) stTorn i.addr) ++
  -- 3
  (o.inputs.map fun i => Check.mk (i.desc.isPlain || some i.desc.tag = tag) stKeyMismatch i.addr) ++
  (match hdr with
   | some h => [Check.mk (tag = none || tag = some h.tag) stKeyMismatch keyImage]
   | none => []) ++
  -- 4a
  (o.inputs.map fun i => Check.mk (d.live i.desc.pset ≠ none) stUncommitted i.addr) ++
  (match hdr with
   | some h => [Check.mk (d.live h.pset ≠ none) stUncommitted keyImage]
   | none => []) ++
  -- 4b
  (o.inputs.map fun i => Check.mk
    (i.desc.pset = first.desc.pset && i.desc.logN = first.desc.logN &&
     (o.inputs.all fun j => !slotLayout i.desc.layout || !slotLayout j.desc.layout || i.desc.layout = j.desc.layout) &&
     (match set with
      | some v => (i.desc.layout ≠ 0x30 || v.scheme = 1) && i.desc.logN ≤ v.logNMax.toNat && i.desc.level ≤ v.l
      | none => true)) stMismatch i.addr) ++
  (match o.key, hdr, set with
   | some k, some h, some v =>
     [Check.mk (h.pset = first.desc.pset && h.logN = first.desc.logN && h.chainL = v.l && h.specialK = v.k &&
        h.dnum = v.dnum.toNat && k.kinds.contains h.kind &&
        (match k.rot with | some r => h.rot = r | none => true)) stMismatch k.image]
   | _, _, _ => []) ++
  (o.requires.map fun r => Check.mk r.1 stMismatch r.2) ++
  -- 5
  (o.inputs.map fun i => Check.mk (o.consumes ≤ i.desc.level) stUnderflow i.addr) ++
  [Check.mk (1 ≤ o.result.level) stUnderflow first.addr] ++
  (match o.key, hdr with
   | some k, some _ => [Check.mk (k.need.getD first.desc.level ≤ k.level) stUnderflow k.image]
   | _, _ => []) ++
  -- 6, 7
  [Check.mk (o.result.level ≤ o.dest.desc.alloc) stBounds o.dest.addr] ++
  (o.room.map fun r => Check.mk r.1 stBounds r.2) ++
  [Check.mk (match set with
     | some v => o.result.noise + 16 ≤ v.log2Q o.result.level
     | none => true) stBudget o.dest.addr]

/-- Outcome of step 8 over a list of banks (03 R87, 04 R111, 10 R319, R332): wait, or whether all are owned. -/
def Dev.banksOwned (d : Dev) (who : Requester) (bs : List (Nat × Nat)) : Option Bool :=
  let ps := bs.filterMap fun b => d.bankProblem who .read b.1 (b.2 * 0x20000) 0
  if ps.all fun p => p = .wait then (if ps = [] then some true else none) else some false

/-- Every bank of the limbs and descriptors of an operation that reads its inputs at a level; one that writes its
descriptor only touches no limb. -/
def OpCheck.allBanks (o : OpCheck) (readLevel : Nat) (descOnly : Bool) : List (Nat × Nat) :=
  let descs := o.inputs.flatMap (fun i => banksOf [(i.addr, 64)]) ++ banksOf [(o.dest.addr, 64)]
  if descOnly then descs.eraseDups
  else
    (o.inputs.flatMap (fun i => i.desc.banks i.desc.polys (min i.desc.level readLevel)) ++
      ({ o.dest.desc with logN := o.result.logN }).banks o.result.polys o.result.level ++ descs ++ o.banks).eraseDups

/-! ### Refusal and completion (03 R73, R75, R90-R93, R100) -/

/-- Write a destination descriptor; ABORTED when the stacks refuse the write (03 R73). -/
def Dev.writeDesc (d : Dev) (a : Nat) (bs : List Byte) (status : BitVec 8) : Dev × BitVec 8 :=
  let d := if fld bs 160 1 = 1 then d.countPoison true else d
  if a < stackEnd then
    match d.problemIn (.library []) .write a 64 with
    | some p => (d.noteProblem (.library []) .write p, stAborted)
    | none => (d.store none a bs, status)
  else (d.store none a bs, status)

/-- A destination descriptor as a refusal leaves it (03 R90). -/
def CtDesc.refusedAs (t : CtDesc) (status : BitVec 8) (tick : Nat) : CtDesc :=
  { t with poison := true, lastStatus := status.toNat, writeTick := tick }

/-- A destination descriptor as a completion leaves it: ro fields of the result, its own rw fields (03 R75). -/
def CtDesc.completedAs (own res : CtDesc) (poison : Bool) (tick : Nat) : CtDesc :=
  { res with base := own.base, alloc := own.alloc, pclass := own.pclass, placement := own.placement,
             cluster0 := own.cluster0, valid := res.level * res.polys, torn := false, poison := poison,
             lastStatus := (if poison then stPoison else stOk).toNat, writeTick := tick }

/-- What a requester finds at descriptors it needs, in order: none, it waits for a bank; else the first whose bank refuses it,
if any (10 R320, R332; log entry 89). -/
def Dev.descAccess (d : Dev) (who : Requester) (as : List Nat) : Option (Option Nat) :=
  let at_ := fun (a : Nat) => match regionOf a with
    | .bank c off => d.bankProblem who .read c off a
    | _ => none
  match as.find? fun a => at_ a ≠ none ∧ at_ a ≠ some .wait with
  | some a => some (some a)
  | none => if as.any fun a => at_ a = some .wait then none else some none

/-- Refuse: POISON, LAST_STATUS and WRITE_TICK of the destination, and one fault of the operand-refusal source; nothing
is written to a destination whose own address or read failed, or whose bank refuses the write (03 R90, R92, R93, 10
R320). -/
def Dev.refuse (d : Dev) (core : Nat) (who : Requester) (dest : Operand) (c : Check) : Dev × BitVec 8 :=
  let d := d.faultUc 0x01 core c.object 0 c.status 0
  let d := d.countRefusal
  if dest.placed && d.descAccess who [dest.addr] = some none then
    d.writeDesc dest.addr (dest.desc.refusedAs c.status d.tickNumber).bytes c.status
  else (d, c.status)

/-- The status of an operation that completes (03 R75, R96). -/
def doneStatus (poison : Bool) : BitVec 8 := if poison then stPoison else stOk

/-- The descriptor write of a completion: every ro field of the destination (03 R75). A plaintext result carries no key tag
(01 R13, log entry 33). The tick is set when the write is made. -/
def Operand.completion (dest : Operand) (res : CtDesc) (poison : Bool) : Nat × List Byte :=
  let res := { res with tag := if res.isPlain then 0 else res.tag }
  (dest.addr, (dest.desc.completedAs res poison 0).bytes)

/-- An operation that writes nothing when it ends. -/
def Effect.nothing : Effect := { units := [], also := [], work := [], dest := none, poisonIn := false }

/-- A descriptor's bytes with WRITE_TICK set; ciphertext and batch descriptors keep it in the same place (03 R72, 06 R176). -/
def stampTick (bs : List Byte) (tick : Nat) : List Byte := bs.take 40 ++ leBytes 8 tick ++ bs.drop 48

/-- What an operation has written before its destination: working storage, and the objects it has finished on the way. -/
def Dev.putSides (d : Dev) (e : Effect) : Dev :=
  e.also.foldl (fun d u => d.putPieces u) (d.putPieces e.work)

/-- End an operation: its words, then its destination's descriptor, once (03 R73). -/
def Dev.finishEffect (d : Dev) (e : Effect) (status : BitVec 8) : Dev × BitVec 8 :=
  let d := e.units.foldl (fun d u => d.putPieces u) (d.putSides e)
  match e.dest with
  | some (a, bs) => d.writeDesc a (stampTick bs d.tickNumber) status
  | none => (d, status)

/-- Mix old and new words of a piece by free bits (03 R101). -/
def mixWords (draw : Nat) (olds news : List Nat) : List Nat :=
  match olds, news with
  | o :: os, w :: ws => (if (Config.freeWord draw).getLsbD 0 then w else o) :: mixWords (draw + 1) os ws
  | _, _ => []

/-- Units below `v` hold the result; each later one holds, word by word, what stands there or the result (03 R101). -/
def Dev.tearUnits (d : Dev) (v : Nat) (units : List Pieces) : Dev :=
  (units.drop v).foldl (fun d u => u.foldl (fun (d : Dev) p =>
    let ws := mixWords d.draw (unpackWords (d.rd p.1 p.2.length)) (unpackWords p.2)
    ({ d with draw := d.draw + ws.length }).wr p.1 (packWords ws)) d)
    ((units.take v).foldl (fun d u => d.putPieces u) d)

/-- Abort an operation with `v` units complete: VALID_LIMBS counts them, TORN and ABORTED are set, POISON says whether an
input carried it, and the other fields are as completion would have left them (03 R100). -/
def Dev.abortEffect (d : Dev) (v : Nat) (e : Effect) : Dev :=
  let n := min v e.units.length
  let d := (d.putSides e).tearUnits n e.units
  match e.dest with
  | some (a, bs) =>
    (d.writeDesc a ({ CtDesc.parse bs with
      valid := n, torn := true, poison := e.poisonIn, lastStatus := stAborted.toNat, writeTick := d.tickNumber }).bytes
      stAborted).1
  | none => d

/-- A free count of completed units, from 0 to the number there are (03 R99). -/
def Dev.drawUnits (d : Dev) (n : Nat) : Nat × Dev :=
  let (w, d) := d.drawWord
  (w.toNat % (n + 1), d)

/-- Free bytes settled by the inputs listed, numbered from `i` on. -/
def openBytes (inputs : List Nat) (i n : Nat) : List Byte :=
  (List.range n).map fun k => (Config.openWord inputs (i + k)).setWidth 8

/-- Objects of step 8 with the banks of each: the first whose banks are refused (03 R93; `dflt` where none is). -/
def Dev.firstUnowned (d : Dev) (who : Requester) (objs : List (Nat × List (Nat × Nat))) (dflt : Nat) : Nat :=
  ((objs.find? fun o => d.banksOwned who o.2 = some false).map (·.1)).getD dflt

/-! ### Noise and scale (03 R79, R84) -/

def sat16 (x : Int) : Nat := (max 0 (min x 0xFFFF)).toNat
def sat32 (x : Int) : Nat := (max 0 (min x 0xFFFFFFFF)).toNat

/-- Product of two scales (03 R79, 06 R190). -/
def scaleMul (v : PSetVals) (a b : Nat) : Nat :=
  if v.scheme = 1 then a * b % v.plainMod.toNat else sat32 ((a : Int) + b)

/-- Scale after removing modulus t. -/
def scaleDrop (v : PSetVals) (a t : Nat) : Nat :=
  if v.scheme = 1 then a * invMod (v.q t) v.plainMod.toNat % v.plainMod.toNat else sat32 ((a : Int) - v.lq24 t)

/-- R80: scales close enough to add. -/
def scaleClose (v : PSetVals) (a b : Nat) : Bool :=
  if v.scheme = 1 then a = b else (if a ≤ b then b - a else a - b) ≤ 4096

end Sys2Proof.Machine
end

