-- ==== Sys2Proof/Machine/Routines.lean ====
section
/-! DEFINITION. The routines of the resident library that use no key: what each asks of the order of checks, what it
computes, and what it costs (04 R107-R133, R659, 09 R292, R297). -/

namespace Sys2Proof.Machine

/-! ### Stated costs (04 R133, R659, 09 R297) -/

def costU (logN : Nat) : Nat := if logN = 17 then 32 else 2 ^ logN / 2048
def costLambda (logN : Nat) : Nat := if logN = 17 then 4608 else ceilDiv (9 * 2 ^ logN / 2) 64
def costNtt (logN : Nat) : Nat := if logN = 17 then 3128 else logN * costU logN + 9 * costU logN / 2 + 96

/-- One cluster works through every limb (04 R659; operands in the stacks cost the same, log entry 8). -/
def CtDesc.serial (t : CtDesc) : Bool := !t.spread

/-- An element-wise formula, multiplied by the level where one cluster works through the limbs. -/
def costPass (res : CtDesc) (serial : Bool) (perLimb : Nat) : Nat := perLimb * (if serial then res.level else 1)

def costRescale (res : CtDesc) (serial : Bool) : Nat :=
  let n := res.logN
  if serial then res.polys * (costNtt n + res.level * (costNtt n + 2 * costU n + 16))
  else 2 * costNtt n + res.polys * costLambda n + 40 + 2 * costU n + 16

/-- Base conversion from s source limbs to t target limbs. -/
def costConv (n : Nat) (serial : Bool) (s t : Nat) : Nat :=
  if serial then s * (costNtt n + costU n + 16) + t * (costNtt n + s * (costU n + 16))
  else 2 * costNtt n + 2 * costU n + 72 + s * costLambda n

/-- Reduction from P, from s special limbs to t chain limbs. -/
def costReduce (n : Nat) (serial : Bool) (s t : Nat) : Nat :=
  costConv n serial s t + (if serial then t * (2 * costU n + 16) else 2 * costU n + 16)

/-! ### A routine on ciphertext objects -/

/-- Polynomials of limbs of words. -/
abbrev Polys := List (List (List Nat))

/-- What a routine is once its descriptors are read: its checks, the level at which its inputs are read, the limbs of
the result from the limbs of the inputs, its stated cost, and its working storage: the address of its work list and what
it leaves there. -/
structure Plan where
  chk : OpCheck
  readLevel : Nat
  run : List Polys → Polys
  stated : Nat
  descOnly : Bool
  workAddr : Nat
  work : List Polys → Pieces

/-- A set with no modulus, read where a set that is not live has already failed step 4a. -/
def PSetVals.none : PSetVals :=
  { scheme := 0, logNMax := 0, chain := 0, special := 0, dnum := 0, plainMod := 0, moduli := [] }

def Dev.vals (d : Dev) (s : Nat) : PSetVals := (d.live s).getD .none

/-- Apply a function of the limb number to every limb. -/
def mapLimbs (f : Nat → List Nat → List Nat) (ps : Polys) : Polys :=
  ps.map fun p => p.zipIdx.map fun x => f x.2 x.1

def zipLimbs (f : Nat → List Nat → List Nat → List Nat) (a b : List (List Nat)) : List (List Nat) :=
  (List.zip a b).zipIdx.map fun x => f x.2 x.1.1 x.1.2

/-- Every word reduced under its limb's modulus: what a routine writes is canonical (02 R30). -/
def canonPolys (v : PSetVals) (a : Polys) : Polys := mapLimbs (fun i l => l.map (· % v.q i)) a

/-- Sum of two polynomial lists; a missing polynomial counts as zero (09 R292). -/
def addPolys (v : PSetVals) (a b : Polys) : Polys :=
  match a, b with
  | x :: xs, y :: ys => zipLimbs (fun i => limbAdd (v.q i)) x y :: addPolys v xs ys
  | [], b => canonPolys v b
  | a, [] => canonPolys v a

def negPolys (v : PSetVals) (a : Polys) : Polys := mapLimbs (fun i => limbNeg (v.q i)) a

def mulPoly (v : PSetVals) (a b : List (List Nat)) : List (List Nat) := zipLimbs (fun i => limbMul (v.q i)) a b

/-- The descriptor fields a result takes from its first ciphertext input, or from its first input when all are
plaintexts (03 R77, R83). -/
def resultOf (inputs : List Operand) : CtDesc :=
  (((inputs.find? fun i => !i.desc.isPlain).or inputs.head?).map (·.desc)).getD (CtDesc.parse [])

/-- The set's scheme is one that a routine takes (09 R292). -/
def schemeIs (d : Dev) (s : Nat) (ok : List Nat) : Bool :=
  match d.live s with
  | some v => ok.contains v.scheme.toNat
  | none => true

/-- Every byte of the storage lies in A of its cluster (04 R113). -/
def Dev.storageInA (d : Dev) (t : CtDesc) (logN polys : Nat) : Bool :=
  (t.storage logN polys).all fun p =>
    match regionOf p.1 with
    | .bank c off => d.memoryOf c off = 1 && d.memoryOf c (off + p.2 - 1) = 1
    | _ => false

/-- The level at which an operation on these inputs works (03 R81). -/
def workLevel (inputs : List Operand) : Nat :=
  (inputs.map fun i => i.desc.level).foldl min 63

/-- The plan of a routine that keeps the descriptor's other fields. -/
def plainPlan (dest : Operand) (inputs : List Operand) (res : CtDesc) (form requires : List (Bool × Nat))
    (consumes : Nat) (readLevel : Nat) (stated : Nat) (run : List Polys → Polys) : Plan :=
  { chk := { inputs := inputs, dest := dest, key := none, form := form, requires := requires, consumes := consumes,
             result := res, banks := [], inPlace := inputs.any fun i => i.addr = dest.addr },
    readLevel := readLevel, run := run, stated := stated, descOnly := false, workAddr := dest.addr, work := fun _ => [] }

/-- Operands that routines with torus transfers take lie in scratchpads (04 R115). -/
def scratchForm (os : List Operand) : List (Bool × Nat) := os.map fun o => (o.desc.scratch, o.addr)

def Dev.nttPlan (d : Dev) (dest src : Operand) (forward : Bool) : Plan :=
  let t := src.desc
  let v := d.vals t.pset
  let res := { t with ntt := forward }
  plainPlan dest [src] res
    (scratchForm [src, dest] ++ [(d.storageInA dest.desc t.logN t.polys, dest.addr)])
    [(t.ntt = !forward, src.addr), (schemeIs d t.pset [0, 1], src.addr)] 0 t.level
    (t.polys * costNtt t.logN * (if dest.desc.serial then t.level else 1))
    fun ins => mapLimbs (fun i => if forward then ntt t.logN (v.q i) else intt t.logN (v.q i)) (ins.getD 0 [])

/-- ADD and SUB take plaintexts too: their Requires column asks nothing of the kinds (09 R292), and a plaintext's missing
polynomials count as zero. -/
def Dev.addPlan (d : Dev) (dest a b : Operand) (minus : Bool) : Plan :=
  let l := workLevel [a, b]
  let v := d.vals a.desc.pset
  let res := { resultOf [a, b] with
    polys := max a.desc.polys b.desc.polys, level := l, noise := sat16 (max a.desc.noise b.desc.noise + 16) }
  plainPlan dest [a, b] res []
    [(schemeIs d a.desc.pset [0, 1], a.addr), (a.desc.ntt = b.desc.ntt, b.addr),
     (scaleClose v a.desc.scale b.desc.scale, b.addr)] 0 l
    (costPass res dest.desc.serial (res.polys * (costU res.logN + 16)))
    fun ins => addPolys v (ins.getD 0 []) (if minus then negPolys v (ins.getD 1 []) else ins.getD 1 [])

def Dev.negPlan (d : Dev) (dest a : Operand) : Plan :=
  plainPlan dest [a] a.desc [] [(schemeIs d a.desc.pset [0, 1], a.addr)] 0 a.desc.level
    (costPass a.desc dest.desc.serial (a.desc.polys * (costU a.desc.logN + 16)))
    fun ins => negPolys (d.vals a.desc.pset) (ins.getD 0 [])

def Dev.addPlainPlan (d : Dev) (dest a p : Operand) : Plan :=
  let l := workLevel [a, p]
  let v := d.vals a.desc.pset
  let res := { a.desc with level := l, noise := sat16 (max a.desc.noise p.desc.noise + 16) }
  plainPlan dest [a, p] res []
    [(schemeIs d a.desc.pset [0, 1], a.addr), (p.desc.isPlain, p.addr), (a.desc.ntt = p.desc.ntt, p.addr),
     (scaleClose v a.desc.scale p.desc.scale, p.addr)] 0 l
    (costPass res dest.desc.serial (costU res.logN + 16))
    fun ins =>
      match ins.getD 0 [] with
      | c0 :: r => zipLimbs (fun i => limbAdd (v.q i)) c0 ((ins.getD 1 []).headD []) :: canonPolys v r
      | [] => []

def Dev.mulPlainPlan (d : Dev) (dest a p : Operand) : Plan :=
  let l := workLevel [a, p]
  let v := d.vals a.desc.pset
  let res := { a.desc with
    level := l, noise := sat16 (a.desc.noise + p.desc.noise + 8 * a.desc.logN),
    scale := scaleMul v a.desc.scale p.desc.scale }
  plainPlan dest [a, p] res []
    [(schemeIs d a.desc.pset [0, 1], a.addr), (a.desc.ntt, a.addr),
     (p.desc.isPlain, p.addr), (p.desc.ntt, p.addr)] 0 l
    (costPass res dest.desc.serial (res.polys * (costU res.logN + 16)))
    fun ins => (ins.getD 0 []).map fun c => mulPoly v c ((ins.getD 1 []).headD [])

def Dev.mulPlan (d : Dev) (dest a b : Operand) : Plan :=
  let l := workLevel [a, b]
  let v := d.vals a.desc.pset
  let res := { a.desc with
    polys := 3, level := l, noise := sat16 (a.desc.noise + b.desc.noise + 8 * a.desc.logN),
    scale := scaleMul v a.desc.scale b.desc.scale }
  plainPlan dest [a, b] res []
    [(schemeIs d a.desc.pset [0, 1], a.addr), (a.desc.ntt, a.addr), (a.desc.polys = 2, a.addr),
     (b.desc.ntt, b.addr), (b.desc.polys = 2, b.addr)] 0 l
    (costPass res dest.desc.serial (4 * (costU res.logN + 16)))
    fun ins =>
      let x := ins.getD 0 []
      let y := ins.getD 1 []
      let a0 := x.getD 0 []
      let a1 := x.getD 1 []
      let b0 := y.getD 0 []
      let b1 := y.getD 1 []
      [mulPoly v a0 b0, zipLimbs (fun i => limbAdd (v.q i)) (mulPoly v a0 b1) (mulPoly v a1 b0), mulPoly v a1 b1]

def Dev.axpyPlan (d : Dev) (dest y c x : Operand) : Plan :=
  let l := workLevel [y, c, x]
  let v := d.vals y.desc.pset
  let res := { resultOf [y, c, x] with
    polys := max y.desc.polys x.desc.polys, level := l,
    noise := sat16 (max y.desc.noise (x.desc.noise + c.desc.noise + 8 * y.desc.logN) + 16) }
  plainPlan dest [y, c, x] res []
    [(schemeIs d y.desc.pset [0, 1], y.addr), (y.desc.ntt, y.addr), (c.desc.isPlain, c.addr),
     (c.desc.ntt, c.addr), (x.desc.ntt, x.addr),
     (scaleClose v y.desc.scale (scaleMul v c.desc.scale x.desc.scale), x.addr)] 0 l
    (costPass res dest.desc.serial (res.polys * (costU res.logN + 16)))
    fun ins =>
      addPolys v (ins.getD 0 []) ((ins.getD 2 []).map fun p => mulPoly v p ((ins.getD 1 []).headD []))

def Dev.dropPlan (d : Dev) (dest a : Operand) (level : Nat) : Plan :=
  let res := { a.desc with level := level }
  { plainPlan dest [a] res []
      [(schemeIs d a.desc.pset [0, 1], a.addr), (1 ≤ level && level < a.desc.level, a.addr)] (a.desc.level - level) level
      (if dest.addr = a.addr then 16 else costPass res dest.desc.serial (res.polys * (costU res.logN + 16)))
      (fun ins => canonPolys (d.vals a.desc.pset) (ins.getD 0 [])) with descOnly := dest.addr = a.addr }

/-- The rescale or modulus switch of every polynomial, removing modulus `t` (04 R131, 06 R189). -/
def rescalePolys (v : PSetVals) (n t : Nat) (ps : Polys) : Polys :=
  ps.map fun p =>
    let b := intt n (v.q t) (p.getD t [])
    (p.take t).zipIdx.map fun x =>
      if v.scheme = 1 then bgvSwitchLimb n v.plainMod.toNat (v.q t) (v.q x.2) b x.1
      else rescaleLimb n (v.q t) (v.q x.2) b x.1

def Dev.rescalePlan (d : Dev) (dest a : Operand) : Plan :=
  let t := a.desc.level - 1
  let n := a.desc.logN
  let v := d.vals a.desc.pset
  let res := { a.desc with
    level := t, noise := sat16 (max ((a.desc.noise : Int) - v.lq16 t) (8 * n + 32) + 16),
    scale := scaleDrop v a.desc.scale t }
  plainPlan dest [a] res (scratchForm [a, dest])
    [(schemeIs d a.desc.pset [0, 1], a.addr), (a.desc.ntt, a.addr)] 1 a.desc.level (costRescale res dest.desc.serial)
    fun ins => rescalePolys v n t (ins.getD 0 [])

/-- Conv from source limbs `src` (modulus index, coefficient form) to modulus index `p`, in evaluation form. -/
def convTo (v : PSetVals) (n : Nat) (src : List (Nat × List Nat)) (p : Nat) : List Nat :=
  ntt n (v.q p) (baseConv (src.map fun s => (v.q s.1, s.2)) (v.q p) (2 ^ n))

/-- BCONV (04 R129, 09 R292). The result's limbs FIRST to FIRST + COUNT - 1 are those of the source, reduced: in place they
stand unchanged, and no rule says what else a destination holds there (DEDUCED, log entry 90). -/
def Dev.bconvPlan (d : Dev) (dest a : Operand) (fst cnt : Nat) : Plan :=
  let n := a.desc.logN
  let v := d.vals a.desc.pset
  let bits := (List.range cnt).foldl (fun s j => s + v.lq16 (fst + j)) 0
  let res := { a.desc with
    noise := sat16 (max a.desc.noise (bits + 16 * Nat.clog 2 (cnt + 1) + 8 * n) + 16) }
  plainPlan dest [a] res (scratchForm [a, dest])
    [(schemeIs d a.desc.pset [0, 1], a.addr), (a.desc.ntt, a.addr), (1 ≤ cnt && fst + cnt ≤ a.desc.level, a.addr)] 0
    a.desc.level (costConv n dest.desc.serial cnt (a.desc.level - cnt))
    fun ins => (ins.getD 0 []).map fun p =>
      let src := (List.range cnt).map fun j => (fst + j, intt n (v.q (fst + j)) (p.getD (fst + j) []))
      p.zipIdx.map fun x => if fst ≤ x.2 ∧ x.2 < fst + cnt then x.1.map (· % v.q x.2) else convTo v n src x.2

/-! ### Running a plan -/

/-- What a run leaves: the device, the status, what it writes when it ends, the banks it holds until it returns (10 R322), and
whether it was refused. -/
structure Ran where
  dev : Dev
  status : BitVec 8
  effect : Effect
  held : List (Nat × Nat)
  refused : Bool
  deriving DecidableEq, Repr

/-- A refusal as a run. -/
def Dev.refused (d : Dev) (core : Nat) (who : Requester) (dest : Operand) (c : Check) : Ran :=
  let r := d.refuse core who dest c
  ⟨r.1, r.2, .nothing, [], true⟩

/-- The objects of a plan with their banks, in the order in which step 8 is reported (03 R93). -/
def Plan.objects (p : Plan) : List (Nat × List (Nat × Nat)) :=
  (p.chk.inputs.map fun i =>
    (i.addr, (if p.descOnly then [] else i.desc.banks i.desc.polys (min p.readLevel i.desc.level)) ++
      banksOf [(i.addr, 64)])) ++
  [(p.chk.dest.addr, banksOf [(p.chk.dest.addr, 64)] ++ if p.descOnly then [] else
    ({ p.chk.dest.desc with logN := p.chk.result.logN }).banks p.chk.result.polys p.chk.result.level)]

/-- The limbs of every input, and whether a stack delivered bad data. -/
def Dev.readInputs (d : Dev) (p : Plan) : Dev × List Polys × Bool :=
  p.chk.inputs.foldl (fun (acc : Dev × List Polys × Bool) i =>
    let (d, ps, b) := acc.1.readPolys i.desc (min p.readLevel i.desc.level)
    (d, acc.2.1 ++ [ps], acc.2.2 || b)) (d, [], false)

/-- Checks, limbs and descriptor of one routine (03 R87-R90, R96); none: it waits for a bank (10 R324, R332). A DROP in
place writes its descriptor only (09 R292). The writes are made when the call returns. -/
def Dev.runPlan (d : Dev) (core : Nat) (gang : List Nat) (p : Plan) : Option Ran :=
  let who : Requester := .library gang
  match firstFailed (d.opChecks p.chk) with
  | some c => some (d.refused core who p.chk.dest c)
  | none =>
    let banks := p.chk.allBanks p.readLevel p.descOnly
    match d.banksOwned who banks with
    | none => none
    | some false =>
      some (d.refused core who p.chk.dest ⟨false, stNotOwner, d.firstUnowned who p.objects p.workAddr⟩)
    | some true =>
      let poison := p.chk.inputs.any fun i => i.desc.poison
      if p.descOnly then
        some ⟨d, doneStatus poison, { Effect.nothing with
          dest := some (p.chk.dest.completion p.chk.result poison), poisonIn := poison }, banks, false⟩
      else
        let (d, ins, bad) := d.readInputs p
        let t := { p.chk.dest.desc with
          level := p.chk.result.level, logN := p.chk.result.logN, ntt := p.chk.result.ntt }
        some ⟨d, doneStatus (poison || bad),
          { units := t.units (p.run ins), also := [], work := p.work ins,
            dest := some (p.chk.dest.completion p.chk.result (poison || bad)), poisonIn := poison }, banks, false⟩

end Sys2Proof.Machine
end

