-- ==== Sys2Proof/Machine/KeySwitch.lean ====
section
/-! DEFINITION. Key images, the seeded halves, the hybrid key switch, and the four routines that make one key switch
(05 R135-R164, 04 R117, 09 R292-R296). -/

namespace Sys2Proof.Machine

/-! ### Key images (05 R140-R145, 06 R174, R175) -/

/-- Words of a seeded half: 64-bit little-endian pieces of the ChaCha20 blocks, reduced (05 R144, R145). -/
def seededLimb (seed : List Byte) (number q j dig logN : Nat) : List Nat :=
  (List.range (2 ^ logN / 8)).flatMap fun b =>
    let out := chachaBlock seed b (leBytes 4 j ++ leBytes 4 number ++ leBytes 4 dig)
    (List.range 8).map fun i => leNat ((out.drop (8 * i)).take 8) % q

/-- BODY_LEN that a header must state (05 R141, 06 R174). -/
def KeyHdr.bodyRule (h : KeyHdr) : Nat :=
  let b := limbBytes h.logN
  let alpha := ceilDiv h.chainL h.dnum
  if h.kind = 0x01 then h.chainL * b
  else if h.kind = 0x11 then 226492416
  else if h.kind = 0x12 then 884736
  else ceilDiv h.chainL alpha * (h.chainL + h.specialK) * b

def keyKindDefined (k : Nat) : Bool := (1 ≤ k && k ≤ 4) || (0x10 ≤ k && k ≤ 0x13)

/-- The image lies in usable bytes of slabs of one correct region (05 R147). -/
def Dev.resident (d : Dev) (image len : Nat) : Bool :=
  inStack image len &&
  (let slabs := (List.range ((image + len - 1) / 0x200000000 - image / 0x200000000 + 1)).map (image / 0x200000000 + ·)
   slabs.all fun s =>
     match d.slabClass s with
     | some (0, _) => !d.stk.initialising.contains s
     | _ => false) &&
  image / 0x200000000 = (image + len - 1) / 0x200000000 && image % 0x200000000 + len ≤ usableBytes 0

/-- The header check at open, read errors apart (05 R154). -/
def Dev.headerOk (d : Dev) (h : KeyHdr) (image level : Nat) : Bool :=
  h.magic = 0x4B455931 && h.format = 1 && keyKindDefined h.kind && 12 ≤ h.logN && h.logN ≤ 17 && 1 ≤ h.dnum &&
  h.dnum ≤ 8 && 1 ≤ h.chainL && h.chainL ≤ 60 && 1 ≤ h.specialK && h.chainL + h.specialK ≤ 64 &&
  h.bodyLen = h.bodyRule && image % 256 = 0 && d.resident image (256 + h.bodyLen) && 1 ≤ level && level ≤ h.chainL &&
  (if h.kind = 0x03 then h.rot < 2 ^ (h.logN - 1) && h.galois = powMod 5 h.rot (2 ^ (h.logN + 1))
   else if h.kind = 0x04 then h.rot = 0 && h.galois = 2 ^ (h.logN + 1) - 1
   else h.rot = 0 && h.galois = 1)

/-- A stored limb of an image, by its place in the body. -/
def Dev.keyStored (d : Dev) (image logN place : Nat) : List Nat :=
  unpackWords (d.rd (image + 256 + place * limbBytes logN) (limbBytes logN))

/-- Both halves of the limb of digit `dig` under modulus `j`, for the kinds that switch (05 R141, R144). -/
def Dev.keyPair (d : Dev) (v : PSetVals) (image : Nat) (h : KeyHdr) (dig j : Nat) : List Nat × List Nat :=
  (d.keyStored image h.logN (dig * v.count + j), seededLimb h.seed h.number (v.q j) j dig h.logN)

/-! ### The key switch (05 R137, R139, 04 R130) -/

/-- One polynomial in evaluation form extended from digit `dig` to modulus `j` (05 R139 step 2). -/
def extendDigit (v : PSetVals) (n l dig : Nat) (c coeff : List (List Nat)) (j : Nat) : List Nat :=
  let lo := dig * v.alpha
  let hi := min (min ((dig + 1) * v.alpha) v.l) l
  if lo ≤ j ∧ j < hi then c.getD j []
  else convTo v n ((List.range (hi - lo)).map fun i => (lo + i, coeff.getD (lo + i) [])) j

/-- Reduction of limbs from P to chain modulus `j` (04 R130). -/
def reduceP (v : PSetVals) (n j : Nat) (a : List Nat) (special : List (Nat × List Nat)) : List Nat :=
  let q := v.q j
  let p := prodList ((List.range v.k).map fun k => v.q (v.l + k))
  limbScale q (invMod (p % q) q) (limbSub q a (convTo v n special j))

/-- u0 and u1 of a key switch of `c`, `l` limbs in evaluation form, under the pairs `key dig j` (05 R139). -/
def keySwitch (v : PSetVals) (n l : Nat) (key : Nat → Nat → List Nat × List Nat) (c : List (List Nat)) :
    List (List Nat) × List (List Nat) :=
  let coeff := c.zipIdx.map fun x => intt n (v.q x.2) x.1
  let sumAt := fun (j : Nat) => (List.range (ceilDiv l v.alpha)).foldl (fun (acc : List Nat × List Nat) dig =>
    let e := extendDigit v n l dig c coeff j
    let k := key dig j
    (limbAdd (v.q j) acc.1 (limbMul (v.q j) e k.1), limbAdd (v.q j) acc.2 (limbMul (v.q j) e k.2)))
    (List.replicate (2 ^ n) 0, List.replicate (2 ^ n) 0)
  let chain := (List.range l).map sumAt
  let special := (List.range v.k).map fun k =>
    let s := sumAt (v.l + k)
    (v.l + k, intt n (v.q (v.l + k)) s.1, intt n (v.q (v.l + k)) s.2)
  (chain.zipIdx.map fun x => reduceP v n x.2 x.1.1 (special.map fun s => (s.1, s.2.1)),
   chain.zipIdx.map fun x => reduceP v n x.2 x.1.2 (special.map fun s => (s.1, s.2.2)))

def sumPoly (v : PSetVals) (a b : List (List Nat)) : List (List Nat) := zipLimbs (fun i => limbAdd (v.q i)) a b

/-- The automorphism on every polynomial, in evaluation form (04 R132). -/
def autoPolys (n g : Nat) (ps : Polys) : Polys := mapLimbs (fun _ => autoEval n g) ps

/-! ### The stream a call uses (05 R155-R160, 09 R294) -/

/-- The stream has reached every port of a gang, which has not used it. -/
def KeyStream.fits (s : KeyStream) (gang : List Nat) : Bool :=
  s.delivered && (gang.all fun c => s.attached.contains c) && gang.all fun c => !s.requested.contains c

/-- A gang's stream on a channel: the failure mark that its ports hold, else the stream that the channel carries (05 R162; log
entry 22). -/
def Dev.streamFor (d : Dev) (channel : Nat) (gang : List Nat) : Option KeyStream :=
  match (d.channel channel).failed.find? fun s => s.fits gang with
  | some s => some s
  | none => (d.channel channel).stream.filter fun s => s.fits gang

def KeyStream.keyIn (s : KeyStream) (kinds : List Nat) (rot : Option Nat) : KeyIn :=
  { image := s.record.image.toNat, hdr := s.header.map KeyHdr.parse, level := s.record.level.toNat, kinds := kinds,
    rot := rot }

/-- A stream that is not there: a CHANNEL above 7 names no channel, and fails as a failure mark does (05 R159). -/
def noKey : KeyStream :=
  { record := { image := 0, channel := 0, level := 1, openAt := 0, subscribers := 0 }, header := none,
    delivered := true, attached := [], requested := [], dataPhase := false }

/-- The header words of a stream, zero for a failure mark. -/
def KeyStream.hdr (s : KeyStream) : KeyHdr := KeyHdr.parse (s.header.getD [])

/-- The stored bytes of a stream's key image as one number: what open values of a key switch depend on. -/
def Dev.keyNumber (d : Dev) (s : KeyStream) : Nat :=
  leNat (d.rd s.record.image.toNat (256 + s.hdr.bodyLen))

/-- A stream without some of its clusters. -/
def KeyStream.without (s : KeyStream) (gang : List Nat) : KeyStream :=
  { s with attached := s.attached.filter fun c => !gang.contains c, requested := s.requested.filter fun c => !gang.contains c }

/-- Detach clusters from the stream that they find on a channel; each detachment is counted (05 R160, R165). A failure mark
that no port holds any more is gone. -/
def Dev.detach (d : Dev) (channel : Nat) (gang : List Nat) : Dev :=
  let x := d.channel channel
  let here := fun (s : KeyStream) => s.attached.any fun c => gang.contains c
  let out := fun (s : KeyStream) => (s.attached.filter fun c => gang.contains c).length
  match x.failed.find? here with
  | some m =>
    (d.setChannel channel { x with failed := (x.failed.map fun s => if s = m then s.without gang else s).filter fun s =>
      s.attached ≠ [] }).bump (0x5400 + channel) 6 (out m)
  | none =>
    match x.stream with
    | some s => (d.setChannel channel { x with stream := some (s.without gang) }).bump (0x5400 + channel) 6 (out s)
    | none => d

/-- Detach clusters from every stream of a channel (05 R161). -/
def Dev.detachAll (d : Dev) (channel : Nat) (gang : List Nat) : Dev :=
  (List.range ((d.channel channel).failed.length + 1)).foldl (fun d _ => d.detach channel gang) d

/-- The gang requests the stream's data (05 R156). -/
def Dev.requestData (d : Dev) (channel : Nat) (gang : List Nat) : Dev :=
  match (d.channel channel).stream with
  | some s => d.setChannel channel { d.channel channel with
      stream := some { s with requested := s.requested ++ gang } }
  | none => d

/-! ### The work list (04 R117, 09 R296) -/

/-- Bytes of the key-switch area in one cluster. -/
def keyArea (t : CtDesc) (k : Nat) : Nat :=
  let b := limbBytes t.logN
  if t.placement = 1 then 3 * (t.alloc + k) * b else if t.logN = 17 then 3 * b / 2 else 3 * b

/-- The clusters of positions 0 to ALLOC + K - 1. -/
def keyClusters (t : CtDesc) (k : Nat) : List Nat := ((List.range (t.alloc + k)).flatMap (t.clustersAt t.logN)).eraseDups

/-- The work list is in place and its area lies in P of every cluster. -/
def Dev.workOk (d : Dev) (work : Nat) (t : CtDesc) (k : Nat) : Bool :=
  d.recordPlaced work &&
    (let off := d.rdLe work 8
     let n := keyArea t k
     off + n ≤ 0x400000 && (keyClusters t k).all fun c => d.memoryOf c off = 2 && d.memoryOf c (off + n - 1) = 2)

/-- Address and length of the special-modulus limbs of a key switch under SPREAD, two polynomials at each position from
ALLOC on (04 R117). -/
def CtDesc.specialPieces (t : CtDesc) (k : Nat) : List (Nat × Nat) :=
  if t.spread then (List.range k).flatMap fun i => (List.range 2).flatMap fun p => t.limbPieces t.logN p (t.alloc + i)
  else []

/-- Special positions name clusters of their own under SPREAD, and each lies inside one memory (04 R115, R117). -/
def Dev.specialOk (d : Dev) (t : CtDesc) (k : Nat) : Bool :=
  !t.spread ||
    (((List.range (t.alloc + k)).flatMap (t.clustersAt t.logN)).Nodup &&
      (t.specialPieces k).all fun p =>
        match regionOf p.1 with
        | .bank c off => off + p.2 ≤ 0x400000 && d.memoryOf c t.offset = d.memoryOf c (off + p.2 - 1)
        | _ => false)

/-- The key-switch area in each cluster of positions 0 to ALLOC + K - 1 (09 R296). -/
def Dev.workAreas (d : Dev) (work : Nat) (t : CtDesc) (k : Nat) : List (Nat × Nat) :=
  (keyClusters t k).map fun c => (clusterAddr c (d.rdLe work 8), keyArea t k)

/-- Banks of the work list, the key-switch areas and the special-modulus limbs in a gang. -/
def Dev.workBanks (d : Dev) (work : Nat) (t : CtDesc) (k : Nat) (gang : List Nat) : List (Nat × Nat) :=
  (banksOf [(work, 64)] ++ banksOf (d.workAreas work t k ++ t.specialPieces k)).filter fun b => gang.contains b.1

/-- What a key switch leaves in its areas and at the special positions: no rule gives the contents, which its inputs settle
(04 R117, R124, 15 R471; log entry 88). -/
def Dev.workPieces (d : Dev) (work : Nat) (t : CtDesc) (k : Nat) (inputs : List Nat) : Pieces :=
  ((d.workAreas work t k ++ t.specialPieces k).foldl (fun (acc : Pieces × Nat) p =>
    (acc.1 ++ [(p.1, openBytes inputs acc.2 p.2)], acc.2 + p.2)) ([], 0)).1

/-- Stated cycles of a key switch (05 R164); `auto` is 0 without an automorphism, 1 for a rotation, 2 for a
conjugation. -/
def costKs (v : PSetVals) (t : CtDesc) (ls auto : Nat) : Nat :=
  let n := t.logN
  let u := costU n
  let l := t.level
  let s := 32 + ceilDiv ls v.alpha * (ls + v.k) * 2 ^ n / 512 + u + 16
  if t.serial then
    (if auto = 0 then 0 else t.polys * l * (3 * u + 32)) + costConv n true l (l + v.k) + s +
      2 * costReduce n true v.k l + l * (u + 16)
  else
    (if auto = 0 then 0 else 3 * u + 32 + (if auto = 2 ∧ n = 17 then costLambda n + 40 else 0)) +
      (2 * costNtt n + 2 * u + 72 + l * costLambda n) + s + (2 * costNtt n + 4 * u + 88 + 2 * v.k * costLambda n) +
      (u + 16)

/-- The plan of a routine that makes one key switch on input `a` (09 R292): `pre` is the automorphism's exponent, if
any, and `from3` says that c2 is switched rather than c1. An input in coefficient form is switched in evaluation form
and returned to its own form (log entry 9). The key's words are those that stand when the call's checks pass: of a word that
the host writes after that, R149 lets the old value be delivered or the new (DESIGN CHOICE, log entry 102). -/
def Dev.switchPlan (d : Dev) (dest a : Operand) (s : KeyStream) (kinds : List Nat) (rot : Option Nat)
    (schemes : List Nat) (pre : Option Nat) (auto : Nat) (from3 : Bool) (work : Nat) (gang : List Nat) : Plan :=
  let h := s.hdr
  let t := a.desc
  let v := d.vals t.pset
  let n := t.logN
  let res := { t with polys := 2, noise := sat16 (max t.noise h.noise + 16) }
  { chk := { inputs := [a], dest := dest, key := some (s.keyIn kinds rot),
             form := scratchForm [a, dest] ++
               [(s.header = none || d.specialOk t h.specialK, a.addr),
                (s.header = none || d.workOk work t h.specialK, work)],
             requires := [(schemeIs d t.pset schemes, a.addr), (t.polys = (if from3 then 3 else 2), a.addr),
                          (auto = 0 || t.ntt, a.addr)],
             consumes := 0, result := res, banks := d.workBanks work t h.specialK gang, inPlace := a.addr = dest.addr },
    readLevel := t.level, stated := costKs v t s.record.level.toNat auto, descOnly := false, workAddr := work,
    work := fun ins => d.workPieces work t h.specialK (d.keyNumber s :: v.moduli.map (·.toNat) ++ (ins.getD 0 []).flatten.flatten),
    run := fun ins =>
      let ev := if t.ntt then ins.getD 0 [] else mapLimbs (fun i => ntt n (v.q i)) (ins.getD 0 [])
      let ps := match pre with
        | some g => autoPolys n g ev
        | none => ev
      let u := keySwitch v n t.level (d.keyPair v s.record.image.toNat h) (ps.getD (if from3 then 2 else 1) [])
      let out := [sumPoly v (ps.getD 0 []) u.1, if from3 then sumPoly v (ps.getD 1 []) u.2 else u.2]
      if t.ntt then out else mapLimbs (fun i => intt n (v.q i)) out }

/-- Run a plan that uses a stream: a refusal detaches the gang, a pass requests the data (05 R156, R160). -/
def Dev.runKeyed (d : Dev) (core : Nat) (gang : List Nat) (channel : Nat) (p : Plan) : Option Ran :=
  (d.runPlan core gang p).map fun r =>
    { r with dev := if r.refused then r.dev.detach channel gang else r.dev.requestData channel gang }

end Sys2Proof.Machine
end

