-- ==== Sys2Proof/Machine/Electrum.lean ====
section
/-! DEFINITION. Electrum: batch descriptors, blind rotation, packing and ring switching (06 R172-R185, R191). -/

namespace Sys2Proof.Machine

/-! ### Batch descriptors (06 R176) -/

/-- The fields of a batch descriptor. -/
structure Batch where
  tag : Nat
  source : Nat
  lut : Nat
  epset : Nat
  cpset : Nat
  fst : Nat
  unit : Nat
  work : Nat
  step : Nat
  valid : Nat
  poison : Bool
  torn : Bool
  lastStatus : Nat
  lutScale : Nat
  writeTick : Nat
  deriving DecidableEq, Repr

def Batch.parse (b : List Byte) : Batch :=
  { tag := fld b 0 64, source := fld b 64 48, lut := fld b 112 48, epset := fld b 160 4, cpset := fld b 164 4,
    fst := fld b 176 16, unit := fld b 192 4, work := fld b 200 22, step := fld b 224 11, valid := fld b 240 10,
    poison := fld b 256 1 = 1, torn := fld b 257 1 = 1, lastStatus := fld b 264 8, lutScale := fld b 272 32,
    writeTick := fld b 320 64 }

def Batch.bytes (x : Batch) : List Byte :=
  mkRecord 64 [(0, 64, x.tag), (64, 48, x.source), (112, 48, x.lut), (160, 4, x.epset), (164, 4, x.cpset),
    (176, 16, x.fst), (192, 4, x.unit), (200, 22, x.work), (224, 11, x.step), (240, 10, x.valid),
    (256, 1, bit x.poison), (257, 1, bit x.torn), (264, 8, x.lastStatus), (272, 32, x.lutScale),
    (320, 64, x.writeTick)]

/-- Bytes of one accumulator: two polynomials of 4,096 words (06, before R176). -/
def accBytes : Nat := 36864

/-- Batch number within the group, group region, and the clusters of a unit. -/
def Batch.number (x : Batch) : Nat := x.fst / 512 % 8
def groupAddr (batch : Nat) (x : Batch) : Nat := batch - 64 * x.number
def unitClusters (u : Nat) : List Nat := (List.range 16).map (16 * u + ·)

/-- Where the working accumulator of slice s lies (log entry 10). -/
def Batch.workAddr (x : Batch) (s : Nat) : Nat := clusterAddr (16 * x.unit + s / 32) (x.work + s % 32 * accBytes)

/-- Where the accumulator of sample i of a group lies. -/
def groupAcc (g i : Nat) : Nat := g + 512 + accBytes * i

/-! ### Checks (06 R173, R177) -/

/-- R173 between an Electrum set and a CKKS set, both live. -/
def electrumPair (e c : PSetVals) : Bool :=
  e.scheme = 2 && e.logNMax = 12 && e.l = 1 && c.scheme = 0 && e.q 0 = c.q 0

/-- A header names the live set's own L, K and DNUM (05 R159). -/
def headerFits (h : KeyHdr) (v : PSetVals) : Bool :=
  h.chainL = v.l && h.specialK = v.k && h.dnum = v.dnum.toNat

/-- A run of bytes can be read: usable stack bytes, one cluster's window or one core's window. -/
def Dev.spanOk (d : Dev) (a n : Nat) : Bool :=
  match regionOf a with
  | .stack => d.stackRangeOk a n
  | .bank _ off => off + n ≤ 0x400000
  | .core _ off => off + n ≤ 0x10000
  | .nowhere => false

/-- Refuse with a batch descriptor as the destination (03 R90, R92, 06 R176, 10 R320). -/
def Dev.refuseBatch (d : Dev) (core : Nat) (who : Requester) (addr : Nat) (placed : Bool) (x : Batch) (c : Check) :
    Dev × BitVec 8 :=
  let d := (d.faultUc 0x01 core c.object 0 c.status 0).countRefusal
  if placed && d.descAccess who [addr] = some none then
    d.writeDesc addr ({ x with poison := true, lastStatus := c.status.toNat, writeTick := d.tickNumber }).bytes c.status
  else (d, c.status)

/-- Steps 1 to 7 of ELEC_BR (06 R177). The range of i0 and i1 is a condition of the Requires column, so it fails step 4b (09
R292). -/
def Dev.brChecks (d : Dev) (batch : Nat) (placed : Bool) (x : Batch) (src : Operand) (i0 i1 : Nat) (s : KeyStream) :
    List Check :=
  let h := s.hdr
  let t := src.desc
  let key := s.record.image.toNat
  let got := s.header ≠ none
  [ ⟨placed && batch < stackEnd && x.fst % 512 = 0 && x.work % 256 = 0 &&
      (i0 = 0 || x.step = i0) && d.spanOk x.lut 18432 &&
      ((unitClusters x.unit).all fun c => x.work + 1179648 ≤ 0x400000 && d.memoryOf c x.work = 1 &&
        d.memoryOf c (x.work + 1179647) = 1) &&
      d.stackRangeOk (groupAcc (groupAddr batch x) (512 * x.number)) (512 * accBytes), stBounds, batch⟩,
    ⟨d.inputForm src && t.level = 1 && t.polys = 2 && !t.ntt && t.layout = 0 && x.fst < 2 ^ (t.logN - 1), stBounds,
      src.addr⟩,
    ⟨got, stBounds, key⟩,
    ⟨!t.torn, stTorn, src.addr⟩,
    ⟨i0 = 0 || !x.torn, stTorn, batch⟩,
    ⟨!got || h.tag = t.tag, stKeyMismatch, key⟩,
    ⟨i0 = 0 || x.tag = t.tag, stKeyMismatch, batch⟩,
    ⟨d.live t.pset ≠ none, stUncommitted, src.addr⟩,
    ⟨d.live x.epset ≠ none && d.live h.pset ≠ none, stUncommitted, key⟩,
    ⟨i0 < i1 && i1 ≤ 1536, stMismatch, batch⟩,
    ⟨electrumPair (d.vals x.epset) (d.vals t.pset) && t.logN ≤ (d.vals t.pset).logNMax.toNat, stMismatch, batch⟩,
    ⟨h.kind = 0x11 && h.pset = x.epset && h.logN = 12 && headerFits h (d.vals x.epset), stMismatch, key⟩,
    ⟨1 ≤ s.record.level.toNat, stUnderflow, key⟩,
    ⟨t.noise + 208 ≤ (d.vals t.pset).lq16 0, stBudget, src.addr⟩ ]

/-! ### Blind rotation (06 R178, R179) -/

/-- x̃ (06 R178 step 2). -/
def modSwitch (q x : Nat) : Nat := (x * 8192 + q / 2) / q % 8192

/-- b and a_0 to a_1535 of sample k (06 R178 step 1), switched to modulus 8,192. -/
def brSample (q bigN k : Nat) (c0 c1 : Array Nat) : Nat × List Nat :=
  (modSwitch q (c0.getD k 0), (List.range 1536).map fun i =>
    modSwitch q (if i ≤ k then c1.getD (k - i) 0 else (q - c1.getD (bigN + k - i) 0 % q) % q))

/-- The test polynomial (06 R178 step 3). -/
def brTest (q : Nat) (f : List Nat) : List Nat :=
  let inv := invMod 4096 q
  let arr := f.toArray
  (List.range 4096).map fun i =>
    if i = 0 then inv * arr.getD 0 0 % q else (q - inv * arr.getD (4096 - i) 0 % q) % q

/-- Digit t of a polynomial (06 R172). -/
def gadgetDigit (t : Nat) (p : List Nat) : List Nat := p.map fun x => x / 2 ^ (9 * t) % 512

/-- Rows of entry i of a BR_KEY, or of level l of a PACK_KEY, in evaluation form (06 R174, R175). -/
def Dev.electrumRow (d : Dev) (q image : Nat) (h : KeyHdr) (place : Nat) : List Nat × List Nat :=
  (d.keyStored image 12 place, seededLimb h.seed h.number q 0 place 12)

/-- Σ over rows of digit × row, in coefficient form. -/
def externalProduct (q : Nat) (rows : List (List Nat × List Nat)) (digits : List (List Nat)) : List Nat × List Nat :=
  let s := (List.zip digits rows).foldl (fun (acc : List Nat × List Nat) x =>
    let e := ntt 12 q x.1
    (limbAdd q acc.1 (limbMul q e x.2.1), limbAdd q acc.2 (limbMul q e x.2.2)))
    (List.replicate 4096 0, List.replicate 4096 0)
  (intt 12 q s.1, intt 12 q s.2)

/-- One blind-rotation step (06 R179). -/
def brStep (q : Nat) (rows : List (List Nat × List Nat)) (a : Nat) (acc : List Nat × List Nat) : List Nat × List Nat :=
  let p0 := limbSub q (negaShift 12 q a acc.1) acc.1
  let p1 := limbSub q (negaShift 12 q a acc.2) acc.2
  let s := externalProduct q rows ((List.range 4).map (fun t => gadgetDigit t p0) ++
    (List.range 4).map fun t => gadgetDigit t p1)
  (limbAdd q acc.1 s.1, limbAdd q acc.2 s.2)

def packAcc (acc : List Nat × List Nat) : List Byte := packWords acc.1 ++ packWords acc.2

def unpackAcc (bs : List Byte) : List Nat × List Nat :=
  let ws := unpackWords bs
  (ws.take 4096, ws.drop 4096)

/-- Every accumulator after steps i0 to i1 - 1, and whether a stack delivered bad data. Accumulators kept at WORK are read
through the checks on stored data (10 R333). -/
def Dev.brRun (d : Dev) (x : Batch) (src : Operand) (s : KeyStream) (i0 i1 : Nat) :
    Dev × List (List Nat × List Nat) × Bool :=
  let q := (d.vals x.epset).q 0
  let (d, ps, bad) := d.readPolys src.desc 1
  let c0 := ((ps.getD 0 []).headD []).toArray
  let c1 := ((ps.getD 1 []).headD []).toArray
  let (d, lut, bad2) := if i0 = 0 then d.fetch none x.lut 18432 else (d, [], false)
  let (d, kept, _) := if i0 = 0 then (d, [], false)
    else d.fetchPieces ((List.range 512).map fun k => (x.workAddr k, accBytes))
  let test := brTest q (unpackWords lut)
  let accs := (List.range 512).map fun k =>
    let smp := brSample q (2 ^ src.desc.logN) (x.fst + k) c0 c1
    let start := if i0 = 0 then (negaShift 12 q smp.1 test, List.replicate 4096 0) else unpackAcc (kept.getD k [])
    (List.range (i1 - i0)).foldl (fun acc i =>
      let rows := (List.range 8).map fun r => d.electrumRow q s.record.image.toNat s.hdr (8 * (i0 + i) + r)
      brStep q rows (smp.2.getD (i0 + i) 0) acc) start
  (d, accs, bad || (bad2 && x.lut < stackEnd))

/-- The WORK areas of a batch. -/
def Batch.workAreas (x : Batch) : List (Nat × Nat) := (unitClusters x.unit).map fun c => (clusterAddr c x.work, 1179648)

/-- The objects of ELEC_BR with their banks. Step 8 asks for the banks of WORK (06 R177); the source, the table and the
descriptors, where they lie in a scratchpad, are accesses of the same call, and a bank that refuses one refuses the call at
step 8 as well (10 R318, R320). -/
def Batch.objects (batch : Nat) (x : Batch) (src : Operand) : List (Nat × List (Nat × Nat)) :=
  [ (batch, banksOf ((batch, 64) :: x.workAreas)), (src.addr, src.desc.banks 2 1 ++ banksOf [(src.addr, 64)]),
    (batch, banksOf [(x.lut, 18432)]) ]

/-- What a call on a batch leaves at WORK: its accumulators between calls; after the last call, contents that no rule gives
(06 R180, log entry 88). -/
def Batch.workPieces (x : Batch) (fin : Bool) (accs : List (List Nat × List Nat)) (inputs : List Nat) : Pieces :=
  if fin then (x.workAreas.foldl (fun (acc : Pieces × Nat) p =>
    (acc.1 ++ [(p.1, openBytes inputs acc.2 p.2)], acc.2 + p.2)) ([], 0)).1
  else accs.zipIdx.map fun a => (x.workAddr a.2, packAcc a.1)

/-- ELEC_BR on a stream whose header has come (06 R177-R180). A call that does not reach step 1,536 writes POISON by its own
inputs, so with i0 = 0 it clears an old mark, which R177 has it ignore (DESIGN CHOICE, log entry 91). -/
def Dev.runBr (d : Dev) (core : Nat) (gang : List Nat) (batch i0 i1 channel : Nat) (s : KeyStream) : Option Ran :=
  let who : Requester := .library gang
  let placed := d.recordPlaced batch
  let (d, bs, bad) := if placed then d.fetch none batch 64 else (d, [], false)
  let placed := placed && !bad
  let x := Batch.parse bs
  let (d, src) := d.readOperand x.source
  let refuse := fun (d : Dev) (c : Check) =>
    let r := d.refuseBatch core who batch placed x c
    some (Ran.mk (r.1.detach channel gang) r.2 .nothing [] true)
  match firstFailed (d.brChecks batch placed x src i0 i1 s) with
  | some c => refuse d c
  | none =>
    let objs := x.objects batch src
    let banks := (objs.flatMap (·.2)).eraseDups
    match d.banksOwned who banks with
    | none => none
    | some false => refuse d ⟨false, stNotOwner, d.firstUnowned who objs batch⟩
    | some true =>
      let (d, accs, bad) := d.brRun x src s i0 i1
      let fin := i1 = 1536
      let poisonIn := src.desc.poison || (i0 ≠ 0 && x.poison)
      let poison := bad || poisonIn
      let inputs := [0x050, i0, d.keyNumber s] ++ accs.flatMap fun a => a.1 ++ a.2
      some ⟨d.requestData channel gang, doneStatus poison,
        { units := if fin then [accs.zipIdx.map fun a => (groupAcc (groupAddr batch x) (512 * x.number + a.2), packAcc a.1)]
            else [],
          also := [], work := x.workPieces fin accs inputs, poisonIn := poisonIn,
          dest := some (batch, ({ x with
            tag := src.desc.tag, cpset := src.desc.pset, step := i1, valid := if fin then 512 else 0, poison := poison,
            torn := false, lastStatus := (doneStatus poison).toNat }).bytes) }, banks, false⟩

/-- ELEC_BR aborted: the batch is torn with VALID 0 and STEP as it stands, the WORK accumulators are free values, and the
group's words are old or new (06 R191, 03 R100, R101). -/
def Dev.abortBr (d : Dev) (e : Effect) : Dev :=
  match e.dest with
  | none => d
  | some (batch, bs) =>
    let x := Batch.parse bs
    let d := d.tearUnits 0 e.units
    let d := (List.range 512).foldl (fun (d : Dev) k =>
      let (w, d) := d.drawBytes accBytes
      d.wr (x.workAddr k) w) d
    (d.writeDesc batch ({ x with
      step := (Batch.parse (d.rd batch 64)).step, valid := 0, torn := true, poison := e.poisonIn,
      lastStatus := stAborted.toNat, writeTick := d.tickNumber }).bytes stAborted).1

/-- Stated cycles of ELEC_BR (06 R182). -/
def costBr (i0 i1 : Nat) : Nat :=
  96 + (if i0 = 0 then 4096 else 0) + (i1 - i0) * 8832 + (if i1 = 1536 then 8192 else 0)

/-! ### Packing (06 R183) -/

/-- auto(·, g) of 06 R183: X → X^g on both polynomials, then back to z under the rows of level l. -/
def packAuto (q : Nat) (rows : List (List Nat × List Nat)) (g : Nat) (c : List Nat × List Nat) : List Nat × List Nat :=
  let c0 := autoCoeff 12 q g c.1
  let c1 := autoCoeff 12 q g c.2
  let s := externalProduct q rows ((List.range 4).map fun t => gadgetDigit t c1)
  (limbAdd q c0 s.1, s.2)

/-- Levels l to 12 of the packing, over 2 × h ciphertexts. -/
def packLevels (fuel q l : Nat) (rows : Nat → List (List Nat × List Nat)) (c : List (List Nat × List Nat)) :
    List (List Nat × List Nat) :=
  match fuel with
  | 0 => c
  | k + 1 =>
    let h := 4096 / 2 ^ l
    let next := List.zipWith (fun x y =>
      let t := (negaShift 12 q h y.1, negaShift 12 q h y.2)
      let a := packAuto q (rows l) (2 ^ l + 1) (limbSub q x.1 t.1, limbSub q x.2 t.2)
      (limbAdd q (limbAdd q x.1 t.1) a.1, limbAdd q (limbAdd q x.2 t.2) a.2)) (c.take h) (c.drop h)
    packLevels k q (l + 1) rows next

/-- Steps 1 to 7 of ELEC_PACK (06 R183, log entry 11); `noise` is an open value, since no rule gives the packed
ciphertext's NOISE. -/
def Dev.packChecks (d : Dev) (g unit : Nat) (bs : List Batch) (bad : Bool) (dest : Operand) (s : KeyStream)
    (noise : Nat) : List Check :=
  let h := s.hdr
  let x := bs.headD (Batch.parse [])
  let key := s.record.image.toNat
  let got := s.header ≠ none
  let at_ := fun (i : Nat) => g + 64 * i
  [ ⟨g % 64 = 0 && g < stackEnd && !bad && d.stackRangeOk g 512 && d.stackRangeOk (g + 512) (4096 * accBytes) &&
      unit < 16, stBounds, g⟩ ] ++
  (bs.zipIdx.map fun b => ⟨b.1.step = 1536 && b.1.tag = x.tag && b.1.epset = x.epset && b.1.cpset = x.cpset &&
      b.1.lutScale = x.lutScale && b.1.fst / 4096 = x.fst / 4096, stBounds, at_ b.2⟩) ++
  [ ⟨got, stBounds, key⟩, ⟨d.destForm dest 12 2, stBounds, dest.addr⟩,
    ⟨!overlaps (dest.desc.storage 12 2) [(g, 512 + 4096 * accBytes)], stBounds, dest.addr⟩ ] ++
  (bs.zipIdx.map fun b => ⟨!b.1.torn, stTorn, at_ b.2⟩) ++
  [ ⟨h.tag = x.tag, stKeyMismatch, key⟩,
    ⟨d.live x.epset ≠ none && d.live x.cpset ≠ none, stUncommitted, g⟩,
    ⟨d.live h.pset ≠ none, stUncommitted, key⟩,
    ⟨electrumPair (d.vals x.epset) (d.vals x.cpset), stMismatch, g⟩,
    ⟨h.kind = 0x12 && h.pset = x.epset && h.logN = 12 && headerFits h (d.vals x.epset), stMismatch, key⟩,
    ⟨1 ≤ s.record.level.toNat, stUnderflow, key⟩,
    ⟨1 ≤ dest.desc.alloc, stBounds, dest.addr⟩,
    ⟨noise + 16 ≤ (d.vals x.epset).log2Q 1, stBudget, dest.addr⟩ ]

/-- ELEC_PACK on a stream whose header has come. -/
def Dev.runPack (d : Dev) (core : Nat) (gang : List Nat) (g dst unit channel : Nat) (s : KeyStream) : Option Ran :=
  let who : Requester := .library gang
  let (d, raw, bad) := if d.spanOk g 512 then d.fetch none g 512 else (d, zeroBytes 512, true)
  let bs := (List.range 8).map fun b => Batch.parse ((raw.drop (64 * b)).take 64)
  let x := bs.headD (Batch.parse [])
  let (d, dest) := d.readOperand dst
  -- no rule gives the noise of the packing: an open value of the batches and the key (log entry 11)
  let noise := (Config.openWord [0x051, leNat raw, d.keyNumber s] 0).toNat % 65536
  let refuse := fun (d : Dev) (c : Check) =>
    let r := d.refused core who dest c
    some { r with dev := r.dev.detach channel gang }
  match firstFailed (d.packChecks g unit bs bad dest s noise) with
  | some c => refuse d c
  | none =>
    let banks := ((({ dest.desc with logN := 12 }).banks 2 1) ++ banksOf [(dest.addr, 64)]).eraseDups
    match d.banksOwned who banks with
    | none => none
    | some false => refuse d ⟨false, stNotOwner, dest.addr⟩
    | some true =>
      let q := (d.vals x.epset).q 0
      let (d, raws, bad) := d.fetchPieces ((List.range 4096).map fun i => (groupAcc g i, accBytes))
      let rows := fun (l : Nat) => (List.range 4).map fun t =>
        d.electrumRow q s.record.image.toNat s.hdr (4 * (l - 1) + t)
      let out := (packLevels 12 q 1 rows (raws.map unpackAcc)).headD ([], [])
      let res := { CtDesc.parse [] with
        tag := x.tag, pset := x.epset, logN := 12, kind := 0, polys := 2, level := 1, layout := 0, ntt := false,
        noise := noise, scale := x.lutScale }
      let poisonIn := bs.any fun b => b.poison
      some ⟨d.requestData channel gang, doneStatus (bad || poisonIn),
        { units := { dest.desc with level := 1, logN := 12, ntt := false }.units [[out.1], [out.2]], also := [], work := [],
          dest := some (dest.completion res (bad || poisonIn)), poisonIn := poisonIn }, banks, false⟩

/-! ### Ring switching (06 R184) -/

/-- Embed the packed groups: coefficient (N ÷ 4096) × i + j comes from coefficient i of group j. -/
def embedGroups (n : Nat) (gs : List (List Nat)) : List Nat :=
  let r := 2 ^ n / 4096
  let arrs := gs.map List.toArray
  (List.range (2 ^ n)).map fun m => (arrs.getD (m % r) #[]).getD (m / r) 0

/-- Steps 1 to 7 of RING_SWITCH. -/
def Dev.ringChecks (d : Dev) (ins : List Operand) (dest : Operand) (count work : Nat) (s : KeyStream) (noise : Nat) :
    List Check :=
  let h := s.hdr
  let key := s.record.image.toNat
  let got := s.header ≠ none
  let x := (ins.head?.map (·.desc)).getD (CtDesc.parse [])
  let tag := (ins.find? fun i => !i.desc.isPlain).map fun i => i.desc.tag
  let v := d.vals h.pset
  let t := { dest.desc with logN := h.logN }
  (ins.map fun i => Check.mk (d.inputForm i) stBounds i.addr) ++
  [ ⟨got, stBounds, key⟩, ⟨dest.desc.scratch && d.specialOk t h.specialK, stBounds, dest.addr⟩,
    ⟨d.workOk work t h.specialK, stBounds, work⟩, ⟨d.destForm dest h.logN 2, stBounds, dest.addr⟩ ] ++
  (ins.map fun i => Check.mk (!overlaps (dest.desc.storage h.logN 2) (i.desc.storage i.desc.logN i.desc.polys))
    stBounds dest.addr) ++
  (ins.map fun i => Check.mk (!i.desc.torn) stTorn i.addr) ++
  (ins.map fun i => Check.mk (i.desc.isPlain || some i.desc.tag = tag) stKeyMismatch i.addr) ++
  [ ⟨tag = none || tag = some h.tag, stKeyMismatch, key⟩ ] ++
  (ins.map fun i => Check.mk (d.live i.desc.pset ≠ none) stUncommitted i.addr) ++
  [ ⟨d.live h.pset ≠ none, stUncommitted, key⟩ ] ++
  (ins.map fun i => Check.mk (i.desc.pset = x.pset && i.desc.logN = 12 && i.desc.level = 1 && i.desc.polys = 2 &&
    i.desc.layout = 0 && i.desc.ntt = x.ntt && electrumPair (d.vals i.desc.pset) v && i.desc.scale = x.scale)
    stMismatch i.addr) ++
  [ ⟨h.kind = 0x13 && headerFits h v && h.logN ≤ v.logNMax.toNat && 1 ≤ count && count ≤ ceilDiv (2 ^ h.logN) 8192,
      stMismatch, key⟩,
    ⟨1 ≤ s.record.level.toNat, stUnderflow, key⟩, ⟨1 ≤ dest.desc.alloc, stBounds, dest.addr⟩,
    ⟨noise + 16 ≤ v.log2Q 1, stBudget, dest.addr⟩ ]

/-- The ring switch itself, on the limbs of the packed groups (06 R184). -/
def ringWords (v : PSetVals) (n : Nat) (ntt? : Bool) (key : Nat → Nat → List Nat × List Nat) (ps : List Polys) : Polys :=
  let q := v.q 0
  let polyOf := fun (k : Nat) => embedGroups n (ps.map fun p =>
    let w := (p.getD k []).headD []
    if ntt? then intt 12 q w else w)
  let u := keySwitch v n 1 key [ntt n q (polyOf 1)]
  let out := [sumPoly v [ntt n q (polyOf 0)] u.1, u.2]
  if ntt? then out else mapLimbs (fun i => intt n (v.q i)) out

/-- RING_SWITCH on a stream whose header has come. -/
def Dev.runRing (d : Dev) (core : Nat) (gang : List Nat) (dst g0 count channel work : Nat) (s : KeyStream) :
    Option Ran :=
  let who : Requester := .library gang
  let h := s.hdr
  let (d, ins) := d.readOperands ((List.range (max 1 (min count 64))).map fun i => g0 + 64 * i)
  let (d, dest) := d.readOperand dst
  let x := (ins.head?.map (·.desc)).getD (CtDesc.parse [])
  let v := d.vals h.pset
  let t := { dest.desc with logN := h.logN, level := 1, ntt := x.ntt }
  let noise := sat16 (max ((ins.map fun i => i.desc.noise).foldl max 0) h.noise + 16)
  let refuse := fun (d : Dev) (c : Check) =>
    let r := d.refused core who dest c
    some { r with dev := r.dev.detach channel gang }
  match firstFailed (d.ringChecks ins dest count work s noise) with
  | some c => refuse d c
  | none =>
    let objs := (ins.map fun (i : Operand) => (i.addr, i.desc.banks 2 1 ++ banksOf [(i.addr, 64)])) ++
      [(dest.addr, t.banks 2 1 ++ banksOf [(dest.addr, 64)]), (work, d.workBanks work t h.specialK gang)]
    let banks := (objs.flatMap (·.2)).eraseDups
    match d.banksOwned who banks with
    | none => none
    | some false => refuse d ⟨false, stNotOwner, d.firstUnowned who objs work⟩
    | some true =>
      let (d, ps, bad) := ins.foldl (fun (a : Dev × List Polys × Bool) (i : Operand) =>
        let (d, p, b) := a.1.readPolys i.desc 1
        (d, a.2.1 ++ [p], a.2.2 || b)) (d, [], false)
      let res := { x with pset := h.pset, logN := h.logN, polys := 2, level := 1, noise := noise }
      let poisonIn := ins.any fun i => i.desc.poison
      some ⟨d.requestData channel gang, doneStatus (bad || poisonIn),
        { units := t.units (ringWords v h.logN x.ntt (d.keyPair v s.record.image.toNat h) ps), also := [],
          work := d.workPieces work t h.specialK (d.keyNumber s :: v.moduli.map (·.toNat) ++ ps.flatten.flatten.flatten),
          dest := some (dest.completion res (bad || poisonIn)), poisonIn := poisonIn }, banks, false⟩

end Sys2Proof.Machine
end

