-- ==== Sys2Proof/Machine/Float.lean ====
section
/-! DEFINITION. Clear number formats: exact values, rounding, conversion, multiply-accumulate and the exact-sum format
(02 R52-R68). -/

namespace Sys2Proof.Machine

/-- A floating-point format: exponent and mantissa bits, bias, and whether it has infinities (02 R52). -/
structure Fmt where
  ebits : Nat
  mbits : Nat
  bias : Nat
  hasInf : Bool
  deriving DecidableEq, Repr

def fp32 : Fmt := ⟨8, 23, 127, true⟩
def fp64 : Fmt := ⟨11, 52, 1023, true⟩
def bf16 : Fmt := ⟨8, 7, 127, true⟩
def fp16 : Fmt := ⟨5, 10, 15, true⟩
def fp8e4m3 : Fmt := ⟨4, 3, 7, false⟩
def fp8e5m2 : Fmt := ⟨5, 2, 15, true⟩

/-- The exact value of a clear number: NaN, an infinity, or ±m × 2^e. Zero keeps its sign. -/
inductive FVal where
  | nan
  | inf (neg : Bool)
  | num (neg : Bool) (m : Nat) (e : Int)
  deriving DecidableEq, Repr

/-- The canonical NaN of a format (02 R52). -/
def Fmt.nanBits (f : Fmt) : Nat :=
  if f.hasInf then (2 ^ f.ebits - 1) * 2 ^ f.mbits + 2 ^ (f.mbits - 1) else 2 ^ (f.ebits + f.mbits) - 1

/-- The largest finite magnitude's code (02 R52). -/
def Fmt.maxCode (f : Fmt) : Nat :=
  if f.hasInf then (2 ^ f.ebits - 1) * 2 ^ f.mbits - 1 else 2 ^ (f.ebits + f.mbits) - 2

def Fmt.signBit (f : Fmt) (neg : Bool) : Nat := if neg then 2 ^ (f.ebits + f.mbits) else 0

/-- The value that a code of a format stands for (02 R52). -/
def Fmt.decode (f : Fmt) (v : Nat) : FVal :=
  let neg := bitsAt v (f.ebits + f.mbits) 1 = 1
  let ex := bitsAt v f.mbits f.ebits
  let ma := bitsAt v 0 f.mbits
  if f.hasInf ∧ ex = 2 ^ f.ebits - 1 then (if ma = 0 then .inf neg else .nan)
  else if !f.hasInf ∧ ex = 2 ^ f.ebits - 1 ∧ ma = 2 ^ f.mbits - 1 then .nan
  else if ex = 0 then .num neg ma (1 - (f.bias : Int) - f.mbits)
  else .num neg (ma + 2 ^ f.mbits) ((ex : Int) - f.bias - f.mbits)

/-- m ÷ 2^s to the nearest integer, ties to even. -/
def shrRne (m s : Nat) : Nat :=
  let q := m >>> s
  let r := m - (q <<< s)
  if 2 * r < 2 ^ s then q else if 2 * r > 2 ^ s then q + 1 else q + q % 2

/-- m × 2^x to the nearest integer, ties to even. -/
def scaleRne (m : Nat) (x : Int) : Nat := if 0 ≤ x then m <<< x.toNat else shrRne m (-x).toNat

/-- Round m × 2^e to the format: nearest, ties to even, saturating (02 R53). -/
def Fmt.roundMag (f : Fmt) (m : Nat) (e : Int) : Nat :=
  if m = 0 then 0
  else
    let emin : Int := 1 - (f.bias : Int)
    let top : Int := max ((Nat.log2 m : Int) + e) emin
    min ((top - emin).toNat * 2 ^ f.mbits + scaleRne m (e - (top - f.mbits))) f.maxCode

/-- Round a value to a format (02 R53). -/
def Fmt.encode (f : Fmt) (v : FVal) : Nat :=
  match v with
  | .nan => f.nanBits
  | .inf neg => f.signBit neg + (if f.hasInf then (2 ^ f.ebits - 1) * 2 ^ f.mbits else f.maxCode)
  | .num neg m e => f.signBit neg + f.roundMag m e

/-- The value as a signed multiple of 2^e, given an e no greater than its own exponent. -/
def FVal.at (v : FVal) (e : Int) : Int :=
  match v with
  | .num neg m x => let k : Int := (m <<< (x - e).toNat : Nat); if neg then -k else k
  | _ => 0

def FVal.neg (v : FVal) : FVal :=
  match v with
  | .nan => .nan
  | .inf n => .inf (!n)
  | .num n m e => .num (!n) m e

def FVal.abs (v : FVal) : FVal :=
  match v with
  | .nan => .nan
  | .inf _ => .inf false
  | .num _ m e => .num false m e

def FVal.isNeg (v : FVal) : Bool :=
  match v with
  | .nan => false
  | .inf n => n
  | .num n _ _ => n

def FVal.isZero (v : FVal) : Bool :=
  match v with
  | .num _ m _ => m = 0
  | _ => false

def FVal.isNan (v : FVal) : Bool := v = .nan

def FVal.isFinite (v : FVal) : Bool :=
  match v with
  | .num _ _ _ => true
  | _ => false

/-- An integer as an exact value times 2^e. -/
def fvalOfInt (x : Int) (e : Int) : FVal := .num (x < 0) x.natAbs e

/-- Exact sum. A zero sum of two zeros of one sign keeps it; the sign of any other zero sum is free (log entry 6). -/
def FVal.add (a b : FVal) : FVal :=
  match a, b with
  | .nan, _ => .nan
  | _, .nan => .nan
  | .inf n, .inf k => if n = k then .inf n else .nan
  | .inf n, _ => .inf n
  | _, .inf n => .inf n
  | .num n m e, .num k l x =>
    let lo := min e x
    let v := (FVal.num n m e).at lo + (FVal.num k l x).at lo
    if v = 0 then .num (if m = 0 ∧ l = 0 ∧ n = k then n else Config.zeroSign (max m l)) 0 0 else fvalOfInt v lo

/-- Exact product. -/
def FVal.mul (a b : FVal) : FVal :=
  match a, b with
  | .nan, _ => .nan
  | _, .nan => .nan
  | .inf n, .inf k => .inf (n != k)
  | .inf n, .num k m _ => if m = 0 then .nan else .inf (n != k)
  | .num n m _, .inf k => if m = 0 then .nan else .inf (n != k)
  | .num n m e, .num k l x => .num (n != k) (m * l) (e + x)

def FVal.sub (a b : FVal) : FVal := a.add b.neg

/-- A quotient kept to 80 bits with a sticky bit below them, enough for one correct rounding to any clear format. -/
def FVal.div (a b : FVal) : FVal :=
  match a, b with
  | .nan, _ => .nan
  | _, .nan => .nan
  | .inf _, .inf _ => .nan
  | .inf n, .num k _ _ => .inf (n != k)
  | .num n _ _, .inf k => .num (n != k) 0 0
  | .num n m e, .num k l x =>
    if l = 0 then (if m = 0 then .nan else .inf (n != k))
    else if m = 0 then .num (n != k) 0 0
    else
      let s := 80 + Nat.log2 l
      let q := (m <<< s) / l
      .num (n != k) (2 * q + (if (m <<< s) % l = 0 then 0 else 1)) (e - x - s - 1)

/-- Largest integer whose square is at most n, by bisection below 2^k. -/
def isqrtGo (k n r : Nat) : Nat :=
  match k with
  | 0 => r
  | j + 1 => if (r + 2 ^ j) * (r + 2 ^ j) ≤ n then isqrtGo j n (r + 2 ^ j) else isqrtGo j n r

def isqrt (n : Nat) : Nat := isqrtGo (Nat.log2 n / 2 + 1) n 0

/-- A square root kept like a quotient; of a negative number, NaN; of minus zero, minus zero. -/
def FVal.sqrt (a : FVal) : FVal :=
  match a with
  | .nan => .nan
  | .inf n => if n then .nan else .inf false
  | .num n m e =>
    if m = 0 then .num n 0 0 else if n then .nan
    else
      let odd := (e % 2).toNat
      let w := (m <<< (160 + odd))
      let r := isqrt w
      .num false (2 * r + (if r * r = w then 0 else 1)) ((e - 160 - odd) / 2 - 1)

/-- Ordering of two values; none when either is NaN. Zeros of both signs are equal. -/
def FVal.lt? (a b : FVal) : Option Bool :=
  match a, b with
  | .nan, _ => none
  | _, .nan => none
  | .inf n, .inf k => some (n && !k)
  | .inf n, _ => some n
  | _, .inf n => some (!n)
  | .num n m e, .num k l x => some ((FVal.num n m e).at (min e x) < (FVal.num k l x).at (min e x))

/-- Exact value to the nearest integer, ties to even; infinities and NaN give none. -/
def FVal.toIntRne (a : FVal) : Option Int :=
  match a with
  | .num n m e => some (if n then -(scaleRne m e : Int) else scaleRne m e)
  | _ => none

/-- Conversion to a two's complement type of `w` bits: rounds, saturates, NaN to zero (02 R53). -/
def FVal.toIntSat (a : FVal) (w : Nat) : Int :=
  match a with
  | .nan => 0
  | .inf n => if n then -(2 ^ (w - 1) : Nat) else (2 ^ (w - 1) : Nat) - 1
  | .num _ _ _ => max (-(2 ^ (w - 1) : Nat)) (min ((2 ^ (w - 1) : Nat) - 1) (a.toIntRne.getD 0))

/-! ### The lanes' multiply-accumulate (02 R57-R59) -/

/-- Exact sum of a list of values. -/
def fsum (vs : List FVal) : FVal :=
  match vs with
  | [] => .num false 0 0
  | v :: r => r.foldl FVal.add v

/-- Exact dot product. -/
def fdot (xs ys : List FVal) : List FVal := List.zipWith FVal.mul xs ys

/-- One cycle of a floating-point lane: exact products, one rounding to fp32 (02 R58). -/
def macFloat (f : Fmt) (acc : Nat) (xs ys : List Nat) : Nat :=
  fp32.encode (fsum (fp32.decode acc :: fdot (xs.map f.decode) (ys.map f.decode)))

/-- One cycle of an integer lane, modulo 2^32 (02 R58). -/
def macInt (w acc : Nat) (xs ys : List Nat) : Nat :=
  wrapInt ((acc : Int) + (List.zipWith (fun x y => signed x w * signed y w) xs ys).foldl (· + ·) 0) 32

/-- The factor of a scale byte (02 R55): none for 255. -/
def scaleFactor (s : Nat) : Option Int := if s = 255 then none else some ((s : Int) - 127)

/-- Multiply a value by 2^k. -/
def FVal.shift (a : FVal) (k : Int) : FVal :=
  match a with
  | .num n m e => .num n m (e + k)
  | v => v

/-- One block of 32 products, summed exactly, scaled and added with one rounding (02 R59). -/
def macBlock (acc : Nat) (xs ys : List FVal) (sx sy : Nat) : Nat :=
  match scaleFactor sx, scaleFactor sy with
  | some a, some b => fp32.encode ((fp32.decode acc).add ((fsum (fdot xs ys)).shift (a + b)))
  | _, _ => fp32.nanBits

/-! ### The exact-sum format (02 R60-R68) -/

/-- Conversion of an fp32 addend at block exponent e: the integer, and whether SAT is set (02 R62). -/
def exactOf (v : Nat) (e : Int) : Int × Bool :=
  let big : Int := (2 ^ 80 : Nat)
  match fp32.decode v with
  | .nan => (0, true)
  | .inf n => (if n then -(big - 1) else big - 1, true)
  | .num n m x =>
    if FVal.lt? (.num false m x) (.num false 1 e) = some true then
      let k : Int := scaleRne m (x + 80 - e)
      (if n then -k else k, false)
    else (if n then -(big - 1) else big - 1, true)

/-- Smallest m with |v| < 2^m, for a non-zero finite addend; 254 - 129 for an infinite one; none otherwise (02 R65). -/
def exactNeed (v : Nat) : Option Int :=
  match fp32.decode v with
  | .nan => none
  | .inf _ => some 1000
  | .num _ m x => if m = 0 then none else some ((Nat.log2 m : Int) + 1 + x)

/-- E_NEXT of a step from its addends (02 R65). -/
def exactNext (ecur : Nat) (addends : List Nat) : Nat :=
  match (addends.filterMap exactNeed).foldl (fun (b : Option Int) x => some (max (b.getD x) x)) none with
  | none => ecur
  | some m => (max 1 (min (m + 2 + 127) 254)).toNat

end Sys2Proof.Machine
end

