-- ==== Sys2Proof/Machine/Encode.lean ====
section
/-! DEFINITION. Encoding clear vectors into coefficients and back (12 R393-R396), and the transcendental values behind it
and behind FEXP2 and FLOG2 (12 R391), by fixed-point arithmetic to 1,024 fraction bits (log entry 13). -/

namespace Sys2Proof.Machine

/-- Fraction bits of a fixed-point value, and the bits to which a result is first rounded, so that an exact tie is seen
as one (log entry 13). -/
def fixBits : Nat := 1024
def snapBits : Nat := 256

/-- Round an integer times 2^-s to the nearest integer, ties to even. -/
def rneInt (x : Int) (s : Nat) : Int := if x < 0 then -(shrRne x.natAbs s : Int) else shrRne x.natAbs s

/-- Round x × 2^-s to the nearest integer, ties to even, through 256 fraction bits. -/
def rneSnap (x : Int) (s : Nat) : Int :=
  if s ≤ snapBits then rneInt x s else rneInt (rneInt x (s - snapBits)) snapBits

/-- Σ (-1)^k ÷ ((2k + 1) x^(2k+1)), `n` terms from term k on, where `p` is 2^fixBits ÷ x^(2k+1). -/
def atanInv (n k x p : Nat) : Int :=
  match n with
  | 0 => 0
  | m + 1 => ((p / (2 * k + 1) : Nat) : Int) - atanInv m (k + 1) x (p / (x * x))

/-- π in fixed point (Machin). -/
def piFix : Nat :=
  (16 * atanInv 480 0 5 (2 ^ fixBits / 5) - 4 * atanInv 140 0 239 (2 ^ fixBits / 239)).toNat

/-- Taylor terms of cos from term k on; `t` is θ^(2k) ÷ (2k)! and `sq` is θ², in fixed point. -/
def cosTerms (n k t sq : Nat) : Int :=
  match n with
  | 0 => 0
  | m + 1 => (t : Int) - cosTerms m (k + 1) (t * sq / 2 ^ fixBits / ((2 * k + 1) * (2 * k + 2))) sq

/-- cos(π × m ÷ n) in fixed point. -/
def cosFix (n m : Nat) : Int :=
  let m := m % (2 * n)
  let m := if n < m then 2 * n - m else m
  let flip := n < 2 * m
  let a := if flip then n - m else m
  if 2 * a = n then 0
  else
    let th := piFix * a / n
    let c := cosTerms 110 0 (2 ^ fixBits) (th * th / 2 ^ fixBits)
    if flip then -c else c

/-- Π of the roots 2^(2^-i) for the set bits of a fraction of `w` bits, most significant first; `r` is the current root. -/
def expBits (w f r acc : Nat) : Nat :=
  match w with
  | 0 => acc
  | k + 1 =>
    let root := isqrt (r <<< fixBits)
    expBits k f root (if f.testBit k then acc * root / 2 ^ fixBits else acc)

/-- 2^(f ÷ 2^w) in fixed point, for f below 2^w. -/
def exp2Fix (w f : Nat) : Nat := expBits w f (2 ^ (fixBits + 1)) (2 ^ fixBits)

/-- Δ = 2^(SCALE × 2^-24) in fixed point (12, before R393). -/
def deltaFix (scale : Nat) : Nat := exp2Fix 24 (scale % 2 ^ 24) <<< (scale / 2 ^ 24)

/-- A finite value in units of 2^-160. -/
def FVal.units (v : FVal) : Int :=
  match v with
  | .num neg m e =>
    let k : Int := if 0 ≤ e + 160 then (m <<< (e + 160).toNat : Nat) else (m >>> (-(e + 160)).toNat : Nat)
    if neg then -k else k
  | _ => 0

/-! ### CKKS (12 R393, R396) -/

/-- m_j = round((2Δ ÷ N) × Σ z_k cos(π e_k j ÷ N)). -/
def ckksCoeff (n scale : Nat) (z : List Int) (j : Nat) : Int :=
  let big := 2 ^ n
  let s := z.zipIdx.foldl (fun (acc : Int) x =>
    if x.1 = 0 then acc else acc + x.1 * cosFix big (powMod 5 x.2 (2 * big) * j)) 0
  rneSnap (2 * (deltaFix scale : Int) * s) (2 * fixBits + 160 + n)

def ckksEncode (n scale : Nat) (z : List FVal) : List Int :=
  let us := z.map FVal.units
  (List.range (2 ^ n)).map (ckksCoeff n scale us)

/-- COEFF: m_j = round(x_j × Δ). -/
def coeffEncode (n scale : Nat) (z : List FVal) : List Int :=
  (List.range (2 ^ n)).map fun j =>
    rneSnap ((deltaFix scale : Int) * (z.getD j (.num false 0 0)).units) (fixBits + 160)

/-- A fixed-point quotient as a value for one rounding: `x` ÷ Δ, x in units of 2^-fixBits. -/
def overDelta (scale : Nat) (x : Int) : FVal :=
  let w := rneInt ((x * (2 ^ fixBits : Nat)) / (deltaFix scale : Int)) (fixBits - snapBits)
  fvalOfInt w (-(snapBits : Int))

def ckksDecode (n scale : Nat) (m : List Int) : List FVal :=
  let big := 2 ^ n
  (List.range (big / 2)).map fun k =>
    let e := powMod 5 k (2 * big)
    overDelta scale (m.zipIdx.foldl (fun (acc : Int) x =>
      if x.1 = 0 then acc else acc + x.1 * cosFix big (e * x.2)) 0)

def coeffDecode (scale : Nat) (m : List Int) : List FVal := m.map fun x => overDelta scale (x * (2 ^ fixBits : Nat))

/-! ### BGV (12 R394, R396) -/

/-- ψ_t with 2N in place of 2^18. -/
def psiBgv (t n : Nat) : Nat := powMod (nonResidue 262146 t 2) ((t - 1) / 2 ^ (n + 1)) t

/-- Exponent of the point of slot k: e_k, or -e_k from S on. -/
def bgvPoint (n k : Nat) : Nat :=
  let s := 2 ^ n / 2
  if k < s then powMod 5 k (2 ^ (n + 1)) else 2 ^ (n + 1) - powMod 5 (k - s) (2 ^ (n + 1))

/-- The polynomial modulo t with the given slot values. -/
def bgvEncode (t n : Nat) (v : List Nat) : List Nat :=
  let ninv := invMod (2 ^ n) t
  let w := psiBgv t n
  (List.range (2 ^ n)).map fun j =>
    ninv * v.zipIdx.foldl (fun acc x => (acc + x.1 * powMod w ((2 ^ (n + 1) - bgvPoint n x.2) * j) t) % t) 0 % t

/-- Slot values of a polynomial modulo t. -/
def bgvDecode (t n : Nat) (m : List Nat) : List Nat :=
  let w := psiBgv t n
  (List.range (2 ^ n)).map fun k =>
    m.zipIdx.foldl (fun acc x => (acc + x.1 * powMod w (bgvPoint n k * x.2) t) % t) 0

/-- A coefficient from its residues: CRT over the first `l` moduli, lifted (12 R396). -/
def crtLift (qs : List Nat) (ws : List Nat) : Int :=
  let big := prodList qs
  let x := (List.zip qs ws).foldl (fun acc p =>
    (acc + big / p.1 * (p.2 * invMod (big / p.1 % p.1) p.1 % p.1)) % big) 0
  if 2 * x ≤ big then (x : Int) else (x : Int) - big

/-! ### FEXP2 and FLOG2 (12 R391) -/

/-- 2^A. Below 2^-40 in magnitude the result rounds to one. -/
def FVal.exp2 (a : FVal) : FVal :=
  match a with
  | .nan => .nan
  | .inf n => if n then .num false 0 0 else .inf false
  | .num neg m e =>
    if m = 0 ∨ (Nat.log2 m : Int) + e < -40 then .num false 1 0
    else
      let u := (FVal.num neg m e).units >>> 80
      -- u in units of 2^-80
      let i := u / (2 ^ 80 : Nat)
      let f := (u % (2 ^ 80 : Nat)).toNat
      if 400 < i then .num false 1 400 else if i < -400 then .num false 1 (-400)
      else .num false (exp2Fix 80 f) (i - fixBits)

/-- log2 A. -/
def FVal.log2 (a : FVal) : FVal :=
  match a with
  | .nan => .nan
  | .inf n => if n then .nan else .inf false
  | .num neg m e =>
    if m = 0 then .inf true
    else if neg then .nan
    else
      let k := Nat.log2 m
      let digits := log2Bits 100 (m * 2 ^ 256 / 2 ^ k) 0
      -- a power of two has no further digits; any other value has, and a sticky digit says so
      let x := ((k : Int) + e) * (2 ^ 100 : Nat) + digits
      if m = 2 ^ k then fvalOfInt ((k : Int) + e) 0 else fvalOfInt (2 * x + 1) (-101)

/-! ### The natural logarithm (07 R230) -/

/-- Σ 1 ÷ ((2k + 1) x^(2k+1)), `n` terms from term k on, where `p` is 2^256 ÷ x^(2k+1). -/
def atanhInv (n k x p : Nat) : Nat :=
  match n with
  | 0 => 0
  | m + 1 => p / (2 * k + 1) + atanhInv m (k + 1) x (p / (x * x))

/-- ln 2 with 256 fraction bits: 2 artanh(1 ÷ 3). -/
def ln2Fix : Nat := 2 * atanhInv 90 0 3 (2 ^ 256 / 3)

/-- ln of a positive number: its log2 to 160 fraction bits times ln 2, with a sticky digit. -/
def FVal.ln (a : FVal) : FVal :=
  match a with
  | .num _ m e =>
    let k := Nat.log2 m
    let x := ((k : Int) + e) * (2 ^ 160 : Nat) + log2Bits 160 (m * 2 ^ 256 / 2 ^ k) 0
    if x = 0 then .num false 0 0 else fvalOfInt (2 * (x * (ln2Fix : Int)) + 1) (-417)
  | v => v

end Sys2Proof.Machine
end

