-- ==== Sys2Proof/Machine/Plans.lean ====
section
/-! DEFINITION. The routines that make several key switches: EVAL_POLY (06 R167-R170) and BOOT_STEP (06 R186-R188, 09
R294-R298). EVAL_POLY is evaluated operation by operation. Of BOOT_STEP the spec gives the schedule and not the linear maps
or the reduction, so the words it writes are open values that its inputs settle (log entry 12). -/

namespace Sys2Proof.Machine

/-- One step of a schedule: the key kind it switches under (0: none), the rotation it names, the level at which it
switches, and whether a rescale ends its level. -/
structure KeyStep where
  kind : Nat
  rot : Option Nat
  level : Nat
  drops : Bool
  deriving DecidableEq, Repr

/-- The checks on one stream's header at its key switch (05 R159, 09 R294). -/
def Dev.stepHeader (d : Dev) (tag pset logN : Nat) (k : KeyStep) (s : KeyStream) : Option Check :=
  let h := s.hdr
  let v := d.vals pset
  let key := s.record.image.toNat
  firstFailed
    [ ⟨s.header ≠ none, stBounds, key⟩, ⟨h.tag = tag, stKeyMismatch, key⟩,
      ⟨d.live h.pset ≠ none, stUncommitted, key⟩,
      ⟨h.pset = pset && h.logN = logN && h.chainL = v.l && h.specialK = v.k && h.dnum = v.dnum.toNat &&
        h.kind = k.kind && (match k.rot with | some r => h.rot = r | none => true), stMismatch, key⟩,
      ⟨k.level ≤ s.record.level.toNat, stUnderflow, key⟩ ]

/-- How far the steps of a schedule get with the streams that have been delivered: the keys taken so far, and whether a
header refuses at the step that needs the next one. -/
inductive Stages where
  | waits (keys : List KeyStream)
  | refused (keys : List KeyStream) (c : Check)
  | finished (keys : List KeyStream)
  deriving DecidableEq, Repr

/-- Run the steps that follow the keys taken so far, one stream for each that names a key (09 R294). -/
def Dev.runStages (d : Dev) (gang : List Nat) (channel tag pset logN : Nat) (keys : List KeyStream)
    (steps : List KeyStep) : Dev × Stages :=
  match steps with
  | [] => (d, .finished keys)
  | k :: rest =>
    if k.kind = 0 then d.runStages gang channel tag pset logN keys rest
    else match d.streamFor channel gang with
      | none => (d, .waits keys)
      | some s =>
        match d.stepHeader tag pset logN k s with
        | some c => (d.detach channel gang, .refused keys c)
        | none => (d.requestData channel gang).runStages gang channel tag pset logN (keys ++ [s]) rest

/-! ### Working descriptors (09 R296) -/

/-- Addresses of the first `w` working descriptors of a work list. -/
def Dev.workDescs (d : Dev) (work w : Nat) : List Nat :=
  (List.range w).map fun i =>
    if i < 6 then d.rdLe (work + 8 * (i + 1)) 6 else d.rdLe (work + 56) 6 + 64 * (i - 6)

/-- Working descriptors are destinations placed like the input: they share no limb storage with an input, with the
destination or with each other (03 R87 step 1, R89). -/
def Dev.workDescsOk (d : Dev) (ws objs : List Operand) (t : CtDesc) : Bool :=
  let stores := ws.map fun w => w.desc.storage t.logN 2
  (ws.all fun w => d.destForm w t.logN 2 && w.desc.placement = t.placement && w.desc.cluster0 = t.cluster0 &&
    objs.all fun o => !overlaps (w.desc.storage t.logN 2) (o.desc.storage o.desc.logN o.desc.polys)) &&
  (List.range stores.length).all fun i => (List.range i).all fun j => !overlaps (stores.getD i []) (stores.getD j [])

/-- The writes of a finished working object: its words, then its descriptor, as of a destination. -/
def Dev.workWrites (d : Dev) (w : Operand) (res : CtDesc) (ps : Polys) (poison : Bool) : Pieces :=
  let t := { w.desc with level := res.level, logN := res.logN, ntt := res.ntt }
  let c := w.completion res poison
  (t.units ps).flatten ++ [(c.1, stampTick c.2 d.tickNumber)]

/-- What a staged routine answers: the keys it has while it waits, with what an abort would write and the banks it holds; or
its end. -/
inductive Staged where
  | waits (d : Dev) (begun : Bool) (keys : List KeyStream) (e : Effect) (held : List (Nat × Nat))
  | ends (r : Ran) (progress : Nat) (keys : List KeyStream)
  deriving DecidableEq, Repr

/-! ### EVAL_POLY: its schedule (06 R167, R170; log entry 12) -/

/-- log2 of the baby powers, ⌈m ÷ 2⌉, and of the blocks, ⌊m ÷ 2⌋. -/
def evalBaby (m : Nat) : Nat := (m + 1) / 2
def evalTree (m : Nat) : Nat := m / 2

/-- The powers that the routine makes: x² to x^k, then x^2k, x^4k, … below the degree. -/
def evalPowers (m : Nat) : List Nat :=
  (List.range (2 ^ evalBaby m - 1)).map (· + 2) ++
    (List.range (evalTree m - 1)).map fun j => 2 ^ (evalBaby m + j + 1)

/-- Levels above the input's at which the blocks of a tree of 2^s blocks are joined, in order. -/
def joinOffsets (b s : Nat) : List Nat :=
  match s with
  | 0 => []
  | k + 1 => joinOffsets b k ++ joinOffsets b k ++ [b + k]

/-- How far below the input's level each relinearisation's operands stand. -/
def evalOffsets (m : Nat) : List Nat :=
  (evalPowers m).map (fun e => Nat.clog 2 e - 1) ++ joinOffsets (evalBaby m) (evalTree m)

/-- Relinearisations of EVAL_POLY at degree 2^m - 1 (06 R167). -/
def evalRelins (m : Nat) : Nat := (evalOffsets m).length

/-- How far below the input's level the stream of each relinearisation may stand: at degree 15 the function table names the
levels (06 R170), elsewhere the stream stands at its operands' level or above. -/
def evalKeyOffsets (m : Nat) : List Nat := if m = 4 then [0, 0, 1, 1, 2, 2, 3] else evalOffsets m

/-- Working descriptors of EVAL_POLY (09 R296). -/
def evalWorks (m : Nat) : Nat := 2 ^ evalBaby m + evalTree m - 1

/-- Stated cycles of EVAL_POLY: the key switches at their levels, a rescale for each level, and 4 × 2^m element passes (06
R170, 09 R297). -/
def evalCost (v : PSetVals) (t : CtDesc) (m : Nat) (keys : List KeyStream) : Nat :=
  let ks := (evalKeyOffsets m).zipIdx.foldl (fun n o =>
    let l := t.level - o.1
    n + costKs v { t with polys := 2, level := l } (((keys[o.2]?).map (·.record.level.toNat)).getD l) 0) 0
  let rs := (List.range m).foldl (fun n i => n + costRescale { t with polys := 2, level := t.level - i - 1 } t.serial) 0
  ks + rs + 4 * 2 ^ m * costPass { t with level := t.level - m } t.serial (costU t.logN + 16)

/-! ### EVAL_POLY: its operations -/

/-- A ciphertext inside the routine: its fields, and its words where they are wanted. -/
structure EvVal where
  desc : CtDesc
  polys : Polys

/-- What an evaluation has to work with. -/
structure EvCtx where
  v : PSetVals
  logN : Nat
  dest : Nat
  words : Bool
  keys : List KeyStream
  pair : KeyStream → Nat → Nat → List Nat × List Nat
  coefs : List (Operand × Polys)

/-- An evaluation stops for want of a key, or at an internal operation's refusal. -/
inductive EvStop where
  | needsKey
  | refused (c : Check)

abbrev Ev (α : Type) := Except EvStop α

/-- An internal operation's check (06 R168). -/
def EvCtx.check (_ : EvCtx) (holds : Bool) (st : BitVec 8) (object : Nat) : Ev Unit :=
  if holds then .ok () else .error (.refused ⟨false, st, object⟩)

/-- Steps 5 and 7 of an internal operation's result. -/
def EvCtx.fits (x : EvCtx) (t : CtDesc) : Ev Unit := do
  x.check (1 ≤ t.level) stUnderflow x.dest
  x.check (t.noise + 16 ≤ x.v.log2Q t.level) stBudget x.dest

def EvCtx.keepWords (x : EvCtx) (ps : Polys) : Polys := if x.words then ps else []

/-- MUL, RELIN under key `i`, RESCALE. -/
def EvCtx.mulRelin (x : EvCtx) (i : Nat) (a b : EvVal) : Ev EvVal := do
  let l := min a.desc.level b.desc.level
  let p := { a.desc with
    polys := 3, level := l, noise := sat16 (a.desc.noise + b.desc.noise + 8 * x.logN),
    scale := scaleMul x.v a.desc.scale b.desc.scale }
  x.fits p
  match x.keys[i]? with
  | none => .error .needsKey
  | some s =>
    let r := { p with polys := 2, noise := sat16 (max p.noise s.hdr.noise + 16) }
    x.fits r
    let t := l - 1
    let o := { r with
      level := t, noise := sat16 (max ((r.noise : Int) - x.v.lq16 t) (8 * x.logN + 32) + 16),
      scale := scaleDrop x.v r.scale t }
    x.fits o
    let w := x.keepWords <|
      let a0 := a.polys.getD 0 []
      let a1 := a.polys.getD 1 []
      let b0 := b.polys.getD 0 []
      let b1 := b.polys.getD 1 []
      let u := keySwitch x.v x.logN l (x.pair s) (mulPoly x.v a1 b1)
      rescalePolys x.v x.logN t
        [sumPoly x.v (mulPoly x.v a0 b0) u.1,
         sumPoly x.v (zipLimbs (fun i => limbAdd (x.v.q i)) (mulPoly x.v a0 b1) (mulPoly x.v a1 b0)) u.2]
    return ⟨o, w⟩

/-- y + c·x, or c·x alone, at the lowest level (03 R79-R81, R84). -/
def EvCtx.axpy (x : EvCtx) (y : Option EvVal) (c : Nat) (a : EvVal) : Ev EvVal := do
  match x.coefs[c]? with
  | none => .error .needsKey
  | some (p, pw) =>
    let scale := scaleMul x.v p.desc.scale a.desc.scale
    let noise := a.desc.noise + p.desc.noise + 8 * x.logN
    let l := min a.desc.level p.desc.level
    let w := a.polys.map fun q => mulPoly x.v q (pw.headD [])
    match y with
    | none =>
      let o := { a.desc with level := l, scale := scale, noise := sat16 noise }
      x.fits o
      return ⟨o, w⟩
    | some y =>
      x.check (scaleClose x.v y.desc.scale scale) stMismatch p.addr
      let o := { y.desc with level := min y.desc.level l, noise := sat16 (max y.desc.noise (sat16 noise) + 16) }
      x.fits o
      return ⟨o, x.keepWords (addPolys x.v y.polys w)⟩

/-- A plaintext added to c0. -/
def EvCtx.addPlain (x : EvCtx) (y : EvVal) (c : Nat) : Ev EvVal := do
  match x.coefs[c]? with
  | none => .error .needsKey
  | some (p, pw) =>
    x.check (scaleClose x.v y.desc.scale p.desc.scale) stMismatch p.addr
    let l := min y.desc.level p.desc.level
    let o := { y.desc with level := l, noise := sat16 (max y.desc.noise p.desc.noise + 16) }
    x.fits o
    return ⟨o, x.keepWords (match y.polys with
      | c0 :: r => zipLimbs (fun i => limbAdd (x.v.q i)) c0 (pw.headD []) :: canonPolys x.v (r.map fun q => q.take l)
      | [] => [])⟩

def EvCtx.add (x : EvCtx) (a b : EvVal) : Ev EvVal := do
  x.check (scaleClose x.v a.desc.scale b.desc.scale) stMismatch x.dest
  let l := min a.desc.level b.desc.level
  let o := { a.desc with level := l, noise := sat16 (max a.desc.noise b.desc.noise + 16) }
  x.fits o
  return ⟨o, x.keepWords (addPolys x.v a.polys b.polys)⟩

/-- Limbs above a level dropped. -/
def EvVal.drop (a : EvVal) (l : Nat) : EvVal :=
  ⟨{ a.desc with level := min a.desc.level l }, a.polys.map fun p => p.take l⟩

/-- The powers of `evalPowers` from `i` on, each the product of the two powers that halve its exponent. -/
def EvCtx.powers (x : EvCtx) (i : Nat) (done : Tbl EvVal) (es : List Nat) : Tbl EvVal × Ev Unit :=
  match es with
  | [] => (done, .ok ())
  | e :: rest =>
    match tfind done ((e + 1) / 2), tfind done (e / 2) with
    | some a, some b =>
      match x.mulRelin i a b with
      | .ok p => x.powers (i + 1) (tset done e p) rest
      | .error s => (done, .error s)
    | _, _ => (done, .ok ())

/-- Block `j`: the sum of c_(jk + i) × x^i, at the level of x^k. -/
def EvCtx.block (x : EvCtx) (m : Nat) (pows : Tbl EvVal) (level j : Nat) : Ev EvVal := do
  let k := 2 ^ evalBaby m
  let sum ← (List.range (k - 1)).foldlM (fun (acc : Option EvVal) i =>
    match tfind pows (i + 1) with
    | some p => (x.axpy acc (k * j + i + 1) (p.drop level)).map some
    | none => .ok acc) none
  match sum with
  | some s => x.addPlain s (k * j)
  | none => .error .needsKey

/-- Blocks `j` to `j + 2^s - 1` joined: the upper half times a power of x, plus the lower half. `i` numbers its first key. -/
def EvCtx.tree (x : EvCtx) (m : Nat) (pows : Tbl EvVal) (level i j s : Nat) : Ev EvVal := do
  match s with
  | 0 => x.block m pows level j
  | k + 1 =>
    let keys := 2 ^ k - 1
    let hi ← x.tree m pows level i (j + 2 ^ k) k
    let lo ← x.tree m pows level (i + keys) j k
    match tfind pows (2 ^ (evalBaby m + k)) with
    | some p => x.add (← x.mulRelin (i + 2 * keys) hi p) lo
    | none => .error .needsKey

/-- The whole evaluation of x: the powers made, and the value or what stopped it. -/
def EvCtx.run (x : EvCtx) (m : Nat) (a : EvVal) : Tbl EvVal × Ev EvVal :=
  let es := evalPowers m
  let (pows, stop) := x.powers 0 [(1, a)] es
  match stop with
  | .error s => (pows, .error s)
  | .ok () => (pows, x.tree m pows (a.desc.level - evalBaby m) es.length 0 (evalTree m))

/-- The level of the result: each coefficient bounds the level of its block (03 R81). -/
def evalLevel (m level : Nat) (cs : List Operand) : Nat :=
  let k := 2 ^ evalBaby m
  let block := fun (j : Nat) =>
    (((cs.drop (k * j)).take k).map fun c => c.desc.level).foldl min (level - evalBaby m)
  let rec join (s j : Nat) : Nat :=
    match s with
    | 0 => block j
    | n + 1 => min (min (join n (j + 2 ^ n)) (level - evalBaby m - n) - 1) (join n j)
  join (evalTree m) 0

/-! ### EVAL_POLY: the call -/

/-- Run the evaluation, taking the streams that have been delivered, until it needs another, is refused or is done. -/
def Dev.evalStages (fuel : Nat) (d : Dev) (gang : List Nat) (channel m : Nat) (x : EvCtx) (a : EvVal) :
    Dev × EvCtx × Tbl EvVal × Ev EvVal :=
  let r := x.run m a
  match fuel, r.2 with
  | n + 1, .error .needsKey =>
    match d.streamFor channel gang with
    | none => (d, x, r)
    | some s =>
      let t := a.desc
      let level := t.level - (evalKeyOffsets m).getD x.keys.length 0
      match d.stepHeader t.tag t.pset t.logN ⟨0x02, none, level, true⟩ s with
      | some c => (d.detach channel gang, x, r.1, .error (.refused c))
      | none => Dev.evalStages n (d.requestData channel gang) gang channel m { x with keys := x.keys ++ [s] } a
  | _, _ => (d, x, r)

/-- EVAL_POLY: args DST, A, COEF, M, CHANNEL, WORK; `keys` are the streams it has taken, `begun` says that it has passed the
order of checks. -/
def Dev.runEval (d : Dev) (core : Nat) (gang : List Nat) (args : List Nat) (channel : Nat) (begun : Bool)
    (keys : List KeyStream) : Staged :=
  let who : Requester := .library gang
  let m := args.getD 3 0
  let mm := min (max m 1) 8
  let work := args.getD 5 0
  match if begun then some keys.head? else (d.streamFor channel gang).map some with
  | none => .waits d false keys .nothing []
  | some s =>
    let d0 := d
    let (d, a) := d.readOperand (args.getD 1 0)
    let (d, cs) := d.readOperands ((List.range (2 ^ mm)).map fun i => args.getD 2 0 + 64 * i)
    let (d, dest) := d.readOperand (args.getD 0 0)
    let (d, ws) := d.readOperands (d.workDescs work (evalWorks mm))
    let t := a.desc
    let v := d.vals t.pset
    let h := (s.map (·.hdr)).getD (KeyHdr.parse [])
    let ins := a :: cs
    let poison := ins.any fun i => i.desc.poison
    let outLevel := evalLevel mm t.level cs
    let ctx : EvCtx := { v := v, logN := t.logN, dest := dest.addr, words := false, keys := keys,
                         pair := fun s => d.keyPair v s.record.image.toNat s.hdr, coefs := cs.map fun c => (c, []) }
    let powLevel := fun (i : Nat) => t.level - Nat.clog 2 ((evalPowers mm).getD i 1)
    let chk : OpCheck :=
      { inputs := ins, dest := dest, key := s.map fun s => s.keyIn [0x02] none,
        form := scratchForm [a, dest] ++
          [(h.magic = 0 || d.specialOk t h.specialK, a.addr), (h.magic = 0 || d.workOk work t h.specialK, work),
           (d.workDescsOk ws (dest :: ins) t, work)],
        requires := [(schemeIs d t.pset [0, 1], a.addr), (t.ntt, a.addr), (t.polys = 2, a.addr), (m = mm, a.addr)] ++
          cs.map fun (c : Operand) => (c.desc.isPlain && c.desc.ntt, c.addr),
        consumes := 0, result := { t with polys := 2, level := outLevel, ntt := true, noise := 0 },
        banks := d.workBanks work t h.specialK gang ++ ws.flatMap fun w =>
          w.desc.banks 2 w.desc.alloc ++ banksOf [(w.addr, 64)],
        inPlace := ins.any fun i => i.addr = dest.addr,
        room := ws.zipIdx.map fun w => (powLevel w.2 ≤ w.1.desc.alloc || (evalPowers mm).length ≤ w.2, w.1.addr) }
    -- the powers made so far stand in the working descriptors, in order
    let finished := fun (pows : Tbl EvVal) => (List.zip (evalPowers mm) ws).filterMap fun p =>
      (tfind pows p.1).map fun x => d.workWrites p.2 x.desc x.polys poison
    let full := fun (d : Dev) (ctx : EvCtx) =>
      let (d, xs, bad) := d.readPolys t t.level
      let (d, cw, bad) := cs.foldl (fun (acc : Dev × List (Operand × Polys) × Bool) (c : Operand) =>
        let (d, ps, b) := acc.1.readPolys c.desc c.desc.level
        (d, acc.2.1 ++ [(c, ps)], acc.2.2 || b)) (d, [], bad)
      (d, { ctx with words := true, coefs := cw }.run mm ⟨t, xs⟩, bad)
    let openInputs := fun (ctx : EvCtx) (r : Tbl EvVal) =>
      0x040 :: ctx.keys.map d.keyNumber ++ (r.flatMap fun p => p.2.polys.flatten.flatten)
    let refusal := fun (d : Dev) (ctx : EvCtx) (c : Check) =>
      let (d, r, _) := full d ctx
      let d := d.putSides { Effect.nothing with also := finished r.1 }
      .ends (d.refused core who dest c) 0 ctx.keys
    let banks := chk.allBanks t.level false
    let go := fun (d : Dev) =>
      let (d, ctx, _, out) := Dev.evalStages (evalRelins mm) d gang channel mm ctx ⟨t, []⟩
      match out with
      | .error .needsKey =>
        let (d, r, _) := full d ctx
        -- what completion would write, taking the keys still to come to be like the last one
        let like := { ctx with keys := ctx.keys ++ List.replicate (evalRelins mm) (ctx.keys.getLast?.getD noKey) }.run mm ⟨t, []⟩
        let res := match like.2 with
          | .ok o => o.desc
          | .error _ => { t with level := outLevel, ntt := true }
        .waits d true ctx.keys { Effect.nothing with
          also := finished r.1, dest := some (dest.completion res poison), poisonIn := poison } banks
      | .error (.refused c) => refusal d ctx c
      | .ok _ =>
        let (d, r, bad) := full d ctx
        match r.2 with
        | .ok o =>
          let last := if (evalPowers mm).length < ws.length then
              [d.workWrites (ws.getD (evalPowers mm).length dest) o.desc o.polys poison] else []
          .ends ⟨d, doneStatus (poison || bad),
            { units := { dest.desc with level := o.desc.level, logN := t.logN, ntt := true }.units o.polys,
              also := finished r.1 ++ last,
              work := d.workPieces work t h.specialK (openInputs ctx r.1),
                dest := some (dest.completion { o.desc with ntt := true } (poison || bad)), poisonIn := poison }, banks, false⟩ 0
            ctx.keys
        | .error _ => refusal d ctx ⟨false, stBudget, dest.addr⟩
    if begun then go d
    else
      match firstFailed (d.opChecks chk) with
      | some c => .ends ((d.detach channel gang).refused core who dest c) 0 keys
      | none =>
        match d.banksOwned who banks with
        | none => .waits d0 false keys .nothing []
        | some false =>
          let objs := (ins.map fun i => (i.addr, i.desc.banks i.desc.polys i.desc.level ++ banksOf [(i.addr, 64)])) ++
            [(dest.addr, dest.desc.banks 2 outLevel ++ banksOf [(dest.addr, 64)])] ++
            ws.map fun w => (w.addr, w.desc.banks 2 w.desc.alloc ++ banksOf [(w.addr, 64)])
          .ends ((d.detach channel gang).refused core who dest ⟨false, stNotOwner, d.firstUnowned who objs work⟩) 0 keys
        | some true => go d

/-! ### BOOT_STEP -/

/-- Radix exponents of the stages (09 R298). -/
def bootRadix (logN : Nat) : List Nat :=
  match logN with
  | 14 => [4, 4, 5]
  | 15 => [4, 5, 5]
  | 16 => [5, 5, 5]
  | 17 => [5, 5, 6]
  | _ => []

/-- Rotations of stage v with stride t and radix 2^r (09 R298). -/
def bootRots (logN v t r : Nat) : List Nat :=
  let b := 2 ^ ((r + 1) / 2)
  let top := 2 ^ r / b
  (List.range (b - 1)).map (fun i => (i + 1) * t) ++ (List.range (top - 1)).map (fun i => (i + 1) * b * t) ++
    if v = 2 then [] else (List.range top).map fun i => 2 ^ (logN - 1) - (i + 1) * b * t

/-- The steps of three stages from level `l` down, a rescale ending each. -/
def bootStages (logN l : Nat) : List KeyStep :=
  let rs := bootRadix logN
  (List.range rs.length).flatMap fun v =>
    let rots := bootRots logN v (2 ^ ((rs.take v).foldl (· + ·) 0)) (rs.getD v 0)
    rots.zipIdx.map fun r => ⟨0x03, some r.1, l - v, r.2 + 1 = rots.length⟩

/-- EvalMod from level `l`: relinearisations at l to l - 7 and again at l, l - 2, l - 4 and l - 6 (06 R186). -/
def bootEvalMod (l : Nat) : List KeyStep :=
  (List.range 8).flatMap fun i =>
    (if i % 2 = 0 then [⟨0x02, none, l - i, false⟩] else []) ++ [⟨0x02, none, l - i, true⟩]

/-- The steps of a plan: 0 FULL, 1 HALF_E, 2 S2C_ONLY; `l` is the set's L, or for S2C_ONLY the input's level. -/
def bootPlan (plan logN l : Nat) : List KeyStep :=
  if plan = 2 then bootStages logN l
  else
    [⟨0, none, 1, false⟩] ++ bootStages logN l ++ [⟨0x04, none, l - 3, false⟩] ++ bootEvalMod (l - 3) ++
      if plan = 0 then bootStages logN (l - 11) else []

/-- The level after `s` steps of a plan that began at level `l0`. -/
def levelAfter (plan l l0 s : Nat) (steps : List KeyStep) : Nat :=
  let drops := ((steps.take s).filter (·.drops)).length
  if plan = 2 then l - drops else if s = 0 then l0 else l - drops

/-- The level at which an S2C_ONLY plan began, from the level its working ciphertext has before step s. -/
def s2cStart (logN level s : Nat) : Nat := level + (((bootStages logN 0).take s).filter (·.drops)).length

/-- Stated cycles of some steps of a plan (06 R186, 09 R298): ModRaise costs a rescale; each other step its key switch, and
the rescale where one ends its level. -/
def bootCost (v : PSetVals) (t : CtDesc) (steps : List KeyStep) (keys : List KeyStream) : Nat :=
  (steps.foldl (fun (acc : Nat × List KeyStream) k =>
    let at_ := { t with polys := 2, level := k.level }
    let drop := if k.drops then costRescale { at_ with level := k.level - 1 } t.serial else 0
    if k.kind = 0 then (acc.1 + costRescale { at_ with level := v.l } t.serial, acc.2)
    else
      let ls := ((acc.2.head?).map (·.record.level.toNat)).getD k.level
      (acc.1 + costKs v at_ ls (if k.kind = 3 then 1 else if k.kind = 4 then 2 else 0) + drop, acc.2.tail)) (0, keys)).1

/-- Canonical words of `polys` polynomials that no rule gives and that the inputs settle. -/
def openPolys (inputs : List Nat) (v : PSetVals) (n level polys : Nat) : Polys :=
  (List.range polys).map fun p => (List.range level).map fun i => (List.range (2 ^ n)).map fun k =>
    (Config.openWord inputs ((p * level + i) * 2 ^ n + k)).toNat % v.q i

/-- A slot layout that fits the ring, by an open number: what HALF_E leaves, since no argument names it (06 R185). -/
def openLayout (logN w : Nat) : Nat :=
  let ls := ((List.range 256).filter fun l =>
    l ≠ 0 && l ≠ 0x30 && layoutDefined l && layoutFits l logN)
  ls.getD (w % ls.length) 1

/-- BOOT_STEP: args DST, PLAN, S0, S1, RANGE, CHANNEL, WORK; `said` is PROGRESS of the argument block. -/
def Dev.runBoot (d : Dev) (core : Nat) (gang : List Nat) (args : List Nat) (channel said : Nat) (begun : Bool)
    (keys : List KeyStream) : Staged :=
  let who : Requester := .library gang
  let plan := args.getD 1 0
  let s0 := args.getD 2 0
  let s1 := args.getD 3 0
  let range := args.getD 4 0
  let work := args.getD 6 0
  let d0 := d
  let (d, a) := d.readOperand (args.getD 0 0)
  let t := a.desc
  let v := d.vals t.pset
  let l := if plan = 2 then s2cStart t.logN t.level s0 else v.l
  let steps := bootPlan plan t.logN l
  let mine := (steps.drop s0).take (s1 - s0)
  let keyed := mine.filter fun k => k.kind ≠ 0
  let before := levelAfter plan l t.level s0 steps
  match if begun then some keys.head? else if keyed = [] then some none else (d.streamFor channel gang).map some with
  | none => .waits d0 false keys .nothing []
  | some s =>
    let (d, ws) := d.readOperands (d.workDescs work 7)
    let h := (s.map (·.hdr)).getD (KeyHdr.parse [])
    let at_ := fun (k : Nat) => levelAfter plan l t.level k steps
    let peak := ((List.range (s1 - s0)).map fun i => at_ (s0 + i + 1)).foldl max before
    -- what steps s0 to k - 1 leave, from the input's words, the set and the keys taken
    let inputs := fun (d : Dev) (keys : List KeyStream) (k : Nat) =>
      [0x041, plan, s0, k, range, t.scale, t.noise] ++ v.moduli.map (·.toNat) ++ keys.map d.keyNumber ++
        ((d.readPolys t before).2.1).flatten.flatten
    let desc := fun (d : Dev) (keys : List KeyStream) (k : Nat) =>
      let w := (Config.openWord (inputs d keys k) 0).toNat
      let whole := k = steps.length
      { t with
        level := at_ k, ntt := true,
        noise := if whole ∧ plan ≠ 2 then sat16 (ceilDiv t.scale (2 ^ 20) + 16 * (range + 1)) else bitsAt w 0 16,
        scale := if plan = 2 then bitsAt w 16 32 else t.scale,
        layout := if !whole then t.layout else if plan = 1 then openLayout t.logN (bitsAt w 48 16)
          else if plan = 2 then 0 else t.layout }
    let words := fun (d : Dev) (keys : List KeyStream) (k : Nat) =>
      let p := openPolys (1 :: inputs d keys k) v t.logN (at_ k) 2
      -- of a step that only raises or switches nothing is left over
      { t with level := at_ k, ntt := true }.units p
    let works := fun (d : Dev) (keys : List KeyStream) (k : Nat) => ws.zipIdx.map fun w =>
      d.workWrites w.1 { desc d keys k with layout := t.layout } (openPolys ((2 + w.2) :: inputs d keys k) v t.logN (at_ k) 2)
        t.poison
    let chk : OpCheck :=
      { inputs := [a], dest := a,
        key := match s, keyed.head? with
          | some s, some k => some { s.keyIn [k.kind] k.rot with need := some k.level }
          | _, _ => none,
        form := scratchForm [a] ++
          [(h.magic = 0 || d.specialOk t h.specialK, a.addr), (d.workOk work t h.specialK, work),
           (d.workDescsOk ws [a] t, work),
           (s0 = 0 || (s0 = said && s0 = tget d.lib.bootProgress a.addr 0), a.addr)],
        requires := [(schemeIs d t.pset [0], a.addr), (t.polys = 2, a.addr), (plan ≤ 2, a.addr),
          (s0 < s1 && s1 ≤ steps.length, a.addr), (range ≤ 15, a.addr), (bootRadix t.logN ≠ [], a.addr),
          (plan ≠ 2 || t.ntt, a.addr), (plan ≠ 0 || 15 ≤ v.l, a.addr), (plan ≠ 1 || 12 ≤ v.l, a.addr),
          (plan = 2 || s0 ≠ 0 || t.scale + 2 ^ 24 * (range + 10) ≤ v.lq24 0, a.addr)],
        consumes := if plan = 2 then (mine.filter (·.drops)).length else 0,
        result := { t with level := at_ s1, ntt := true, noise := 0 },
        banks := d.workBanks work t h.specialK gang ++ t.banks 2 peak ++ ws.flatMap fun w =>
          w.desc.banks 2 w.desc.alloc ++ banksOf [(w.addr, 64)],
        inPlace := true,
        room := (peak ≤ t.alloc, a.addr) :: ws.map fun w => (peak ≤ w.desc.alloc, w.addr) }
    let progress := fun (d : Dev) (p : Nat) => d.modLib fun x => { x with bootProgress := tset x.bootProgress a.addr p }
    let lateRefusal := fun (d : Dev) (keys : List KeyStream) (k : Nat) (c : Check) =>
      let d := progress d k
      if k = s0 then Staged.ends (d.refused core who a c) k keys
      else
        let now := desc d keys k
        let d' := (words d keys k).foldl (fun d u => d.putPieces u)
          (d.putSides { Effect.nothing with also := works d keys k })
        .ends (d'.refused core who { a with desc := { now with valid := 2 * now.level, torn := false } } c) k keys
    -- the step of the plan that takes key number i of this call
    let stepOf := fun (i : Nat) => s0 + (((mine.zipIdx.filter fun k => k.1.kind ≠ 0).map (·.2)).getD i mine.length)
    let banks := chk.allBanks before false
    let go := fun (d : Dev) =>
      match d.runStages gang channel t.tag t.pset t.logN keys (keyed.drop keys.length) with
      | (d, .waits keys) =>
        .waits d true keys { Effect.nothing with
          units := words d keys s1, also := works d keys (stepOf keys.length),
          dest := some (a.completion (desc d keys s1) t.poison), poisonIn := t.poison } banks
      | (d, .refused keys c) => lateRefusal d keys (stepOf keys.length) c
      | (d, .finished keys) =>
        let res := desc d keys s1
        if res.noise + 16 ≤ v.log2Q res.level then
          .ends ⟨progress d s1, doneStatus t.poison,
            { units := words d keys s1, also := works d keys s1,
              work := d.workPieces work t h.specialK (inputs d keys s1),
              dest := some (a.completion res t.poison), poisonIn := t.poison }, banks, false⟩ s1 keys
        else lateRefusal d keys (s1 - 1) ⟨false, stBudget, a.addr⟩
    if begun then go d
    else
      let early := fun (d : Dev) (c : Check) =>
        let d := if keyed = [] then d else d.detach channel gang
        Staged.ends ((if s0 = 0 then progress d 0 else d).refused core who a c) (if s0 = 0 then 0 else said) keys
      match firstFailed (d.opChecks chk) with
      | some c => early d c
      | none =>
        match d.banksOwned who banks with
        | none => .waits d0 false keys .nothing []
        | some false =>
          early d ⟨false, stNotOwner, d.firstUnowned who
            ((a.addr, t.banks 2 peak ++ banksOf [(a.addr, 64)]) ::
              ws.map fun w => (w.addr, w.desc.banks 2 w.desc.alloc ++ banksOf [(w.addr, 64)])) work⟩
        | some true => go d

end Sys2Proof.Machine
end

