-- ==== Sys2Proof/Machine/Send.lean ====
section
/-! DEFINITION. What leaves the device: messages cut into frames under the transport (17 R508-R514), the log of
external inputs (15 R477, R478), and messages as they arrive (17 R515). -/

namespace Sys2Proof

/-! ### The frame header on the wire (17 R511, 00 R4) -/

/-- The 32 header bytes: the fields at their bits of one big-endian integer, reserved bits zero. -/
def CwpHeader.bytes (h : CwpHeader) : List Byte :=
  (Machine.mkRecord 32 [(252, 4, h.version.toNat), (248, 4, h.cls.toNat), (240, 8, h.kind.toNat), (239, 1, h.sync.toNat),
    (238, 1, h.first.toNat), (237, 1, h.last.toNat), (236, 1, h.ackv.toNat), (235, 1, h.bad.toNat), (208, 16, h.src.toNat),
    (192, 16, h.dst.toNat), (160, 32, h.tseq.toNat), (128, 32, h.ack.toNat), (96, 32, h.msg.toNat), (48, 48, h.offset.toNat),
    (32, 16, h.segLen.toNat)]).reverse

/-- The fields of header bytes. -/
def CwpHeader.read (bs : List Byte) : CwpHeader :=
  let v := Machine.beNat bs
  let at_ := fun lo w => Machine.bitsAt v lo w
  { version := BitVec.ofNat 4 (at_ 252 4), cls := BitVec.ofNat 4 (at_ 248 4), kind := BitVec.ofNat 8 (at_ 240 8),
    sync := v.testBit 239, first := v.testBit 238, last := v.testBit 237, ackv := v.testBit 236, bad := v.testBit 235,
    src := BitVec.ofNat 16 (at_ 208 16), dst := BitVec.ofNat 16 (at_ 192 16), tseq := BitVec.ofNat 32 (at_ 160 32),
    ack := BitVec.ofNat 32 (at_ 128 32), msg := BitVec.ofNat 32 (at_ 96 32), offset := BitVec.ofNat 48 (at_ 48 48),
    segLen := BitVec.ofNat 16 (at_ 32 16) }

def WireFrame.hdr (w : WireFrame) : CwpHeader := CwpHeader.read w.header

def Machine.SentFrame.hdr (f : Machine.SentFrame) : CwpHeader := CwpHeader.read f.header

end Sys2Proof

namespace Sys2Proof.Machine

/-- Traffic kinds of PRIO_MAP (17 R535). -/
inductive Traffic where
  | request | bulk | share | control | event
  deriving DecidableEq, Repr

def Traffic.place (t : Traffic) : Nat :=
  match t with
  | .request => 0
  | .bulk => 1
  | .share => 2
  | .control => 3
  | .event => 4

/-- Priority of a traffic kind (17 R509). -/
def Dev.prioOf (d : Dev) (t : Traffic) : BitVec 3 := BitVec.ofNat 3 (bitsAt (d.reg 0x8000 0x0B) (4 * t.place) 4)

/-- Bytes that an encapsulation adds around a segment in a tagged frame, header and FCS included. -/
def encapBytes (e : Endpoint) : Nat :=
  match e with
  | .mac _ => 54
  | .ipv4 _ _ => 82
  | .ipv6 _ _ => 102

/-- Bytes of a full segment (17 R508). -/
def Dev.segmentSize (d : Dev) (e : Endpoint) : Nat := (d.reg 0x8000 3 - encapBytes e) / 256 * 256

/-- The transport state of an endpoint and priority; a new one expects nothing and sends SYNC first. -/
def Dev.transport (d : Dev) (e : Endpoint) (p : BitVec 3) : Transport :=
  (d.port.transports.find? fun t => t.ep = e && t.prio = p).getD
    { ep := e, prio := p, expect := none, next := 0, syncNext := true, unacked := [] }

def Dev.setTransport (d : Dev) (t : Transport) : Dev :=
  d.modPort fun x => { x with
    transports := x.transports.filter (fun u => !(u.ep = t.ep && u.prio = t.prio)) ++ [t] }

def Dev.linkUp (d : Dev) : Bool := d.reg 0x8000 2 = 2

/-- SRC of the device's frames: the system number, but in the boot ROM's frames 0xFFFF (17 R511, 20 R587). -/
def Dev.ownNumber (d : Dev) (cls : BitVec 4) : BitVec 16 := if cls = 6 then 0xFFFF else BitVec.ofNat 16 d.systemDevice

/-- The segments of a message body. -/
def segmentsOf (n size off : Nat) (body : List Byte) : List (Nat × List Byte) :=
  match n with
  | 0 => []
  | k + 1 => (off, body.take size) :: segmentsOf k size (off + size) (body.drop size)

/-- Put a message's frames on the wire: each takes the next TSEQ and waits for its acknowledgement (17 R513). -/
def Dev.emit (d : Dev) (m : OutMsg) : Dev :=
  let size := max 256 (d.segmentSize m.ep)
  let segs := segmentsOf (max 1 ((m.body.length + size - 1) / size)) size 0 m.body
  let t := d.transport m.ep m.prio
  let frames := segs.zipIdx.map fun s =>
    SentFrame.mk (CwpHeader.bytes
      { version := m.version, cls := m.cls, kind := m.kind, sync := (t.syncNext && s.2 = 0),
        first := (s.2 = 0), last := (s.2 + 1 = segs.length), ackv := (t.expect ≠ none),
        bad := m.bad.any (fun o => s.1.1 ≤ o && o < s.1.1 + size), src := d.ownNumber m.cls, dst := m.dst,
        tseq := t.next + BitVec.ofNat 32 s.2, ack := t.expect.getD 0, msg := m.number, offset := BitVec.ofNat 48 s.1.1,
        segLen := BitVec.ofNat 16 s.1.2.length }) s.1.2 0
  (d.setTransport { t with next := t.next + BitVec.ofNat 32 segs.length, syncNext := false,
                           unacked := t.unacked ++ frames }).modPort fun x => { x with sent := x.sent ++ [m] }

/-- Send a message: discarded while the link is down (17 R506), held while its priority is paused (17 R509). Peer
frames go in version 2, event frames in version 1, answers in the version of what they answer (17 R512). -/
def Dev.sendMarked (d : Dev) (e : Endpoint) (t : Traffic) (cls : BitVec 4) (kind : BitVec 8) (version : BitVec 4)
    (dst : BitVec 16) (body : List Byte) (bad : List Nat) : Dev :=
  if !d.linkUp then d
  else
    let m : OutMsg :=
      { ep := e, prio := d.prioOf t, cls := cls, kind := kind, number := d.port.nextMsg, version := version, dst := dst,
        body := body, bad := bad }
    let d := d.modPort fun x => { x with nextMsg := x.nextMsg + 1 }
    if d.port.paused.contains m.prio then d.modPort fun x => { x with held := x.held ++ [m] }
    else d.emit m

/-- Send a message whose data is good. -/
def Dev.sendMsg (d : Dev) (e : Endpoint) (t : Traffic) (cls : BitVec 4) (kind : BitVec 8) (version : BitVec 4)
    (dst : BitVec 16) (body : List Byte) : Dev := d.sendMarked e t cls kind version dst body []

/-- Version in which an endpoint is addressed: that of its last frame, or `first` when none has come (17 R512). -/
def Dev.answerVersion (d : Dev) (e : Endpoint) (first : BitVec 4) : BitVec 4 :=
  ((d.port.spoke.find? fun p => p.1 = e).map (·.2)).getD first

/-- A share-mode message (07 R205). -/
def Dev.sendShare (d : Dev) (e : Endpoint) (kind : BitVec 8) (body : List Byte) : Dev :=
  d.sendMsg e .share 2 kind (d.answerVersion e 2) 0xFFFF body

/-- The endpoint of peer d's entries, or of the event endpoint at 0x8800 (17 R535). -/
def Dev.peerEndpoint (d : Dev) (idx : Nat) : Option Endpoint :=
  let port := BitVec.ofNat 16 (d.reg idx 6)
  match d.reg idx 5 with
  | 0 => some (.mac (BitVec.ofNat 48 (d.reg idx 1)))
  | 1 => some (.ipv4 (BitVec.ofNat 32 (d.reg idx 2)) port)
  | 2 => some (.ipv6 (BitVec.ofNat 128 (d.reg idx 3 * 2 ^ 64 + d.reg idx 4)) port)
  | _ => none

/-- A peer message to system device `n`, with the places of bad data (17 R530, R533). -/
def Dev.sendPeerMarked (d : Dev) (n : Nat) (t : Traffic) (kind : BitVec 8) (body : List Byte) (bad : List Nat) : Dev :=
  match d.peerEndpoint (0x8400 + n) with
  | some e => d.sendMarked e t 3 kind 2 (BitVec.ofNat 16 n) body bad
  | none => d

def Dev.sendPeer (d : Dev) (n : Nat) (t : Traffic) (kind : BitVec 8) (body : List Byte) : Dev :=
  d.sendPeerMarked n t kind body []

/-! ### The log (15 R477, R478) -/

/-- LOG_STATE (15 R483). -/
def Dev.logState (d : Dev) : Nat :=
  if d.reg 0x2050 2 = 0 then 0 else if d.reg 0x2050 5 = 2 then 2 else 1

/-- Lay bytes down in a ring. -/
def Dev.ringWrite (d : Dev) (base size off : Nat) (bs : List Byte) : Dev :=
  let o := off % size
  let fst := bs.take (size - o)
  let d := if d.problemIn .host .write (base + o) fst.length = none then d.store none (base + o) fst else d
  let rest := bs.drop (size - o)
  if rest = [] then d
  else if d.problemIn .host .write base rest.length = none then d.store none base rest else d

/-- Append a record for an external input (15 R477). A record that would reach LOG_TAIL stops the log (log entry 14). -/
def Dev.logAppend (d : Dev) (kind source frame : Nat) (payload : List Byte) : Dev :=
  if d.logState ≠ 1 then d
  else
    let size := d.reg 0x2050 2
    let head := d.reg 0x2050 3
    let tail := d.reg 0x2050 4
    let len := 64 + (payload.length + 63) / 64 * 64
    let used := (head + size - tail % size) % size
    if size ≤ used + len then (d.setReg 0x2050 5 2).faultUc 0x0F 0 0 0x06 0 0
    else
      let hdr := mkRecord 64 [(0, 8, kind), (32, 32, len), (64, 64, d.tickNumber), (128, 64, d.counter),
        (192, 64, frame), (256, 64, source)]
      (d.ringWrite (d.reg 0x2050 1) size head (hdr ++ payload ++ zeroBytes (len - 64 - payload.length))).setReg 0x2050 3
        ((head + len) % size)

/-- The device is replaying (15 R480). -/
def Dev.replaying (d : Dev) : Bool := d.reg 0x2060 1 = 1

/-! ### Messages under reassembly (17 R515) -/

/-- Lay a segment at its offset. -/
def putBytes (body : List Byte) (off : Nat) (bs : List Byte) : List Byte :=
  body.take off ++ zeroBytes (off - body.length) ++ bs ++ body.drop (off + bs.length)

/-- A message's bytes: its segments placed at their OFFSET. -/
def Msg.body (m : Msg) : List Byte := m.segs.foldl (fun b s => putBytes b s.1 s.2) []

/-- Bytes from the start that have arrived without a gap. -/
def Msg.reach (m : Msg) : Nat := m.segs.foldl (fun n s => if s.1 ≤ n then max n (s.1 + s.2.length) else n) 0

/-- The message with its LAST segment in. -/
def Msg.whole (m : Msg) : Bool := m.last && m.reach = m.body.length

def Dev.findMsg (d : Dev) (ep : Endpoint) (prio : BitVec 3) (number : BitVec 32) : Option Msg :=
  d.port.messages.find? fun m => m.ep = ep && m.prio = prio && m.number = number

def Dev.dropMsg (d : Dev) (m : Msg) : Dev := d.modPort fun x => { x with messages := x.messages.filter (· ≠ m) }

def Dev.setMsg (d : Dev) (old new : Msg) : Dev :=
  d.modPort fun x => { x with messages := x.messages.map fun m => if m = old then new else m }

/-- A complete message that the row stands for leaves the receive buffer (log entry 52). -/
def Dev.consume (d : Dev) (ep : Endpoint) (cls : BitVec 4) (kind : BitVec 8) : Dev :=
  match d.port.messages.find? fun m => m.ep = ep && m.cls = cls && m.kind = kind && m.whole with
  | some m => d.dropMsg m
  | none => d

end Sys2Proof.Machine
end

