-- ==== Sys2Proof/Machine/ShareMath.lean ====
section
/-! DEFINITION. The device's side of the share programs: stream words, triples, comparisons and the four functions (07
R213-R215, R224-R230). Each program is run again from its first round over the replies that have arrived. -/

namespace Sys2Proof.Machine

/-! ### The exchange record (07 R213) -/

structure ExRec where
  session : Nat
  slot : Nat
  function : Nat
  frac : Nat
  range : Nat
  rangeOut : Nat
  logV : Nat
  outMode : Nat
  parts : Nat
  outParts : Nat
  deadline : Nat
  psetOut : Nat
  levelOut : Nat
  layoutOut : Nat
  scaleOut : Nat
  newton : Nat
  paramA : Nat
  coef : List Nat
  deriving DecidableEq, Repr

def ExRec.parse (b : List Byte) : ExRec :=
  { session := fld b 0 16, slot := fld b 16 12, function := fld b 32 8, frac := fld b 40 5, range := fld b 48 4,
    rangeOut := fld b 52 4, logV := fld b 56 4, outMode := fld b 60 4, parts := fld b 64 11, outParts := fld b 80 11,
    deadline := fld b 96 16, psetOut := fld b 112 4, levelOut := fld b 116 6, layoutOut := fld b 128 8,
    scaleOut := fld b 136 40, newton := fld b 176 8, paramA := fld b 192 32,
    coef := (List.range 8).map fun k => fld b (256 + 32 * k) 32 }

/-- Rounds of a function (07 R230). -/
def ExRec.rounds (r : ExRec) : Nat :=
  match r.function with
  | 1 => 9 * r.logV
  | 2 => 9 * r.logV
  | 3 => 9 * r.logV + 23 + 4 * r.newton
  | _ => 0

/-- A positive finite fp32 value. -/
def fp32Positive (v : Nat) : Bool :=
  match fp32.decode v with
  | .num false m _ => m ≠ 0
  | _ => false

/-- The record holds no reserved value (07 R218 step 1, R225, R226). -/
def ExRec.ok (r : ExRec) : Bool :=
  r.session < 512 && r.function ≤ 3 && 8 ≤ r.frac && r.frac ≤ 16 && r.outMode ≤ 1 &&
  (if r.function = 0 then r.logV = 0 else 1 ≤ r.logV && r.logV ≤ 12 && r.range + r.frac ≤ 22) &&
  1 ≤ r.parts && r.parts ≤ 1024 && 1 ≤ r.outParts && r.outParts ≤ 1024 && 1 ≤ r.levelOut && r.levelOut ≤ 60 &&
  (if r.function = 3 then 1 ≤ r.newton && r.newton ≤ 32 && r.outMode = 0 else r.newton = 0) &&
  (if r.function = 2 ∨ r.function = 3 then fp32Positive r.paramA else true) &&
  (!((r.function = 1 || r.function = 2) && r.outMode = 0) || r.logV ≤ r.rangeOut)

/-! ### Stream words (07 R228) -/

def shareWord (key : List Byte) (kind round e : Nat) : Nat :=
  leNat (((chachaBlock key (e / 8) (leBytes 4 kind ++ leBytes 4 round ++ leBytes 4 0)).drop (8 * (e % 8))).take 8)

def shareBit (key : List Byte) (kind round e : Nat) : Bool := (shareWord key kind round (e / 64)).testBit (e % 64)

def word64 (x : Nat) : Nat := x % 2 ^ 64
def sub64 (x y : Nat) : Nat := (x + (2 ^ 64 - y % 2 ^ 64)) % 2 ^ 64
def mul64 (x y : Nat) : Nat := x * y % 2 ^ 64
def ofInt64 (x : Int) : Nat := wrapInt x 64

/-- κ (07 R228). -/
def kappaOf (sigma : List Byte) : List Byte :=
  (sha512 ([0x43, 0x52, 0x45, 0x55, 0x43, 0x2D, 0x53, 0x48, 0x2D, 0x4B, 0x48] ++ sigma)).take 32

/-! ### Rounds -/

/-- Where a program stands: the two keys, the next round, and the key holder's replies not yet used. -/
structure ShareRun where
  sigma : List Byte
  kappa : List Byte
  round : Nat
  replies : List (List Byte)
  deriving DecidableEq, Repr

/-- Boolean values packed eight to a byte from the low bit. -/
def packBits (bs : List Bool) : List Byte :=
  (List.range ((bs.length + 7) / 8)).map fun i =>
    BitVec.ofNat 8 ((List.range 8).foldl (fun v k => v + (if bs.getD (8 * i + k) false then 2 ^ k else 0)) 0)

/-- A round message's body: arithmetic openings, then boolean ones, padded to 8 bytes (07, message kinds). -/
def roundBody (ar : List Nat) (bo : List Bool) : List Byte :=
  let b := ar.flatMap (leBytes 8) ++ packBits bo
  b ++ zeroBytes ((8 - b.length % 8) % 8)

/-- What a program answers: the body of the round message it now has to send, or a value and the run after it. -/
abbrev Shared (α : Type) := Except (List Byte) (α × ShareRun)

/-- Open shares: with a reply, the opened values; without one, the body to send. -/
def openShares (s : ShareRun) (ar : List Nat) (bo : List Bool) : Shared (List Nat × List Bool) :=
  match s.replies with
  | [] => .error (roundBody ar bo)
  | b :: r =>
    .ok ((ar.zipIdx.map fun x => word64 (x.1 + leNat ((b.drop (8 * x.2)).take 8)),
          bo.zipIdx.map fun x => x.1 != ((b.getD (8 * ar.length + x.2 / 8) 0).getLsbD (x.2 % 8))),
         { s with round := s.round + 1, replies := r })

/-- The device's share of an arithmetic helper: its value less the key holder's word. -/
def ShareRun.half (s : ShareRun) (kind e v : Nat) : Nat := sub64 v (shareWord s.kappa kind s.round e)

/-- Interleave d before e. -/
def weave {α : Type} (a b : List α) : List α :=
  match a, b with
  | x :: xs, y :: ys => x :: y :: weave xs ys
  | _, _ => []

def evens {α : Type} (a : List α) : List α :=
  match a with
  | x :: _ :: r => x :: evens r
  | [x] => [x]
  | [] => []

/-- Arithmetic multiplies, one round (07, share programs). -/
def mulShares (s : ShareRun) (xs ys : List Nat) : Shared (List Nat) :=
  let n := xs.length
  let a := (List.range n).map fun e => shareWord s.sigma 1 s.round e
  let b := (List.range n).map fun e => shareWord s.sigma 2 s.round e
  let aD := a.zipIdx.map fun v => s.half 1 v.2 v.1
  let bD := b.zipIdx.map fun v => s.half 2 v.2 v.1
  let cD := (List.zipWith mul64 a b).zipIdx.map fun v => s.half 3 v.2 v.1
  match openShares s (weave (List.zipWith sub64 xs aD) (List.zipWith sub64 ys bD)) [] with
  | .error m => .error m
  | .ok ((o, _), t) =>
    let d := evens o
    let e := evens (o.drop 1)
    .ok ((List.range n).map fun i =>
      word64 (cD.getD i 0 + mul64 (d.getD i 0) (bD.getD i 0) + mul64 (e.getD i 0) (aD.getD i 0) +
        mul64 (d.getD i 0) (e.getD i 0)), t)

/-- Boolean ANDs, one round. -/
def andShares (s : ShareRun) (xs ys : List Bool) : Shared (List Bool) :=
  let n := xs.length
  let a := (List.range n).map fun e => shareBit s.sigma 8 s.round e
  let b := (List.range n).map fun e => shareBit s.sigma 9 s.round e
  let aD := a.zipIdx.map fun v => v.1 != shareBit s.kappa 8 s.round v.2
  let bD := b.zipIdx.map fun v => v.1 != shareBit s.kappa 9 s.round v.2
  let cD := (List.zipWith and a b).zipIdx.map fun v => v.1 != shareBit s.kappa 0xA s.round v.2
  match openShares s [] (weave (List.zipWith bne xs aD) (List.zipWith bne ys bD)) with
  | .error m => .error m
  | .ok ((_, o), t) =>
    let d := evens o
    let e := evens (o.drop 1)
    .ok ((List.range n).map fun i =>
      ((cD.getD i false != (d.getD i false && bD.getD i false)) != (e.getD i false && aD.getD i false)) !=
        (d.getD i false && e.getD i false), t)

/-- Truncations, one round. -/
def truncShares (s : ShareRun) (p : ExRec) (xs : List Nat) : Shared (List Nat) :=
  let b2 := 2 * (p.range + p.frac) + 1
  let rt := (List.range xs.length).map fun e => shareWord s.sigma 0xB s.round e % 2 ^ 62
  let rtD := rt.zipIdx.map fun v => s.half 0xB v.2 v.1
  let hiD := rt.zipIdx.map fun v => s.half 0xC v.2 (v.1 / 2 ^ p.frac)
  match openShares s (List.zipWith (fun x r => word64 (x + 2 ^ b2 + r)) xs rtD) [] with
  | .error m => .error m
  | .ok ((c, _), t) => .ok (List.zipWith (fun c h => sub64 (c / 2 ^ p.frac) (2 ^ (b2 - p.frac) + h)) c hiD, t)

/-- Selects: y + s (x - y), one multiply. -/
def selectShares (s : ShareRun) (c x y : List Nat) : Shared (List Nat) :=
  match mulShares s c (List.zipWith sub64 x y) with
  | .error m => .error m
  | .ok (z, t) => .ok (List.zipWith (fun y z => word64 (y + z)) y z, t)

/-- One tree level of the comparison, for every comparison: lists of (lt, eq) per node (07, ltz). -/
def ltzLevel (s : ShareRun) (nodes : List (List (Bool × Bool))) : Shared (List (List (Bool × Bool))) :=
  let pairs := nodes.map fun ns => List.zip (evens ns) (evens (ns.drop 1))
  let flat := pairs.flatten
  match andShares s (flat.flatMap fun p => [p.1.2, p.1.2]) (flat.flatMap fun p => [p.2.1, p.2.2]) with
  | .error m => .error m
  | .ok (z, t) =>
    let width := (pairs.headD []).length
    .ok (pairs.zipIdx.map fun ps => ps.1.zipIdx.map fun q =>
      let k := 2 * (ps.2 * width + q.2)
      (q.1.1.1 != z.getD k false, z.getD (k + 1) false), t)

def ltzLevels (n : Nat) (s : ShareRun) (nodes : List (List (Bool × Bool))) : Shared (List (List (Bool × Bool))) :=
  match n with
  | 0 => .ok (nodes, s)
  | k + 1 =>
    match ltzLevel s nodes with
    | .error m => .error m
    | .ok (z, t) => ltzLevels k t z

/-- LTZ on every element: arithmetic shares of 1 if negative, in 8 rounds (07, ltz). -/
def ltzShares (s : ShareRun) (p : ExRec) (xs : List Nat) : Shared (List Nat) :=
  let b := p.range + p.frac + 1
  let rs := (List.range xs.length).map fun e => shareWord s.sigma 4 s.round e % 2 ^ (b + 40)
  let rD := rs.zipIdx.map fun v => s.half 4 v.2 v.1
  let bits := rs.zipIdx.map fun v => (word64 (v.1 + 2 ^ b)) ^^^ shareWord s.kappa 5 s.round v.2
  match openShares s (List.zipWith (fun x r => word64 (x + 2 ^ b + r)) xs rD) [] with
  | .error m => .error m
  | .ok ((c, _), t) =>
    let leaves := (List.zip c bits).map fun x => (List.range 64).map fun k =>
      let ci := x.1.testBit (63 - k)
      let ri := x.2.testBit (63 - k)
      (if ci then false else ri, (ri != ci) != true)
    match ltzLevels 6 t leaves with
    | .error m => .error m
    | .ok (top, t) =>
      let rho := (List.range xs.length).map fun e => shareWord t.sigma 6 t.round e % 2
      let rhoB := rho.zipIdx.map fun v => (v.1 = 1) != shareBit t.kappa 6 t.round v.2
      let rhoA := rho.zipIdx.map fun v => t.half 7 v.2 v.1
      match openShares t [] (List.zipWith (fun (n : List (Bool × Bool)) r => (n.headD (false, false)).1 != r) top
          rhoB) with
      | .error m => .error m
      | .ok ((_, o), u) =>
        .ok (List.zipWith (fun o r => if o then word64 (1 + (2 ^ 64 - r)) else r) o rhoA, u)

/-- Tournament levels over groups: the value shares that win, and the shares of s of the last level (07 R230). -/
def tournament (n : Nat) (s : ShareRun) (p : ExRec) (groups : List (List Nat)) (last : List Nat) :
    Shared (List (List Nat) × List Nat) :=
  match n with
  | 0 => .ok ((groups, last), s)
  | k + 1 =>
    let xs := groups.flatMap evens
    let ys := groups.flatMap fun g => evens (g.drop 1)
    match ltzShares s p (List.zipWith sub64 xs ys) with
    | .error m => .error m
    | .ok (l, t) =>
      let c := l.map fun v => sub64 1 v
      match selectShares t c xs ys with
      | .error m => .error m
      | .ok (z, u) =>
        let w := (groups.headD []).length / 2
        tournament k u p ((List.range groups.length).map fun g => (z.drop (g * w)).take w) c

/-- Horner steps: acc ← trunc(acc × d) + c_k, for k down to 0 (07 R230). -/
def hornerShares (n : Nat) (s : ShareRun) (p : ExRec) (acc d : List Nat) : Shared (List Nat) :=
  match n with
  | 0 => .ok (acc, s)
  | k + 1 =>
    match mulShares s acc d with
    | .error m => .error m
    | .ok (z, t) =>
      match truncShares t p z with
      | .error m => .error m
      | .ok (z, u) => hornerShares k u p (z.map fun v => word64 (v + ofInt64 (signed (p.coef.getD k 0) 32))) d

/-- Newton steps: y ← y (2 - S y) (07 R230). -/
def newtonShares (n : Nat) (s : ShareRun) (p : ExRec) (sum y : List Nat) : Shared (List Nat) :=
  match n with
  | 0 => .ok (y, s)
  | k + 1 =>
    match mulShares s sum y with
    | .error m => .error m
    | .ok (z, t) =>
      match truncShares t p z with
      | .error m => .error m
      | .ok (z, t) =>
        match mulShares t y (z.map fun v => sub64 (2 * 2 ^ p.frac) v) with
        | .error m => .error m
        | .ok (z, t) =>
          match truncShares t p z with
          | .error m => .error m
          | .ok (z, t) => newtonShares k t p sum z

/-- Fixed-point value of an fp32 number (07 R214). -/
def fixedOf (v frac : Nat) : Nat := ofInt64 ((((fp32.decode v).shift frac).toIntRne).getD 0)

/-- NORM on groups of shares: y for each group (07 R230; log entry 16). -/
def normShares (s : ShareRun) (p : ExRec) (groups : List (List Nat)) : Shared (List Nat) :=
  match tournament p.logV s p groups [] with
  | .error m => .error m
  | .ok ((top, _), t) =>
    let d := (List.zip groups top).flatMap fun g => g.1.map fun x => sub64 x (g.2.headD 0)
    let low := word64 (2 ^ 64 - 8 * 2 ^ p.frac)
    match ltzShares t p (d.map fun x => word64 (x + 8 * 2 ^ p.frac)) with
    | .error m => .error m
    | .ok (c, t) =>
      match selectShares t c (d.map fun _ => low) d with
      | .error m => .error m
      | .ok (x, t) =>
        match hornerShares 7 t p (x.map fun _ => ofInt64 (signed (p.coef.getD 7 0) 32)) x with
        | .error m => .error m
        | .ok (e, t) =>
          let w := (groups.headD []).length
          let sums := (List.range groups.length).map fun g => word64 (((e.drop (g * w)).take w).foldl (· + ·) 0)
          newtonShares p.newton t p sums (sums.map fun _ => fixedOf p.paramA p.frac)

/-! ### Numbering (07 R215) -/

/-- Channel positions per sequence of a layout, and whether it is grouped by sequence first. -/
def layoutG (layout : Nat) : Option (Nat × Bool) :=
  if 0x10 ≤ layout ∧ layout ≤ 0x1F then some (2 ^ (layout % 16), true)
  else if 0x20 ≤ layout ∧ layout ≤ 0x2F then some (2 ^ (layout % 16), false) else none

/-- Slots of a layout at a ring dimension: N ÷ 2, and N under BGV_SLOTS (12 R394), where R215's S is read as N (DEDUCED, log
entry 98). -/
def slotsOf (layout logN : Nat) : Nat := if layout = 0x30 then 2 ^ logN else 2 ^ (logN - 1)

/-- Group and position of element e with S slots a part. BGV_SLOTS and OPAQUE number as LINEAR; nothing compares the LOG_N or
LAYOUT of an exchange's parts, or a layout's G with 2^LOG_V (DESIGN CHOICE, log entry 98). -/
def placeOf (layout s e : Nat) : Nat × Nat :=
  match layoutG layout with
  | some (g, true) => ((e % s) % (s / g), e / s * g + e % s / (s / g))
  | some (g, false) => ((e % s) / g, e / s * g + e % s % g)
  | none => (0, e)

/-- Element of a group and position. -/
def elementOf (layout s group pos : Nat) : Nat :=
  match layoutG layout with
  | some (g, true) => pos / g * s + pos % g * (s / g) + group
  | some (g, false) => pos / g * s + group * g + pos % g
  | none => pos

def groupCount (layout s : Nat) : Nat :=
  match layoutG layout with
  | some (g, _) => s / g
  | none => 1

/-- The Gumbel value of a stream word: g = -ln(-ln((w + 0.5) × 2^-32)) of its low 32 bits, each logarithm rounded once to fp64
(07 R230; that each is correctly rounded is a DESIGN CHOICE, log entry 15). -/
def gumbel (w : Nat) : FVal :=
  let ln := fun (v : FVal) => fp64.decode (fp64.encode v.ln)
  (ln (ln (.num false (2 * (w % 2 ^ 32) + 1) (-33))).neg).neg

/-- What SAMPLE adds to a value's share: round(T × g × 2^F). -/
def gumbelAddend (w paramA frac : Nat) : Nat :=
  ofInt64 ((((fp32.decode paramA).mul (gumbel w)).shift frac).toIntRne.getD 0)

/-- The next message of an exchange: a round's openings, or z_D for each output element. `free` gives the index shares of
a tournament above its leaves, for which no rule is stated (log entry 16). -/
def shareProgram (p : ExRec) (sigma : List Byte) (layout logN : Nat) (shares : List Nat) (replies : List (List Byte))
    (free : Nat → Nat) : Except (List Byte) (List Nat) :=
  let arr := shares.toArray
  let s := slotsOf layout logN
  let out := slotsOf p.layoutOut logN
  let run : ShareRun := { sigma := sigma, kappa := kappaOf sigma, round := 1, replies := replies }
  let addend := fun (e : Nat) =>
    if p.function = 2 then gumbelAddend (shareWord sigma 0xE 0 e) p.paramA p.frac else 0
  let groups := (List.range (groupCount layout s)).map fun g => (List.range (2 ^ p.logV)).map fun q =>
    let e := elementOf layout s g q
    word64 (arr.getD e 0 + addend e)
  -- the output elements, position 0 of each group holding that group's result
  let spread := fun (z : List Nat) =>
    if p.outMode = 1 then z
    else (List.range (p.outParts * out)).map fun e =>
      let gp := placeOf p.layoutOut out e
      if gp.2 = 0 then z.getD gp.1 0 else 0
  match p.function with
  | 0 => .ok ((List.range (p.outParts * out)).map fun e =>
      let gp := placeOf p.layoutOut out e
      arr.getD (elementOf layout s gp.1 gp.2) 0)
  | 3 =>
    match normShares run p groups with
    | .error m => .error m
    | .ok (y, _) => .ok (spread y)
  | _ =>
    match tournament p.logV run p groups [] with
    | .error m => .error m
    | .ok ((_, c), _) =>
      .ok (spread (c.zipIdx.map fun x =>
        if p.logV = 1 then word64 (2 ^ p.frac + mul64 x.1 (2 ^ 64 - 2 ^ p.frac)) else word64 (free x.2)))

end Sys2Proof.Machine
end

