-- ==== Sys2Proof/Machine/ShareCall.lean ====
section
/-! DEFINITION. Sessions and exchanges as the share-mode calls and messages change them, and the two library routines of
share mode (07 R195-R236). -/

namespace Sys2Proof.Machine

/-! ### Messages out (07 R202-R205) -/

/-- Inner header under a VERSION (07 R205). -/
def shareHeaderOf (version kind session slot round seq serial bodyLen : Nat) : List Byte :=
  mkRecord 32 [(0, 8, kind), (8, 8, version), (16, 16, session), (32, 12, slot), (48, 16, round), (64, 64, seq),
    (128, 64, serial), (192, 32, bodyLen)]

/-- Inner header as the device writes it. -/
def shareHeader (kind session slot round seq serial bodyLen : Nat) : List Byte :=
  shareHeaderOf 1 kind session slot round seq serial bodyLen

/-- Nonce of a message (07 R202). -/
def shareNonce (seq : Nat) : List Byte := zeroBytes 4 ++ leBytes 8 seq

def Dev.session (d : Dev) (n : Nat) : Option Session := tfind d.sterling.sessions n

def Dev.putSession (d : Dev) (n : Nat) (s : Session) : Dev :=
  d.modSterling fun x => { x with sessions := tset x.sessions n s }

/-- An exchange (07 R213-R232): what the store holds of it and what is held outside. -/
structure Exchange extends ExchSecret, ExchOpen
  deriving DecidableEq, Repr

/-- What the store holds of an exchange after it was cleared: zeros, and the exchange has failed (07 R200, R208). -/
def ExchSecret.lost : ExchSecret :=
  { sigma := [], serial := 0, round := 0, sendTick := 0, deadline := 0, state := .failedOther, shares := [],
    transcriptIn := [] }

/-- Every exchange, by slot. -/
def Dev.exchanges (d : Dev) : Tbl Exchange :=
  d.exchOpen.map fun p => (p.1, { tget d.sterling.exchanges p.1 ExchSecret.lost, p.2 with })

def Dev.exchange (d : Dev) (slot : Nat) : Option Exchange :=
  (tfind d.exchOpen slot).map fun o => { tget d.sterling.exchanges slot ExchSecret.lost, o with }

def Dev.putExchange (d : Dev) (slot : Nat) (e : Exchange) : Dev :=
  { d.modSterling fun x => { x with exchanges := tset x.exchanges slot e.toExchSecret } with
    exchOpen := tset d.exchOpen slot e.toExchOpen }

/-- Send a message of a session: protected under its next SEQ when the session is live, in the clear otherwise. The
message is returned, for a resend. -/
def Dev.shareSend (d : Dev) (sess : Nat) (kind slot round serial : Nat) (body : List Byte) : Dev × List Byte :=
  match d.session sess with
  | none => (d, [])
  | some s =>
    if s.live ∨ kind = 0x03 then
      let hdr := shareHeader kind sess slot round s.seqOut.toNat serial body.length
      let m := hdr ++ aeadSeal s.keyOut (shareNonce s.seqOut.toNat) hdr body
      ((d.putSession sess { s with seqOut := s.seqOut + 1 }).sendShare s.ep (BitVec.ofNat 8 kind) m, m)
    else
      let m := shareHeader kind sess slot round 0 serial body.length ++ body
      (d.sendShare s.ep (BitVec.ofNat 8 kind) m, m)

/-! ### Failure and closing (07 R199, R200, R232) -/

def ExchState.failed (s : ExchState) : Bool :=
  match s with
  | .failedPeer => true
  | .failedOther => true
  | _ => false

/-- Fail an exchange that has not failed yet: through the key holder, with SH_ABORT and a recorded fault, or otherwise. -/
def Dev.failExchange (d : Dev) (slot : Nat) (viaPeer : Bool) (kind : Nat) : Dev :=
  match d.exchange slot with
  | none => d
  | some e =>
    if e.state.failed then d
    else
      let d := (d.putExchange slot { e with state := if viaPeer then .failedPeer else .failedOther }).bump 0x5800 8 1
      if viaPeer then
        let (d, _) := d.shareSend e.session 0x1F slot e.round e.serial.toNat [stPeerFail]
        d.faultUc 0x12 e.session (slot + e.round * 2 ^ 12) (BitVec.ofNat 8 kind) 0 e.serial.toNat
      else d

/-- Close a session: its exchanges fail, then it is gone. The device sends no SH_CLOSE of its own: R200 has the message from
either party close a session, and no rule has the device send one (DESIGN CHOICE, log entry 97). -/
def Dev.closeSession (d : Dev) (n : Nat) (viaPeer : Bool) (kind : Nat) : Dev :=
  let slots := (d.exchanges.filter fun e => e.2.session = n).map (·.1)
  (slots.foldl (fun d k => d.failExchange k viaPeer kind) d).modSterling fun x =>
    { x with sessions := tdel x.sessions n }

/-- Release a slot and its spill blocks (07 R227). -/
def Dev.releaseSlot (d : Dev) (slot : Nat) : Dev :=
  { d.modSterling fun x =>
      let owner := x.spillOwner.filter fun p => p.2 ≠ slot
      { x with exchanges := tdel x.exchanges slot, spillOwner := owner, spillUsed := owner.length } with
    exchOpen := tdel d.exchOpen slot }

/-! ### The sealed spill (07 R210-R212; log entry 17) -/

def spillBlock : Nat := 4352

/-- Blocks of the spill region; one that is not of the correct class gives none (07 R210). -/
def Dev.spillBlocks (d : Dev) : Nat :=
  if d.slabsAre 0 (d.reg 0x5800 5) (d.reg 0x5800 6) then d.reg 0x5800 6 / spillBlock else 0

/-- Blocks that an exchange may need: 16 × E bytes. -/
def spillNeed (elements : Nat) : Nat := ceilDiv (16 * elements) 4096

def spillNonce (block writes : Nat) : List Byte := leBytes 4 block ++ leBytes 8 writes

/-- Seal the next 4,096 bytes of an exchange's shares into each of its blocks: ciphertext, tag, and the 240 reserved bytes as
zero. A block's first write has count 1 in its nonce (DESIGN CHOICE, log entry 17). -/
def Dev.spillSeal (d : Dev) (slot : Nat) : Dev :=
  match d.exchange slot with
  | none => d
  | some e =>
    let bs := e.shares.flatMap fun w => leBytes 8 w.toNat
    let mine := (d.sterling.spillOwner.filter fun p => p.2 = slot).map (·.1)
    let used := mine.take ((bs.length + 4095) / 4096)
    used.zipIdx.foldl (fun d b =>
      let w := tget d.sterling.spillWrites b.1 0 + 1
      let chunk := (bs.drop (4096 * b.2)).take 4096
      let d := d.modSterling fun x => { x with spillWrites := tset x.spillWrites b.1 w }
      d.store none (d.reg 0x5800 5 + b.1 * spillBlock)
        (aeadSeal d.sterling.sealingKey (spillNonce b.1 w) [] (chunk ++ zeroBytes (4096 - chunk.length)) ++
          zeroBytes 240)) d

/-- Read an exchange's spilled blocks back; one whose tag fails, or that is delivered bad, is recorded and closes the session
(07 R212). True: all tags hold. -/
def Dev.spillCheck (d : Dev) (slot kind : Nat) : Dev × Bool :=
  match d.exchange slot with
  | none => (d, true)
  | some e =>
    let mine := ((d.sterling.spillOwner.filter fun p => p.2 = slot).map (·.1)).take
      ((e.shares.length * 8 + 4095) / 4096)
    let found := mine.foldl (fun (x : Dev × Option Nat) b =>
      if x.2.isSome then x
      else
        let (d, bs, bad) := x.1.fetch none (x.1.reg 0x5800 5 + b * spillBlock) 4112
        let opened := aeadOpen d.sterling.sealingKey (spillNonce b (tget d.sterling.spillWrites b 0)) [] bs
        (d, if bad || opened.isNone then some b else none)) (d, none)
    let d := found.1
    match found.2 with
    | none => (d, true)
    | some b =>
      ((d.faultUc 0x13 e.session (d.reg 0x5800 5 + b * spillBlock) (BitVec.ofNat 8 kind) 0 e.serial.toNat).closeSession
        e.session false kind, false)

/-! ### Masks (07 R216, R224) -/

/-- The mask of element e for a bound of `k` bits: uniform on [-2^k, 2^k). -/
def maskOf (sigma : List Byte) (round e k : Nat) : Int :=
  ((Config.shareMask (BitVec.ofNat 64 (shareWord sigma 0xD round e)) % 2 ^ (k + 1) : Nat) : Int) - (2 ^ k : Nat)

/-- Coefficients of a vector of masks × 2^-F encoded at a scale; under BGV the masks modulo t, with F taken as zero, times the
scale's correction factor (07 R216, R224, 12 R396). -/
def maskPoly (v : PSetVals) (n layout scale frac : Nat) (masks : List Int) : List Int :=
  if v.scheme = 1 then
    let t := v.plainMod.toNat
    let ms := if layout = 0x30 then bgvEncode t n (masks.map fun m => resOf t m)
              else (masks.map fun m => resOf t m) ++ List.replicate (2 ^ n - masks.length) 0
    ms.map fun m => liftQ t (m * scale % t)
  else ckksEncode n scale (masks.map fun m => fvalOfInt m (-(frac : Int)))

/-- Add coefficients to limbs in evaluation form. -/
def addCoeffs (v : PSetVals) (n : Nat) (c : List Int) (ls : List (List Nat)) : List (List Nat) :=
  ls.zipIdx.map fun x => limbAdd (v.q x.2) x.1 (ntt n (v.q x.2) (c.map fun k => resOf (v.q x.2) k))

/-! ### SHARE_OUT (07 R216-R221) -/

/-- Round-trip allowance in ticks (07 R218). -/
def Dev.allowance (d : Dev) (r : ExRec) : Nat :=
  1 + ceilDiv ((r.rounds + 2) * d.reg 0x5800 2 * 10500) (d.reg 0x2000 4)

def costShare (polys level logN : Nat) : Nat := 512 + polys * level * 2 ^ logN / 64 + 2 ^ logN / 16

/-- Refuse a call that has no destination descriptor: its fault only (03 R93). -/
def Dev.refuseBare (d : Dev) (core : Nat) (c : Check) : Dev × BitVec 8 :=
  ((d.faultUc 0x01 core c.object 0 c.status 0).countRefusal, c.status)

def Dev.outChecks (d : Dev) (record part : Nat) (raw : List Byte) (placed : Bool) (src : Operand) : List Check :=
  let r := ExRec.parse raw
  let t := src.desc
  let live := match d.session r.session with | some s => s.live | none => false
  let v := d.vals t.pset
  let noise := sat16 (max t.noise (ceilDiv t.scale (2 ^ 20) + 16 * (r.range + 41)) + 16)
  let elements := r.parts * 2 ^ (t.logN - 1)
  [ ⟨placed && r.ok && layoutDefined r.layoutOut && live && part < r.parts, stBounds, record⟩,
    ⟨d.inputForm src, stBounds, src.addr⟩,
    ⟨match d.exchange r.slot with
      | none => part = 0 && d.allowance r ≤ r.deadline &&
          d.sterling.spillUsed + spillNeed elements ≤ d.spillBlocks
      | some e => part ≠ 0 && e.record = raw && e.parts = part && e.state = .sending, stBounds, record⟩,
    ⟨slotLayout t.layout && t.ntt, stBounds, src.addr⟩,
    ⟨!t.torn, stTorn, src.addr⟩,
    ⟨match d.session r.session with | some s => t.tag = s.tag.toNat | none => false, stKeyMismatch, src.addr⟩,
    ⟨d.live t.pset ≠ none, stUncommitted, src.addr⟩,
    ⟨t.polys = 2 && v.scheme.toNat ≤ 1 && t.logN ≤ v.logNMax.toNat && t.level ≤ v.l && (t.layout ≠ 0x30 || v.scheme = 1),
      stMismatch, src.addr⟩,
    ⟨noise + 16 ≤ v.log2Q t.level, stBudget, src.addr⟩ ]

/-- The tick of the frame that runs: TICK_NUMBER at its boundary (07 R220). -/
def Dev.frameTick (d : Dev) : BitVec 64 := (d.tick.frame.map (·.tick)).getD (BitVec.ofNat 64 d.tickNumber)

/-- The number of the frame that runs, or of the next. -/
def Dev.frameNow (d : Dev) : BitVec 64 := (d.tick.frame.map (·.number)).getD (BitVec.ofNat 64 d.frameNumber)

/-- The exchange that part 0 claims: σ drawn, a SERIAL taken, spill blocks set aside. -/
def Dev.claimSlot (d : Dev) (raw : List Byte) (src : Operand) : Dev :=
  let r := ExRec.parse raw
  match d.session r.session with
  | none => d
  | some s =>
    let (rnd, d) := d.drawRandom
    let want := spillNeed (r.parts * 2 ^ (src.desc.logN - 1))
    let free := ((List.range d.spillBlocks).filter fun b => tfind d.sterling.spillOwner b = none).take want
    let d := d.putSession r.session { s with nextSerial := s.nextSerial + 1 }
    let d := d.putExchange r.slot
      { record := raw, session := r.session, serial := s.nextSerial, sigma := rnd.take 32,
        state := .sending, round := 0, sendTick := d.frameTick, sendFrame := d.frameNow,
        deadline := d.frameTick.toNat + r.deadline, parts := 0, layoutIn := BitVec.ofNat 8 src.desc.layout,
        logN := src.desc.logN, shares := [], transcriptIn := [], arrived := [], taken := [], lastMsg := [], lastKind := 0,
        resends := 0 }
    d.modSterling fun x =>
      let owner := free.foldl (fun t b => tset t b r.slot) x.spillOwner
      { x with spillOwner := owner, spillUsed := owner.length }

/-- SHARE_OUT: args RECORD, PART, SRC (07 R216). A source has a mask for each of its slots. -/
def Dev.runShareOut (d : Dev) (core : Nat) (gang : List Nat) (args : List Nat) : Option Ran :=
  let who : Requester := .library gang
  let record := args.getD 0 0
  let part := args.getD 1 0
  let placed := d.recordPlaced record
  let (d, raw, bad) := if placed then d.fetch none record 64 else (d, zeroBytes 64, false)
  let (d, src) := d.readOperand (args.getD 2 0)
  let refuse := fun (d : Dev) (c : Check) =>
    let r := d.refuseBare core c
    some (Ran.mk r.1 r.2 .nothing [] true)
  match firstFailed (d.outChecks record part raw (placed && !bad) src) with
  | some c => refuse d c
  | none =>
    let t := src.desc
    let objs := [(src.addr, t.banks t.polys t.level ++ banksOf [(src.addr, 64)]), (record, banksOf [(record, 64)])]
    let banks := (objs.flatMap (·.2)).eraseDups
    match d.banksOwned who banks with
    | none => none
    | some false => refuse d ⟨false, stNotOwner, d.firstUnowned who objs src.addr⟩
    | some true =>
      let r := ExRec.parse raw
      let d := if part = 0 then d.claimSlot raw src else d
      let (d, ps, bad) := d.readPolys t t.level
      let done := fun (d : Dev) => some (Ran.mk d (doneStatus (bad || t.poison)) .nothing banks false)
      match d.exchange r.slot with
      | none => done d
      | some e =>
        let v := d.vals t.pset
        let slots := slotsOf t.layout t.logN
        let frac := if v.scheme = 1 then 0 else r.frac
        let masks := (List.range slots).map fun k => maskOf e.sigma 0 (part * slots + k) (r.range + r.frac + 40)
        let c0 := addCoeffs v t.logN (maskPoly v t.logN t.layout t.scale frac masks) (ps.getD 0 [])
        let limbs := c0.flatMap packWords ++ (ps.getD 1 []).flatMap packWords
        let body := (if part = 0 then zeroBytes 8 ++ raw.drop 8 ++ kappaOf e.sigma else []) ++
          mkRecord 4 [(0, 16, part), (16, 8, t.level)] ++ limbs
        let (d, m) := if d.replaying then (d, []) else d.shareSend e.session 0x10 r.slot 0 e.serial.toNat body
        let d := d.putExchange r.slot { e with
          parts := part + 1, shares := e.shares ++ masks.map fun m => BitVec.ofInt 64 (-m), lastMsg := m, lastKind := 0x10,
          resends := 0, state := if part + 1 = r.parts then .awaitingAck else .sending }
        done (if part + 1 = r.parts then d.spillSeal r.slot else d)

/-! ### SHARE_IN (07 R222-R227) -/

/-- The arrived part's level, NOISE and polynomials (07, message kinds). -/
def partOf (logN : Nat) (body : List Byte) : Nat × Nat × Polys :=
  let level := fld body 16 8
  let b := limbBytes logN
  (level, fld body 32 16, (List.range 2).map fun p => (List.range level).map fun i =>
    unpackWords ((body.drop (8 + (p * level + i) * b)).take b))

/-- The oldest logged share result of the frame that replays for the storage a destination names, taken from those that have
fired (07 R236, 15 R481): the log has the destination's descriptor, whose rw fields say where its limbs lie. -/
def Dev.takeReplayed (d : Dev) (dest : CtDesc) : Option (CtDesc × List Byte × Dev) :=
  let at_ := fun (t : CtDesc) => (t.base, t.placement, t.cluster0, t.alloc, t.pclass)
  let desc := fun (p : List Byte) => CtDesc.parse ((p.drop 64).take 64)
  let mine := fun (p : List Byte) =>
    leNat (p.take 1) = 5 && leNat ((p.drop 24).take 8) = d.frameNumber && at_ (desc p) = at_ dest
  (d.tick.replayInputs.find? mine).map fun p =>
    (desc p, p.drop 128, d.modTick fun t => { t with replayInputs := t.replayInputs.erase p })

/-- SHARE_IN has been called for a part: the slot is released when it has been called for every part, whatever the call's
outcome (07 R227). -/
def Dev.notePart (d : Dev) (slot part : Nat) : Dev :=
  match d.exchange slot with
  | none => d
  | some e =>
    let taken := (part :: e.taken).eraseDups
    if taken.length = (ExRec.parse e.record).outParts then d.releaseSlot slot else d.putExchange slot { e with taken := taken }

/-- Steps 1 to 7 of SHARE_IN on the slot's exchange (07 R222). No result comes back within the frame that sent it (01 R25). -/
def Dev.inChecks (d : Dev) (record part : Nat) (raw : List Byte) (placed : Bool) (dest : Operand) (e : Exchange)
    (level noise : Nat) : List Check :=
  let r := ExRec.parse raw
  let v := d.vals r.psetOut
  let got := (tfind e.arrived part).isSome
  [ ⟨placed && e.record = raw && e.deadline ≤ d.tickNumber && e.sendFrame ≠ d.frameNow && part < r.outParts, stBounds,
      record⟩,
    ⟨d.destForm dest e.logN 2, stBounds, dest.addr⟩,
    ⟨d.live r.psetOut ≠ none, stUncommitted, record⟩,
    ⟨v.scheme.toNat ≤ 1 && e.logN ≤ v.logNMax.toNat && r.levelOut ≤ v.l && (r.layoutOut ≠ 0x30 || v.scheme = 1) &&
      (!got || level = r.levelOut), stMismatch, record⟩,
    ⟨r.levelOut ≤ dest.desc.alloc, stBounds, dest.addr⟩,
    ⟨!got || noise + 16 ≤ v.log2Q r.levelOut, stBudget, dest.addr⟩ ]

/-- SHARE_IN: args RECORD, PART, DST (07 R222, R223). -/
def Dev.runShareIn (d : Dev) (core : Nat) (gang : List Nat) (args : List Nat) : Option Ran :=
  let who : Requester := .library gang
  let record := args.getD 0 0
  let part := args.getD 1 0
  let placed := d.recordPlaced record
  let (d, raw, bad) := if placed then d.fetch none record 64 else (d, zeroBytes 64, false)
  let placed := placed && !bad
  let (d, dest) := d.readOperand (args.getD 2 0)
  let r := ExRec.parse raw
  match d.exchange r.slot with
  | none => some (d.refused core who dest ⟨false, stBounds, record⟩)
  | some e =>
    let v := d.vals r.psetOut
    let (level, said, ps) := partOf e.logN ((tget e.arrived part (0, [])).2)
    let noise := if r.outMode = 1 then said
      else sat16 (max said (ceilDiv r.scaleOut (2 ^ 20) + 16 * (r.rangeOut + 41)) + 16)
    let called := fun (d : Dev) =>
      if placed && e.record = raw && part < r.outParts then d.notePart r.slot part else d
    match firstFailed (d.inChecks record part raw placed dest e level noise) with
    | some c => some ((called d).refused core who dest c)
    | none =>
      let objs := [(dest.addr, ({ dest.desc with logN := e.logN }).banks 2 r.levelOut ++ banksOf [(dest.addr, 64)]),
        (record, banksOf [(record, 64)])]
      let banks := (objs.flatMap (·.2)).eraseDups
      match d.banksOwned who banks with
      | none => none
      | some false => some ((called d).refused core who dest ⟨false, stNotOwner, d.firstUnowned who objs dest.addr⟩)
      | some true =>
        let ends := fun (d : Dev) (res : CtDesc) (poison : Bool) (out : Polys) =>
          some (Ran.mk (called d) (doneStatus poison)
            { units := { dest.desc with level := res.level, logN := res.logN, ntt := res.ntt }.units out, also := [],
              work := [], dest := some (dest.completion res poison), poisonIn := false } banks false)
        match if d.replaying then d.takeReplayed dest.desc else none with
        | some (t, limbs, d) =>
          -- replay: the logged descriptor and limbs (07 R236)
          let b := limbBytes t.logN
          ends d t t.poison ((List.range 2).map fun p => (List.range t.level).map fun i =>
            unpackWords ((limbs.drop ((p * t.level + i) * b)).take b))
        | none =>
          if e.state = .complete then
            let slots := slotsOf r.layoutOut e.logN
            let frac := if v.scheme = 1 then 0 else r.frac
            let tag := (d.session e.session).elim 0 (·.tag.toNat)
            let res := { CtDesc.parse [] with
              tag := tag, pset := r.psetOut, logN := e.logN, kind := 0, polys := 2, level := r.levelOut,
              layout := r.layoutOut, ntt := true, noise := noise, scale := r.scaleOut }
            let masks := (List.range slots).map fun k =>
              -(maskOf e.sigma (r.rounds + 1) (part * slots + k) (r.rangeOut + r.frac + 40))
            ends d res false (canonPolys v <| if r.outMode = 1 then ps
              else match ps with
                | c0 :: rest => addCoeffs v e.logN (maskPoly v e.logN r.layoutOut r.scaleOut frac masks) c0 :: rest
                | [] => [])
          else some ((called d).refused core who dest
            ⟨false, if e.state = .failedOther then stAborted else stPeerFail, record⟩)

/-- A SHARE_IN that has completed is logged: the destination's descriptor, then its limbs, c0 before c1 (07 R236). -/
def Dev.logShareIn (d : Dev) (addr : Nat) : Dev :=
  let t := CtDesc.parse (d.rd addr 64)
  let limbs := (List.range t.polys).flatMap fun p => (List.range t.level).flatMap fun i =>
    packWords ((d.readLimb t p i).2.1)
  let (w, d) := d.drawWord
  d.logAppend 0x05 w.toNat d.frameNumber (d.rd addr 64 ++ limbs)

/-- Stated cycles of a share-mode call (07 R219, R223). -/
def Dev.shareCost (d : Dev) (record : Nat) (isIn : Bool) (src : CtDesc) : Nat :=
  let r := ExRec.parse (d.rd record 64)
  match d.exchange r.slot with
  | some e => if isIn then costShare 2 r.levelOut e.logN else costShare src.polys src.level src.logN
  | none => costShare src.polys src.level src.logN

end Sys2Proof.Machine
end

