-- ==== Sys2Proof/Machine/Calls.lean ====
section
/-! DEFINITION. Library calls: the argument block, the rendezvous of the gangs, running a routine, abort and return; and
the program fault that stops a core (04 R111, R112, R128, 08 R280-R284, 09 R286-R303). -/

namespace Sys2Proof.Machine

/-! ### The argument block (09 R286, R287) -/

/-- Argument words 0 to 6 of a core's block. -/
def Dev.argWords (d : Dev) (core off : Nat) : List Word :=
  (List.range 7).map fun k => BitVec.ofNat 64 (d.rdLe (coreAddr core (off + 8 + 8 * k)) 8)

/-- Addresses occupy bits [47:0] (09 R287). -/
def argAddr (w : Word) : Nat := w.toNat % 2 ^ 48

/-- Argument words as numbers; the words a routine reads as addresses are cut to 48 bits. -/
def argsOf (routine : Nat) (ws : List Word) : List Nat :=
  let addrs : List Nat := match routine with
    | 0x017 => [0, 1]
    | 0x021 => [0, 1]
    | 0x030 => [0, 1, 3]
    | 0x031 => [0, 1, 4]
    | 0x032 => [0, 1, 3]
    | 0x033 => [0, 1, 3]
    | 0x040 => [0, 1, 2, 5]
    | 0x041 => [0, 6]
    | 0x050 => [0]
    | 0x051 => [0, 1]
    | 0x052 => [0, 1, 4]
    | 0x060 => [0, 2]
    | 0x061 => [0, 2]
    | _ => [0, 1, 2, 3, 4, 5, 6]
  ws.zipIdx.map fun w => if addrs.contains w.2 then argAddr w.1 else w.1.toNat

/-- The key channel that a routine names. -/
def channelArg (routine : Nat) (a : List Nat) : Option Nat :=
  match routine with
  | 0x030 => some (a.getD 2 0)
  | 0x031 => some (a.getD 3 0)
  | 0x032 => some (a.getD 2 0)
  | 0x033 => some (a.getD 2 0)
  | 0x040 => some (a.getD 4 0)
  | 0x041 => some (a.getD 5 0)
  | 0x050 => some (a.getD 3 0)
  | 0x051 => some (a.getD 3 0)
  | 0x052 => some (a.getD 3 0)
  | _ => none

/-- The descriptors that a plan of the plain and key-switching routines names, destination first (09 R292). -/
def operandArgs (routine : Nat) : List Nat :=
  match routine with
  | 0x001 => [0, 1]
  | 0x002 => [0, 1]
  | 0x010 => [0, 1, 2]
  | 0x011 => [0, 1, 2]
  | 0x012 => [0, 1]
  | 0x013 => [0, 1, 2]
  | 0x014 => [0, 1, 2]
  | 0x015 => [0, 1, 2]
  | 0x016 => [0, 1, 2, 3]
  | 0x017 => [0, 1]
  | 0x020 => [0, 1]
  | 0x021 => [0, 1]
  | 0x030 => [0, 1]
  | 0x031 => [0, 1]
  | 0x032 => [0, 1]
  | 0x033 => [0, 1]
  | _ => []

/-- A ROM routine number (09 R292). -/
def romRoutine (r : Nat) : Bool :=
  (operandArgs r ≠ []) || [0x040, 0x041, 0x050, 0x051, 0x052, 0x060, 0x061].contains r

/-- The plan of a plain or key-switching routine on its operands. -/
def Dev.planOf (d : Dev) (routine : Nat) (a : List Nat) (s : KeyStream) (gang : List Nat) (o : List Operand) :
    Option Plan :=
  match routine, o with
  | 0x001, [x, y] => some (d.nttPlan x y true)
  | 0x002, [x, y] => some (d.nttPlan x y false)
  | 0x010, [x, y, z] => some (d.addPlan x y z false)
  | 0x011, [x, y, z] => some (d.addPlan x y z true)
  | 0x012, [x, y] => some (d.negPlan x y)
  | 0x013, [x, y, z] => some (d.addPlainPlan x y z)
  | 0x014, [x, y, z] => some (d.mulPlainPlan x y z)
  | 0x015, [x, y, z] => some (d.mulPlan x y z)
  | 0x016, [x, y, z, w] => some (d.axpyPlan x y z w)
  | 0x017, [x, y] => some (d.dropPlan x y (a.getD 2 0))
  | 0x020, [x, y] => some (d.rescalePlan x y)
  | 0x021, [x, y] => some (d.bconvPlan x y (a.getD 2 0) (a.getD 3 0))
  | 0x030, [x, y] => some (d.switchPlan x y s [0x02] none [0, 1] none 0 true (a.getD 3 0) gang)
  | 0x031, [x, y] =>
    let r := a.getD 2 0
    some (d.switchPlan x y s [0x03] (some r) [0, 1] (some (powMod 5 r (2 ^ (y.desc.logN + 1)))) 1 false (a.getD 4 0) gang)
  | 0x032, [x, y] =>
    some (d.switchPlan x y s [0x04] none [0, 1] (some (2 ^ (y.desc.logN + 1) - 1)) 2 false (a.getD 3 0) gang)
  | 0x033, [x, y] => some (d.switchPlan x y s [0x10, 0x13] none [0] none 0 false (a.getD 3 0) gang)
  | _, _ => none

/-! ### The descriptors of a call, and what their banks say (10 R318-R320, R332; log entry 89) -/

/-- The work list that a routine names. -/
def workArg (routine : Nat) (a : List Nat) : Option Nat :=
  match routine with
  | 0x030 => some (a.getD 3 0)
  | 0x031 => some (a.getD 4 0)
  | 0x032 => some (a.getD 3 0)
  | 0x033 => some (a.getD 3 0)
  | 0x040 => some (a.getD 5 0)
  | 0x041 => some (a.getD 6 0)
  | 0x052 => some (a.getD 4 0)
  | _ => none

/-- Addresses 64 bytes apart. -/
def descRun (a n : Nat) : List Nat := (List.range n).map fun i => a + 64 * i

/-- The 64-byte records that a call's arguments name. -/
def callObjects (routine : Nat) (a : List Nat) : List Nat :=
  (match routine with
   | 0x040 => [a.getD 0 0, a.getD 1 0] ++ descRun (a.getD 2 0) (2 ^ min (max (a.getD 3 0) 1) 8)
   | 0x041 => [a.getD 0 0]
   | 0x050 => [a.getD 0 0]
   | 0x051 => [a.getD 1 0]
   | 0x052 => a.getD 0 0 :: descRun (a.getD 1 0) (max 1 (min (a.getD 2 0) 64))
   | 0x060 => [a.getD 0 0, a.getD 2 0]
   | 0x061 => [a.getD 0 0, a.getD 2 0]
   | _ => if romRoutine routine then (operandArgs routine).map fun i => a.getD i 0 else [a.getD 0 0]) ++
    (workArg routine a).toList

/-- The records that those records name in turn. -/
def Dev.callObjects2 (d : Dev) (routine : Nat) (a : List Nat) : List Nat :=
  match routine with
  | 0x040 => d.workDescs (a.getD 5 0) (evalWorks (min (max (a.getD 3 0) 1) 8))
  | 0x041 => d.workDescs (a.getD 6 0) 7
  | 0x050 => [(Batch.parse (d.rd (a.getD 0 0) 64)).source]
  | _ => []

/-- A library call of some gang. -/
def anyLibrary : Requester := .library (List.range 256)

/-- What a requester finds at all the records of a call (`descAccess`). -/
def Dev.callAccess (d : Dev) (who : Requester) (routine : Nat) (a : List Nat) : Option (Option Nat) :=
  match d.descAccess who (callObjects routine a) with
  | some none => d.descAccess who (d.callObjects2 routine a)
  | r => r

/-- An operand as memory shows it, before any access: the rendezvous reads descriptors only to know the gang. One in a bank
that admits no library call names no cluster. -/
def Dev.peekOperand (d : Dev) (a : Nat) : Operand :=
  { addr := a, placed := true, desc := CtDesc.parse (if d.descAccess anyLibrary [a] = some none then d.rd a 64 else []) }

/-- The header that a routine's channel has delivered; none: it is not there yet. -/
def Dev.headerFor (d : Dev) (routine : Nat) (a : List Nat) : Option KeyStream :=
  match channelArg routine a with
  | none => some noKey
  | some k => if 7 < k then some noKey else (d.channel k).stream.filter fun s => s.delivered && s.attached ≠ []

/-- BOOT_STEP runs at least one key switch, and ModRaise is among its steps. -/
def bootNeeds (a : List Nat) : Bool × Bool :=
  (!(a.getD 1 0 ≠ 2 && a.getD 3 0 ≤ 1), a.getD 1 0 ≠ 2 && a.getD 2 0 = 0)

/-- The routine takes a stream from a channel that exists. -/
def takesStream (routine : Nat) (a : List Nat) : Option Nat :=
  if routine = 0x041 ∧ !(bootNeeds a).1 then none else (channelArg routine a).filter (· ≤ 7)

/-- The clusters that a call's scratchpad placements name (09 R288, 04 R114, R117): positions below the level in use, and
the special positions of a key switch. None: the call still waits for the stream header that gives K, or for a bank. -/
def Dev.namedClusters (d : Dev) (routine : Nat) (a : List Nat) (cluster : Nat) : Option (List Nat) :=
  let named := fun (cs : List Nat) => if cs = [] then [cluster] else cs.eraseDups
  let header := if routine = 0x041 ∧ !(bootNeeds a).1 then some noKey else d.headerFor routine a
  if d.callAccess anyLibrary routine a = none then none
  else match header with
  | none => none
  | some s =>
    let k := s.hdr.specialK
    match routine with
    | 0x040 =>
      let x := (d.peekOperand (a.getD 1 0)).desc
      let y := (d.peekOperand (a.getD 0 0)).desc
      some (named (x.gang x.logN x.level k ++ y.gang x.logN (x.level - a.getD 3 0) 0))
    | 0x041 =>
      let x := (d.peekOperand (a.getD 0 0)).desc
      let top := if (bootNeeds a).2 then max x.level (d.vals x.pset).l else x.level
      some (named (x.gang x.logN top k))
    | 0x050 =>
      some (unitClusters (Batch.parse (d.rd (a.getD 0 0) 64)).unit)
    | 0x051 => some (if a.getD 2 0 < 16 then unitClusters (a.getD 2 0) else [cluster])
    | 0x052 =>
      let y := (d.peekOperand (a.getD 0 0)).desc
      let ins := (descRun (a.getD 1 0) (max 1 (min (a.getD 2 0) 64))).flatMap fun i => (d.peekOperand i).desc.gang 12 1 0
      some (named (y.gang s.hdr.logN 1 k ++ ins))
    | 0x060 =>
      let x := (d.peekOperand (a.getD 2 0)).desc
      some (named (x.gang x.logN x.level 0))
    | 0x061 =>
      let r := ExRec.parse (d.rd (a.getD 0 0) 64)
      let y := (d.peekOperand (a.getD 2 0)).desc
      some (named (y.gang ((d.exchange r.slot).elim 12 (·.logN)) r.levelOut 0))
    | _ =>
      let os := (operandArgs routine).map fun i => d.peekOperand (a.getD i 0)
      match d.planOf routine a s [] os with
      | some p =>
        some (named (p.chk.inputs.flatMap (fun i => i.desc.gang i.desc.logN (min i.desc.level p.readLevel)
          (if (channelArg routine a).isSome then k else 0)) ++
          p.chk.dest.desc.gang p.chk.result.logN p.chk.result.level 0))
      | none =>
        let x := (d.peekOperand (a.getD 0 0)).desc
        some (named (x.gang x.logN x.level 0))

/-! ### Running a call -/

/-- Where a routine's arguments name its destination. -/
def destArg (routine : Nat) : Option Nat :=
  match routine with
  | 0x051 => some 1
  | 0x060 => none
  | 0x061 => some 2
  | _ => some 0

/-- Refuse a call on what its arguments name: the destination is a ciphertext descriptor, a batch descriptor, or none. -/
def Dev.refuseCall (d : Dev) (core : Nat) (who : Requester) (routine : Nat) (a : List Nat) (c : Check) : Ran :=
  match destArg routine with
  | none =>
    let r := d.refuseBare core c
    ⟨r.1, r.2, .nothing, [], true⟩
  | some i =>
    let addr := a.getD i 0
    let readable := d.recordPlaced addr && d.descAccess who [addr] = some none
    if routine = 0x050 then
      let (d, bs, bad) := if readable then d.fetch none addr 64 else (d, [], true)
      let r := d.refuseBatch core who addr (!bad) (Batch.parse bs) c
      ⟨r.1, r.2, .nothing, [], true⟩
    else if readable then
      let r := d.readOperand addr
      r.1.refused core who r.2 c
    else d.refused core who ⟨addr, CtDesc.parse [], false⟩ c

/-- An extension's declared cost for a call (09 R302). -/
def Dev.extCost (d : Dev) (routine : Nat) (t : CtDesc) : Nat :=
  match d.lib.inService.bind fun x => x.routines.find? fun r => r.number = routine with
  | some r =>
    let c := r.costs.getD (t.logN - 12) (0, 0)
    c.1 + c.2 * t.level * t.polys
  | none => 0

/-- An extension routine: what its code computes is in no rule. It makes the order of checks on its first descriptor argument,
its destination in place, which lies where an extension reaches; then the words, NOISE and SCALE it writes are open values
that its code and its inputs settle (09 R301, 15 R471; log entry 18). -/
def Dev.runExtension (d : Dev) (core : Nat) (gang : List Nat) (routine : Nat) (a : List Nat) : Option Ran :=
  let (d, o) := d.readOperand (a.getD 0 0)
  let t := o.desc
  let v := d.vals t.pset
  let code := ((d.lib.inService.map (·.code)).getD [])
  let inputs := fun (ws : Polys) => routine :: leNat code :: leNat (t.bytes) :: a ++ v.moduli.map (·.toNat) ++ ws.flatten.flatten
  let w := (Config.openWord (inputs (d.readPolys t t.level).2.1) 0).toNat
  let scale := bitsAt w 16 36
  let res := { t with
    noise := bitsAt w 0 16, scale := if v.scheme = 1 then scale % v.plainMod.toNat else scale % 2 ^ 32 }
  d.runPlan core gang
    { chk := { inputs := [o], dest := o, key := none, form := scratchForm [o], requires := [], consumes := 0, result := res,
               banks := [], inPlace := true },
      readLevel := t.level, stated := 0, descOnly := false, workAddr := o.addr, work := fun _ => [],
      run := fun ins => openPolys (1 :: inputs (ins.getD 0 [])) v t.logN t.level t.polys }

/-- What a call leaves when it has run as far as it can: its end, or what it holds while it waits. -/
structure CallRun where
  dev : Dev
  phase : CallPhase
  begun : Bool
  progress : Option Nat
  keys : List KeyStream
  effect : Effect
  held : List (Nat × Nat)

def CallRun.waits (d : Dev) : CallRun := ⟨d, .waiting, false, none, [], .nothing, []⟩

def CallRun.ofRan (r : Ran) (progress : Option Nat) (keys : List KeyStream) : CallRun :=
  ⟨r.dev, .ended r.status !r.refused, true, progress, keys, r.effect, r.held⟩

def CallRun.ofOption (d : Dev) (r : Option Ran) : CallRun :=
  match r with
  | none => .waits d
  | some r => .ofRan r none []

def CallRun.ofStaged (r : Staged) : CallRun :=
  match r with
  | .waits d begun keys e held => ⟨d, .waiting, begun, none, keys, e, held⟩
  | .ends r progress keys => .ofRan r (some progress) keys

/-- Stated cycles of a call on the stream and keys it takes (04 R133, 05 R164, 06 R170, R182, R186, 07 R219, 09 R297, R302). -/
def Dev.callCost (d : Dev) (routine : Nat) (a : List Nat) (gang : List Nat) (s : KeyStream) (keys : List KeyStream) : Nat :=
  match routine with
  | 0x040 =>
    let t := (d.peekOperand (a.getD 1 0)).desc
    evalCost (d.vals t.pset) t (min (max (a.getD 3 0) 1) 8) keys
  | 0x041 =>
    let t := (d.peekOperand (a.getD 0 0)).desc
    let v := d.vals t.pset
    let plan := a.getD 1 0
    let l := if plan = 2 then s2cStart t.logN t.level (a.getD 2 0) else v.l
    bootCost v t (((bootPlan plan t.logN l).drop (a.getD 2 0)).take (a.getD 3 0 - a.getD 2 0)) keys
  | 0x050 => costBr (a.getD 1 0) (a.getD 2 0)
  | 0x051 => 101600
  | 0x052 =>
    let y := { (d.peekOperand (a.getD 0 0)).desc with logN := s.hdr.logN, level := 1 }
    costKs (d.vals s.hdr.pset) y s.record.level.toNat 0 + 284 * ceilDiv (2 ^ s.hdr.logN) 8192
  | 0x060 => d.shareCost (a.getD 0 0) false (d.peekOperand (a.getD 2 0)).desc
  | 0x061 => d.shareCost (a.getD 0 0) true (d.peekOperand (a.getD 2 0)).desc
  | _ =>
    match d.planOf routine a s gang ((operandArgs routine).map fun i => d.peekOperand (a.getD i 0)) with
    | some p => p.stated
    | none => d.extCost routine (d.peekOperand (a.getD 0 0)).desc

/-- Run a call of a gang of clusters on the stream it holds (09 R292, R293). -/
def Dev.runCall (d : Dev) (gang : List Nat) (g : GangCall) (s : KeyStream) : CallRun :=
  let core := 16 * gang.foldl min 255
  let who : Requester := .library gang
  let a := argsOf g.routine g.args
  let ch := (channelArg g.routine a).getD 0
  match d.callAccess who g.routine a with
  | none => { CallRun.waits d with begun := g.stage ≠ 0, keys := g.keys, effect := g.effect, held := g.held }
  | some (some bad) =>
    let d := if (takesStream g.routine a).isSome then d.detach ch gang else d
    .ofRan (d.refuseCall core who g.routine a ⟨false, stNotOwner, bad⟩) none g.keys
  | some none =>
    match g.routine with
    | 0x040 => .ofStaged (d.runEval core gang a ch (g.stage ≠ 0) g.keys)
    | 0x041 => .ofStaged (d.runBoot core gang a ch g.progress.toNat (g.stage ≠ 0) g.keys)
    | 0x050 => .ofOption d (d.runBr core gang (a.getD 0 0) (a.getD 1 0) (a.getD 2 0) ch s)
    | 0x051 => .ofOption d (d.runPack core gang (a.getD 0 0) (a.getD 1 0) (a.getD 2 0) ch s)
    | 0x052 => .ofOption d (d.runRing core gang (a.getD 0 0) (a.getD 1 0) (a.getD 2 0) ch (a.getD 4 0) s)
    | 0x060 => .ofOption d (d.runShareOut core gang a)
    | 0x061 => .ofOption d (d.runShareIn core gang a)
    | _ =>
      let (d1, os) := d.readOperands ((operandArgs g.routine).map fun i => a.getD i 0)
      match d1.planOf g.routine a s gang os with
      | some p =>
        .ofOption d (if (channelArg g.routine a).isSome then d1.runKeyed core gang ch p else d1.runPlan core gang p)
      | none => .ofOption d (d.runExtension core gang g.routine a)

/-- A call that waits, with nothing run. -/
def GangCall.fresh : GangCall :=
  { routine := 0, args := [], mismatched := false, phase := .waiting, progress := 0, channel := none, clusters := [],
    joined := [], gathered := false, held := [], effect := .nothing, stage := 0, keys := [], link := .clean, stated := 0,
    issuedAt := 0 }

/-- Every cluster in which a call returns. -/
def GangCall.everywhere (g : GangCall) : List Nat := (g.clusters ++ g.joined).eraseDups

/-- Change the calls of some clusters. -/
def Dev.modCalls (d : Dev) (cs : List Nat) (f : GangCall → GangCall) : Dev :=
  cs.foldl (fun d c => d.modCluster c fun x => { x with call := x.call.map f }) d

/-! ### Rendezvous: whose calls meet (04 R112, R128, 09 R288) -/

/-- The call of a cluster that waits for its partners. -/
def Dev.issuedCall (d : Dev) (c : Nat) : Option GangCall :=
  ((d.cluster c).call).filter fun g => g.phase = .waiting && !g.gathered

/-- The clusters that a cluster's own waiting call names. -/
def Dev.namesOf (d : Dev) (c : Nat) : Option (List Nat) :=
  (d.issuedCall c).bind fun g => d.namedClusters g.routine (argsOf g.routine g.args) c

/-- The clusters to which a waiting call's gang sends its digest: those it names, once all of them have issued. -/
def Dev.digestTo (d : Dev) (c : Nat) : Option (List Nat) :=
  (d.namesOf c).filter fun ns => ns.all fun k => (d.issuedCall k).isSome

/-- Add to some clusters those that send them a digest, with those they name, `n` times over. -/
def Dev.meet (d : Dev) (n : Nat) (cs : List Nat) : List Nat :=
  match n with
  | 0 => cs
  | k + 1 =>
    let more := (List.range 256).flatMap fun c =>
      match d.digestTo c with
      | some ns => if cs.contains c ∨ ns.any cs.contains then c :: ns else []
      | none => []
    if more.all cs.contains then cs else d.meet k (cs ++ more).eraseDups

/-- The clusters whose gangs meet in the call of cluster `c`; none: a cluster that it names has not issued. -/
def Dev.gangOf (d : Dev) (c : Nat) : Option (List Nat) := (d.digestTo c).map fun ns => d.meet 256 (c :: ns).eraseDups

/-- Two calls have the same digest. -/
def GangCall.sameAs (g h : GangCall) : Bool := g.routine = h.routine && g.args = h.args && !g.mismatched && !h.mismatched

/-! ### Abort (03 R100-R102, 06 R191, 08 R284, 09 R290) -/

/-- The call has passed its checks and has not ended otherwise. -/
def GangCall.ran (g : GangCall) : Bool :=
  match g.phase with
  | .ended _ w => w
  | .waiting => decide (g.stage ≠ 0)

/-- The call has been aborted. -/
def GangCall.aborted (g : GangCall) : Bool :=
  match g.phase with
  | .ended st _ => st = stAborted
  | .waiting => false

/-- What an abort leaves of a call that has passed its checks, with `v` units complete. An aborted Electrum call is recorded
under the unit's source (06 R191) unless the abort has a record of its own (06 R181). -/
def Dev.tearCall (d : Dev) (g : GangCall) (v : Nat) (recorded : Bool) : Dev :=
  let a := argsOf g.routine g.args
  if g.routine = 0x050 then
    let unit := (g.clusters.foldl min 255) / 16
    (if recorded then d else d.faultUc 0x09 unit (a.getD 0 0) 0 stAborted 0).abortBr g.effect
  else if g.routine = 0x051 then
    (if recorded then d else d.faultUc 0x09 (a.getD 2 0) (a.getD 1 0) 0 stAborted 0).abortEffect v g.effect
  else d.abortEffect v g.effect

/-- Mark a call aborted in every cluster that takes part. The banks stay held until the call returns (10 R322). -/
def Dev.markAborted (d : Dev) (cs : List Nat) : Dev :=
  d.modCalls cs fun g => { g with phase := .ended stAborted false, effect := .nothing }

/-- Abort a call that has been gathered, or waits alone. -/
def Dev.abortOne (d : Dev) (c : Nat) (units : Option Nat) (recorded : Bool) : Dev :=
  match (d.cluster c).call with
  | none => d
  | some g =>
    if g.aborted then d
    else
      let lead := g.clusters.foldl min c
      let full := ((d.cluster lead).call).getD g
      let (v, d) := match units with
        | some n => (n, d)
        | none => if g.ran then d.drawUnits full.effect.units.length else (0, d)
      (if g.ran then d.tearCall full v recorded else d).markAborted (c :: g.everywhere).eraseDups

/-- Waiting calls that have a cluster as partner, and the partners that its own call names (08 R284). -/
def Dev.partners (d : Dev) (c : Nat) : List Nat :=
  let mine := (((d.namesOf c).getD []).filter fun k => (d.issuedCall k).isSome)
  (mine ++ (List.range 256).filter fun k => ((d.namesOf k).getD []).contains c).eraseDups.filter (· ≠ c)

/-- Abort the call of a cluster's gang in every cluster that takes part, running or still waiting (08 R284). -/
def Dev.abortCall (d : Dev) (c : Nat) : Dev :=
  let ps := d.partners c
  ps.foldl (fun d k => d.abortOne k none false) (d.abortOne c none false)

/-- Abort what a core takes part in: the formed call of its cluster, or the calls that its cluster's cores have issued
and that wait for the rest, with the partners that wait for this cluster (08 R284). -/
def Dev.abortCoreCall (d : Dev) (core : Nat) : Dev :=
  let c := core / 16
  match (d.core core).call.filter (·.started) with
  | none => d
  | some k =>
    match (d.cluster c).call with
    | some _ => d.abortCall c
    | none =>
      (d.partners c).foldl (fun d k => d.abortOne k none false) (d.modCluster c fun x => { x with
        call := some { GangCall.fresh with routine := k.routine, phase := .ended stAborted false, clusters := [c],
                                           issuedAt := d.clock } })

/-! ### Program faults (08 R283, R284) -/

/-- Where a program stands after the instruction at `pc`, and its open loops: the last instruction of a body goes back while
runs are left (08 R278, R279). -/
def afterBody (pc size : Nat) (loops : List LoopFrame) : Nat × List LoopFrame :=
  match loops with
  | [] => (pc + size, [])
  | f :: r =>
    if pc ≠ f.last then (pc + size, f :: r)
    else if f.left = 0 then afterBody pc size r
    else (f.first, { f with left := f.left - 1, iter := f.iter + 1 } :: r)

/-- A stream instruction is done. -/
def ProgState.retire (p : ProgState) : ProgState :=
  let r := afterBody p.pc 8 p.loops
  { p with pc := r.1, loops := r.2, waits := [] }

def ProgState.halt (p : ProgState) : ProgState :=
  { p with run := if p.run = .retired then .retired else .stopped, waits := [], loops := [] }

/-- Bytes left in each queue, added to the count of discarded bytes (08 R248). -/
def Core.discard (c : Core) : Core :=
  { c with residue := (List.range 4).foldl (fun t q =>
             tset t q (tget t q 0 + (tget c.queues q DQueue.empty).bytes.length)) c.residue,
           queues := [] }

/-- Stop all three programs of a core for the rest of the frame (08 R284, R285). -/
def Dev.stopCore (d : Dev) (n : Nat) (why : CoreStop) : Dev :=
  (d.modCore n fun c =>
    { c.discard with tin := c.tin.halt, acc := c.acc.halt, exe := c.exe.halt, stop := some why, atYield := false,
                     call := c.call.filter (·.started) }).modFrame
    fun f => { f with coresStopped := f.coresStopped + 1 }

def streamCode (p : Program) : BitVec 2 :=
  match p with
  | .tin => 0
  | .access => 1
  | .execute => 2

/-- A program fault: the core's calls abort, its programs stop, and one fault is recorded (08 R284). -/
def Dev.programFault (d : Dev) (n : Nat) (p : Program) (reason : BitVec 8) (pc : Nat) : Dev :=
  let c := d.core n
  if c.stop ≠ none then d
  else
    let off := 0x10000 + (if c.half then 0x4000 else 0) + pc % 0x4000
    (((d.abortCoreCall n).stopCore n { state := 2, reason := reason, stream := streamCode p, pc := pc }).bump 0x3001 2
      1).faultUc 0x02 n (coreAddr n off) reason 0 (streamCode p).toNat

def Core.prog (c : Core) (p : Program) : ProgState :=
  match p with
  | .tin => c.tin
  | .access => c.acc
  | .execute => c.exe

/-- A program counter outside the half or misaligned is a program fault (08 R283). -/
def Dev.checkPc (d : Dev) (n : Nat) (p : Program) : Dev :=
  let pc := ((d.core n).prog p).pc
  let size := match p with | .tin => 4 | _ => 8
  if 0x4000 < pc + size ∨ pc % size ≠ 0 then d.programFault n p 0x04 pc else d

/-! ### Rendezvous: the call runs (04 R112, R128, 09 R288) -/

/-- The first of some link events that is not clean. -/
def firstLink (ls : List LinkEvent) : LinkEvent := (ls.find? fun l => l ≠ .clean).getD .clean

/-- The calls of all 16 cores of a cluster have started: the cluster's call, from the block of its lowest-numbered core.
BOOT_STEP takes PROGRESS from the block (09 R295). -/
def Dev.formCall (d : Dev) (c : Nat) : Dev :=
  let calls := (List.range 16).map fun k => (d.core (16 * c + k)).call.filter (·.started)
  let link := firstLink (calls.filterMap fun o => o.map (·.link))
  if (d.cluster c).call = none && calls.all (·.isSome) then
    match calls.headD none with
    | none => d
    | some k =>
      let mixed := calls.any fun o => o.map (·.routine) ≠ some k.routine
      let said := if k.routine = 0x041 then bitsAt (d.rdLe (coreAddr (16 * c) k.args) 8) 16 16 else 0
      d.modCluster c fun x => { x with
        call := some { GangCall.fresh with routine := k.routine, args := d.argWords (16 * c) k.args, mismatched := mixed,
                                           progress := BitVec.ofNat 16 said, clusters := [c], link := link,
                                           issuedAt := d.clock } }
  else d

/-- Every gang has issued: the cost counts from here (04 R133). -/
def Dev.gather (d : Dev) (named joined : List Nat) : Dev :=
  let all := (named ++ joined).eraseDups
  let link := firstLink (all.filterMap fun k => (d.issuedCall k).map (·.link))
  d.modCalls all fun g => { g with clusters := named, joined := joined, gathered := true, link := link, issuedAt := d.clock }

/-- Set the calls of a gang after a run; the first cluster keeps what the call writes when it ends. -/
def Dev.putCalls (d : Dev) (g : GangCall) (r : CallRun) (s : KeyStream) : Dev :=
  let a := argsOf g.routine g.args
  let lead := g.clusters.foldl min 255
  let stated := d.callCost g.routine a g.clusters s r.keys
  g.everywhere.foldl (fun d c => d.modCluster c fun x => { x with call := x.call.map fun h =>
    { h with phase := r.phase, stage := if r.begun then 1 else 0, keys := r.keys, stated := stated,
             progress := (r.progress.map (BitVec.ofNat 16)).getD h.progress, channel := takesStream g.routine a,
             held := r.held.filter fun b => b.1 = c, effect := if c = lead then r.effect else .nothing } }) r.dev

/-- A mismatched gang refuses at step 1, after the stated cost: each different call writes its own destination, each
cluster's refusal names its argument block, and each detaches from the stream it names (03 R93, 05 R160, 08 R282, 09
R288). -/
def Dev.refuseGang (d : Dev) (gang : List Nat) : Dev :=
  let calls := gang.filterMap fun c => (d.issuedCall c).map fun g => (c, g)
  let firsts := calls.filter fun x => calls.all fun y => !(y.2.args = x.2.args && y.2.routine = x.2.routine) || x.1 ≤ y.1
  let d := firsts.foldl (fun d x =>
    let block := coreAddr (16 * x.1) (((d.core (16 * x.1)).call.map (·.args)).getD 0)
    (d.refuseCall (16 * x.1) (.library gang) x.2.routine (argsOf x.2.routine x.2.args) ⟨false, stBounds, block⟩).dev) d
  calls.foldl (fun d x =>
    let a := argsOf x.2.routine x.2.args
    let d := match takesStream x.2.routine a with
      | some k => d.detach k [x.1]
      | none => d
    let cost := d.callCost x.2.routine a [x.1] (((takesStream x.2.routine a).bind fun k => (d.channel k).stream).getD noKey) []
    d.modCalls [x.1] fun g => { g with
      phase := .ended stBounds false, clusters := [x.1], gathered := true, stated := cost, issuedAt := d.clock }) d

/-- What the links did to a call that has passed its checks, once: resent flits are corrected faults; a failed transfer is
recorded and aborts the call (04 R125, R126). -/
def Dev.linkOutcome (d : Dev) (lead : Nat) : Dev :=
  match (d.cluster lead).call with
  | none => d
  | some g =>
    if !g.ran then d
    else
      let d := d.modCalls g.everywhere fun h => { h with link := .clean }
      match g.link with
      | .clean => d
      | .resent src dst flits => (List.range flits).foldl (fun d _ => d.faultCorr 0x07 src 0 dst) d
      | .failed src dst units => (d.faultUc 0x07 src 0 0 stAborted dst).abortOne lead (some units) false

/-- Let a gathered call go as far as it can; its first cluster leads. A key stream is taken when it has reached every port of
the named gang. -/
def Dev.runGang (d : Dev) (lead : Nat) : Dev :=
  match (d.cluster lead).call with
  | none => d
  | some g =>
    if !g.gathered ∨ g.phase ≠ .waiting then d
    else
      let go := fun (s : KeyStream) =>
        let r := d.runCall g.clusters g s
        (d.putCalls g r s).linkOutcome lead
      if g.stage ≠ 0 then go (g.keys.headD noKey)
      else match takesStream g.routine (argsOf g.routine g.args) with
        | none => go noKey
        | some k =>
          match d.streamFor k g.clusters with
          | none => d
          | some s => go s

/-- A cluster that issues the call of a gang already under way, which names it not, joins that gang (09 R288). -/
def Dev.joinLate (d : Dev) (c : Nat) (g : GangCall) : Dev :=
  match ((d.namesOf c).getD []).find? fun k => ((d.cluster k).call.any fun h => h.gathered && h.sameAs g) with
  | none => d
  | some k =>
    match (d.cluster k).call with
    | none => d
    | some h =>
      let d := d.modCalls h.everywhere fun x => { x with joined := x.joined ++ [c] }
      d.modCalls [c] fun _ => { h with
        joined := h.joined ++ [c], effect := .nothing, held := [], link := .clean, issuedAt := d.clock }

/-- Let the call of one cluster go as far as it can. -/
def Dev.tryCall (d : Dev) (c : Nat) : Dev :=
  match (d.cluster c).call with
  | none => d
  | some g =>
    if g.gathered then (if g.clusters.foldl min 255 = c then d.runGang c else d)
    else
      match d.gangOf c with
      | none => d.joinLate c g
      | some met =>
        if met.all fun k => (d.issuedCall k).any fun h => h.sameAs g then
          let named := (d.namesOf c).getD [c]
          (d.gather named (met.filter fun k => !named.contains k)).runGang (named.foldl min 255)
        else d.refuseGang met

/-- Let every waiting call go as far as it can. -/
def Dev.tryCalls (d : Dev) : Dev := (List.range 256).foldl (fun d c => d.tryCall c) d

/-! ### Return (09 R289, R290, R302, 08 R281) -/

/-- Add one to an event; none when its count stands at 15 (08 R255, R256). -/
def Core.signal? (c : Core) (e : Nat) : Option Core :=
  let n := tget c.events e 0
  if n = 15 then none else some { c with events := tset c.events e (n + 1) }

/-- Free contents for v0 to v7 of both slices after a call (08 R281). -/
def Dev.freeVectors (d : Dev) (n : Nat) : Dev :=
  { d.modCore n fun c => { c with vregs := (List.range 16).foldl (fun t r =>
      tset t r ((List.range 64).map fun i => BitVec.ofNat 36 (Config.freeWord (d.draw + 64 * r + i)).toNat)) c.vregs } with
    draw := d.draw + 1024 }

/-- One core's part of a return: its header word, its event, and its next instruction. Reserved bits of the header are
written as zero (00 R5). -/
def Dev.returnCore (d : Dev) (g : GangCall) (status : BitVec 8) (n : Nat) : Dev :=
  match (d.core n).call with
  | none => d
  | some k =>
    let cycles := max (d.clock - g.issuedAt) g.stated
    let at_ := coreAddr n k.args
    let old := d.rdLe at_ 8
    let d := d.wr at_ (mkRecord 8 [(0, 8, status.toNat), (8, 5, bitsAt old 8 5),
      (16, 16, if g.routine = 0x041 then g.progress.toNat else 0), (32, 32, min cycles 0xFFFFFFFF)])
    let d := d.modCore n fun c => { c with call := none, busy := c.busy + cycles }
    let c := d.core n
    if c.exe.run ≠ .running then d
    else
      let call := c.exe.pc
      let d := (d.modCore n fun c => { c with
        exe := c.exe.retire, acc := if c.atYield then c.acc.retire else c.acc, atYield := false }).freeVectors n
      let d := if c.atYield then d.checkPc n .access else d
      let d := d.checkPc n .execute
      if old.testBit 8 then
        match (d.core n).signal? (bitsAt old 9 4) with
        | some c => d.setCore n c
        | none => d.programFault n .execute 0x07 call
      else d

/-- The stream of a call that has asked for data has begun to deliver, or is gone. -/
def Dev.streamServed (d : Dev) (g : GangCall) : Bool :=
  match g.phase, g.channel with
  | .ended st true, some k =>
    st = stAborted || (match (d.channel k).stream with
      | some s => s.dataPhase || !(g.clusters.any fun c => s.requested.contains c)
      | none => true)
  | _, _ => true

/-- A bank that a call holds and that no longer admits its deliveries (10 R320, R332). -/
def Dev.deliveryProblem (d : Dev) (who : Requester) (held : List (Nat × Nat)) : Option Problem :=
  held.findSome? fun b => (d.bankProblem who .write b.1 (b.2 * 0x20000) (clusterAddr b.1 (b.2 * 0x20000))).filter (· ≠ .wait)

/-- The end of a call that has passed its checks: its writes, once; a delivery of the limb exchange that a bank refuses is a
failed transfer (04 R126, 10 R320). A completed SHARE_IN is logged. -/
def Dev.endCallAs (d : Dev) (lead : Nat) (g : GangCall) (status : BitVec 8) : Dev × BitVec 8 :=
  let held := g.everywhere.flatMap fun k => ((d.cluster k).call.map (·.held)).getD []
  match d.deliveryProblem (.limb g.clusters) held with
  | some p =>
    (((d.noteProblem (.limb g.clusters) .write p).faultUc 0x07 lead 0 0 stAborted lead).abortOne lead none false, stAborted)
  | none =>
    let (d, st) := d.finishEffect g.effect status
    match g.routine, g.effect.dest with
    | 0x061, some (a, _) => (d.logShareIn a, st)
    | _, _ => (d, st)

/-- A call whose words reached the banks by the network port as well as the processor port: how many of its own reads met a
write of their granule is free, up to one for each granule (10 R313, R314; log entry 99). -/
def Dev.callBusy (d : Dev) (g : GangCall) : Dev :=
  if g.clusters.length = 1 ∧ g.keys = [] then d
  else
    let n := (g.effect.units.flatten.map fun p => (granules p.1 p.2.length).length).foldl (· + ·) 0
    g.clusters.foldl (fun d k =>
      let (w, d) := d.drawWord
      d.bump (0x3100 + k) 0x0E (w.toNat % (n + 1))) d

def Dev.endCall (d : Dev) (lead : Nat) (g : GangCall) (status : BitVec 8) : Dev × BitVec 8 :=
  (d.callBusy g).endCallAs lead g status

/-- A finished call returns in every cluster of its gang; a cluster in block reset has no header written (09 R290). -/
def Dev.returnCall (d : Dev) (c : Nat) : Dev :=
  match (d.cluster c).call with
  | none => d
  | some g =>
    match g.phase with
    | .waiting => d
    | .ended status wrote =>
      if !d.streamServed g then d
      else
        let lead := g.clusters.foldl min c
        let gang := (c :: g.everywhere).eraseDups
        let full := ((d.cluster lead).call).getD g
        let (d, status) := if wrote then d.endCall lead full status else (d, status)
        let late := d.clock - g.issuedAt > g.stated && 0x200 ≤ g.routine && wrote && status ≠ stAborted
        let d := if late then d.bump 0xA300 5 1 else d
        let d := (gang.filter fun k => !d.faults.holds (.cluster k)).foldl (fun d k =>
          (List.range 16).foldl (fun d i => d.returnCore g status (16 * k + i)) d) d
        gang.foldl (fun d k => d.modCluster k fun x => { x with call := none }) d

/-- CALL_RETURN (09 R289). -/
def execCallReturn (cluster : Nat) (s : State) : Host.Outcome State Fault Refusal := s.onDev fun d => d.returnCall cluster

end Sys2Proof.Machine
end

