-- ==== Sys2Proof/Machine/Bronze.lean ====
section
/-! DEFINITION. The Bronze channels: opening a key stream, attaching its subscribers, its data phase, failure and close
(05 R150-R162, 06 R181). -/

namespace Sys2Proof.Machine

/-- Clusters that an open record names. -/
def OpenRec.clusters (r : OpenRec) : List Nat := (List.range 256).filter fun c => r.subscribers.getLsbD c

/-- The waiting stream of a channel that is read next. R153 gives no order among several that may be read: the lowest OPEN_AT,
ties in list order (DESIGN CHOICE, log entry 93). -/
def nextOpen (rs : List OpenRec) : Option OpenRec :=
  rs.foldl (fun best r => match best with
    | none => some r
    | some b => if r.openAt.toNat < b.openAt.toNat then some r else some b) none

/-- Take the first record equal to one out of a list. -/
def dropOpen (r : OpenRec) (rs : List OpenRec) : List OpenRec :=
  match rs with
  | [] => []
  | x :: t => if x = r then t else x :: dropOpen r t

/-- Record a failure of a channel's stream. -/
def Dev.chanFault (d : Dev) (k image : Nat) : Dev :=
  (((d.bump (0x5400 + k) 5 1).setReg (0x5400 + k) 1 3).faultUc 0x08 k image 0 0 0)

/-- STREAM_OPEN: read and check the header of the channel's next stream (05 R153, R154). -/
def Dev.openStream (d : Dev) (k : Nat) (ups : List Upset) : Dev :=
  let ch := d.channel k
  match nextOpen ch.waiting, ch.stream with
  | some r, none =>
    if !d.frameOpen ∨ d.faults.holds (.channel k) then d
    else
      let image := r.image.toNat
      let (d, bytes, bad) := if inStack image 128 then (d.addUpsets ups).fetch none image 128 else (d.addUpsets ups, [], true)
      let ok := !bad && d.headerOk (KeyHdr.parse bytes) image r.level.toNat
      let s : KeyStream := { record := r, header := if ok then some bytes else none, delivered := false, attached := [],
                             requested := [], dataPhase := false }
      let d := ((d.setChannel k { ch with waiting := dropOpen r ch.waiting, stream := some s }).setReg (0x5400 + k) 2 image).bump
        (0x5400 + k) 3 1
      if ok then d else d.chanFault k image
  | _, _ => d

def execStreamOpen (channel : Nat) (ups : List Upset) (s : State) : Host.Outcome State Fault Refusal :=
  s.onDev fun d => d.openStream channel ups

/-- Streams attached to a cluster's port (05 R155). -/
def Dev.attachedTo (d : Dev) (c : Nat) : Nat :=
  ((List.range 8).filter fun k => ((d.channel k).stream.map fun s => s.attached.contains c).getD false).length

/-- STREAM_ATTACH: attach to every named port in one cycle once all have room (05 R155). Clusters in block reset take no
part (05 R161). -/
def Dev.attachStream (d : Dev) (k : Nat) : Dev :=
  match (d.channel k).stream with
  | some s =>
    let named := s.record.clusters.filter fun c => !d.faults.holds (.cluster c)
    if s.delivered ∨ named.any (fun c => 2 ≤ d.attachedTo c) then d
    else
      (d.setChannel k { d.channel k with stream := some { s with attached := named, delivered := true } }).tryCalls
  | none => d

def execStreamAttach (channel : Nat) (s : State) : Host.Outcome State Fault Refusal :=
  s.onDev fun d => d.attachStream channel

/-- A stream fails and closes: what has requested its data aborts; who has not will find a failure mark, also where the
stream had not reached its ports (05 R162; log entry 22). -/
def Dev.failStream (d : Dev) (k : Nat) : Dev :=
  match (d.channel k).stream with
  | none => d
  | some s =>
    let ports := if s.delivered then s.attached else s.record.clusters.filter fun c => !d.faults.holds (.cluster c)
    let left := ports.filter fun c => !s.requested.contains c
    let mark := { s with header := none, delivered := true, attached := left, requested := [], dataPhase := false }
    let d := d.chanFault k s.record.image.toNat
    let x := d.channel k
    let d := d.setChannel k { x with stream := none, failed := if left = [] then x.failed else x.failed ++ [mark] }
    (s.requested.foldl (fun d c => d.abortCall c) d).tryCalls

/-- The range of steps that a cluster's ELEC_BR names. -/
def Dev.brRange (d : Dev) (c : Nat) : Option (Nat × Nat) :=
  ((d.cluster c).call).bind fun g => if g.routine = 0x050 then
    (let a := argsOf g.routine g.args; some (a.getD 1 0, a.getD 2 0)) else none

/-- The stored bytes that a data phase delivers, as ranges (05 R152, 06 R174, R181). -/
def KeyStream.body (s : KeyStream) (range : Nat × Nat) : List (Nat × Nat) :=
  let h := s.hdr
  let b := limbBytes h.logN
  let base := s.record.image.toNat + 256
  let l := s.record.level.toNat
  let alpha := ceilDiv h.chainL h.dnum
  if h.kind = 0x01 then [(base, l * b)]
  else if h.kind = 0x11 then [(base + range.1 * 8 * b, (range.2 - range.1) * 8 * b)]
  else if h.kind = 0x12 then [(base, h.bodyLen)]
  else (List.range (ceilDiv l alpha)).flatMap fun dig =>
    let at_ := base + dig * (h.chainL + h.specialK) * b
    [(at_, l * b), (at_ + h.chainL * b, h.specialK * b)]

/-- The first clusters of the calls that some clusters take part in. -/
def Dev.callLeads (d : Dev) (cs : List Nat) : List Nat :=
  (cs.map fun c => match (d.cluster c).call with | some g => g.clusters.foldl min c | none => c).eraseDups

/-- Calls whose step range is not the stream's abort, each with one record, and leave the stream (06 R181). -/
def Dev.dropOthers (d : Dev) (k image : Nat) (range : Nat × Nat) (cs : List Nat) : Dev :=
  (d.callLeads (cs.filter fun c => d.brRange c ≠ some range)).foldl (fun d c =>
    let gang := ((d.cluster c).call.map (·.everywhere)).getD [c]
    ((d.faultUc 0x08 k image 0 stAborted 0).abortOne c none true).detach k gang) d

/-- Calls to which a delivery is refused by a bank abort: a key word that a bank refuses has no effect in 10 R320, and it is
taken as a transfer failure is (DESIGN CHOICE, log entry 94). -/
def Dev.dropRefused (d : Dev) (k : Nat) (cs : List Nat) : Dev :=
  (d.callLeads cs).foldl (fun d c =>
    let gang := ((d.cluster c).call.map (·.everywhere)).getD [c]
    let held := gang.flatMap fun i => ((d.cluster i).call.map (·.held)).getD []
    match d.deliveryProblem (.bronze gang) held with
    | some p => ((d.noteProblem (.bronze gang) .write p).abortOne c none false).detach k gang
    | none => d) d

/-- DATA_PHASE_START: every attached subscriber has requested data; the stored words are read and delivered, unless the
expander or the channel meets an internal error (05 R156, R162, 06 R181). -/
def Dev.dataPhase (d : Dev) (k : Nat) (ups : List Upset) (internal : Bool) : Dev :=
  match (d.channel k).stream with
  | none => d
  | some s =>
    if !s.delivered ∨ s.header = none ∨ s.dataPhase ∨ s.attached = [] ∨
        s.attached.any (fun c => !s.requested.contains c) then d
    else
      let range := (d.brRange (s.requested.foldl min 255)).getD (0, 0)
      let d := if s.hdr.kind = 0x11 then d.dropOthers k s.record.image.toNat range s.requested else d
      let d := d.dropRefused k (((d.channel k).stream.map (·.requested)).getD [])
      let body := s.body range
      let d := d.addUpsets ups
      let (d, bad) := body.foldl (fun (p : Dev × Bool) r =>
        let (d, _, b) := p.1.fetch none r.1 r.2
        (d, p.2 || b)) (d, internal)
      if bad then d.failStream k
      else
        let words := (body.foldl (fun n r => n + r.2) 0) * 2 / 9
        match (d.channel k).stream with
        | none => d
        | some s => (d.setChannel k { d.channel k with stream := some { s with dataPhase := true } }).bump (0x5400 + k) 4 words

def execDataPhaseStart (channel : Nat) (ups : PhaseErrors) (s : State) : Host.Outcome State Fault Refusal :=
  s.onDev fun d => d.dataPhase channel ups.stored ups.internal

/-- KEY_STREAM_CLOSE: the last word has reached every port, or every subscriber has detached (05 R158). -/
def Dev.closeStream (d : Dev) (k : Nat) : Dev :=
  match (d.channel k).stream with
  | none => d
  | some s =>
    if s.dataPhase ∨ (s.delivered ∧ s.attached = []) then
      (d.setChannel k { d.channel k with stream := none }).tryCalls
    else d

def execKeyStreamClose (channel : Nat) (s : State) : Host.Outcome State Fault Refusal :=
  s.onDev fun d => d.closeStream channel

end Sys2Proof.Machine
end

