-- ==== Sys2Proof/Machine/Tensors.lean ====
section
/-! DEFINITION. Tensors: element types, rows and blocks, descriptors and their creation, distribution through owner tables,
permuting copies (11 R337-R350, R359-R369). -/

namespace Sys2Proof.Machine

/-! ### CRC-32C (11 R340, R363) -/

def crcBit (c : Nat) : Nat := if c % 2 = 1 then (c / 2) ^^^ 0x82F63B78 else c / 2

def crcByte (c : Nat) (b : Byte) : Nat := (List.range 8).foldl (fun c _ => crcBit c) (c ^^^ b.toNat)

/-- CRC-32C of a byte string, reflected, as RFC 3720 uses it. -/
def crc32c (bs : List Byte) : Nat := (bs.foldl crcByte 0xFFFFFFFF) ^^^ 0xFFFFFFFF

/-! ### Element types (11 R337) -/

/-- Bits per element, alignment, and whether the block-scaled variant exists. -/
def etypeInfo (e : Nat) : Option (Nat × Nat × Bool) :=
  match e with
  | 0 => some (32, 4, false)
  | 1 => some (16, 2, true)
  | 2 => some (16, 2, true)
  | 3 => some (8, 1, true)
  | 4 => some (8, 1, true)
  | 5 => some (32, 4, false)
  | 6 => some (8, 1, true)
  | 7 => some (4, 1, true)
  | 8 => some (36, 1, false)
  | 9 => some (96, 4, false)
  | _ => none

/-! ### The descriptor (11 R340) -/

structure Tensor where
  addr : Nat
  base : Nat
  etype : Nat
  bs : Bool
  rank : Nat
  pclass : Nat
  dist : Bool
  blockDim : Nat
  allocBase : Nat
  allocLen : Nat
  scaleRef : Nat
  blockSize : Nat
  sizes : List Nat
  strides : List Int
  owner : Nat
  badmap : Nat
  state : Nat
  poison : Bool
  sound : Bool
  deriving DecidableEq, Repr

/-- The fields of 128 descriptor bytes; `sound` is the check of R345. -/
def Tensor.parse (addr : Nat) (b : List Byte) : Tensor :=
  let v := leNat b
  { addr := addr, base := bitsAt v 0 48, etype := bitsAt v 48 4, bs := v.testBit 52, rank := bitsAt v 53 3,
    pclass := bitsAt v 56 2, dist := v.testBit 58, blockDim := bitsAt v 59 3, allocBase := bitsAt v 64 48,
    allocLen := bitsAt v 128 48, scaleRef := bitsAt v 192 48, blockSize := bitsAt v 256 32,
    sizes := (List.range 6).map fun k => bitsAt v (32 * k + 320) 32,
    strides := 0 :: (List.range 5).map fun k => signed (bitsAt v (64 * k + 512) 48) 48,
    owner := bitsAt v 832 48, badmap := bitsAt v 896 48, state := bitsAt v 952 8, poison := v.testBit 968,
    sound := bitsAt v 952 8 = 1 && bitsAt v 992 32 = crc32c (b.take 119) }

def Tensor.bits (t : Tensor) : Nat := ((etypeInfo t.etype).map (·.1)).getD 8
def Tensor.size (t : Tensor) (k : Nat) : Nat := t.sizes.getD k 1
def Tensor.stride (t : Tensor) (k : Nat) : Int := t.strides.getD k 0
/-- Bytes of `n` elements (11 R338). -/
def Tensor.bytesOf (t : Tensor) (n : Nat) : Nat := (n * t.bits + 7) / 8
/-- RB (11 R338). -/
def Tensor.rb (t : Tensor) : Nat := t.bytesOf (t.size 0)
/-- NB (11 R341). -/
def Tensor.nb (t : Tensor) : Nat := ceilDiv (t.size t.blockDim) t.blockSize
/-- NB0, the scale bytes of a row (11 R339). -/
def Tensor.nb0 (t : Tensor) : Nat := ceilDiv (t.size 0) 32
/-- First index and end of block j along BLOCK_DIM (11 R341). -/
def Tensor.blockRange (t : Tensor) (j : Nat) : Nat × Nat :=
  (j * t.blockSize, min ((j + 1) * t.blockSize) (t.size t.blockDim))

/-- The terms (SIZE_k - 1) × STRIDE_k. -/
def Tensor.terms (t : Tensor) (sizes : List Nat) : List Int :=
  List.zipWith (fun (n : Nat) (s : Int) => ((n : Int) - 1) * s) sizes t.strides

/-- The hull for a base, sizes and row bytes: lowest and highest byte (11 R343). -/
def Tensor.hullAt (t : Tensor) (base : Nat) (sizes : List Nat) (rb : Nat) : Int × Int :=
  ((t.terms sizes).foldl (fun x e => x + min 0 e) (base : Int),
   (t.terms sizes).foldl (fun x e => x + max 0 e) ((base : Int) + rb - 1))

def Tensor.hull (t : Tensor) : Int × Int := t.hullAt t.base t.sizes t.rb

/-- Bytes of the scale array (11 R339). -/
def Tensor.scaleLen (t : Tensor) : Nat := t.nb0 * (List.range 5).foldl (fun n k => n * t.size (k + 1)) 1

/-- Bytes of the bad-block map (11 R342). -/
def Tensor.mapLen (t : Tensor) : Nat := (t.nb + 7) / 8

/-- A range of bytes lies in one range of the address map that streams reach: the stacks, or a cluster's window. No stream
reaches core data memory but for descriptors (08 R238, 11 R362; log entry 95). -/
def inOneRange (a n : Nat) : Bool :=
  n = 0 ||
    match regionOf a, regionOf (a + n - 1) with
    | .stack, .stack => true
    | .bank c _, .bank k _ => c = k
    | _, _ => false

/-- In a stack region the class is that of the region of every slab of the range. -/
def Dev.classIs (d : Dev) (a n cls : Nat) : Bool := if a < stackEnd then d.slabsAre cls a n else true

def rangesMeet (a n b m : Nat) : Bool := n ≠ 0 && m ≠ 0 && a < b + m && b < a + n

/-! ### Owner tables (11 R346-R350) -/

structure OwnerEntry where
  addr : Nat
  device : Nat
  state : Nat
  deriving DecidableEq, Repr

/-- Bytes of an owner table with `n` entries a half. -/
def ownerTableLen (n : Nat) : Nat := 64 + 32 * n

/-- Active half and its generation, from a table's bytes. -/
def ownerActive (tb : List Byte) : Nat × Nat :=
  let h := leNat (tb.take 64)
  let a := bitsAt h 64 1
  (a, bitsAt h (128 + 32 * a) 32)

def ownerCount (tb : List Byte) : Nat := leNat ((tb.drop 4).take 4)

def ownerEntry (tb : List Byte) (half j : Nat) : OwnerEntry :=
  let v := leNat ((tb.drop (64 + (half * ownerCount tb + j) * 16)).take 16)
  { addr := bitsAt v 0 48, device := bitsAt v 48 10, state := bitsAt v 58 2 }

/-- Sizes of one block. -/
def Tensor.blockSizes (t : Tensor) (j : Nat) : List Nat :=
  let r := t.blockRange j
  t.sizes.zipIdx.map fun x => if x.2 = t.blockDim then r.2 - r.1 else x.1

/-- The checks of a distributed tensor against its table's bytes (11 R348). -/
def Dev.distOk (d : Dev) (t : Tensor) (tb : List Byte) : Bool :=
  inOneRange t.owner (ownerTableLen t.nb) && leNat (tb.take 4) = 0x4F574E31 && ownerCount tb = t.nb &&
  ((List.range 2).all fun h => (List.range t.nb).all fun j => (ownerEntry tb h j).state ≠ 3) &&
  (List.range t.nb).all fun j =>
    let e := ownerEntry tb (ownerActive tb).1 j
    let sizes := t.blockSizes j
    let hull := t.hullAt e.addr sizes (t.bytesOf (sizes.getD 0 0))
    let scales := if t.bs then ceilDiv (sizes.getD 0 0) 32 * (sizes.drop 1).foldl (· * ·) 1 else 0
    e.device ≠ d.systemDevice ||
      ((e.addr : Int) ≤ hull.1 && hull.2 < ((e.addr + t.allocLen : Nat) : Int) &&
        inOneRange e.addr (t.allocLen + scales) && d.classIs e.addr t.allocLen t.pclass)

/-! ### Creation (11 R343, R344) -/

/-- Step 1. -/
def Tensor.shapeOk (t : Tensor) : Bool :=
  match etypeInfo t.etype with
  | none => false
  | some (bits, align, mayScale) =>
    t.pclass ≤ 1 && 1 ≤ t.rank && t.rank ≤ 6 && (!t.bs || mayScale) && t.sizes.all (fun n => 1 ≤ n) &&
    ((List.range 6).all fun k => k < t.rank || t.size k = 1) && t.blockDim < t.rank && 1 ≤ t.blockSize &&
    (t.blockDim ≠ 0 || t.blockSize * bits % 2048 = 0) && (t.etype ≠ 8 || t.size 0 % 2 = 0) &&
    (t.dist || t.base % align = 0) && t.strides.all fun s => s % (align : Int) = 0

/-- Step 2. -/
def Dev.hullOk (d : Dev) (t : Tensor) : Bool :=
  t.dist ||
    (let h := t.hull
     (t.terms t.sizes).all (fun e => e.natAbs ≤ 2 ^ 48) && (t.allocBase : Int) ≤ h.1 &&
       h.2 < ((t.allocBase + t.allocLen : Nat) : Int) && inOneRange t.allocBase t.allocLen &&
       d.classIs t.allocBase t.allocLen t.pclass)

/-- The checks of a creation, with the bytes of the owner table where the tensor is distributed. -/
def Dev.tensorOk (d : Dev) (t : Tensor) (tb : List Byte) : Bool :=
  t.shapeOk && d.hullOk t &&
  (!t.bs || t.dist ||
    (inOneRange t.scaleRef t.scaleLen && !rangesMeet t.scaleRef t.scaleLen t.allocBase t.allocLen)) &&
  (!t.dist || d.distOk t tb) &&
  (t.badmap = 0 ||
    (inOneRange t.badmap t.mapLen && (t.dist || !rangesMeet t.badmap t.mapLen t.allocBase t.allocLen) &&
      !(t.bs && !t.dist && rangesMeet t.badmap t.mapLen t.scaleRef t.scaleLen)))

/-- A descriptor of `n` bytes lies at a multiple of `n` in data memory, a scratchpad or the stacks (11 R340, R363). -/
def descPlaced (a n : Nat) : Bool :=
  a % n = 0 &&
    match regionOf a with
    | .nowhere => false
    | .core _ off => off < 0x10000
    | _ => true

/-- The descriptor bytes after creation, and its status; reserved bits that the device writes are zero (11 R344, 00 R5). -/
def Dev.createdTensor (d : Dev) (addr : Nat) (b tb : List Byte) : List Byte × BitVec 8 :=
  let head := b.take 119
  if d.tensorOk (Tensor.parse addr b) tb then (head ++ [1, 0, 0, 0, 0] ++ leBytes 4 (crc32c head), stOk)
  else (head ++ [2, BitVec.ofNat 8 stBounds.toNat, b.getD 121 0 &&& 1, 0, 0] ++ b.drop 124, stBounds)

/-! ### Copy descriptors (11 R363-R366) -/

structure CopyDesc where
  src : Nat
  dst : Nat
  perm : List Nat
  state : Nat
  noop : Bool
  sound : Bool
  deriving DecidableEq, Repr

def CopyDesc.parse (b : List Byte) : CopyDesc :=
  let v := leNat b
  { src := bitsAt v 0 48, dst := bitsAt v 64 48, perm := (List.range 6).map fun k => bitsAt v (3 * k + 128) 3,
    state := bitsAt v 256 8, noop := v.testBit 272, sound := bitsAt v 256 8 = 1 && bitsAt v 480 32 = crc32c (b.take 32) }

/-- Insert by a key, smaller keys first. -/
def insertBy (k : Nat) (x : Nat × Int) (xs : List (Nat × Nat × Int)) : List (Nat × Nat × Int) :=
  match xs with
  | [] => [(k, x)]
  | y :: r => if k < y.1 then (k, x) :: y :: r else y :: insertBy k x r

/-- No two elements of a tensor share a byte, by the span test (11 R365). -/
def Tensor.spread (t : Tensor) : Bool :=
  let dims := (List.range 5).foldl (fun (acc : List (Nat × Nat × Int)) k =>
    if 1 < t.size (k + 1) then insertBy (t.stride (k + 1)).natAbs (t.size (k + 1), t.stride (k + 1)) acc else acc) []
  (dims.foldl (fun (p : Bool × Nat) x => (p.1 && p.2 ≤ x.1, p.2 + (x.2.1 - 1) * x.1)) (true, t.rb)).1

/-- The ranges of a tensor that is not distributed: hull and scales. -/
def Tensor.ranges (t : Tensor) : List (Nat × Nat) :=
  let h := t.hull
  (h.1.toNat, (h.2 - h.1 + 1).toNat) :: (if t.bs then [(t.scaleRef, t.scaleLen)] else [])

/-- The identity case (11 R366). -/
def sameTensor (a b : Tensor) (perm : List Nat) : Bool :=
  a.base = b.base && a.etype = b.etype && a.bs = b.bs && a.sizes = b.sizes && a.strides = b.strides &&
    perm = [0, 1, 2, 3, 4, 5]

/-- Overlap of a source and a destination (11 R365). -/
def tensorsOverlap (a b : Tensor) : Bool :=
  ((!a.dist && !b.dist) && a.ranges.any fun x => b.ranges.any fun y => rangesMeet x.1 x.2 y.1 y.2) || !b.spread

/-- The checks of a copy (11 R364): its status. -/
def copyStatus (s t : Tensor) (perm : List Nat) : BitVec 8 :=
  let form := s.sound && t.sound && !s.dist && !t.dist &&
    ((List.range 6).all fun k => perm.contains k) &&
    ((List.range 6).all fun k => k < s.rank || perm.getD k 0 = k) &&
    s.etype = t.etype && s.bs = t.bs && s.rank = t.rank &&
    ((List.range 6).all fun k => t.size k = s.size (perm.getD k 0)) &&
    (perm.getD 0 0 = 0 || (!s.bs && !t.bs && s.etype ≠ 7 && s.etype ≠ 8 &&
      (match regionOf s.base, regionOf t.base with
       | .bank c _, .bank k _ => c = k
       | _, _ => false)))
  if !form then stBounds
  else if tensorsOverlap s t && !sameTensor s t perm then stOverlap else stOk

/-- The copy descriptor's bytes after creation from its source and destination tensors, where both could be read, and its
status; reserved bits that the device writes are zero (11 R364, 00 R5). -/
def createdCopy (b : List Byte) (ts : Option (Tensor × Tensor)) : List Byte × BitVec 8 :=
  let perm := (CopyDesc.parse b).perm
  let st := (ts.map fun x => copyStatus x.1 x.2 perm).getD stBounds
  let noop : Byte := if (ts.map fun x => sameTensor x.1 x.2 perm).getD false then 1 else 0
  let head := b.take 32
  if st = stOk then (head ++ [1, 0, noop] ++ zeroBytes 25 ++ leBytes 4 (crc32c head), st)
  else (head ++ [2, BitVec.ofNat 8 st.toNat, b.getD 34 0 &&& 1] ++ zeroBytes 25 ++ b.drop 60, st)

/-! ### Rows and blocks (11 R338, R339, R347) -/

/-- All index lists below some bounds, each dimension from its first index; the first dimension runs fastest. -/
def indexLists (rs : List (Nat × Nat)) : List (List Nat) :=
  match rs with
  | [] => [[]]
  | r :: rest => (indexLists rest).flatMap fun tail => (List.range (r.2 - r.1)).map fun i => (r.1 + i) :: tail

/-- The rows of block j: indices i1 to i5. -/
def Tensor.blockRows (t : Tensor) (j : Nat) : List (List Nat) :=
  indexLists ((List.range 5).map fun k => if k + 1 = t.blockDim then t.blockRange j else (0, t.size (k + 1)))

/-- Elements of dimension 0 that block j holds. -/
def Tensor.blockElems (t : Tensor) (j : Nat) : Nat × Nat := if t.blockDim = 0 then t.blockRange j else (0, t.size 0)

/-- The block that an element lies in. -/
def Tensor.blockOf (t : Tensor) (i0 : Nat) (idx : List Nat) : Nat :=
  (if t.blockDim = 0 then i0 else idx.getD (t.blockDim - 1) 0) / t.blockSize

/-- Address of element i0 of a row, given the base of its block when distributed. -/
def Tensor.elemAddr (t : Tensor) (base j i0 : Nat) (idx : List Nat) : Nat :=
  let cut := if t.dist then j * t.blockSize else 0
  let off := idx.zipIdx.foldl (fun (x : Int) p =>
    x + ((p.1 : Int) - (if p.2 + 1 = t.blockDim then cut else 0)) * t.stride (p.2 + 1)) 0
  ((base : Int) + off).toNat + (i0 - (if t.blockDim = 0 then cut else 0)) * t.bits / 8

/-- Address of scale byte b of a row. -/
def Tensor.scaleAddr (t : Tensor) (base j b : Nat) (idx : List Nat) : Nat :=
  if t.dist then
    let sizes := t.blockSizes j
    let local_ := idx.zipIdx.map fun p => if p.2 + 1 = t.blockDim then p.1 - j * t.blockSize else p.1
    let b := if t.blockDim = 0 then b - j * t.blockSize / 32 else b
    base + t.allocLen + b + ceilDiv (sizes.getD 0 0) 32 *
      (local_.zip (sizes.drop 1)).foldr (fun p n => p.1 + p.2 * n) 0
  else t.scaleRef + b + t.nb0 * (idx.zip (t.sizes.drop 1)).foldr (fun p n => p.1 + p.2 * n) 0

/-- Where block j lies: its base, none where no address here is known, and whether it is remote or bad (11 R350). `own` is the
owner table with the half in force; none: it could not be read. -/
def Dev.blockPlace (d : Dev) (t : Tensor) (own : Option (List Byte × Nat)) (j : Nat) : Option Nat × Bool × Bool :=
  if !t.dist then (some t.base, false, false)
  else match own with
    | none => (none, false, true)
    | some (tb, half) =>
      let e := ownerEntry tb half j
      if e.state ≠ 0 then (none, false, true)
      else if e.device ≠ d.systemDevice then (none, true, true) else (some e.addr, false, false)

/-- The blocks that a tensor's bad-block map marks, as a requester reads it; a poisoned tensor without a map counts every
block, and of a map that cannot be read every block whose bit is in the part refused (11 R342, R373, 10 R320). -/
def Dev.markedBlocks (d : Dev) (blk : Option Block) (r : Requester) (t : Tensor) : Dev × List Nat :=
  if t.badmap = 0 then (d, if t.poison then List.range t.nb else [])
  else
    (pieces t.badmap t.mapLen).foldl (fun (x : Dev × List Nat) p =>
      let k := min (p / 256 * 256 + 256) (t.badmap + t.mapLen) - p
      let here := (List.range (8 * k)).map fun j => 8 * (p - t.badmap) + j
      match x.1.problemAt r .read p with
      | some q => (x.1.noteProblem r .read q, x.2 ++ here.filter (· < t.nb))
      | none =>
        let (d, bs, bad) := x.1.fetch blk p k
        (d, x.2 ++ here.filter fun j => j < t.nb && (bad || (bs.getD (j / 8 - (p - t.badmap)) 0).getLsbD (j % 8)))) (d, [])

/-- Set bit j of a bad-block map. -/
def Dev.markBlock (d : Dev) (r : Requester) (t : Tensor) (j : Nat) : Dev :=
  if t.badmap = 0 then d
  else d.writeAs r (t.badmap + j / 8) [d.mem.byte (t.badmap + j / 8) ||| BitVec.ofNat 8 (2 ^ (j % 8))]

end Sys2Proof.Machine
end

