-- ==== Sys2Proof/Machine/Issue.lean ====
section
/-! DEFINITION. Issue in a core: when a program may issue, what it waits for, how it moves on, events, and the start of a
library call (08 R255-R256, R277-R285, R660). -/

namespace Sys2Proof.Machine

def Core.setProg (c : Core) (p : Program) (x : ProgState) : Core :=
  match p with
  | .tin => { c with tin := x }
  | .access => { c with acc := x }
  | .execute => { c with exe := x }

def Core.queue (c : Core) (q : Nat) : DQueue := tget c.queues q .empty
def Core.setQueue (c : Core) (q : Nat) (x : DQueue) : Core := { c with queues := tset c.queues q x }

/-- Transfers that have not completed. -/
def Core.transfers (c : Core) : List Transfer := (List.range 4).flatMap fun q => (c.queue q).transfers

/-- Tin's registers; g0 reads zero and discards writes (08 R251). -/
def Core.getG (c : Core) (r : BitVec 5) : Word := if r = 0 then 0 else tget c.g r.toNat 0
def Core.setG (c : Core) (r : BitVec 5) (v : Word) : Core := if r = 0 then c else { c with g := tset c.g r.toNat v }

/-- The values of the active set, if there is one (08 R245, R246). -/
def Dev.activeVals (d : Dev) (c : Core) : Option PSetVals := c.activeSet.bind d.live

/-- A program may issue: its core is in its frame and not stopped, it runs, it is not inside a call or at a YIELD, and its
cluster does not withhold issue (08 R247, R281, R284, 22 R636). -/
def Dev.mayIssue (d : Dev) (n : Nat) (p : Program) : Bool :=
  let c := d.core n
  c.frame = .inFrame && c.stop = none && (c.prog p).run = .running && !d.power.withholding.contains (n / 16) &&
    (match p with
     | .tin => true
     | .access => !c.atYield
     | .execute => c.call = none)

/-- An instruction of a program that may issue; else nothing happens (log entry 19). -/
def Dev.issue (d : Dev) (n : Nat) (p : Program) (f : Core → Dev) : Dev := if d.mayIssue n p then f (d.core n) else d

/-- The handover that a core has written is not complete (10 R324). -/
def Dev.ownPending (d : Dev) (n : Nat) : Bool := (d.cluster (n / 16)).handovers.any fun h => h.writer = n

/-- A gang's call waits for its partners or for a key stream; a call that only a bank keeps waiting is not blocked (08 R660). -/
def Dev.gangBlocked (d : Dev) (g : GangCall) : Bool :=
  let a := argsOf g.routine g.args
  match g.phase with
  | .ended _ _ => !d.streamServed g
  | .waiting =>
    !g.gathered || ((d.callAccess (.library g.clusters) g.routine a).isSome &&
      ((takesStream g.routine a).any fun k => g.stage ≠ 0 || (d.streamFor k g.clusters).isNone))

/-- A core's call still waits: for its start, for its partners, or for a stream (08 R660). -/
def Dev.callWaits (d : Dev) (n : Nat) : Bool :=
  match (d.core n).call with
  | none => true
  | some k => !k.started || (((d.cluster (n / 16)).call.map d.gangBlocked).getD true)

/-- A library call of the core runs: every gang of it has started, and it has not returned (08 R280, R281). -/
def Dev.callRuns (d : Dev) (n : Nat) : Bool :=
  (d.core n).call.any (·.started) && (d.cluster (n / 16)).call.any fun g => g.gathered || g.phase ≠ .waiting

/-- A wait is still unmet. -/
def Dev.unmet (d : Dev) (n : Nat) (p : Program) (w : Wait) : Bool :=
  let c := d.core n
  match w with
  | .event e => tget c.events e 0 = 0
  | .data q k => (c.queue q).bytes.length < k
  | .room q k => 4096 < (c.queue q).bytes.length + k
  | .transfers => c.transfers ≠ []
  | .call => p ≠ .execute || d.callWaits n
  | .handover => d.ownPending n
  | .setLoad => d.callRuns n
  | .atEnd => c.transfers ≠ []
  | .paccWrites => c.paccs ≠ []

/-- A running program is blocked (08 R660). -/
def Dev.isBlocked (d : Dev) (n : Nat) (p : Program) : Bool :=
  ((d.core n).prog p).waits.any fun w => d.unmet n p w

/-- A program has retired END or was stopped. -/
def Dev.isDone (d : Dev) (n : Nat) (p : Program) : Bool := ((d.core n).prog p).run ≠ .running

/-- The program waits; its instruction is issued again when it can go on. -/
def Dev.await (d : Dev) (n : Nat) (p : Program) (ws : List Wait) : Dev :=
  d.modCore n fun c => c.setProg p { c.prog p with waits := ws }

/-- Tin goes on at an offset. -/
def Dev.tinGo (d : Dev) (n pc : Nat) : Dev :=
  (d.modCore n fun c => { c with tin := { c.tin with pc := pc, waits := [] } }).checkPc n .tin

/-- A stream instruction is done, and its program goes on. -/
def Dev.streamGo (d : Dev) (n : Nat) (p : Program) : Dev :=
  (d.modCore n fun c => c.setProg p (c.prog p).retire).checkPc n p

/-- The next instruction of a program: Tin's follows at once, a stream's under its loops. -/
def Dev.goOn (d : Dev) (n : Nat) (p : Program) : Dev :=
  match p with
  | .tin => d.tinGo n ((d.core n).tin.pc + 4)
  | _ => d.streamGo n p

/-- A program faults at its own instruction. -/
def Dev.faultHere (d : Dev) (n : Nat) (p : Program) (reason : BitVec 8) : Dev :=
  d.programFault n p reason ((d.core n).prog p).pc

/-- SIGNAL (08 R255, R256). -/
def Dev.signal (d : Dev) (n : Nat) (p : Program) (e : BitVec 4) : Dev :=
  d.issue n p fun c =>
    match c.signal? e.toNat with
    | some c => (d.setCore n c).goOn n p
    | none => d.faultHere n p 0x07

/-- WAIT (08 R255). -/
def Dev.waitEvent (d : Dev) (n : Nat) (p : Program) (e : BitVec 4) : Dev :=
  d.issue n p fun c =>
    let k := tget c.events e.toNat 0
    if k = 0 then d.await n p [.event e.toNat]
    else (d.setCore n { c with events := tset c.events e.toNat (k - 1) }).goOn n p

/-- LOOP in either stream (08 R277-R279). -/
def Dev.loop (d : Dev) (n : Nat) (p : Program) (csrc : Bool) (greg : BitVec 5) (len : BitVec 11) (count : BitVec 32) : Dev :=
  d.issue n p fun c =>
    let x := c.prog p
    let last := x.pc + 8 * len.toNat
    let times := if csrc then (c.getG greg).toNat else count.toNat
    if len = 0 then d.faultHere n p 0x01
    else if 6 ≤ x.loops.length ∨ (x.loops.head?.map fun f => decide (f.last < last)) = some true then d.faultHere n p 0x08
    else if times = 0 then
      let r := afterBody last 8 x.loops
      (d.setCore n (c.setProg p { x with pc := r.1, loops := r.2, waits := [] })).checkPc n p
    else
      let f : LoopFrame := { first := x.pc + 8, last := last, left := times - 1, iter := 0 }
      (d.setCore n (c.setProg p { x with pc := x.pc + 8, waits := [], loops := f :: x.loops })).checkPc n p

/-! ### Calls start (08 R280) -/

/-- A CALL that is issued starts once the access stream is at YIELD or END and its transfers and accumulating writes are complete. -/
def Dev.startCall (d : Dev) (n : Nat) : Dev :=
  let c := d.core n
  match c.call with
  | none => d
  | some k =>
    if !k.started && (c.atYield || d.isDone n .access) && c.transfers = [] && c.paccs = [] && c.stop = none then
      if (List.range 4).any fun q => (c.queue q).bytes ≠ [] then d.faultHere n .execute 0x09
      else ((d.setCore n { c with call := some { k with started := true }, unfenced := [] }).formCall (n / 16)).tryCalls
    else d

/-- CALL (08 R280, 09 R286, R292, R301). -/
def Dev.call (d : Dev) (n routine : Nat) (args : BitVec 16) (link : LinkEvent) : Dev :=
  d.issue n .execute fun c =>
    let a := args.toNat
    if a % 64 ≠ 0 ∨ a < 0x0100 ∨ 0xFFC0 < a then d.faultHere n .execute 0x03
    else if !(romRoutine routine || (d.lib.inService.any fun x => x.routines.any fun r => r.number = routine)) then
      d.faultHere n .execute 0x01
    else
      (d.setCore n { c with call := some { routine := routine, args := a, started := false, link := link },
                            exe := { c.exe with waits := [.call] } }).startCall n

end Sys2Proof.Machine
end

