-- ==== Sys2Proof/Machine/Transfers.lean ====
section
/-! DEFINITION. Address generators, queue transfers and accumulating writes (08 R257-R268, 10 R315-R317). -/

namespace Sys2Proof.Machine

/-! ### Address generators (08 R261-R264) -/

/-- A generator as its descriptor gives it (08 R261). -/
def AddrGen.parse (b : List Byte) : AddrGen :=
  let v := leNat b
  { base := bitsAt v 0 48, width := bitsAt v 56 8 + 1,
    counts := (List.range 6).map fun k => bitsAt v (64 * k + 64) 24,
    strides := (List.range 6).map fun k => signed (bitsAt v (64 * k + 88) 40) 40,
    mode := BitVec.ofNat 8 (bitsAt v 448 8), accMod := bitsAt v 456 6, stepsDone := 0 }

/-- Steps of the nest. -/
def AddrGen.steps (g : AddrGen) : Nat := g.counts.foldl (· * ·) 1

/-- The sum of i_k × stride_k at step j, level 0 fastest (08 R262). -/
def stepOffset (j : Nat) (counts : List Nat) (strides : List Int) : Int :=
  match counts, strides with
  | c :: cs, s :: ss => (j % c : Nat) * s + stepOffset (j / c) cs ss
  | _, _ => 0

/-- The address of step j. -/
def AddrGen.addr (g : AddrGen) (j : Nat) : Nat := ((g.base : Int) + stepOffset j g.counts g.strides).toNat

/-- Lowest and highest byte addresses of a nest without a zero count (08 R264). -/
def AddrGen.span (g : AddrGen) : Int × Int :=
  let ends := List.zipWith (fun (c : Nat) (s : Int) => ((c : Int) - 1) * s) g.counts g.strides
  (ends.foldl (fun x e => x + min 0 e) (g.base : Int),
   ends.foldl (fun x e => x + max 0 e) ((g.base : Int) + g.width - 1))

/-- Width and alignment that an accumulate mode requires (10 R315, R317). -/
def AddrGen.modeFits (g : AddrGen) : Bool :=
  let aligned := g.base % 4 = 0 && g.strides.all fun s => s % 4 = 0
  match g.mode.toNat with
  | 0 => true
  | 1 => g.width % 9 = 0
  | 2 => g.width % 4 = 0 && aligned
  | 3 => g.width % 12 = 0 && aligned
  | _ => false

/-- The nest lies where its generator may reach (08 R264). -/
def AddrGen.placed (g : AddrGen) (c : Nat) : Bool :=
  if g.counts.contains 0 then true
  else
    let s := g.span
    let inWindow := (clusterAddr c 0 : Int) ≤ s.1 && s.2 < (clusterAddr (c + 1) 0 : Int)
    inWindow || (g.mode = 0 && 0 ≤ s.1 && s.2 < (stackEnd : Int))

/-- AGSET: the generators of a stream are `lo` to `hi` (08 R263, R264, 10 R317). -/
def Dev.agset (d : Dev) (n : Nat) (p : Program) (lo hi : Nat) (ag : BitVec 3) (ovr : Bool) (greg : BitVec 5)
    (offset : BitVec 16) : Dev :=
  d.issue n p fun c =>
    let k := ag.toNat
    let g := AddrGen.parse (d.rd (coreAddr n offset.toNat) 64)
    let top := (c.getG greg).toNat
    let g := if ovr then { g with counts := g.counts.take 5 ++ [top] } else g
    if k < lo ∨ hi < k then d.faultHere n p 0x01
    else if offset.toNat % 64 ≠ 0 then d.faultHere n p 0x03
    else if ovr ∧ 2 ^ 24 ≤ top then d.faultHere n p 0x01
    else if !g.modeFits then d.faultHere n p 0x01
    else if !g.placed (n / 16) then d.faultHere n p 0x05
    else (d.setCore n { c with gens := tset c.gens k g }).goOn n p

/-! ### Accumulating writes (10 R315) -/

/-- Add elements of `n` bytes pairwise. -/
def addElems (n : Nat) (f : Nat → Nat → Nat) (fuel : Nat) (old new : List Byte) : List Byte :=
  match fuel with
  | 0 => []
  | k + 1 =>
    if new = [] then [] else leBytes n (f (leNat (old.take n)) (leNat (new.take n))) ++ addElems n f k (old.drop n) (new.drop n)

/-- The bytes that an accumulating write stores over `old`. -/
def accumulateBytes (mode q : Nat) (old new : List Byte) : List Byte :=
  match mode with
  | 1 => packWords (List.zipWith (resAdd q) (unpackWords old) (unpackWords new))
  | 2 => addElems 4 (fun x y => fp32.encode ((fp32.decode x).add (fp32.decode y))) new.length old new
  | 3 => addElems 12 (fun x y => (x + y) % 2 ^ 96) new.length old new
  | _ => new

/-- One step's write of a core through a generator. Until the next FENCE the bytes before it may still be read (08 R268). -/
def Dev.stepWrite (d : Dev) (n mode q a : Nat) (bs : List Byte) : Dev :=
  let blk : Option Block := some (.cluster (n / 16))
  let old := d.rd a bs.length
  let d := d.modCore n fun c => { c with unfenced := (a, old) :: c.unfenced }
  if mode = 0 then d.store blk a bs
  else
    let (d, old, _) := d.fetch blk a bs.length
    d.store blk a (accumulateBytes mode q old bs)

/-- What a core reads where `bs` stand at `a`: of bytes that it has written since its last FENCE, the old or the new, 8-byte
word by 8-byte word as a free bit says (08 R268; log entry 92). -/
def Dev.unfencedRead (d : Dev) (n a : Nat) (bs : List Byte) : Dev × List Byte :=
  (d.core n).unfenced.foldl (fun p u =>
    if u.1 < a + bs.length ∧ a < u.1 + u.2.length then
      ({ p.1 with draw := p.1.draw + bs.length },
       p.2.zipIdx.map fun x =>
        let at_ := a + x.2
        if u.1 ≤ at_ ∧ at_ < u.1 + u.2.length ∧ (Config.freeWord (p.1.draw + (at_ / 8 - a / 8))).getLsbD 0 then
          u.2.getD (at_ - u.1) 0
        else x.1)
    else p) (d, bs)

/-- The modulus of a generator in mode 0x01; none: there is no such modulus (10 R317). -/
def Dev.accModulus (d : Dev) (c : Core) (g : AddrGen) : Option Nat :=
  if g.mode ≠ 1 then some 1
  else (d.activeVals c).bind fun v => if g.accMod < v.count then some (v.q g.accMod) else none

/-! ### A read that meets a write of its granule (10 R307, R308, R313, R314; log entry 99) -/

/-- Ranges that the cluster DMA engines have still to write. -/
def Dev.dmaWrites (d : Dev) : List (Nat × Nat) :=
  (d.clusters.flatMap fun x => x.2.streams.flatMap fun s =>
    if s.phase = .running then s.todo.flatMap fun b => b.parts.flatMap fun q => q.dst else []) ++
  (match d.tick.fill with
   | some f => if f.todo = [] then [] else (Tensor.parse 0 f.desc).ranges
   | none => [])

/-- Ranges that a cluster's call in service writes. -/
def Dev.callWrites (d : Dev) (c : Nat) : List (Nat × Nat) :=
  match (d.cluster c).call with
  | some g => (g.effect.units ++ g.effect.also ++ [g.effect.work]).flatten.map fun p => (p.1, p.2.length)
  | none => []

/-- Ranges that a cluster's cores and vector engine are writing: stores since the last FENCE, and a job's rows. -/
def Dev.portWrites (d : Dev) (c : Nat) : List (Nat × Nat) :=
  ((List.range 16).flatMap fun k => (d.core (16 * c + k)).unfenced.map fun u => (u.1, u.2.length)) ++
  (match (d.cluster c).veRun with
   | some j => j.units.flatten.map fun p => (p.1, p.2.length)
   | none => [])

/-- A read of a range: of each scratchpad granule that something is writing, a free bit says whether the two meet in one cycle.
The reader's port then sees BUSY, which SP_BUSY counts. The number of them. -/
def Dev.meetWrites (d : Dev) (a n : Nat) (writes : Nat → List (Nat × Nat)) : Nat × Dev :=
  (pieces a n).foldl (fun (x : Nat × Dev) p =>
    match regionOf p with
    | .bank c _ =>
      if (writes c).any fun w => rangesMeet w.1 w.2 (p / 256 * 256) 256 then
        let (w, d) := x.2.drawWord
        if w.getLsbD 0 then (x.1 + 1, d.bump (0x3100 + c) 0x0E 1) else (x.1, d)
      else x
    | _ => x) (0, d)

/-! ### Transfers in the background (08 R257, R262, R266-R268) -/

/-- Outcome of one step of a transfer: it moved, it cannot yet, or its core has faulted. -/
inductive Moved where
  | yes (d : Dev)
  | no
  | faulted (d : Dev)

/-- Claim a queue for a producer or a consumer; none: another program has it (08 R259). -/
def DQueue.claim (x : DQueue) (push : Bool) (p : Program) : Option DQueue :=
  if push then (if x.producer.getD p = p then some { x with producer := some p } else none)
  else if x.consumer.getD p = p then some { x with consumer := some p } else none

/-- Try the next step of the transfer at the head of a queue. Its first step claims the queue (08 R259). -/
def Dev.moveStep (d : Dev) (n q : Nat) : Moved :=
  let c := d.core n
  match (c.queue q).transfers with
  | [] => .no
  | t :: rest =>
    if t.gen.steps ≤ t.next then .no
    else
      let w := t.gen.width
      let a := t.gen.addr t.next
      let kind : AccessKind := if t.load then .read else if t.gen.mode = 0 then .write else .accumulate
      if t.load ∧ 4096 < (c.queue q).bytes.length + w then .no
      else if !t.load ∧ (c.queue q).bytes.length < w then .no
      else
        match (c.queue q).claim t.load .access with
        | none => .faulted (d.programFault n .access 0x0A t.pc)
        | some x =>
          match d.problemIn (.stream n) kind a w with
          | some .wait => .no
          | some p => .faulted (((d.noteProblem (.stream n) kind p)).programFault n .access 0x06 t.pc)
          | none =>
            let next := { t with next := t.next + 1 } :: rest
            if t.load then
              let (_, d) := d.meetWrites a w fun c => d.dmaWrites ++ d.callWrites c
              let (d, bs, _) := d.fetch (some (.cluster (n / 16))) a w
              let (d, bs) := d.unfencedRead n a bs
              .yes (d.modCore n fun c => c.setQueue q { x with bytes := x.bytes ++ bs, transfers := next })
            else
              let d := d.stepWrite n t.gen.mode.toNat t.q a (x.bytes.take w)
              .yes (d.modCore n fun c => c.setQueue q { x with bytes := x.bytes.drop w, transfers := next })

def Dev.movesGo (fuel : Nat) (d : Dev) (n q : Nat) : Dev :=
  match fuel with
  | 0 => d
  | k + 1 =>
    match d.moveStep n q with
    | .yes d => Dev.movesGo k d n q
    | .no => d
    | .faulted d => d

/-- Let PACC writes reach their banks: those of one generator in order; a refused one faults, and what follows it through its
generator is not written (08 R276, R284). `left` are those that still wait, `dead` the generators of refused ones. -/
def Dev.paccsGo (d : Dev) (n : Nat) (ws left : List PaccWrite) (dead : List Nat) : Dev :=
  match ws with
  | [] => d.modCore n fun c => { c with paccs := left }
  | w :: rest =>
    if dead.contains w.gen then d.paccsGo n rest left dead
    else if left.any fun v => v.gen = w.gen then d.paccsGo n rest (left ++ [w]) dead
    else
      let kind : AccessKind := if w.mode = 0 then .write else .accumulate
      match d.problemIn (.stream n) kind w.addr w.data.length with
      | some .wait => d.paccsGo n rest (left ++ [w]) dead
      | some p => ((d.noteProblem (.stream n) kind p).programFault n .execute 0x06 w.pc).paccsGo n rest left (w.gen :: dead)
      | none => (d.stepWrite n w.mode.toNat w.q w.addr w.data).paccsGo n rest left dead

def Dev.pumpPaccs (d : Dev) (n : Nat) : Dev := d.paccsGo n (d.core n).paccs [] []

/-- A program retires END (08 R247). -/
def Dev.retireEnd (d : Dev) (n : Nat) (p : Program) : Dev :=
  d.modCore n fun c => c.setProg p { c.prog p with run := .retired, waits := [], loops := [] }

/-- The programs that wait at END only for what has now completed retire (08 R247, R660). -/
def Dev.endPrograms (d : Dev) (n : Nat) : Dev :=
  let c := d.core n
  let d := if c.acc.waits = [.atEnd] ∧ c.transfers = [] then d.retireEnd n .access else d
  if c.exe.waits = [.paccWrites] ∧ c.paccs = [] then d.retireEnd n .execute else d

/-- Let what a core has under way go as far as bytes, room and banks allow (a queue holds 4,096 bytes), and what waited only
for it go on. -/
def Dev.pump (d : Dev) (n : Nat) : Dev :=
  ((((List.range 4).foldl (fun d q => Dev.movesGo 8192 d n q) d).pumpPaccs n).endPrograms n).startCall n

/-- Pump every core of a cluster. -/
def Dev.pumpCluster (d : Dev) (c : Nat) : Dev := (List.range 16).foldl (fun d k => d.pump (16 * c + k)) d

/-- LD and ST (08 R267, 10 R317). AG6 and AG7 are undefined for AGSET alone. -/
def Dev.startTransfer (d : Dev) (n : Nat) (load : Bool) (ag : BitVec 3) (queue : BitVec 2) : Dev :=
  d.issue n .access fun c =>
    let q := queue.toNat
    match tfind c.gens ag.toNat with
    | none => d.faultHere n .access 0x0C
    | some g =>
      if load ∧ g.mode ≠ 0 then d.faultHere n .access 0x01
      else if !load ∧ d.accModulus c g = none then d.faultHere n .access 0x02
      else
        let x := c.queue q
        let t : Transfer := { load := load, gen := g, next := 0, pc := c.acc.pc, q := (d.accModulus c g).getD 1 }
        ((d.setCore n (c.setQueue q { x with transfers := x.transfers ++ [t] })).goOn n .access).pump n

/-- LD: the errors in stored data that its reads meet come with it. -/
def execLd (core : Nat) (ag : BitVec 3) (queue : BitVec 2) (ups : List Upset) (s : State) :
    Host.Outcome State Fault Refusal :=
  s.onDev fun d => (d.addUpsets ups).startTransfer core true ag queue

def execSt (core : Nat) (ag : BitVec 3) (queue : BitVec 2) (s : State) : Host.Outcome State Fault Refusal :=
  s.onDev fun d => d.startTransfer core false ag queue

/-- AG_TRANSFER_DONE: the transfer at the head of a queue has made all its steps, and the next one starts (08 R267). -/
def Dev.transferDone (d : Dev) (n q : Nat) : Dev :=
  let d := d.pump n
  let c := d.core n
  let x := c.queue q
  match x.transfers with
  | [] => d
  | t :: rest =>
    if t.next < t.gen.steps then d
    else (d.setCore n (c.setQueue q { x with transfers := rest })).pump n

def execAgTransferDone (core : Nat) (queue : BitVec 2) (s : State) : Host.Outcome State Fault Refusal :=
  s.onDev fun d => d.transferDone core queue.toNat

/-! ### The access stream's own instructions -/

def execAccNop (core : Nat) (s : State) : Host.Outcome State Fault Refusal :=
  s.onDev fun d => d.issue core .access fun _ => d.goOn core .access

def execAccAgset (core : Nat) (ag : BitVec 3) (ovr : Bool) (greg : BitVec 5) (offset : BitVec 16) (s : State) :
    Host.Outcome State Fault Refusal :=
  s.onDev fun d => d.agset core .access 0 5 ag ovr greg offset

/-- FENCE (08, access-stream instructions). -/
def Dev.fence (d : Dev) (n : Nat) : Dev :=
  d.issue n .access fun c =>
    if c.transfers = [] then (d.setCore n { c with unfenced := [] }).goOn n .access else d.await n .access [.transfers]

def execFence (core : Nat) (s : State) : Host.Outcome State Fault Refusal := s.onDev fun d => d.fence core

/-- YIELD: the access stream waits for the call, which may start now (08 R280, R281). -/
def Dev.yieldTo (d : Dev) (n : Nat) : Dev :=
  d.issue n .access fun c =>
    (d.setCore n { c with atYield := true, acc := { c.acc with waits := [.call] } }).startCall n

def execYield (core : Nat) (s : State) : Host.Outcome State Fault Refusal := s.onDev fun d => d.yieldTo core

def execAccLoop (core : Nat) (csrc : Bool) (greg : BitVec 5) (len : BitVec 11) (count : BitVec 32) (s : State) :
    Host.Outcome State Fault Refusal :=
  s.onDev fun d => d.loop core .access csrc greg len count

def execAccSignal (core : Nat) (event : BitVec 4) (s : State) : Host.Outcome State Fault Refusal :=
  s.onDev fun d => d.signal core .access event

def execAccWait (core : Nat) (event : BitVec 4) (s : State) : Host.Outcome State Fault Refusal :=
  s.onDev fun d => d.waitEvent core .access event

/-- END of the access stream: it retires when every transfer has completed. -/
def Dev.accEnd (d : Dev) (n : Nat) : Dev :=
  d.issue n .access fun c =>
    if c.transfers = [] then (d.retireEnd n .access).startCall n else d.await n .access [.atEnd]

def execAccEnd (core : Nat) (s : State) : Host.Outcome State Fault Refusal := s.onDev fun d => d.accEnd core

end Sys2Proof.Machine
end

