-- ==== Sys2Proof/Machine/Streams.lean ====
section
/-! DEFINITION. The cluster DMA streams: records, starts, block moves, copies, windows, ciphertext moves, bad blocks, the
prefetch regulator, stops and status records (11 R351-R377). -/

namespace Sys2Proof.Machine

/-! ### Stream records (11 R352) -/

structure StreamRec where
  kind : Nat
  prefetch : Bool
  skipRemote : Bool
  start : Nat
  startEvt : Nat
  startCore : Nat
  doneEvt : BitVec 4
  doneCore : Nat
  doneEn : Bool
  src : Nat
  dst : Nat
  list : Nat
  listCount : Nat
  status : Nat
  winDim : Nat
  kw : Nat
  wstride : Nat
  dil : Nat
  padLo : Nat
  padHi : Nat
  deriving DecidableEq, Repr

def StreamRec.parse (b : List Byte) : StreamRec :=
  let v := leNat b
  { kind := bitsAt v 0 4, prefetch := v.testBit 4, skipRemote := v.testBit 5, start := bitsAt v 6 2,
    startEvt := bitsAt v 8 4, startCore := bitsAt v 12 4, doneEvt := BitVec.ofNat 4 (bitsAt v 16 4),
    doneCore := bitsAt v 20 4, doneEn := v.testBit 24, src := bitsAt v 64 48, dst := bitsAt v 128 48,
    list := bitsAt v 192 48, listCount := bitsAt v 256 32, status := bitsAt v 288 48, winDim := bitsAt v 352 3,
    kw := bitsAt v 360 8, wstride := bitsAt v 368 8, dil := bitsAt v 376 8, padLo := bitsAt v 384 16,
    padHi := bitsAt v 400 16 }

/-- The record's address in a cluster's list (11 R351). -/
def Dev.streamRecAt (d : Dev) (c index : Nat) : Nat := d.reg (0x3200 + c) 1 + 64 * index

/-! ### Access by the DMA engines (11 R362, R373, 10 R320, R321) -/

/-- What a transfer has done so far: whether it has recorded a refusal, whether it has met something bad, granules written. -/
structure Mover where
  dev : Dev
  noted : Bool
  bad : Bool
  granules : Nat

def Mover.fresh (d : Dev) : Mover := { dev := d, noted := false, bad := false, granules := 0 }

/-- The DMA engine that an address is reached through. -/
def dmaFor (c a : Nat) : Requester :=
  match regionOf a with
  | .bank k _ => .dma k
  | _ => .dma c

/-- Parts of a range by granule: start and length. -/
def pieceList (a n : Nat) : List (Nat × Nat) := (pieces a n).map fun p => (p, min (p / 256 * 256 + 256) (a + n) - p)

/-- Note the transfer's first refusal, and that it met something bad. -/
def Mover.refused (m : Mover) (r : Requester) (k : AccessKind) (p : Problem) : Mover :=
  { m with dev := if m.noted then m.dev else m.dev.noteProblem r k p, noted := true, bad := true }

/-- Read a range; zero where nothing could be read. None: a bank makes it wait. -/
def Mover.read (m : Mover) (c a n : Nat) : Option (Mover × List Byte) :=
  (pieceList a n).foldl (fun acc p => acc.bind fun (m, bs) =>
    let r := dmaFor c p.1
    match m.dev.problemAt r .read p.1 with
    | some .wait => none
    | some q => some (m.refused r .read q, bs ++ zeroBytes p.2)
    | none =>
      let (d, xs, bad) := m.dev.fetch none p.1 p.2
      some ({ m with dev := d, bad := m.bad || bad }, bs ++ xs)) (some (m, []))

/-- Write a range, where it may be written. None: a bank makes it wait. -/
def Mover.write (m : Mover) (c a : Nat) (bs : List Byte) : Option Mover :=
  ((pieceList a bs.length).foldl (fun acc p => acc.bind fun (m, bs) =>
    let r := dmaFor c p.1
    match m.dev.problemAt r .write p.1 with
    | some .wait => none
    | some q => some (m.refused r .write q, bs.drop p.2)
    | none =>
      some ({ m with dev := m.dev.store none p.1 (bs.take p.2), granules := m.granules + 1 }, bs.drop p.2))
    (some (m, bs))).map (·.1)

/-- Read a descriptor, list or table: its bytes, or none where it could not be read whole. What the transfer had met before
stays. The outer none: a bank makes it wait. -/
def Mover.fetch (m : Mover) (c a n : Nat) : Option (Mover × Option (List Byte)) :=
  (({ m with bad := false } : Mover).read c a n).map fun x =>
    ({ x.1 with bad := m.bad }, if x.1.bad then none else some x.2)

/-- Read a descriptor of `n` bytes from where it may lie. -/
def Mover.desc (m : Mover) (c a n : Nat) : Option (Mover × Option (List Byte)) :=
  if descPlaced a n then m.fetch c a n else some (m, none)

/-- Read the owner table of a distributed tensor. -/
def Mover.table (m : Mover) (c : Nat) (t : Tensor) : Option (Mover × Option (List Byte)) :=
  if t.dist && inOneRange t.owner (ownerTableLen t.nb) then m.fetch c t.owner (ownerTableLen t.nb) else some (m, none)

/-- Write what a transfer puts beside its data: its granules are not counted, and a refusal makes no block bad. -/
def Mover.side (m : Mover) (c a : Nat) (bs : List Byte) : Option Mover :=
  (m.write c a bs).map fun x => { x with bad := m.bad, granules := m.granules }

/-- Whether a source block is marked bad; a poisoned tensor without a map counts every block (11 R342, R373). -/
def Mover.marked (m : Mover) (c : Nat) (t : Tensor) (j : Nat) : Option (Mover × Bool) :=
  if t.badmap = 0 then some (m, t.poison)
  else (m.read c (t.badmap + j / 8) 1).map fun x => (x.1, (x.2.headD 0).getLsbD (j % 8))

/-- Set bit j of a bad-block map (11 R373). -/
def Mover.mark (m : Mover) (c : Nat) (t : Tensor) (j : Nat) : Option Mover :=
  if t.badmap = 0 then some m
  else
    let a := t.badmap + j / 8
    (m.fetch c a 1).bind fun x =>
      x.1.side c a [((x.2.getD []).headD 0) ||| BitVec.ofNat 8 (2 ^ (j % 8))]

/-! ### MOVE (11 R359, R360) -/

/-- The entries of a block list from its bytes; none listed: every block to itself. -/
def listEntries (r : StreamRec) (bs : List Byte) (nb : Nat) : List (Nat × Nat) :=
  if r.listCount = 0 then (List.range nb).map fun j => (j, j)
  else (List.range r.listCount).map fun k => (leNat ((bs.drop (8 * k)).take 4), leNat ((bs.drop (8 * k + 4)).take 4))

/-- Step 1 for a MOVE, but for its list. -/
def moveShape (s t : Tensor) : Bool :=
  s.etype = t.etype && s.bs = t.bs && s.rank = t.rank && s.blockDim = t.blockDim && s.blockSize = t.blockSize &&
    (List.range 6).all fun k => k = s.blockDim || s.size k = t.size k

/-- The list obeys the first two rules of R359. -/
def listOk (s t : Tensor) (es : List (Nat × Nat)) : Bool :=
  es.all fun e => e.1 < s.nb && e.2 < t.nb &&
    (s.blockRange e.1).2 - (s.blockRange e.1).1 = (t.blockRange e.2).2 - (t.blockRange e.2).1

/-- A part that copies a range; none to copy: a fill byte. -/
def copyPart (dst n : Nat) (src : Option Nat) (fill : Byte) : MovePart :=
  { dst := [(dst, n)], src := (src.map fun a => (a, n)).toList, fill := fill, limb := none }

/-- The parts of a block copied whole, with its scales. `sb` none: nothing of the source can be read. -/
def moveParts (s t : Tensor) (sb : Option Nat) (tb a b : Nat) : List MovePart :=
  let e := t.blockElems b
  let es := s.blockElems a
  let shift := fun (idx : List Nat) => idx.zipIdx.map fun p =>
    if p.2 + 1 = t.blockDim then p.1 - b * t.blockSize + a * s.blockSize else p.1
  let k := ceilDiv (e.2 - e.1) 32
  (t.blockRows b).flatMap fun idx =>
    copyPart (t.elemAddr tb b e.1 idx) (t.bytesOf (e.2 - e.1)) (sb.map fun x => s.elemAddr x a es.1 (shift idx)) 0 ::
      (if t.bs then
        [copyPart (t.scaleAddr tb b (e.1 / 32) idx) k (sb.map fun x => s.scaleAddr x a (es.1 / 32) (shift idx)) 0]
       else [])

def Dev.movePlan (d : Dev) (skip : Bool) (s t : Tensor) (os ot : Option (List Byte × Nat)) (es : List (Nat × Nat)) :
    List MoveBlock :=
  es.map fun e =>
    let ps := d.blockPlace s os e.1
    let pt := d.blockPlace t ot e.2
    let remote := ps.2.1 || pt.2.1
    let lost := (ps.2.2 && !ps.2.1) || (pt.2.2 && !pt.2.1)
    { block := e.2, bad := ps.2.2 || pt.2.2, skip := skip && remote && !lost, srcs := [e.1],
      parts := match pt.1 with
        | none => []
        | some tb => moveParts s t ps.1 tb e.1 e.2 }

/-! ### COPY and WINDOW (11 R364-R369) -/

/-- Source indices of a destination element under a permutation. -/
def permuted (perm full : List Nat) : List Nat :=
  (List.range 6).map fun j => (full.getD ((List.range 6).foldl (fun b k => if perm.getD k 9 = j then k else b) 0) 0)

def copyPlan (s t : Tensor) (perm : List Nat) : List MoveBlock :=
  (List.range t.nb).map fun b =>
    let e := t.blockElems b
    let rows := t.blockRows b
    let touched := rows.flatMap fun idx =>
      let ends := if s.blockDim = perm.getD 0 0 then (List.range (e.2 - e.1)).map (e.1 + ·) else [e.1]
      ends.map fun i => let j := permuted perm (i :: idx); s.blockOf (j.headD 0) j.tail
    { block := b, bad := false, skip := false, srcs := touched.eraseDups,
      parts := rows.flatMap fun idx =>
        let n := t.bytesOf (e.2 - e.1)
        let dst := t.elemAddr t.base b e.1 idx
        if perm.getD 0 0 = 0 then
          let j := (permuted perm (0 :: idx)).tail
          copyPart dst n (some (s.elemAddr s.base 0 e.1 j)) 0 ::
            (if t.bs then [copyPart (t.scaleAddr t.base b (e.1 / 32) idx) (ceilDiv (e.2 - e.1) 32)
              (some (s.scaleAddr s.base 0 (e.1 / 32) j)) 0] else [])
        else
          [{ dst := [(dst, n)], fill := 0, limb := none,
             src := (List.range (e.2 - e.1)).map fun i =>
               let j := permuted perm ((e.1 + i) :: idx)
               (s.elemAddr s.base 0 (j.headD 0) j.tail, s.bits / 8) }] }

/-- OUT of a window; negative where it has no position (11 R368). -/
def windowOut (r : StreamRec) (n : Nat) : Int :=
  ((n + r.padLo + r.padHi : Nat) - (r.dil * (r.kw - 1) : Nat) - 1 : Int) / r.wstride + 1

/-- Step 1 for a WINDOW (11 R368, R369). -/
def windowShape (r : StreamRec) (s t : Tensor) : Bool :=
  r.kw ≠ 0 && r.wstride ≠ 0 && r.dil ≠ 0 && s.etype = t.etype && s.bs = t.bs && s.rank ≤ 5 && t.rank = s.rank + 1 &&
  1 ≤ r.winDim && r.winDim < s.rank && t.size 0 = s.size 0 && t.size 1 = r.kw && 1 ≤ windowOut r (s.size r.winDim) &&
  (List.range 4).all fun k => s.rank ≤ k + 1 ||
    (if k + 1 = r.winDim then (t.size (k + 2) : Int) = windowOut r (s.size r.winDim) else t.size (k + 2) = s.size (k + 1))

/-- Elements e0 to e1 of a row, cut where a source block along dimension 0 ends. -/
def Tensor.rowCuts (s : Tensor) (e0 e1 : Nat) : List (Nat × Nat) :=
  if s.blockDim = 0 then
    (List.range (ceilDiv e1 s.blockSize - e0 / s.blockSize)).map fun k =>
      let j := e0 / s.blockSize + k
      (max e0 (j * s.blockSize), min e1 ((j + 1) * s.blockSize))
  else [(e0, e1)]

/-- What one destination row of a window takes: its parts, the source blocks that count for it, and whether one of these is
remote or lost (11 R347, R350, R368). -/
structure WindowRow where
  parts : List MovePart
  srcs : List Nat
  remote : Bool
  lost : Bool

def Dev.windowRow (d : Dev) (r : StreamRec) (s t : Tensor) (os : Option (List Byte × Nat)) (tb b : Nat) (idx : List Nat) :
    WindowRow :=
  let e := t.blockElems b
  let at_ : Int := ((idx.getD r.winDim 0) * r.wstride + (idx.getD 0 0) * r.dil : Nat) - (r.padLo : Int)
  let inside := 0 ≤ at_ && at_ < (s.size r.winDim : Int)
  let j := (List.range 5).map fun k => if k + 1 = r.winDim then at_.toNat else idx.getD (k + 1) 0
  let cuts := (s.rowCuts e.1 e.2).map fun x =>
    let k := s.blockOf x.1 j
    (x, k, d.blockPlace s os k)
  { srcs := if inside then cuts.map (·.2.1) else [], remote := inside && cuts.any fun x => x.2.2.2.1,
    lost := inside && cuts.any fun x => x.2.2.2.2 && !x.2.2.2.1,
    parts := cuts.flatMap fun x =>
      let lo := x.1.1
      let n := x.1.2 - lo
      let from_ := if inside then x.2.2.1 else none
      copyPart (t.elemAddr tb b lo idx) (t.bytesOf n) (from_.map fun a => s.elemAddr a x.2.1 lo j) 0 ::
        (if t.bs then [copyPart (t.scaleAddr tb b (lo / 32) idx) (ceilDiv n 32)
          (from_.map fun a => s.scaleAddr a x.2.1 (lo / 32) j) (if inside then 0 else 127)] else []) }

/-- A destination block that takes a row of a remote block is skipped when the record says so (11 R350; log entry 95). -/
def Dev.windowPlan (d : Dev) (r : StreamRec) (s t : Tensor) (os ot : Option (List Byte × Nat)) : List MoveBlock :=
  (List.range t.nb).map fun b =>
    let pt := d.blockPlace t ot b
    let rows := (t.blockRows b).map (d.windowRow r s t os (pt.1.getD 0) b)
    let remote := pt.2.1 || rows.any (·.remote)
    let lost := (pt.2.2 && !pt.2.1) || rows.any (·.lost)
    { block := b, bad := remote || lost, skip := r.skipRemote && remote && !lost, srcs := (rows.flatMap (·.srcs)).eraseDups,
      parts := if pt.1 = none then [] else rows.flatMap (·.parts) }

/-! ### CT_MOVE (11 R361) -/

/-- The units of the commit order, each as one block. -/
def limbPlan (s t : CtDesc) : List MoveBlock :=
  let t := { t with logN := s.logN, ntt := s.ntt }
  ((List.range s.level).flatMap fun i => (List.range s.polys).map fun p => (i, p)).zipIdx.map fun u =>
    { block := u.2, bad := false, skip := false, srcs := [],
      parts := [{ dst := t.limbPieces t.logN u.1.2 u.1.1, src := s.limbPieces s.logN u.1.2 u.1.1, fill := 0,
                  limb := some s.ntt }] }

/-- The bytes of a limb in the pieces of its destination, from those of its source. -/
def limbBytesTo (ntt : Bool) (pieces : Nat) (bs : List (List Byte)) : List Byte :=
  let ws := match bs with
    | [h0, h1] => joinHalves ntt (unpackWords h0) (unpackWords h1)
    | _ => unpackWords bs.flatten
  ((if pieces = 2 then splitHalves ntt ws else [ws]).map packWords).flatten

/-! ### Moving blocks (11 R373) -/

/-- Move one part. None: a bank makes it wait. -/
def Mover.part (m : Mover) (c : Nat) (p : MovePart) : Option Mover :=
  let n := p.dst.foldl (fun k r => k + r.2) 0
  ((p.src.foldl (fun acc r => acc.bind fun (m, bs) =>
      (m.read c r.1 r.2).map fun x => (x.1, bs ++ [x.2])) (some (m, []))).map fun x =>
    (x.1, if p.src = [] then List.replicate n p.fill
          else match p.limb with
            | some ntt => limbBytesTo ntt p.dst.length x.2
            | none => x.2.flatten.take n)).bind fun x =>
  (p.dst.foldl (fun acc r => acc.bind fun (y : Mover × List Byte) =>
    (y.1.write c r.1 (y.2.take r.2)).map fun m => (m, y.2.drop r.2)) (some x)).map (·.1)

/-- Granules that all prefetch streams may take from one stack in a tick: the share of its 4.5 TB/s over the period. -/
def Dev.stackShare (d : Dev) : Nat :=
  d.reg 0x3300 1 * 4500000000000 * d.reg 0x2000 4 / 100 / 1050000000 / 256

/-- Granule accesses of a part by stack, 8 standing for the scratchpads (11 R370). -/
def Dev.partCost (d : Dev) (p : MovePart) : Tbl Nat :=
  ((p.src ++ p.dst).flatMap fun r => pieces r.1 r.2).foldl (fun t a =>
    let k := match regionOf a with | .stack => d.stackOf a | _ => 8
    tset t k (tget t k 0 + 1)) []

/-- Grant a stream what the budgets leave: what it still owes, and the device with the budgets charged (11 R370). -/
def Dev.grantPrefetch (d : Dev) (c : Nat) (owed : Tbl Nat) : Dev × Tbl Nat :=
  owed.foldl (fun (p : Dev × Tbl Nat) x =>
    let d := p.1
    let room := d.reg (0x3200 + c) 3 - (d.cluster c).prefetchNow
    let share := if x.1 < 8 then d.stackShare - tget d.stk.prefetched x.1 0 else x.2
    let k := min x.2 (min room share)
    let d := d.modCluster c fun y => { y with prefetchNow := y.prefetchNow + k }
    let d := { d with stk := { d.stk with
      prefetched := if x.1 < 8 then tset d.stk.prefetched x.1 (tget d.stk.prefetched x.1 0 + k) else d.stk.prefetched } }
    (d, if k < x.2 then tset p.2 x.1 (x.2 - k) else p.2)) (d, [])

/-- How far the parts of a block came: the parts left, what the first of them owes, and whether the regulator stopped it. -/
structure PartsLeft where
  mover : Mover
  left : List MovePart
  owed : Option (Tbl Nat)
  paused : Bool

/-- Move parts in order. A regulated stream pays the granule accesses of a part before it moves it (11 R370, R371). -/
def partsGo (c : Nat) (regulated : Bool) (m : Mover) (ps : List MovePart) (owed : Option (Tbl Nat)) : PartsLeft :=
  match ps with
  | [] => ⟨m, [], none, false⟩
  | p :: r =>
    let x := if regulated then m.dev.grantPrefetch c (owed.getD (m.dev.partCost p)) else (m.dev, [])
    let m := { m with dev := x.1 }
    if x.2 ≠ [] then ⟨m, p :: r, some x.2, true⟩
    else match m.part c p with
      | none => ⟨m, p :: r, some [], false⟩
      | some m => partsGo c regulated m r none

/-- The end of a block: the bits of its source blocks, and its own bit where it is bad (11 R373). None: a bank makes it
wait. -/
def Mover.closeBlock (m : Mover) (c : Nat) (s t : Tensor) (b : MoveBlock) : Option Mover :=
  (b.srcs.foldl (fun acc j => acc.bind fun (m : Mover) =>
    (m.marked c s j).map fun x => { x.1 with bad := x.1.bad || x.2 }) (some m)).bind fun m =>
  if m.bad then (m.mark c t b.block).map fun m => { m with dev := m.dev.bump (0x3200 + c) 8 1 } else some m

/-- The tensors of a stream whose blocks have bad-block maps; a limb has none. -/
def StreamRun.ends (x : StreamRun) : Tensor × Tensor :=
  if (StreamRec.parse x.bytes).kind = 4 then (Tensor.parse 0 [], Tensor.parse 0 [])
  else (Tensor.parse x.srcAt x.srcDesc, Tensor.parse x.dstAt x.dstDesc)

/-- Count a destination block as bad. -/
def StreamRun.addBad (x : StreamRun) (j : Nat) : StreamRun :=
  { x with blocksBad := x.blocksBad + 1, firstBad := min x.firstBad j }

/-- Move blocks in list order; `true`: the regulator stopped them (11 R371, R373). -/
def blocksGo (c : Nat) (regulated : Bool) (m : Mover) (x : StreamRun) (bs : List MoveBlock) : Mover × StreamRun × Bool :=
  match bs with
  | [] => (m, { x with todo := [], owed := none }, false)
  | b :: r =>
    if b.skip then blocksGo c regulated m { x with blocksDone := x.blocksDone + 1, skipped := x.skipped + 1 } r
    else
      let y := partsGo c regulated { m with bad := x.blockBad || b.bad } b.parts x.owed
      let stay := { x with todo := { b with parts := y.left } :: r, owed := y.owed, blockBad := y.mover.bad }
      if y.left ≠ [] then (y.mover, stay, y.paused)
      else match y.mover.closeBlock c x.ends.1 x.ends.2 b with
        | none => (y.mover, stay, false)
        | some m =>
          let x := if m.bad then x.addBad b.block else x
          blocksGo c regulated m { x with blocksDone := x.blocksDone + 1, blockBad := false, owed := none } r

/-- A stream's mover, as it stands. -/
def StreamRun.mover (x : StreamRun) (d : Dev) : Mover := { dev := d, noted := x.noted, bad := false, granules := x.granules }

/-- The stream as a mover leaves it. -/
def StreamRun.after (x : StreamRun) (m : Mover) : StreamRun := { x with noted := m.noted, granules := m.granules }

def StreamRun.prefetch (x : StreamRun) : Bool := (StreamRec.parse x.bytes).prefetch

/-- A stream in service. -/
def StreamRun.active (x : StreamRun) : Bool := x.phase = .running || x.phase = .paused

/-- Let a stream move as far as the regulator and the banks allow. Each pause of a prefetch stream is counted (11 R371, R377). -/
def Dev.advance (d : Dev) (c : Nat) (x : StreamRun) : Dev × StreamRun :=
  let (m, y, paused) := blocksGo c x.prefetch (x.mover d) x x.todo
  let y := { y.after m with phase := if paused then .paused else .running }
  (if paused && x.phase ≠ .paused then m.dev.bump 0x3300 2 1 else m.dev, y)

/-! ### Start (11 R353, R357) -/

/-- What a stream that passes its checks will do: the addresses of its descriptors with their bytes, the owner tables it has
latched, its blocks, and descriptor bytes to be written at its end. -/
structure StreamPlan where
  srcAt : Nat
  dstAt : Nat
  srcDesc : List Byte
  dstDesc : List Byte
  owners : List (Nat × Nat × Nat)
  blocks : List MoveBlock
  out : List Byte
  noop : Nat

/-- A stream's outcome at its start: a bank makes it wait; it is refused; or it goes on under a plan, with the status it will
have if nothing is bad. -/
inductive Started where
  | waits
  | refused (m : Mover) (status : BitVec 8)
  | goes (m : Mover) (status : BitVec 8) (p : StreamPlan)

/-- The table of a distributed tensor with the half in force, and what the stream latches of it (11 R349). -/
def Tensor.latch (t : Tensor) (tb : Option (List Byte)) : Option (List Byte × Nat) × List (Nat × Nat × Nat) :=
  match tb with
  | some b => let a := ownerActive b; (some (b, a.1), [(t.owner, a.1, a.2)])
  | none => (none, if t.dist then [(t.owner, 0, 0)] else [])

/-- The start of a MOVE or a WINDOW. -/
def Dev.startMove (d : Dev) (c : Nat) (r : StreamRec) (good : Bool) (window : Bool) : Started :=
  match ((Mover.fresh d).desc c r.src 128).bind fun (m, a) => (m.desc c r.dst 128).map fun (m, b) => (m, a, b) with
  | none => .waits
  | some (m, a, b) =>
    let s := Tensor.parse r.src (a.getD [])
    let t := Tensor.parse r.dst (b.getD [])
    let listLen := if window then 0 else 8 * r.listCount
    if !good ∨ a = none ∨ b = none ∨ !s.sound ∨ !t.sound ∨ !inOneRange r.list listLen then .refused m stBounds
    else
      match (m.table c s).bind fun (m, x) => (m.table c t).bind fun (m, y) => (m.fetch c r.list listLen).map fun (m, l) =>
          (m, x, y, l) with
      | none => .waits
      | some (m, x, y, l) =>
        let os := s.latch x
        let ot := t.latch y
        let plan : List MoveBlock → StreamPlan := fun bs =>
          { srcAt := r.src, dstAt := r.dst, srcDesc := a.getD [], dstDesc := b.getD [], owners := os.2 ++ ot.2, blocks := bs,
            out := [], noop := 0 }
        if window then
          if !windowShape r s t then .refused m stBounds
          else if tensorsOverlap s t then .refused m stOverlap
          else .goes m stOk (plan (m.dev.windowPlan r s t os.1 ot.1))
        else
          let es := listEntries r (l.getD []) s.nb
          if l = none ∨ !moveShape s t ∨ !listOk s t es then .refused m stBounds
          else if tensorsOverlap s t ∨ !(es.map (·.2)).Nodup then .refused m stOverlap
          else .goes m stOk (plan (m.dev.movePlan r.skipRemote s t os.1 ot.1 es))

/-- Read the two tensors that a copy descriptor names. -/
def Mover.copyEnds (m : Mover) (c : Nat) (k : CopyDesc) : Option (Mover × Option (List Byte × List Byte)) :=
  (m.desc c k.src 128).bind fun (m, a) => (m.desc c k.dst 128).map fun (m, b) =>
    (m, a.bind fun x => b.map fun y => (x, y))

/-- The start of a COPY (11 R364, R366). -/
def Dev.startCopy (d : Dev) (c : Nat) (r : StreamRec) (good : Bool) : Started :=
  match ((Mover.fresh d).desc c r.src 64).bind fun (m, a) =>
      (m.copyEnds c (CopyDesc.parse (a.getD []))).map fun (m, e) => (m, a, e) with
  | none => .waits
  | some (m, a, e) =>
    let k := CopyDesc.parse (a.getD [])
    match e with
    | none => .refused m stBounds
    | some (x, y) =>
      let s := Tensor.parse k.src x
      let t := Tensor.parse k.dst y
      let st := copyStatus s t k.perm
      if !good ∨ a = none ∨ !k.sound then .refused m stBounds
      else if st ≠ stOk then .refused m st
      else .goes m stOk { srcAt := k.src, dstAt := k.dst, srcDesc := x, dstDesc := y, owners := [], out := [],
                          blocks := if k.noop then [] else copyPlan s t k.perm, noop := if k.noop then t.nb else 0 }

/-- The start of a CT_MOVE (11 R357, R361). A refused one writes its destination under 03 R90. -/
def Dev.startCtMove (d : Dev) (c : Nat) (r : StreamRec) (good : Bool) : Started :=
  match ((Mover.fresh d).desc c r.src 64).bind fun (m, a) => (m.desc c r.dst 64).map fun (m, b) => (m, a, b) with
  | none => .waits
  | some (m, a, b) =>
    let s : Operand := { addr := r.src, desc := CtDesc.parse (a.getD []), placed := a.isSome }
    let t : Operand := { addr := r.dst, desc := CtDesc.parse (b.getD []), placed := b.isSome }
    let x := s.desc
    let why := firstFailed [
      ⟨good && d.inputForm s && d.destForm t x.logN x.polys && x.level ≤ t.desc.alloc, stBounds, r.src⟩,
      ⟨!x.torn, stTorn, r.src⟩, ⟨d.live x.pset ≠ none, stUncommitted, r.src⟩,
      ⟨!overlaps (x.storage x.logN x.polys) (t.desc.storage x.logN x.polys), stOverlap, r.dst⟩]
    match why with
    | some w =>
      if t.placed then
        match m.side c r.dst (t.desc.refusedAs w.status m.dev.tickNumber).bytes with
        | none => .waits
        | some m => .refused { m with dev := m.dev.countPoison true } w.status
      else .refused m w.status
    | none =>
      .goes m stOk { srcAt := r.src, dstAt := r.dst, srcDesc := a.getD [], dstDesc := b.getD [], owners := [],
                     blocks := limbPlan x t.desc, out := [], noop := 0 }

/-- The start of a CREATE (11 R343, R344, R364): it moves no block, and a creation that fails is no fault. No field of the
record says which of the two descriptors it creates; at a multiple of 128 either may be meant, and a free bit decides (log
entry 24). -/
def Dev.startCreate (d : Dev) (c : Nat) (r : StreamRec) (good : Bool) : Started :=
  let (w, d) := d.drawWord
  let copy := r.src % 128 ≠ 0 || w.getLsbD 0
  let none_ : StreamPlan := { srcAt := r.src, dstAt := r.src, srcDesc := [], dstDesc := [], owners := [], blocks := [], out := [],
                              noop := 0 }
  match (Mover.fresh d).desc c r.src (if copy then 64 else 128) with
  | none => .waits
  | some (m, none) => .goes m stBounds none_
  | some (m, some b) =>
    if !good then .goes m stBounds none_
    else if copy then
      let k := CopyDesc.parse b
      match m.copyEnds c k with
      | none => .waits
      | some (m, e) =>
        let x := createdCopy b (e.map fun y => (Tensor.parse k.src y.1, Tensor.parse k.dst y.2))
        .goes m x.2 { none_ with out := x.1 }
    else
      match m.table c (Tensor.parse r.src b) with
      | none => .waits
      | some (m, tb) =>
        let x := m.dev.createdTensor r.src b (tb.getD [])
        .goes m x.2 { none_ with out := x.1 }

/-- Clusters whose windows some ranges touch. -/
def clustersOf (rs : List (Nat × Nat)) : List Nat :=
  (rs.filterMap fun r => match regionOf r.1 with | .bank c _ => some c | _ => none).eraseDups

/-- Clusters that a stream reaches with its blocks, maps, descriptor and record (11 R362). -/
def StreamPlan.reaches (p : StreamPlan) (c status : Nat) : List Nat :=
  let maps := if p.blocks.all fun b => b.srcs = [] then []
    else [((Tensor.parse 0 p.srcDesc).badmap, 1), ((Tensor.parse 0 p.dstDesc).badmap, 1)]
  (c :: clustersOf ((p.blocks.flatMap fun b => b.parts.flatMap fun x => x.src ++ x.dst) ++ maps ++ [(p.dstAt, 1), (status, 1)])).eraseDups

/-- A record of a list as it starts. -/
def StreamRun.of (record : Nat) (bytes : List Byte) (index : Nat) (frame : BitVec 64) (clock : Nat) : StreamRun :=
  { record := record, bytes := bytes, index := index, frame := frame, phase := .running, status := 0, srcAt := 0, dstAt := 0,
    srcDesc := [], dstDesc := [], owners := [], reaches := [], todo := [], owed := none, blockBad := false, noted := false,
    out := [], blocksDone := 0, blocksBad := 0, firstBad := 0xFFFFFFFF, skipped := 0, granules := 0, startedAt := clock,
    endsAt := none }

/-- Add a stream to a cluster's streams. -/
def Dev.addStream (d : Dev) (c : Nat) (x : StreamRun) : Dev :=
  d.modCluster c fun y => { y with streams := y.streams ++ [x] }

/-- Start record `index` of a cluster's list as a stream of one of some kinds. A demand stream moves its data by its end; a
prefetch stream moves now what its budgets allow (log entry 95). -/
def Dev.startStream (d0 : Dev) (c index : Nat) (kinds : List Nat) (ups : List Upset)
    (f : Dev → StreamRec → Bool → Started) : Dev :=
  let at_ := d0.streamRecAt c index
  match (Mover.fresh d0).fetch c at_ 64 with
  | none => d0
  | some (m0, read) =>
    let bytes := read.getD []
    let r := StreamRec.parse bytes
    let core := 16 * c + r.startCore
    let evt := tget (d0.core core).events r.startEvt 0
    let frame := (d0.tick.frame.map (·.number)).getD 0
    if !d0.frameOpen ∨ d0.reg (0x3200 + c) 2 ≤ index ∨ d0.faults.holds (.cluster c) ∨
        d0.power.withholding.contains c ∨ (d0.cluster c).streams.any (fun s => s.index = index && s.frame = frame) ∨
        8 ≤ d0.dmaRunning c ∨ !(kinds.contains r.kind || (4 < r.kind && kinds.contains 1)) ∨
        (r.start = 1 ∧ ((d0.core core).frame ≠ .inFrame ∨ evt = 0)) then d0
    else if read = none then m0.dev
    else
      let d := m0.dev
      let d := if r.start = 1 then d.modCore core fun k => { k with events := tset k.events r.startEvt (evt - 1) } else d
      let good := r.kind ≤ 4 && r.start ≤ 1 && r.status % 64 = 0
      let run := StreamRun.of at_ bytes index frame d.clock
      match f (d.addUpsets ups) r good with
      | .waits => d0
      | .refused m st =>
        (((m.dev.bump (0x3200 + c) 7 1).faultUc 0x0A c at_ 0 st 0).countRefusal).addStream c
          { run.after m with status := st, reaches := (c :: clustersOf [(r.status, 1)]).eraseDups }
      | .goes m st p =>
        let run := { run.after m with
          status := st, srcAt := p.srcAt, dstAt := p.dstAt, srcDesc := p.srcDesc, dstDesc := p.dstDesc, owners := p.owners,
          reaches := p.reaches c r.status, todo := p.blocks, out := p.out, granules := 0, blocksDone := p.noop,
          endsAt := if p.noop ≠ 0 then some (d.clock + 16) else none }
        if r.prefetch then
          let (d, run) := m.dev.advance c run
          d.addStream c run
        else m.dev.addStream c run

def execStreamCreate (cluster index : Nat) (s : State) : Host.Outcome State Fault Refusal :=
  s.onDev fun d => d.startStream cluster index [0] [] fun d r good => d.startCreate cluster r good

def execMove (cluster index : Nat) (ups : List Upset) (s : State) : Host.Outcome State Fault Refusal :=
  s.onDev fun d => d.startStream cluster index [1] ups fun d r good => d.startMove cluster r good false

def execCopy (cluster index : Nat) (ups : List Upset) (s : State) : Host.Outcome State Fault Refusal :=
  s.onDev fun d => d.startStream cluster index [2] ups fun d r good => d.startCopy cluster r good

def execWindow (cluster index : Nat) (ups : List Upset) (s : State) : Host.Outcome State Fault Refusal :=
  s.onDev fun d => d.startStream cluster index [3] ups fun d r good => d.startMove cluster r good true

def execCtMove (cluster index : Nat) (ups : List Upset) (s : State) : Host.Outcome State Fault Refusal :=
  s.onDev fun d => d.startStream cluster index [4] ups fun d r good => d.startCtMove cluster r good

/-! ### The end of a stream (11 R356, R358) -/

/-- A signal that a unit of the device sends to a core (11 R356, 12 R385). -/
def Dev.deviceSignal (d : Dev) (n : Nat) (e : BitVec 4) : Dev :=
  let c := d.core n
  if c.frame = .inFrame then
    match c.signal? e.toNat with
    | some c => d.setCore n c
    | none => d.programFault n .execute 0x07 c.exe.pc
  else d.setCore n { c with heldSignals := c.heldSignals ++ [e] }

/-- Cycle from the current tick's barrier. -/
def Dev.cycleAt (d : Dev) (clock : Nat) : Nat := min (clock - ((d.tick.frame.map (·.barrierAt)).getD 0)) 0xFFFFFFFF

def Dev.tickCycle (d : Dev) : Nat := d.cycleAt d.clock

/-- Replace a stream's entry. -/
def Dev.setStream (d : Dev) (c : Nat) (old new : StreamRun) : Dev :=
  d.modCluster c fun x => { x with streams := x.streams.map fun y => if y = old then new else y }

/-- The status record's bytes (11 R358). -/
def Dev.streamRecord (d : Dev) (x : StreamRun) : List Byte :=
  mkRecord 64 [(0, 8, x.status.toNat), (32, 32, x.blocksDone), (64, 32, x.blocksBad), (96, 32, x.firstBad),
    (128, 32, x.skipped), (160, 32, (x.owners.map (·.2.2)).headD 0), (192, 64, x.granules), (256, 64, d.tickNumber),
    (320, 32, d.cycleAt (x.endsAt.getD d.clock))]

/-- Write a stream's status record, as one DMA write, and signal; while a bank makes the write wait, the record is owed (11
R356, R358, 10 R324, R332). -/
def Dev.writeStreamStatus (d : Dev) (c : Nat) (old x : StreamRun) : Dev :=
  let r := StreamRec.parse x.bytes
  match (x.mover d).side c r.status (d.streamRecord x) with
  | none => d.setStream c old { x with phase := .owing }
  | some m =>
    let d := m.dev.setStream c old { x.after m with phase := .finished }
    let d := if x.status = stPoison then d.countPoison false else d
    let d := if x.status = stOk ∨ x.status = stPoison ∨ r.kind = 0 then d.bump (0x3200 + c) 6 1 else d
    if r.doneEn then d.deviceSignal (16 * c + r.doneCore) r.doneEvt else d

/-- What a stream writes at its end beside its record: the created descriptor; the destination descriptor of a CT_MOVE (03
R73, R75, R96); byte 121 of a tensor with bad blocks (11 R373). Its status. None: a bank makes it wait. -/
def StreamRun.finish (x : StreamRun) (m : Mover) (c : Nat) : Option (Mover × BitVec 8) :=
  let kind := (StreamRec.parse x.bytes).kind
  if x.out ≠ [] then (m.side c x.dstAt x.out).map fun m => (m, x.status)
  else if x.status ≠ stOk ∨ kind = 0 then some (m, x.status)
  else if kind = 4 then
    let s := CtDesc.parse x.srcDesc
    let poison := s.poison || x.blocksBad ≠ 0
    (m.side c x.dstAt ((CtDesc.parse x.dstDesc).completedAs s poison m.dev.tickNumber).bytes).map fun m =>
      if poison then ({ m with dev := m.dev.countPoison true }, stPoison) else (m, stOk)
  else if x.blocksBad ≠ 0 then
    (m.side c (x.dstAt + 121) [1]).map fun m => ({ m with dev := m.dev.countPoison true }, stPoison)
  else some (m, stOk)

/-- STREAM_DONE: what is left to move, then what the stream writes at its end, its record, and its event. -/
def Dev.streamDone (d : Dev) (c index : Nat) : Dev :=
  if d.faults.holds (.cluster c) then d
  else match (d.cluster c).streams.find? fun s => s.index = index && s.phase ≠ .finished with
  | none => d
  | some s =>
    if s.phase = .owing then d.writeStreamStatus c s s
    else
      let (e, x) := d.advance c s
      if x.todo ≠ [] then e.setStream c s x
      else match x.finish (x.mover e) c with
        | none => e.setStream c s x
        | some (m, st) => m.dev.writeStreamStatus c s { x.after m with status := st }

def execStreamDone (cluster index : Nat) (s : State) : Host.Outcome State Fault Refusal :=
  s.onDev fun d => d.streamDone cluster index

/-! ### Drops and stops (11 R354, R372, R374) -/

/-- Mix old and new bytes by free bits (11 R374). -/
def mixBytes (draw : Nat) (olds news : List Byte) : List Byte :=
  match olds, news with
  | o :: os, w :: ws => (if (Config.freeWord draw).getLsbD 0 then w else o) :: mixBytes (draw + 1) os ws
  | _, _ => []

/-- Pieces hold, byte by byte, what stands there or the new bytes. -/
def Dev.mixPieces (d : Dev) (ps : Pieces) : Dev :=
  ps.foldl (fun (d : Dev) p =>
    let bs := mixBytes d.draw (d.rd p.1 p.2.length) p.2
    ({ d with draw := d.draw + bs.length }).wr p.1 bs) d

/-- What moving some blocks would write, range by range, block by block. -/
def Mover.wouldWrite (m : Mover) (c : Nat) (bs : List MoveBlock) : List Pieces :=
  (bs.filter fun b => !b.skip).map fun b => b.parts.flatMap fun p => match m.part c p with
    | some n => p.dst.map fun r => (r.1, n.dev.rd r.1 r.2)
    | none => []

/-- Every listed block from some block on is marked bad, and so is the tensor (11 R374). -/
def StreamRun.spoil (x : StreamRun) (m : Mover) (c : Nat) (bs : List MoveBlock) : Mover × StreamRun :=
  let t := x.ends.2
  let m := bs.foldl (fun (m : Mover) b => { (m.mark c t b.block).getD m with bad := false }) m
  let m := (m.side c (x.dstAt + 121) [1]).getD m
  ({ m with dev := (m.dev.bump (0x3200 + c) 8 bs.length).countPoison true },
   bs.foldl (fun x b => x.addBad b.block) { x with todo := [], owed := none })

/-- Stop a stream in service: a free count of its blocks is complete, each byte of the rest is old or new, and the rest is
marked bad or, for a limb, torn; the record will say ABORTED (11 R374). A refused stream keeps its status. -/
def Dev.stopStream (d : Dev) (c : Nat) (s : StreamRun) : Dev × StreamRun :=
  let kind := (StreamRec.parse s.bytes).kind
  let gone (d : Dev) (x : StreamRun) : Dev × StreamRun :=
    let x := { x with phase := .owing }
    (d.setStream c s x, x)
  if s.status ≠ stOk ∧ kind ≠ 0 then gone d s
  else if kind = 0 then gone d { s with status := stAborted }
  else
    let (v, d) := d.drawUnits s.todo.length
    let (m, x, _) := blocksGo c false (s.mover d) s (s.todo.take v)
    let x := x.after m
    let rest := x.todo ++ s.todo.drop v
    let news := ({ m with bad := false } : Mover).wouldWrite c rest
    let (w, e) := m.dev.drawWord
    let granules := x.granules + w.toNat % ((news.flatMap fun u => u.flatMap fun p => pieces p.1 p.2.length).length + 1)
    if kind = 4 then
      let src := CtDesc.parse s.srcDesc
      let e := e.tearUnits 0 news
      let torn := { (CtDesc.parse s.dstDesc).completedAs src src.poison e.tickNumber with
        valid := x.blocksDone, torn := true, lastStatus := stAborted.toNat }
      let m := { m with dev := if src.poison then e.countPoison true else e }
      let m := (m.side c s.dstAt torn.bytes).getD m
      gone m.dev { x.after m with status := stAborted, granules := granules, todo := [], owed := none }
    else
      let (m, x) := x.spoil { m with dev := news.foldl (fun d u => d.mixPieces u) e } c rest
      gone m.dev { x.after m with status := stAborted, granules := granules }

/-- Stop a stream and write its status record now. -/
def Dev.abortStream (d : Dev) (c : Nat) (s : StreamRun) : Dev :=
  let (d, s) := d.stopStream c s
  d.writeStreamStatus c s s

/-- A demand stream of the list that has not started when every core has exited is dropped (11 R354). A record that cannot be
read names no place for its status. -/
def Dev.dropStreams (d : Dev) (c : Nat) : Dev :=
  let frame := (d.tick.frame.map (·.number)).getD 0
  (List.range (min (d.reg (0x3200 + c) 2) 1024)).foldl (fun d i =>
    let at_ := d.streamRecAt c i
    let read := ((Mover.fresh d).fetch c at_ 64).bind (·.2)
    let x : StreamRun := { StreamRun.of at_ (read.getD []) i frame d.clock with
      phase := if read = none then .finished else .owing, status := stAborted, reaches := [c] }
    if x.prefetch || (d.cluster c).streams.any (fun s => s.index = i && s.frame = frame) then d
    else
      let d := ((d.bump (0x3200 + c) 7 1).faultUc 0x0A c at_ 0 stAborted 0).addStream c x
      if read = none then d else d.writeStreamStatus c x x) d

/-- Write the records that a cluster's streams owe. -/
def Dev.payStreams (d : Dev) (c : Nat) : Dev :=
  (d.cluster c).streams.foldl (fun d s => if s.phase = .owing then d.writeStreamStatus c s s else d) d

/-- An owner table that a stream latched has turned, or cannot be read any more (11 R372; log entry 95). -/
def Dev.tableTurned (d : Dev) (c : Nat) (o : Nat × Nat × Nat) : Bool :=
  match (Mover.fresh d).fetch c o.1 64 with
  | none => false
  | some (_, b) => (b.map ownerActive) ≠ some (o.2.1, o.2.2)

/-- The regulator and the owner tables at a tick boundary (11 R371, R372): budgets are restored, a prefetch stream whose
table has turned stops, and paused ones go on. -/
def Dev.prefetchBoundary (d : Dev) : Dev :=
  let d := { d with stk := { d.stk with prefetched := [] } }
  let d := d.clusters.foldl (fun d p =>
    (d.setReg (0x3200 + p.1) 4 (d.cluster p.1).prefetchNow).modCluster p.1 fun x => { x with prefetchNow := 0 }) d
  d.clusters.foldl (fun d p =>
    (d.cluster p.1).streams.foldl (fun d s =>
      if s.prefetch ∧ s.active then
        if s.owners.any (d.tableTurned p.1) then d.abortStream p.1 s
        else
          let (d, x) := d.advance p.1 { s with phase := .running }
          d.setStream p.1 s x
      else d) d) d

end Sys2Proof.Machine
end

