-- ==== Sys2Proof/Machine/Fill.lean ====
section
/-! DEFINITION. The counter-based generator and the fills of a frame (15 R473-R476). -/

namespace Sys2Proof.Machine

/-- JOB_SEED, byte 0 first (15 R474). -/
def Dev.jobSeed (d : Dev) : List Byte := (List.range 4).flatMap fun k => leBytes 8 (d.reg 0x2030 (k + 1))

/-- The block of generator words that holds element e of stream s at tick value g (15 R473). -/
def genBlock (seed : List Byte) (s g e : Nat) : List Byte :=
  chachaBlock seed (e / 8) (leBytes 4 s ++ leBytes 8 g)

/-- Generator word w(s, g, e). -/
def genWord (seed : List Byte) (s g e : Nat) : Nat := leNat (((genBlock seed s g e).drop (8 * (e % 8))).take 8)

/-- A fill record (15 R475). -/
structure FillRec where
  tensor : Nat
  dist : Nat
  stream : Nat
  e0 : Nat
  doneCore : Nat
  doneEvt : BitVec 4
  doneEn : Bool
  status : Nat
  deriving DecidableEq, Repr

def FillRec.parse (b : List Byte) : FillRec :=
  let v := leNat b
  { tensor := bitsAt v 0 48, dist := bitsAt v 48 4, stream := bitsAt v 64 32, e0 := bitsAt v 128 35,
    doneCore := bitsAt v 176 12, doneEvt := BitVec.ofNat 4 (bitsAt v 188 4), doneEn := v.testBit 192,
    status := bitsAt v 256 48 }

/-- The element of a distribution: RAW32, or UNIT, whose 24-bit integer scaled by 2^-24 is exact in fp32. -/
def fillElem (dist w : Nat) : Nat :=
  if dist = 0 then w % 2 ^ 32
  else
    let m := w / 2 ^ 40
    if m = 0 then 0 else (Nat.log2 m + 103) <<< 23 + (m <<< (23 - Nat.log2 m)) % 2 ^ 23

/-- Number of a tensor element in row order. -/
def Tensor.elemNumber (t : Tensor) (i0 : Nat) (idx : List Nat) : Nat :=
  i0 + t.size 0 * (idx.zip (t.sizes.drop 1)).foldr (fun p n => p.1 + p.2 * n) 0

/-- The checks of R476. -/
def fillOk (r : FillRec) (t : Tensor) : Bool :=
  t.sound && !t.dist && !t.bs && ((r.dist = 0 && t.etype = 5) || (r.dist = 1 && t.etype = 0)) &&
    r.e0 + t.sizes.foldl (· * ·) 1 ≤ 2 ^ 35

/-- What a fill writes of a block: each row's part, with its address. -/
def FillRun.blockPieces (x : FillRun) (j : Nat) : Pieces :=
  let r := FillRec.parse x.bytes
  let t := Tensor.parse r.tensor x.desc
  let e := t.blockElems j
  (t.blockRows j).map fun idx =>
    (t.elemAddr t.base j e.1 idx, (List.range (e.2 - e.1)).flatMap fun k =>
      leBytes 4 (fillElem r.dist (genWord x.seed r.stream x.gen (r.e0 + t.elemNumber (e.1 + k) idx))))

def FillRun.tensor (x : FillRun) : Tensor := Tensor.parse (FillRec.parse x.bytes).tensor x.desc

def FillRun.mover (x : FillRun) (d : Dev) : Mover := { dev := d, noted := x.noted, bad := false, granules := x.granules }

def FillRun.after (x : FillRun) (m : Mover) : FillRun := { x with noted := m.noted, granules := m.granules }

def FillRun.addBad (x : FillRun) (j : Nat) : FillRun := { x with blocksBad := x.blocksBad + 1, firstBad := min x.firstBad j }

/-- Write one block; a bad one is marked (11 R373). None: a bank makes it wait. -/
def FillRun.block (x : FillRun) (m : Mover) (j : Nat) : Option Mover :=
  ((x.blockPieces j).foldl (fun (acc : Option Mover) p => acc.bind fun m => m.write 0 p.1 p.2)
    (some { m with bad := false })).bind fun m => if m.bad then m.mark 0 x.tensor j else some m

/-- Write blocks in order, as far as the banks allow. -/
def fillGo (m : Mover) (x : FillRun) (js : List Nat) : Mover × FillRun :=
  match js with
  | [] => (m, { x with todo := [] })
  | j :: r => match x.block m j with
    | none => (m, { x with todo := j :: r })
    | some m =>
      let x := if m.bad then x.addBad j else x
      fillGo m { x with blocksDone := x.blocksDone + 1 } r

/-- FILL: the next record of the list is read and checked; a refused fill writes only its status record. -/
def Dev.startFill (d : Dev) : Dev :=
  let k := d.tick
  match k.frame with
  | none => d
  | some f =>
    let at_ := k.fillList + 64 * k.fillNext
    if !f.barrier ∨ k.fillCount ≤ k.fillNext ∨ k.fill ≠ none then d
    else match (Mover.fresh d).fetch 0 at_ 64 with
    | none => d
    | some (m, read) =>
      let bytes := read.getD []
      let r := FillRec.parse bytes
      match m.desc 0 r.tensor 128 with
      | none => d
      | some (m, b) =>
        let t := Tensor.parse r.tensor (b.getD [])
        let ok := b ≠ none ∧ fillOk r t ∧ r.status % 64 = 0
        let x : FillRun :=
          { record := at_, bytes := bytes, status := if ok then stOk else stBounds, desc := b.getD [], seed := d.jobSeed,
            gen := f.genTick.toNat,
            reaches := if ok then clustersOf (t.ranges ++ [(t.badmap, 1), (r.tensor, 1), (r.status, 1)]) else [],
            todo := if ok then List.range t.nb else [], owing := false, noted := m.noted, blocksDone := 0, blocksBad := 0,
            firstBad := 0xFFFFFFFF, granules := 0 }
        let d := m.dev.modTick fun y => { y with fill := if read = none then none else some x, fillNext := y.fillNext + 1 }
        if ok then d else (d.faultUc 0x0F 0 at_ 5 stBounds 0).countRefusal

def execFill (s : State) : Host.Outcome State Fault Refusal := s.onDev Dev.startFill

def Dev.setFill (d : Dev) (x : Option FillRun) : Dev := d.modTick fun k => { k with fill := x }

/-- Write the status record of the fill in service, in the layout of R358, and signal; while a bank makes the write wait, the
record is owed. -/
def Dev.writeFillStatus (d : Dev) (x : FillRun) : Dev :=
  let r := FillRec.parse x.bytes
  let bytes := mkRecord 64 [(0, 8, x.status.toNat), (32, 32, x.blocksDone), (64, 32, x.blocksBad), (96, 32, x.firstBad),
    (192, 64, x.granules), (256, 64, d.tickNumber), (320, 32, d.tickCycle)]
  match (x.mover d).side 0 r.status bytes with
  | none => d.setFill (some { x with owing := true })
  | some m =>
    let d := m.dev.setFill none
    let d := if x.status = stPoison then d.countPoison false else d
    if r.doneEn then d.deviceSignal r.doneCore r.doneEvt else d

/-- FILL_DONE: what is left to write, byte 121 of a tensor with bad blocks, and the status record. -/
def Dev.fillDone (d : Dev) : Dev :=
  match d.tick.fill with
  | none => d
  | some x =>
    if x.owing then d.writeFillStatus x
    else
      let (m, y) := fillGo (x.mover d) x x.todo
      let y := y.after m
      if y.todo ≠ [] then m.dev.setFill (some y)
      else if y.blocksBad = 0 then m.dev.writeFillStatus y
      else match m.side 0 (y.tensor.addr + 121) [1] with
        | none => m.dev.setFill (some y)
        | some m => (m.dev.countPoison true).writeFillStatus { y.after m with status := stPoison }

def execFillDone (s : State) : Host.Outcome State Fault Refusal := s.onDev Dev.fillDone

/-- A reset of cluster `c` stops a fill that reaches it: a free count of its blocks is complete, the rest is marked bad, and
its record says ABORTED (11 R362, R374). -/
def Dev.stopFill (d : Dev) (c : Nat) : Dev :=
  match d.tick.fill with
  | none => d
  | some x =>
    if !x.reaches.contains c ∨ x.owing then d
    else
      let (v, d) := d.drawUnits x.todo.length
      let (m, y) := fillGo (x.mover d) x (x.todo.take v)
      let rest := y.todo ++ x.todo.drop v
      let news := rest.map fun j => match (y.after m).block { m with bad := false } j with
        | some n => (y.blockPieces j).map fun p => (p.1, n.dev.rd p.1 p.2.length)
        | none => []
      let m := { m with dev := news.foldl (fun d u => d.mixPieces u) m.dev, bad := false }
      let m := rest.foldl (fun (m : Mover) j => (m.mark 0 x.tensor j).getD m) m
      let m := (m.side 0 (x.tensor.addr + 121) [1]).getD m
      (m.dev.countPoison true).writeFillStatus
        { rest.foldl (fun y j => y.addBad j) (y.after m) with status := stAborted, todo := [] }

end Sys2Proof.Machine
end

