-- ==== Sys2Proof/Machine/Elements.lean ====
section
/-! DEFINITION. Elements of tensors as numbers, and the element programs of the vector engine (12 R386-R392). -/

namespace Sys2Proof.Machine

/-! ### Loading and storing elements (02 R52-R55, 12 R388, R389) -/

/-- The floating format of an element type. -/
def etypeFloat (e : Nat) : Option Fmt :=
  match e with
  | 0 => some fp32
  | 1 => some bf16
  | 2 => some fp16
  | 3 => some fp8e4m3
  | 4 => some fp8e5m2
  | _ => none

/-- Bits of element i of a row's bytes. -/
def elemBits (bits i : Nat) (row : Nat) : Nat := bitsAt row (i * bits) bits

/-- The value of an encoded element, before any block factor. -/
def elemNumber (etype x : Nat) : FVal :=
  match etypeFloat etype with
  | some f => f.decode x
  | none => fvalOfInt (signed x (match etype with | 5 => 32 | 6 => 8 | _ => 4)) 0

/-- An element times its block's factor; a scale byte of 255 reads as NaN (02 R55). -/
def scaledNumber (etype x scale : Nat) : FVal :=
  match scaleFactor scale with
  | some k => (elemNumber etype x).shift k
  | none => .nan

/-- What a register takes from an element of a type (12 R388). -/
def loadElem (etype : Nat) (bs : Bool) (esExp x scale : Nat) : BitVec 64 :=
  if bs then BitVec.ofNat 64 (fp32.encode (scaledNumber etype x scale))
  else match etypeFloat etype with
    | some f => BitVec.ofNat 64 (fp32.encode (f.decode x))
    | none =>
      if etype = 8 then BitVec.ofNat 64 x
      else if etype = 9 then BitVec.ofNat 64 (fp32.encode (fvalOfInt (signed x 96) ((esExp : Int) - 207)))
      else BitVec.ofNat 64 (wrapInt (signed x (match etype with | 5 => 32 | 6 => 8 | _ => 4)) 32)

/-- The loaded element is a NaN or an infinity. -/
def loadNonfinite (etype : Nat) (bs : Bool) (r : BitVec 64) : Bool :=
  (bs || (etypeFloat etype).isSome) && !(fp32.decode (bitsAt r.toNat 0 32)).isFinite

/-- Rounding a value to a format saturates (02 R53). -/
def Fmt.saturates (f : Fmt) (v : FVal) : Bool :=
  match v with
  | .nan => false
  | .inf _ => !f.hasInf
  | .num _ m e =>
    if m = 0 then false
    else
      let emin : Int := 1 - (f.bias : Int)
      let top : Int := max ((Nat.log2 m : Int) + e) emin
      decide (f.maxCode < (top - emin).toNat * 2 ^ f.mbits + scaleRne m (e - (top - f.mbits)))

/-- Conversion to an integer type saturates. -/
def intSaturates (v : FVal) (w : Nat) : Bool :=
  match v with
  | .nan => false
  | .inf _ => true
  | .num _ _ _ => let x := v.toIntRne.getD 0; x < -(2 ^ (w - 1) : Nat) || ((2 ^ (w - 1) : Nat) : Int) ≤ x

/-- Width of an integer element type. -/
def intWidth (etype : Nat) : Nat := match etype with | 5 => 32 | 6 => 8 | _ => 4

/-- Bits stored for a value in an element type, and whether it saturated. -/
def storeNumber (etype : Nat) (v : FVal) : Nat × Bool :=
  match etypeFloat etype with
  | some f => (f.encode v, f.saturates v)
  | none => (wrapInt (v.toIntSat (intWidth etype)) (intWidth etype), intSaturates v (intWidth etype))

/-- The largest finite value of an element format (02 R52). -/
def etypeMax (etype : Nat) : FVal :=
  match etypeFloat etype with
  | some f => f.decode f.maxCode
  | none => fvalOfInt ((2 ^ (intWidth etype - 1) : Nat) - 1) 0

/-- The smallest k in a range with amax ≤ fmax × 2^k, from k on. -/
def scaleSearch (n : Nat) (k : Int) (amax fmax : FVal) : Int :=
  match n with
  | 0 => k
  | m + 1 => if FVal.lt? (fmax.shift k) amax = some true then scaleSearch m (k + 1) amax fmax else k

/-- The scale byte of an output block (12 R389). -/
def blockScale (etype : Nat) (vs : List FVal) : Nat :=
  let amax := vs.foldl (fun (a : FVal) v => if FVal.lt? a v.abs = some true then v.abs else a) (.num false 0 0)
  if vs.any (·.isNan) then 255
  else if vs.any (fun v => !v.isFinite) then 254
  else if amax.isZero then 127
  else (127 + scaleSearch 600 (-300) amax (etypeMax etype)).toNat |> min 254

/-- Bits stored for a block of a block-scaled output, its scale, and its count of saturated elements. -/
def storeBlock (etype : Nat) (vs : List FVal) : List Nat × Nat × Nat :=
  let s := blockScale etype vs
  let r := vs.map fun v => storeNumber etype (v.shift (127 - (s : Int)))
  (r.map (·.1), s, (r.filter (·.2)).length)

/-- Stored bits are a NaN or an infinity. -/
def storedNonfinite (etype x : Nat) : Bool :=
  match etypeFloat etype with
  | some f => !(f.decode x).isFinite
  | none => false

/-- A row's elements packed (11 R338). -/
def packRow (bits : Nat) (xs : List Nat) : List Byte :=
  leBytes ((xs.length * bits + 7) / 8) (xs.foldr (fun x acc => x % 2 ^ bits + acc <<< bits) 0)

/-! ### Element instructions (12 R390, R391) -/

structure ElemInstr where
  op : Nat
  d : Nat
  a : Nat
  b : Nat
  c : Nat
  imm : Nat
  deriving DecidableEq, Repr

def ElemInstr.parse (w : Nat) : ElemInstr :=
  { op := bitsAt w 26 6, d := bitsAt w 22 4, a := bitsAt w 18 4, b := bitsAt w 14 4, c := bitsAt w 10 4,
    imm := bitsAt w 0 10 }

/-- A defined opcode and field values. -/
def ElemInstr.defined (i : ElemInstr) : Bool :=
  (1 ≤ i.op && i.op ≤ 0x12 && (i.op ≠ 0x0D || i.imm % 4 ≤ 2) && (i.op ≠ 0x0E || i.imm ≤ 2)) ||
    (0x18 ≤ i.op && i.op ≤ 0x20) || i.op = 0x24 || i.op = 0x25 || (0x28 ≤ i.op && i.op ≤ 0x2D)

/-- An instruction that needs the modulus. -/
def ElemInstr.residue (i : ElemInstr) : Bool := 0x28 ≤ i.op && i.op ≤ 0x2D

/-- Cycles per group. -/
def ElemInstr.cycles (i : ElemInstr) : Nat :=
  if 0x09 ≤ i.op ∧ i.op ≤ 0x0C then 4 else if i.op = 0x1A ∨ i.op = 0x2C then 2 else 1

/-- Round to an integral value: 0 nearest even, 1 toward -∞, 2 toward zero. -/
def FVal.roundTo (v : FVal) (mode : Nat) : FVal :=
  match v with
  | .num n m e =>
    if 0 ≤ e then v
    else
      let k := (-e).toNat
      let q := m >>> k
      let exact := q <<< k = m
      let r := if mode = 0 then shrRne m k else if mode = 1 ∧ n ∧ !exact then q + 1 else q
      .num n r 0
  | x => x

/-- A ≤ B, A < B or A = B by IMM; NaN gives false. -/
def fcmp (imm : Nat) (a b : FVal) : Bool :=
  match FVal.lt? a b, FVal.lt? b a with
  | some l, some g => if imm = 0 then l else if imm = 1 then !g else !l && !g
  | _, _ => false

/-- The smaller or the larger of two values. Which of two zeros of opposite sign results is free (log entry 6). -/
def fminmax (larger : Bool) (a b : FVal) : FVal :=
  if a.isNan || b.isNan then .nan
  else if a.isZero && b.isZero && a.isNeg != b.isNeg then .num (Config.zeroSign 0) 0 0
  else if FVal.lt? a b = some true then (if larger then b else a) else if larger then a else b

/-- The modulus of a job: q, whether it is sparse, and the job's constants. -/
structure ElemEnv where
  q : Nat
  sparse : Bool
  consts : List Nat

/-- The result of one instruction on registers, and whether an fp32 or int32 result saturated. -/
def ElemInstr.run (i : ElemInstr) (env : ElemEnv) (f : List (BitVec 64)) : BitVec 64 × Bool :=
  let reg := fun k => f.getD k 0
  let w32 := fun k => bitsAt (reg k).toNat 0 32
  let fl := fun k => fp32.decode (w32 k)
  let wd := fun k => bitsAt (reg k).toNat 0 36
  let simm := signed i.imm 10
  let out := fun (v : FVal) => (BitVec.ofNat 64 (fp32.encode v), fp32.saturates v)
  let int := fun (x : Int) => (BitVec.ofNat 64 (wrapInt x 32), false)
  let nat := fun (x : Nat) => (BitVec.ofNat 64 x, false)
  let sh := i.imm % 32
  match i.op with
  | 0x01 => out ((fl i.a).add (fl i.b))
  | 0x02 => out ((fl i.a).sub (fl i.b))
  | 0x03 => out ((fl i.a).mul (fl i.b))
  | 0x04 => out (((fl i.a).mul (fl i.b)).add (fl i.c))
  | 0x05 => out (fminmax false (fl i.a) (fl i.b))
  | 0x06 => out (fminmax true (fl i.a) (fl i.b))
  | 0x07 => out (fl i.a).abs
  | 0x08 => out (fl i.a).neg
  | 0x09 => out (FVal.div (.num false 1 0) (fl i.a))
  | 0x0A => if (fl i.a).isZero then ((Config.openFloat 0x0A (w32 i.a)).zeroExtend 64, false)
            else out (FVal.div (.num false 1 0) (fl i.a).sqrt)
  | 0x0B => out (fl i.a).exp2
  | 0x0C => out (fl i.a).log2
  | 0x0D => out ((fl i.a).roundTo (i.imm % 4))
  | 0x0E => out (if fcmp i.imm (fl i.a) (fl i.b) then .num false 1 0 else .num false 0 0)
  | 0x0F => (if w32 i.c ≠ 0 then reg i.a else reg i.b, false)
  | 0x10 => out ((fl i.a).shift simm)
  | 0x11 => nat (env.consts.getD (i.imm % 8) 0)
  | 0x12 => (reg i.a, false)
  | 0x18 => int ((w32 i.a : Int) + w32 i.b)
  | 0x19 => int ((w32 i.a : Int) - w32 i.b)
  | 0x1A => int ((w32 i.a : Int) * w32 i.b)
  | 0x1B => nat (w32 i.a &&& w32 i.b)
  | 0x1C => nat (w32 i.a ||| w32 i.b)
  | 0x1D => nat (w32 i.a ^^^ w32 i.b)
  | 0x1E => nat ((w32 i.a <<< sh) % 2 ^ 32)
  | 0x1F => int (signed (w32 i.a) 32 >>> sh)
  | 0x20 => nat (w32 i.a >>> sh)
  | 0x24 => out (fvalOfInt (signed (w32 i.a) 32) 0)
  | 0x25 => (BitVec.ofNat 64 (wrapInt ((fl i.a).toIntSat 32) 32), intSaturates (fl i.a) 32)
  | 0x28 => nat (resOf env.q ((((fl i.a).shift simm).toIntRne).getD 0))
  | 0x29 => out (fvalOfInt (liftQ env.q (wd i.a % env.q)) (-simm))
  | 0x2A => nat (resAdd env.q (wd i.a) (wd i.b))
  | 0x2B => nat (resSub env.q (wd i.a) (wd i.b))
  | 0x2C => nat (resMul env.q (wd i.a) (wd i.b))
  | _ => nat (resToMont env.q env.sparse (wd i.a))

/-- Run a program on the registers of one element: the registers, and how many results saturated. -/
def runElem (env : ElemEnv) (prog : List ElemInstr) (f : List (BitVec 64)) : List (BitVec 64) × Nat :=
  prog.foldl (fun p i =>
    let r := i.run env p.1
    (p.1.set i.d r.1, if r.2 then p.2 + 1 else p.2)) (f, 0)

end Sys2Proof.Machine
end

