-- ==== Sys2Proof/Machine/Vector.lean ====
section
/-! DEFINITION. The vector engine: job records, the order of job checks, MAP, ENCODE and DECODE, completion, drops and
stops (12 R378-R401). -/

namespace Sys2Proof.Machine

/-! ### Job records (12 R379) -/

structure VeRec where
  kind : Nat
  start : Nat
  startEvt : Nat
  core : Nat
  doneEvt : BitVec 4
  doneEn : Bool
  plen : Nat
  prog : Nat
  ins : List Nat
  outs : List Nat
  modIdx : Nat
  pset : Nat
  logN : Nat
  level : Nat
  layout : Nat
  mont : Bool
  scale : Nat
  esExp : Nat
  status : Nat
  consts : List Nat
  deriving DecidableEq, Repr

def VeRec.parse (b : List Byte) : VeRec :=
  let v := leNat b
  { kind := bitsAt v 0 4, start := bitsAt v 4 2, startEvt := bitsAt v 6 4, core := bitsAt v 10 4,
    doneEvt := BitVec.ofNat 4 (bitsAt v 14 4), doneEn := v.testBit 18, plen := bitsAt v 19 5 + 1, prog := bitsAt v 64 16,
    ins := (List.range 4).map fun k => bitsAt v (64 * k + 128) 48,
    outs := (List.range 2).map fun k => bitsAt v (64 * k + 384) 48,
    modIdx := bitsAt v 512 6, pset := bitsAt v 518 4, logN := bitsAt v 522 5, level := bitsAt v 527 6,
    layout := bitsAt v 533 8, mont := v.testBit 541, scale := bitsAt v 544 32, esExp := bitsAt v 576 8,
    status := bitsAt v 640 48, consts := (List.range 8).map fun k => bitsAt v (32 * k + 768) 32 }

/-- Everything a job's checks look at: the record, its tensors by slot, its program, its plaintext operand. -/
structure VeJob where
  r : VeRec
  cluster : Nat
  ins : List (Nat × Tensor)
  outs : List (Nat × Tensor)
  readable : Bool
  prog : List ElemInstr
  plain : Operand

/-- The requester of a job: the core that it names (10 R318). -/
def VeJob.who (j : VeJob) : Requester := .vector j.cluster j.r.core

/-- Descriptors that a job names: inputs, then outputs. -/
def VeRec.tensorsIn (r : VeRec) : List Nat := if r.kind = 2 then [] else if r.kind = 1 then r.ins.take 1 else r.ins
def VeRec.tensorsOut (r : VeRec) : List Nat := if r.kind = 1 then [] else if r.kind = 2 then r.outs.take 1 else r.outs
def VeRec.plain (r : VeRec) : List Nat :=
  if r.kind = 1 then r.outs.take 1 else if r.kind = 2 then r.ins.take 1 else []

/-- Read a tensor descriptor that a job names. -/
def Dev.veTensor (d : Dev) (a : Nat) : Dev × Tensor × Bool :=
  if descPlaced a 128 then
    let (d, bs, bad) := d.fetch none a 128
    (d, Tensor.parse a bs, !bad)
  else (d, Tensor.parse a [], false)

def Dev.veTensors (d : Dev) (as : List Nat) : Dev × List (Nat × Tensor) × Bool :=
  as.zipIdx.foldl (fun acc x =>
    if x.1 = 0 then acc
    else
      let (d, t, ok) := acc.1.veTensor x.1
      (d, acc.2.1 ++ [(x.2, t)], acc.2.2 && ok)) (d, [], true)

/-- Gather what a job names. -/
def Dev.veJob (d : Dev) (c : Nat) (r : VeRec) : Dev × VeJob :=
  let words := (List.range r.plen).map fun k => ElemInstr.parse (d.rdLe (coreAddr (16 * c + r.core) (r.prog + 4 * k)) 4)
  let (d, plain) := match r.plain with
    | a :: _ => d.readOperand a
    | [] => (d, ⟨0, CtDesc.parse [], false⟩)
  let (d, ins, ok1) := d.veTensors r.tensorsIn
  let (d, outs, ok2) := d.veTensors r.tensorsOut
  (d, { r := r, cluster := c, ins := ins, outs := outs, readable := ok1 && ok2, prog := if r.kind = 0 then words else [],
        plain := plain })

/-! ### Checks (12 R382, R386, R387) -/

/-- A range lies in a cluster's window. -/
def inWindow (c a n : Nat) : Bool := clusterAddr c 0 ≤ a && a + n ≤ clusterAddr (c + 1) 0

/-- A tensor passes R345, is not distributed, and lies in a cluster's window. -/
def Tensor.inCluster (t : Tensor) (c : Nat) : Bool :=
  let h := t.hull
  t.sound && !t.dist && (clusterAddr c 0 : Int) ≤ h.1 && h.2 < (clusterAddr (c + 1) 0 : Int) &&
    (!t.bs || inWindow c t.scaleRef t.scaleLen) && (t.badmap = 0 || inWindow c t.badmap t.mapLen)

/-- Shapes of a MAP job (12 R386). -/
def mapShape (ins outs : List Tensor) : Bool :=
  match outs with
  | [] => false
  | o :: more => (ins ++ more).all (fun t => t.rank = o.rank) && more.all (fun t => t.sizes = o.sizes) &&
      (ins.all fun t => (List.range 6).all fun k => t.size k = o.size k || t.size k = 1) &&
      outs.all fun t => t.etype ≠ 9

/-- Elements of the sequence that a plaintext holds (12, before R393). -/
def seqCount (layout logN : Nat) (bgv : Bool) : Nat :=
  if layout = 0 ∨ layout = 0x30 ∨ (0xF0 ≤ layout ∧ bgv) then 2 ^ logN else 2 ^ logN / 2

def Tensor.count (t : Tensor) : Nat := t.sizes.foldl (· * ·) 1

/-- The LAYOUT suits the scheme (03 R82, 12 R393, R394). -/
def layoutSuits (layout : Nat) (bgv : Bool) : Bool := if bgv then layout = 0 || layout = 0x30 || 0xF0 ≤ layout else layout ≠ 0x30

/-- An output is identical to an input (12 R387). -/
def inPlace (a b : Tensor) : Bool :=
  a.base = b.base && a.etype = b.etype && a.bs = b.bs && a.sizes = b.sizes && a.strides = b.strides &&
    a.scaleRef = b.scaleRef

/-- Two tensors' hulls, with scales, meet. -/
def tensorsMeet (a b : Tensor) : Bool := a.ranges.any fun x => b.ranges.any fun y => rangesMeet x.1 x.2 y.1 y.2

/-- A job needs its parameter set live. -/
def VeJob.needsSet (j : VeJob) : Bool :=
  j.r.kind ≠ 0 || j.prog.any (·.residue) || j.ins.any (fun t => t.2.etype = 8) || j.outs.any fun t => t.2.etype = 8

/-- Banks that a job touches. -/
def VeJob.banks (j : VeJob) : List (Nat × Nat) :=
  let ts := (j.ins ++ j.outs).map (·.2)
  (banksOf [(j.r.status, 64)] ++ banksOf (ts.flatMap fun t => (t.addr, 128) :: t.ranges ++ (if t.badmap = 0 then [] else [(t.badmap, t.mapLen)])) ++
    (if j.r.kind = 0 then []
     else banksOf [(j.plain.addr, 64)] ++
       (let t := j.plain.desc
        if j.r.kind = 1 then { t with logN := j.r.logN }.banks 1 j.r.level else t.banks 1 t.level))).eraseDups

/-- Steps 1 to 6 (12 R382). -/
def Dev.veChecks (d : Dev) (j : VeJob) : List Check :=
  let r := j.r
  let ins := j.ins.map (·.2)
  let outs := j.outs.map (·.2)
  let v := d.live r.pset
  let vals := d.vals r.pset
  let bgv := vals.scheme = 1
  let t := j.plain.desc
  let logN := if r.kind = 1 then r.logN else t.logN
  let layout := if r.kind = 1 then r.layout else t.layout
  let form := r.kind ≤ 2 && r.start ≤ 1 && r.status % 64 = 0 && j.readable && (ins ++ outs).all (·.inCluster j.cluster) &&
    (if r.kind = 0 then
       mapShape ins outs && j.prog.all (·.defined) && 0x100 ≤ r.prog && r.prog % 4 = 0 && r.prog + 4 * r.plen ≤ 0x10000
     else
       t.placement = 1 && t.cluster0 = j.cluster && logN ≤ 16 &&
         (if r.kind = 1 then
            12 ≤ r.logN && 1 ≤ r.level && r.level ≤ 60 && layoutDefined r.layout && layoutFits r.layout r.logN &&
              d.destForm j.plain r.logN 1 && (ins.map (·.count)) = [seqCount layout logN bgv]
          else d.inputForm j.plain && outs.map (·.count) = [seqCount layout logN bgv] && (!bgv || outs.all fun o => o.etype = 5) &&
            outs.all fun o => o.etype ≠ 9))
  [⟨form, stBounds, 0⟩, ⟨r.kind ≠ 2 || !t.torn, stTorn, 0⟩, ⟨!j.needsSet || v ≠ none, stUncommitted, 0⟩,
   ⟨!j.needsSet || (r.modIdx < vals.count &&
      (r.kind = 0 ||
        (logN ≤ vals.logNMax.toNat && (if r.kind = 1 then r.level else t.level) ≤ vals.l && layoutSuits layout bgv &&
          vals.scheme.toNat ≤ 1 &&
          (layout ≠ 0x30 || (isPrimeMr vals.plainMod.toNat && vals.plainMod.toNat % 2 ^ (logN + 1) = 1)) &&
          (r.kind = 1 || (t.isPlain && !t.ntt && t.level ≤ 8))))), stMismatch, 0⟩,
   ⟨r.kind ≠ 1 || r.level ≤ t.alloc, stBounds, 0⟩,
   ⟨(outs.all fun o => ins.all fun i => inPlace o i || !tensorsMeet o i) &&
      !(match outs with | [a, b] => tensorsMeet a b | _ => false) &&
      (r.kind = 0 || (let st := t.storage logN (if r.kind = 1 then 1 else t.polys)
        (ins ++ outs).all fun x => x.ranges.all fun y => st.all fun z => !rangesMeet y.1 y.2 z.1 z.2)), stOverlap, 0⟩]

/-! ### Rows (12 R388, R389, R392) -/

/-- A row of a tensor as read: its bytes as a number, its scale bytes, whether it met an uncorrectable error. -/
def Dev.readRow (d : Dev) (t : Tensor) (idx : List Nat) : Dev × Nat × List Byte × Bool :=
  let (d, bs, bad) := d.fetch none (t.elemAddr t.base 0 0 idx) t.rb
  let (d, sc, bad2) := if t.bs then d.fetch none (t.scaleAddr t.base 0 0 idx) t.nb0 else (d, [], false)
  (d, leNat bs, sc, bad || bad2)

/-- A range holds a poisoned granule or an uncorrectable word. -/
def Dev.spoilt (d : Dev) (a n : Nat) : Bool :=
  (granules a n).any (fun g => d.mem.poison.contains g) || (d.upsetsIn a n).any fun u => u.kind = .uncorrectable

/-- The blocks of a row whose bytes or scales were delivered bad. -/
def Dev.badBlocks (d : Dev) (t : Tensor) (idx : List Nat) : List Nat :=
  if t.blockDim ≠ 0 then [t.blockOf 0 idx]
  else (List.range t.nb).filter fun b =>
    let r := t.blockRange b
    d.spoilt (t.elemAddr t.base 0 r.1 idx) (t.bytesOf (r.2 - r.1)) ||
      (t.bs && d.spoilt (t.scaleAddr t.base 0 (r.1 / 32) idx) (ceilDiv (r.2 - r.1) 32))

/-- Row indices of an input for an output row: index 0 along dimensions of size one. -/
def Tensor.broadcast (t : Tensor) (idx : List Nat) : List Nat :=
  idx.zipIdx.map fun p => if t.size (p.2 + 1) = 1 then 0 else p.1

/-- Read the rows that an output row takes. -/
def Dev.readRows (d : Dev) (ins : List (Nat × Tensor)) (idx : List Nat) :
    Dev × List (Nat × Tensor × Nat × List Byte) × List (Nat × Nat) :=
  ins.foldl (fun acc x =>
    let i := x.2.broadcast idx
    let (d, v, sc, bad) := acc.1.readRow x.2 i
    let hit := if bad then (d.badBlocks x.2 i).map fun b => (x.1, b) else []
    (d, acc.2.1 ++ [(x.1, x.2, v, sc)], acc.2.2 ++ hit)) (d, [], [])

/-- Registers of element i0 before the program, and how many loads were not finite. -/
def loadRegs (esExp i0 : Nat) (rows : List (Nat × Tensor × Nat × List Byte)) : List (BitVec 64) × Nat :=
  rows.foldl (fun p x =>
    let t := x.2.1
    let i := if t.size 0 = 1 then 0 else i0
    let v := loadElem t.etype t.bs esExp (elemBits t.bits i x.2.2.1) ((x.2.2.2.getD (i / 32) 127).toNat)
    (p.1.set x.1 v, if loadNonfinite t.etype t.bs v then p.2 + 1 else p.2)) (List.replicate 16 0, 0)

/-- What an output register stands for as a number: fp32 for floating-point and block-scaled types, else int32. -/
def regNumber (t : Tensor) (f : BitVec 64) : FVal :=
  if t.bs ∨ (etypeFloat t.etype).isSome then fp32.decode (bitsAt f.toNat 0 32)
  else fvalOfInt (signed (bitsAt f.toNat 0 32) 32) 0

/-- Split a list into blocks of 32. -/
def chunks32 (n : Nat) (xs : List FVal) : List (List FVal) :=
  match n with
  | 0 => []
  | k + 1 => xs.take 32 :: chunks32 k (xs.drop 32)

/-- Bytes of an output row and its scales, with the counts of saturated and of nonfinite elements. -/
def storeRow (t : Tensor) (vs : List FVal) : List Byte × List Byte × Nat × Nat :=
  if t.bs then
    let bs := (chunks32 t.nb0 vs).map (storeBlock t.etype)
    let xs := bs.flatMap (·.1)
    (packRow t.bits xs, bs.map fun b => BitVec.ofNat 8 b.2.1, bs.foldl (fun n b => n + b.2.2) 0,
      (xs.filter (storedNonfinite t.etype)).length)
  else
    let xs := vs.map (storeNumber t.etype)
    (packRow t.bits (xs.map (·.1)), [], (xs.filter (·.2)).length, (xs.filter fun x => storedNonfinite t.etype x.1).length)

/-- What an output row will hold, with its scales. -/
def Tensor.rowPieces (t : Tensor) (idx : List Nat) (data scales : List Byte) : Pieces :=
  (t.elemAddr t.base 0 0 idx, data) :: (if t.bs then [(t.scaleAddr t.base 0 0 idx, scales)] else [])

/-- What a job has done: device, counts, bad blocks of inputs by slot, and what each row will hold. Rows never interact, and an
output that meets an input is that input, so that no row reads what another has written (12 R387, R392). -/
structure VeWork where
  dev : Dev
  sat : Nat
  nonfinite : Nat
  bad : List (Nat × Nat)
  units : List Pieces

def Tensor.rows (t : Tensor) : List (List Nat) := indexLists ((List.range 5).map fun k => (0, t.size (k + 1)))

/-- One output row of a MAP job. -/
def VeJob.mapRow (j : VeJob) (env : ElemEnv) (o : Tensor) (w : VeWork) (idx : List Nat) : VeWork :=
  let (d, rows, bad) := w.dev.readRows j.ins idx
  let els := (List.range (o.size 0)).map fun i =>
    let l := loadRegs j.r.esExp i rows
    let r := runElem env j.prog l.1
    (r.1, r.2, l.2)
  let w := { w with dev := d, bad := w.bad ++ bad, units := w.units ++ [[]],
                    sat := w.sat + els.foldl (fun n e => n + e.2.1) 0,
                    nonfinite := w.nonfinite + els.foldl (fun n e => n + e.2.2) 0 }
  j.outs.foldl (fun (w : VeWork) x =>
    let t := x.2
    let regs := els.map fun e => e.1.getD (14 + x.1) 0
    let (data, scales, sat, nf) :=
      if t.etype = 8 then (packRow 36 (regs.map fun f => bitsAt f.toNat 0 36 % env.q), [], 0, 0)
      else storeRow t (regs.map (regNumber t))
    { w with sat := w.sat + sat, nonfinite := w.nonfinite + nf,
             units := w.units.dropLast ++ [w.units.getLastD [] ++ t.rowPieces idx data scales] }) w

/-! ### Poison (12 R399) -/

/-- Blocks of an input that are bad: marked ones, all of a poisoned one without a map, and those met in reading. -/
def Dev.badInputs (d : Dev) (r : Requester) (ins : List (Nat × Tensor)) (met : List (Nat × Nat)) :
    Dev × List (Nat × List Nat) :=
  ins.foldl (fun (w : Dev × List (Nat × List Nat)) x =>
    let (d, marked) := w.1.markedBlocks none r x.2
    (d, w.2 ++ [(x.1, (List.range x.2.nb).filter fun b => marked.contains b || met.contains (x.1, b))])) (d, [])

/-- The blocks of each output that poisoned inputs make bad (12 R399). -/
def spoiltBlocks (ins outs : List (Nat × Tensor)) (bad : List (Nat × List Nat)) : List (List Nat) :=
  outs.map fun o =>
    let t := o.2
    (ins.flatMap fun i =>
      let bs := (bad.find? fun b => b.1 = i.1).map (·.2) |>.getD []
      if bs = [] ∧ !i.2.poison then []
      else if i.2.blockDim = t.blockDim ∧ i.2.blockSize = t.blockSize then bs else List.range t.nb).eraseDups

/-! ### Costs (12 R397, R398) -/

def granulesIn (a n : Nat) : Nat := if n = 0 then 0 else (a + n - 1) / 256 - a / 256 + 1

def rowGranules (t : Tensor) (idx : List Nat) : Nat :=
  granulesIn (t.elemAddr t.base 0 0 idx) t.rb + (if t.bs then granulesIn (t.scaleAddr t.base 0 0 idx) t.nb0 else 0)

def VeJob.mapCost (j : VeJob) (o : Tensor) : Nat :=
  let p := (j.prog.map (·.cycles)).foldl (· + ·) 0
  64 + (o.rows.map fun idx =>
    let gin := (j.ins.map fun x => rowGranules x.2 (x.2.broadcast idx)).foldl (· + ·) 0
    let gout := (j.outs.map fun x => rowGranules x.2 idx).foldl (· + ·) 0
    2 + max (ceilDiv (o.size 0) 64 * p) (max (ceilDiv gin 4) (ceilDiv gout 2))).foldl (· + ·) 0

/-! ### The three kinds -/

/-- A job's outcome: device, status, rows done, counts, what its rows hold, the blocks of its outputs that are bad, what an
ENCODE writes, and its stated cost. -/
structure VeDone where
  dev : Dev
  status : BitVec 8
  rows : Nat
  sat : Nat
  nonfinite : Nat
  units : List Pieces
  spoils : List (List Nat)
  effect : Effect
  stated : Nat

/-- A job without its tensor, which its checks have refused. -/
def VeDone.nothing (d : Dev) : VeDone := ⟨d, stBounds, 0, 0, 0, [], [], .nothing, 0⟩

def Dev.runMap (d : Dev) (j : VeJob) : VeDone :=
  let v := d.vals j.r.pset
  let env : ElemEnv := { q := v.q j.r.modIdx, sparse := v.sparse j.r.modIdx, consts := j.r.consts }
  match j.outs with
  | [] => .nothing d
  | o :: _ =>
    let rows := o.2.rows
    let w := rows.foldl (j.mapRow env o.2) { dev := d, sat := 0, nonfinite := 0, bad := [], units := [] }
    let (e, bad) := w.dev.badInputs j.who j.ins w.bad
    let poison := bad.any (fun b => b.2 ≠ []) || j.ins.any fun x => x.2.poison
    ⟨e, if poison then stPoison else stOk, rows.length, min w.sat 0xFFFFFFFF, min w.nonfinite 0xFFFFFFFF, w.units,
     if poison then spoiltBlocks j.ins j.outs bad else [], .nothing, j.mapCost o.2⟩

/-- The elements of an input tensor in row order, as registers, with what reading met. -/
def Dev.sequence (d : Dev) (t : Tensor) (esExp : Nat) : Dev × List (BitVec 64) × List (Nat × Nat) :=
  t.rows.foldl (fun acc idx =>
    let (d, rows, bad) := acc.1.readRows [(0, t)] idx
    (d, acc.2.1 ++ (List.range (t.size 0)).map fun i => (loadRegs esExp i rows).1.getD 0 0, acc.2.2 ++ bad)) (d, [], [])

/-- The number that a loaded element is. -/
def seqNumber (t : Tensor) (r : BitVec 64) : FVal :=
  if t.etype = 8 then fvalOfInt (bitsAt r.toNat 0 36) 0
  else if t.bs ∨ t.etype = 9 ∨ (etypeFloat t.etype).isSome then fp32.decode (bitsAt r.toNat 0 32)
  else fvalOfInt (signed (bitsAt r.toNat 0 32) 32) 0

/-- Bits of a magnitude. -/
def bitLength (x : Nat) : Nat := if x = 0 then 0 else Nat.log2 x + 1

/-- ENCODE (12 R393-R395). -/
def Dev.runEncode (d : Dev) (j : VeJob) : VeDone :=
  let r := j.r
  let v := d.vals r.pset
  match j.ins with
  | [] => .nothing d
  | x :: _ =>
    let t := x.2
    let (e, regs, met) := d.sequence t r.esExp
    let nums := regs.map (seqNumber t)
    let bgv := v.scheme = 1
    let clean := nums.map fun n => if n.isFinite then n else .num false 0 0
    let tm := v.plainMod.toNat
    let ints := regs.map fun w => resOf tm (signed (bitsAt w.toNat 0 32) 32)
    let m : List Int :=
      if bgv then
        (if r.layout = 0x30 then bgvEncode tm r.logN ints else ints).map fun x => liftQ tm x
      else if r.layout = 0 then coeffEncode r.logN r.scale clean else ckksEncode r.logN r.scale clean
    let limbs := (List.range r.level).map fun i => m.map fun x =>
      let w := resOf (v.q i) x
      if r.mont then resToMont (v.q i) (v.sparse i) w else w
    let noise := if bgv then 16 * bitLength (tm / 2) else 16 * bitLength (m.foldl (fun a x => max a x.natAbs) 0)
    let own := j.plain.desc
    let res : CtDesc := { own with
      tag := 0, pset := r.pset, logN := r.logN, kind := 1, polys := 1, level := r.level, layout := r.layout, ntt := false,
      noise := min noise 0xFFFF, scale := if bgv then 1 else r.scale }
    let (e, bad) := e.badInputs j.who j.ins met
    let poison := t.poison || bad.any fun b => b.2 ≠ []
    let effect : Effect :=
      { units := { own with logN := r.logN, level := r.level, ntt := false }.units [limbs], also := [], work := [],
        dest := some (j.plain.completion res poison), poisonIn := poison }
    let s := 2 ^ r.logN / 2
    ⟨e, doneStatus poison, r.level, 0, if bgv then 0 else (nums.filter fun n => !n.isFinite).length, [], [], effect,
     256 + s * (r.logN - 1) / 16 + ceilDiv (t.count * t.bits / 8) 1024 + r.level * ceilDiv (9 * 2 ^ r.logN / 2) 512⟩

/-- Cut a sequence into rows. -/
def cutRows (n size : Nat) (xs : List FVal) : List (List FVal) :=
  match n with
  | 0 => []
  | k + 1 => xs.take size :: cutRows k size (xs.drop size)

/-- DECODE (12 R396). -/
def Dev.runDecode (d : Dev) (j : VeJob) : VeDone :=
  let t := j.plain.desc
  let v := d.vals j.r.pset
  match j.outs with
  | [] => .nothing d
  | o :: _ =>
    let (d, polys, bad) := (List.range t.level).foldl (fun (acc : Dev × List (List Nat) × Bool) i =>
      let (d, bs, b) := acc.1.fetch none ((t.limbPieces t.logN 0 i).headD (0, 0)).1 (limbBytes t.logN)
      (d, acc.2.1 ++ [unpackWords bs], acc.2.2 || b)) (d, [], false)
    let qs := (List.range t.level).map v.q
    let n := 2 ^ t.logN
    let m := (List.range n).map fun k => crtLift qs (polys.zipIdx.map fun p => p.1.getD k 0 % v.q p.2)
    let tm := v.plainMod.toNat
    let seq : List FVal :=
      if v.scheme = 1 then
        let inv := invMod (t.scale % tm) tm
        let ws := m.map fun x => resOf tm (x * inv)
        (if t.layout = 0x30 then bgvDecode tm t.logN ws else ws).map fun w => fvalOfInt (liftQ tm w) 0
      else if t.layout = 0 then coeffDecode t.scale m else ckksDecode t.logN t.scale m
    let rows := cutRows o.2.rows.length (o.2.size 0) seq
    let w := (o.2.rows.zip rows).foldl (fun (w : VeWork) x =>
      let (data, scales, sat, nf) :=
        if o.2.etype = 8 then
          (packRow 36 (x.2.map fun y => resOf (v.q j.r.modIdx) (y.toIntRne.getD 0)), [], 0, 0)
        else storeRow o.2 x.2
      { w with sat := w.sat + sat, nonfinite := w.nonfinite + nf, units := w.units ++ [o.2.rowPieces x.1 data scales] })
      { dev := d, sat := 0, nonfinite := 0, bad := [], units := [] }
    let poison := t.poison || bad
    let s := n / 2
    ⟨w.dev, doneStatus poison, rows.length, min w.sat 0xFFFFFFFF, min w.nonfinite 0xFFFFFFFF, w.units,
     if poison then [List.range o.2.nb] else [], .nothing,
     256 + s * (t.logN - 1) / 16 + t.level * ceilDiv (9 * n / 2) 1024 + t.level ^ 2 * n / 64 +
       ceilDiv (o.2.count * o.2.bits / 8) 512⟩

/-! ### Start, completion, drop, stop (12 R380-R385, R400) -/

def Dev.veRecAt (d : Dev) (c k : Nat) : Nat := (d.cluster c).veList + 128 * k

/-- Write a status record as a requester: what it leaves, or none while a bank makes the write wait. A refused write is noted
(10 R320, R321, R324, R332). -/
def Dev.writeRecord (d : Dev) (r : Requester) (a : Nat) (bs : List Byte) : Option Dev :=
  match d.problemIn r .write a bs.length with
  | some .wait => none
  | some p => some (d.noteProblem r .write p)
  | none => some (d.store none a bs)

/-- A job as it starts. -/
def VeRun.of (record : Nat) (bytes : List Byte) (clock : Nat) : VeRun :=
  { record := record, bytes := bytes, outs := [], held := [], units := [], spoils := [], effect := .nothing, status := 0,
    rowsDone := 0, saturated := 0, nonfinite := 0, startedAt := clock, stated := 0 }

/-- Refuse a job: its record will carry the status, and an ENCODE writes its destination under 03 R90 (12 R383). -/
def Dev.refuseJob (d : Dev) (c : Nat) (run : VeRun) (j : VeJob) (st : BitVec 8) (mayWrite : Bool) : Dev :=
  let d := ((d.bump (0x3400 + c) 4 1).faultUc 0x0B c run.record 0 st 0).countRefusal
  let d := if j.r.kind = 1 ∧ j.plain.placed ∧ mayWrite then
      (d.writeDesc j.plain.addr (j.plain.desc.refusedAs st d.tickNumber).bytes st).1 else d
  d.modCluster c fun y => { y with veNext := y.veNext + 1, veRun := some { run with status := st } }

/-- Start the next job of a cluster's list, of the given kind. A bank that refuses the read of a named descriptor refuses the
job with NOT_OWNER (log entry 89). -/
def Dev.startJob (d0 : Dev) (c kind : Nat) (f : Dev → VeJob → VeDone) : Dev :=
  let x := d0.cluster c
  let at_ := d0.veRecAt c x.veNext
  let bytes := d0.rd at_ 128
  let r := VeRec.parse bytes
  let core := 16 * c + r.core
  let evt := tget (d0.core core).events r.startEvt 0
  let who : Requester := .vector c r.core
  if !d0.frameOpen ∨ x.veRun.isSome ∨ x.veCount ≤ x.veNext ∨ d0.faults.holds (.cluster c) ∨
      d0.power.withholding.contains c ∨ !(r.kind = kind || (kind = 0 && 2 < r.kind)) ∨
      (r.start = 1 ∧ ((d0.core core).frame ≠ .inFrame ∨ evt = 0)) then d0
  else
    let d := if r.start = 1 then d0.modCore core fun k => { k with events := tset k.events r.startEvt (evt - 1) } else d0
    let run := VeRun.of at_ bytes d.clock
    match d.descAccess who ((r.plain ++ r.tensorsIn ++ r.tensorsOut).filter (· ≠ 0)) with
    | none => d0
    | some (some _) => d.refuseJob c run (d.veJob c r).2 stNotOwner (d.descAccess who r.plain = some none)
    | some none =>
      let (d, j) := d.veJob c r
      match firstFailed (d.veChecks j), d.banksOwned who j.banks with
      | some w, _ => d.refuseJob c run j w.status true
      | none, none => d0
      | none, some false => d.refuseJob c run j stNotOwner (d.descAccess who r.plain = some none)
      | none, some true =>
        let w := f d j
        w.dev.modCluster c fun y => { y with
          veNext := y.veNext + 1,
          veRun := some { run with outs := j.outs.map (fun o => (o.2.addr, d.rd o.2.addr 128)), held := j.banks,
                                   units := w.units, spoils := w.spoils, effect := w.effect, status := w.status,
                                   rowsDone := w.rows, saturated := w.sat, nonfinite := w.nonfinite, stated := w.stated } }

def execMap (cluster : Nat) (s : State) : Host.Outcome State Fault Refusal :=
  s.onDev fun d => d.startJob cluster 0 Dev.runMap

def execEncode (cluster : Nat) (s : State) : Host.Outcome State Fault Refusal :=
  s.onDev fun d => d.startJob cluster 1 Dev.runEncode

def execDecode (cluster : Nat) (s : State) : Host.Outcome State Fault Refusal :=
  s.onDev fun d => d.startJob cluster 2 Dev.runDecode

/-! ### The end of a job (12 R384, R385, R399) -/

/-- Who makes a job's accesses. -/
def VeRun.who (j : VeRun) (c : Nat) : Requester := .vector c (VeRec.parse j.bytes).core

/-- Write a job's status record and signal its event; while a bank makes the write wait, the record is owed. -/
def Dev.writeJobStatus (d : Dev) (c : Nat) (j : VeRun) : Dev :=
  let r := VeRec.parse j.bytes
  match d.writeRecord (j.who c) r.status
    (mkRecord 64 [(0, 8, j.status.toNat), (32, 32, j.rowsDone), (64, 32, j.saturated), (96, 32, j.nonfinite),
      (128, 64, d.tickNumber), (192, 32, d.tickCycle)]) with
  | none => d.modCluster c fun x => { x with veOwed := x.veOwed ++ [j] }
  | some d =>
    let d := if j.status = stPoison then d.countPoison false else d
    if r.doneEn then d.deviceSignal (16 * c + r.core) r.doneEvt else d

/-- Write the records that a cluster's engine owes. -/
def Dev.payJobs (d : Dev) (c : Nat) : Dev :=
  (d.cluster c).veOwed.foldl (fun d j => d.writeJobStatus c j) (d.modCluster c fun x => { x with veOwed := [] })

/-- Write pieces where the requester is admitted; the first refusal is noted. -/
def Dev.putAs (d : Dev) (r : Requester) (ps : Pieces) : Dev :=
  (ps.foldl (fun (x : Dev × Bool) p => match x.1.problemIn r .write p.1 p.2.length with
    | some q => (if x.2 then x.1 else x.1.noteProblem r .write q, true)
    | none => (x.1.store none p.1 p.2, x.2)) (d, false)).1

/-- Mark blocks of an output and its POISON byte. -/
def Dev.spoil (d : Dev) (r : Requester) (o : Nat × List Byte) (blocks : List Nat) : Dev :=
  (blocks.foldl (fun d b => d.markBlock r (Tensor.parse o.1 o.2) b) d).poisonTensor r o.1

/-- What a job that passed its checks writes: its rows, the marks of its outputs, or an ENCODE's destination. -/
def Dev.putJob (d : Dev) (c : Nat) (j : VeRun) : Dev :=
  let d := j.units.foldl (fun d u => d.putAs (j.who c) u) d
  let d := if j.status = stPoison then (j.outs.zip j.spoils).foldl (fun d x => d.spoil (j.who c) x.1 x.2) d else d
  (d.finishEffect j.effect j.status).1

/-- The job passed its checks and has not been stopped. -/
def VeRun.ran (j : VeRun) : Bool := j.status = stOk || j.status = stPoison

/-- VE_JOB_DONE: the job's writes, its counts and its record. A bank that makes it wait leaves it where it is. -/
def Dev.jobDone (d : Dev) (c : Nat) : Dev :=
  if d.faults.holds (.cluster c) then d
  else match (d.cluster c).veRun with
  | none => d.payJobs c
  | some j =>
    let d := d.payJobs c
    if j.ran ∧ j.held.any (fun b => d.bankPower b.1 b.2 = .waking) then d
    else
      let d := if j.ran then (d.putJob c j).bump (0x3400 + c) 3 1 else d
      ((d.bump (0x3400 + c) 5 (max (d.clock - j.startedAt) j.stated)).modCluster c fun x =>
        { x with veRun := none }).writeJobStatus c j

def execVeJobDone (cluster : Nat) (s : State) : Host.Outcome State Fault Refusal := s.onDev fun d => d.jobDone cluster

/-! ### Drops and stops (12 R381, R400) -/

/-- Jobs that have not started when every core has exited are dropped (12 R381). -/
def Dev.dropJobs (d : Dev) (c : Nat) : Dev :=
  let x := d.cluster c
  (List.range (x.veCount - x.veNext)).foldl (fun d i =>
    let at_ := d.veRecAt c (x.veNext + i)
    ((d.bump (0x3400 + c) 4 1).faultUc 0x0B c at_ 0 stAborted 0).writeJobStatus c
      { VeRun.of at_ (d.rd at_ 128) d.clock with status := stAborted })
    (d.modCluster c fun y => { y with veNext := max y.veCount y.veNext })

/-- Blocks of an output beyond its completed rows. -/
def Tensor.beyond (t : Tensor) (v : Nat) : List Nat :=
  if t.blockDim = 0 then (if v < t.rows.length then List.range t.nb else []) else ((t.rows.drop v).map (t.blockOf 0)).eraseDups

/-- A block reset stops the running job (12 R400): a free count of its rows is complete, each byte of the rest is old or new,
and the blocks beyond are marked bad; an ENCODE destination is torn. The record is written when the cluster leaves reset. -/
def Dev.stopJob (d : Dev) (c : Nat) : Dev :=
  match (d.cluster c).veRun with
  | none => d
  | some j =>
    if !j.ran then d
    else
      let encode := (VeRec.parse j.bytes).kind = 1
      let n := if encode then j.effect.units.length else j.units.length
      let (v, d) := d.drawUnits n
      let d :=
        if encode then d.abortEffect v j.effect
        else
          let d := (j.units.take v).foldl (fun d u => d.putAs (j.who c) u) d
          let d := (j.units.drop v).foldl (fun d u => d.mixPieces u) d
          j.outs.zipIdx.foldl (fun d o => d.spoil (j.who c) o.1 ((Tensor.parse o.1.1 o.1.2).beyond v ++ j.spoils.getD o.2 [])) d
      d.modCluster c fun x => { x with veRun := some { j with
        status := stAborted, rowsDone := v, units := [], spoils := [], effect := .nothing, held := [] } }

end Sys2Proof.Machine
end

