-- ==== Sys2Proof/Machine/Update.lean ====
section
/-! DEFINITION. The parameter update units: command records, the order of checks, clear rules, preconditioners, embedding
rows, encrypted adapters, completion, drops and stops (14 R420-R447). -/

namespace Sys2Proof.Machine

/-! ### Command records (14 R425) -/

structure UpdRec where
  op : Nat
  start : Nat
  startEvt : Nat
  startCore : Nat
  doneEvt : BitVec 4
  doneEn : Bool
  param : Nat
  grad : Nat
  state0 : Nat
  state1 : Nat
  aux : Nat
  esScales : Nat
  list : Nat
  status : Nat
  lr : Nat
  mu : Nat
  beta2 : Nat
  eps : Nat
  wd : Nat
  gscale : Nat
  c1 : Nat
  c2 : Nat
  step : Nat
  listCount : Nat
  pLog : Nat
  func : Bool
  rule : Bool
  i0 : Nat
  i1 : Nat
  final : Bool
  deriving DecidableEq, Repr

def UpdRec.parse (b : List Byte) : UpdRec :=
  let v := leNat b
  { op := bitsAt v 0 8, start := bitsAt v 8 2, startEvt := bitsAt v 10 4, startCore := bitsAt v 14 12,
    doneEvt := BitVec.ofNat 4 (bitsAt v 26 4), doneEn := v.testBit 30, param := bitsAt v 64 48, grad := bitsAt v 128 48,
    state0 := bitsAt v 192 48, state1 := bitsAt v 256 48, aux := bitsAt v 320 48, esScales := bitsAt v 384 48,
    list := bitsAt v 448 48, status := bitsAt v 512 48, lr := bitsAt v 576 32, mu := bitsAt v 608 32,
    beta2 := bitsAt v 640 32, eps := bitsAt v 672 32, wd := bitsAt v 704 32, gscale := bitsAt v 736 32,
    c1 := bitsAt v 768 32, c2 := bitsAt v 800 32, step := bitsAt v 832 32, listCount := bitsAt v 864 32,
    pLog := bitsAt v 896 2, func := v.testBit 898, rule := v.testBit 899, i0 := bitsAt v 900 8, i1 := bitsAt v 908 8,
    final := v.testBit 916 }

/-- The named tensors of a clear command by role; a role that the command does not have is absent. -/
structure UpdTensors where
  param : Option Tensor
  grad : Tensor
  state0 : Option Tensor
  state1 : Option Tensor
  aux : Option Tensor
  readable : Bool

/-- Roles that a clear command names, as PARAM, STATE0, STATE1, AUX (14, update command record field map). -/
def UpdRec.roles (r : UpdRec) : Bool × Bool × Bool × Bool :=
  match r.op with
  | 1 => (true, true, false, false)
  | 2 => (true, true, true, false)
  | 3 => (false, true, true, false)
  | 4 => (true, !r.func, !r.func, false)
  | 5 => (true, true, true, true)
  | _ => (true, true, r.rule, true)

/-- Read the descriptors that a clear command names (14 R424). One that a bank does not deliver is not readable (log entry
25). -/
def Dev.updTensors (d : Dev) (r : UpdRec) : Dev × UpdTensors :=
  let (p, s0, s1, x) := r.roles
  let read := fun (d : Dev) (a : Nat) =>
    let (d, t, ok) := d.veTensor a
    (d, t, ok && d.descAccess .host [a] = some none)
  let get := fun (d : Dev) (on : Bool) (a : Nat) =>
    if on then (let (d, t, ok) := read d a; (d, some t, ok)) else (d, none, true)
  let (d, g, okG) := read d r.grad
  let (d, tp, ok1) := get d p r.param
  let (d, t0, ok2) := get d s0 r.state0
  let (d, t1, ok3) := get d s1 r.state1
  let (d, tx, ok4) := get d x r.aux
  (d, { param := tp, grad := g, state0 := t0, state1 := t1, aux := tx, readable := okG && ok1 && ok2 && ok3 && ok4 })

def UpdTensors.all (t : UpdTensors) : List Tensor :=
  t.param.toList ++ [t.grad] ++ t.state0.toList ++ t.state1.toList ++ t.aux.toList

/-! ### Checks of clear commands (14 R420, R426, R432) -/

/-- A range lies in the STACK_LOCAL piece of stack m of one slab (14 R420). -/
def Dev.inPiece (d : Dev) (m a n : Nat) : Bool :=
  n = 0 || (inStack a n && a / 0x200000000 = (a + n - 1) / 0x200000000 && d.stackCause a = none &&
    d.stackCause (a + n - 1) = none && d.stackOf a = m && d.stackOf (a + n - 1) = m &&
    (match d.slabClass (a / 0x200000000) with
     | some (_, mode) => mode = 2
     | none => false))

/-- A tensor passes R345 and R420. -/
def Dev.updPlaced (d : Dev) (m : Nat) (t : Tensor) : Bool :=
  t.sound && !t.dist && t.ranges.all (fun p => d.inPiece m p.1 p.2) && (t.badmap = 0 || d.inPiece m t.badmap t.mapLen)

def typeIs (ok : List (Nat × Bool)) (t : Tensor) : Bool := ok.contains (t.etype, t.bs)

def paramTypes : List (Nat × Bool) := [(0, false), (1, false), (1, true)]
def gradTypes : List (Nat × Bool) := [(0, false), (1, false), (9, false)]
def stateTypes : List (Nat × Bool) := [(0, false), (1, false), (1, true), (3, true)]
def onlyFp32 : List (Nat × Bool) := [(0, false)]

/-- Operand types (14 R432). A GRAD of PSTAT may also be exact-sum, as R437 says (log entry 25). -/
def UpdTensors.typed (t : UpdTensors) (op : Nat) : Bool :=
  let opt := fun (ok : List (Nat × Bool)) (x : Option Tensor) => x.toList.all (typeIs ok)
  if op = 3 then (typeIs onlyFp32 t.grad || typeIs [(9, false)] t.grad) && opt onlyFp32 t.state0 && opt onlyFp32 t.state1
  else if op = 4 then typeIs onlyFp32 t.grad && opt onlyFp32 t.param && opt onlyFp32 t.state0 && opt onlyFp32 t.state1
  else if op = 5 then
    opt paramTypes t.param && typeIs gradTypes t.grad && opt paramTypes t.state0 && opt onlyFp32 t.state1 && opt onlyFp32 t.aux
  else opt paramTypes t.param && typeIs gradTypes t.grad && opt stateTypes t.state0 && opt stateTypes t.state1 &&
    opt [(5, false)] t.aux

def sameShape (a b : Tensor) : Bool := a.rank = b.rank && a.sizes = b.sizes

def isMatrix (t : Tensor) (rows cols : Nat) : Bool := t.rank = 2 && t.size 0 = cols && t.size 1 = rows

def small (n : Nat) : Bool := 1 ≤ n && n ≤ 256

/-- Shapes (14 R426, R437, R438, R440, R441). -/
def UpdTensors.shaped (t : UpdTensors) (r : UpdRec) : Bool :=
  let g := t.grad
  let bl := g.size 1
  let br := g.size 0
  let opt := fun (f : Tensor → Bool) (x : Option Tensor) => x.toList.all f
  match r.op with
  | 3 => isMatrix g bl br && small bl && small br && opt (isMatrix · bl bl) t.state0 && opt (isMatrix · br br) t.state1
  | 4 =>
    small br && (t.all.all (isMatrix · br br)) && (r.func || (r.i0 < r.i1 && r.i1 ≤ 64))
  | 5 =>
    isMatrix g bl br && small bl && small br && opt (isMatrix · bl br) t.param && opt (isMatrix · bl br) t.state0 &&
      opt (isMatrix · bl bl) t.state1 && opt (isMatrix · br br) t.aux
  | 6 =>
    let byRow := fun (x : Tensor) => x.rank = 2 && x.size 0 = br && x.blockDim = 1 && x.blockSize = 1
    let rows := (t.param.map (·.size 1)).getD 0
    byRow g && opt byRow t.param && opt (fun x => byRow x && x.size 1 = rows) t.state0 &&
      opt (fun x => byRow x && x.size 1 = rows) t.state1 && opt (fun x => x.count = rows) t.aux
  | _ => opt (sameShape g) t.param && opt (sameShape g) t.state0 && opt (sameShape g) t.state1

/-- The list of an EMB command: GRAD block and PARAM row of each entry. Like the scale records it lies in the unit's stack
(01 R19, 14 R420, log entry 25). -/
def Dev.updList (d : Dev) (r : UpdRec) : List (Nat × Nat) :=
  (List.range r.listCount).map fun k => (d.rdLe (r.list + 8 * k) 4, d.rdLe (r.list + 8 * k + 4) 4)

def finite32 (x : Nat) : Bool := (fp32.decode x).isFinite

/-- Pairwise disjoint ranges. -/
def disjoint (xs : List (List (Nat × Nat))) : Bool :=
  match xs with
  | [] => true
  | x :: r => (r.all fun y => x.all fun p => y.all fun q => !rangesMeet p.1 p.2 q.1 q.2) && disjoint r

def Tensor.footprint (t : Tensor) : List (Nat × Nat) := t.ranges ++ (if t.badmap = 0 then [] else [(t.badmap, t.mapLen)])

/-- A record of one unit holds no reserved value (14 R425). -/
def UpdRec.formOk (r : UpdRec) : Bool := r.start ≤ 1 && r.status % 64 = 0

/-- The checks of a clear command (14 R426): the status of the first that fails. -/
def Dev.updChecks (d : Dev) (m : Nat) (r : UpdRec) (t : UpdTensors) : Option (BitVec 8) :=
  let es := t.grad.etype = 9
  let emb := r.op = 6
  let form := r.formOk && 1 ≤ r.op && r.op ≤ 6 && t.readable && t.all.all (d.updPlaced m) && t.typed r.op && t.shaped r &&
    (if es then r.esScales ≠ 0 && d.inPiece m r.esScales (4 * t.grad.nb) else r.esScales = 0) &&
    ([r.lr, r.mu, r.beta2, r.eps, r.wd, r.gscale, r.c1, r.c2].all finite32) &&
    (!emb || (1 ≤ r.listCount && r.listCount ≤ 2 ^ 20 && d.inPiece m r.list (8 * r.listCount) &&
      (d.updList r).all fun e => e.1 < t.grad.nb && e.2 < (t.param.map (·.nb)).getD 0))
  if !form then some stBounds
  else if !disjoint (t.all.map (·.footprint)) || (emb && !((d.updList r).map (·.2)).Nodup) then some stOverlap
  else none

/-- The scale record of a GRAD block (02 R61). -/
def Dev.esRecord (d : Dev) (r : UpdRec) (j : Nat) : Nat := d.rdLe (r.esScales + 4 * j) 4

/-- The step is saturated for this command (14 R430). -/
def Dev.satSkips (d : Dev) (r : UpdRec) (g : Tensor) : Bool :=
  d.reg 0x9000 1 % 2 = 1 || (g.etype = 9 && (List.range g.nb).any fun j => (d.esRecord r j).testBit 16)

/-! ### One fp32 operation (14 R434) -/

/-- Round to fp32. -/
def FVal.to32 (v : FVal) : FVal := fp32.decode (fp32.encode v)

def fadd (a b : FVal) : FVal := (a.add b).to32
def fsub (a b : FVal) : FVal := (a.sub b).to32
def fmul (a b : FVal) : FVal := (a.mul b).to32
def fdiv (a b : FVal) : FVal := (a.div b).to32
def fsqrt (a : FVal) : FVal := a.sqrt.to32
def ffma (a b c : FVal) : FVal := ((a.mul b).add c).to32

def fone : FVal := .num false 1 0
def fzero : FVal := .num false 0 0

/-- The immediates of a command as numbers. -/
structure UpdImm where
  lr : FVal
  mu : FVal
  beta2 : FVal
  eps : FVal
  wd : FVal
  gscale : FVal
  c1 : FVal
  c2 : FVal

def UpdRec.imm (r : UpdRec) : UpdImm :=
  { lr := fp32.decode r.lr, mu := fp32.decode r.mu, beta2 := fp32.decode r.beta2, eps := fp32.decode r.eps,
    wd := fp32.decode r.wd, gscale := fp32.decode r.gscale, c1 := fp32.decode r.c1, c2 := fp32.decode r.c2 }

/-- The last two lines of the rules: the new parameter from the old one and u (14 R434). -/
def UpdImm.apply (k : UpdImm) (p u : FVal) : FVal :=
  let w := ffma k.wd p u
  ffma k.lr.neg w p

/-- SGD with momentum: new p and m (14 R434). -/
def UpdImm.sgdm (k : UpdImm) (p grad m : FVal) : FVal × FVal :=
  let m' := ffma k.mu m (fmul k.gscale grad)
  (k.apply p m', m')

/-- AdamW: new p, m and v (14 R434). -/
def UpdImm.adamw (k : UpdImm) (p grad m v : FVal) : FVal × FVal × FVal :=
  let g := fmul k.gscale grad
  let m' := ffma k.mu m (fmul (fsub fone k.mu) g)
  let v' := ffma k.beta2 v (fmul (fsub fone k.beta2) (fmul g g))
  let u := fdiv (fmul k.c1 m') (fadd (fsqrt (fmul k.c2 v')) k.eps)
  (k.apply p u, m', v')

/-! ### Loading and storing rows -/

/-- A row of a tensor as fp32 numbers (14 R432, R433), the blocks that arrived bad, and how many are not finite. -/
def Dev.loadRow (d : Dev) (r : UpdRec) (t : Tensor) (idx : List Nat) : Dev × List FVal × List Nat × Nat :=
  let (d, row, sc, bad) := d.readRow t idx
  let xs := (List.range (t.size 0)).map fun i =>
    let e := if t.etype = 9 then bitsAt (d.esRecord r (t.blockOf i idx)) 0 8 else 0
    fp32.decode (bitsAt (loadElem t.etype t.bs e (elemBits t.bits i row) ((sc.getD (i / 32) 127).toNat)).toNat 0 32)
  (d, xs, if bad then d.badBlocks t idx else [], (xs.filter fun x => !x.isFinite).length)

/-- What a command has done so far: the device, on which its results stand as it computes them, bad blocks of each tensor by
its descriptor, elements not finite, and the PARAM rows that EMB has refused. -/
structure UpdWork where
  dev : Dev
  bad : List (Nat × Nat)
  nonfinite : Nat
  rowsBad : List Nat

/-- A result as the command holds it: nothing is written until it completes (14 R424, 03 R105). -/
def UpdWork.put (w : UpdWork) (ps : Pieces) : UpdWork := { w with dev := ps.foldl (fun d p => d.wr p.1 p.2) w.dev }

/-- Scale records and list entries that were delivered bad spoil the GRAD blocks that they stand for (14 R444). -/
def UpdWork.readSides (w : UpdWork) (r : UpdRec) (g : Tensor) (es : List (Nat × Nat)) : UpdWork :=
  let n := if g.etype = 9 then g.nb else 0
  let d := (w.dev.fetchPieces [(r.esScales, 4 * n), (r.list, 8 * es.length)]).1
  { w with
    dev := d,
    bad := w.bad ++ ((List.range n).filter fun j => w.dev.spoilt (r.esScales + 4 * j) 4).map (fun j => (g.addr, j)) ++
      (es.zipIdx.filter fun e => w.dev.spoilt (r.list + 8 * e.2) 8).map fun e => (g.addr, e.1.1) }

def UpdWork.load (w : UpdWork) (r : UpdRec) (t : Tensor) (idx : List Nat) : UpdWork × List FVal :=
  let (d, xs, bad, n) := w.dev.loadRow r t idx
  ({ w with dev := d, bad := w.bad ++ bad.map fun b => (t.addr, b), nonfinite := w.nonfinite + n }, xs)

def UpdWork.loadOpt (w : UpdWork) (r : UpdRec) (t : Option Tensor) (idx : List Nat) : UpdWork × List FVal :=
  match t with
  | some t => w.load r t idx
  | none => (w, [])

def UpdWork.store (w : UpdWork) (t : Option Tensor) (idx : List Nat) (xs : List FVal) : UpdWork :=
  match t with
  | some t =>
    let (data, scales, _, n) := storeRow t xs
    { w.put (t.rowPieces idx data scales) with nonfinite := w.nonfinite + n }
  | none => w

/-! ### Element-wise rules -/

/-- New p, m and v of one row, by rule. -/
def UpdImm.row (k : UpdImm) (adam : Bool) (p g m v : List FVal) : List FVal × List FVal × List FVal :=
  let n := p.length
  let at_ := fun (xs : List FVal) i => xs.getD i fzero
  if adam then
    let ys := (List.range n).map fun i => k.adamw (at_ p i) (at_ g i) (at_ m i) (at_ v i)
    (ys.map (·.1), ys.map (·.2.1), ys.map (·.2.2))
  else
    let ys := (List.range n).map fun i => k.sgdm (at_ p i) (at_ g i) (at_ m i)
    (ys.map (·.1), ys.map (·.2), [])

/-- SGDM and ADAMW over every element. -/
def UpdWork.elementwise (w : UpdWork) (r : UpdRec) (t : UpdTensors) (adam : Bool) : UpdWork :=
  t.grad.rows.foldl (fun w idx =>
    let (w, p) := w.loadOpt r t.param idx
    let (w, g) := w.load r t.grad idx
    let (w, m) := w.loadOpt r t.state0 idx
    let (w, v) := w.loadOpt r t.state1 idx
    let (p, m, v) := r.imm.row adam p g m v
    ((w.store t.param idx p).store t.state0 idx m).store t.state1 idx v) w

/-! ### Matrices (14 R436-R440) -/

abbrev Mat := List (List FVal)

def Mat.entry (a : Mat) (i j : Nat) : FVal := (a.getD i []).getD j fzero
def Mat.col (a : Mat) (j : Nat) : List FVal := a.map fun r => r.getD j fzero

/-- The compensated dot product (14 R436). -/
def cdot (a b : List FVal) : FVal :=
  let r := (List.zip a b).foldl (fun (sc : FVal × FVal) x =>
    let p := fmul x.1 x.2
    let e := ffma x.1 x.2 p.neg
    let t := fadd sc.1 p
    let z := fsub t sc.1
    (t, fadd sc.2 (fadd (fadd (fsub sc.1 (fsub t z)) (fsub p z)) e))) (fzero, fzero)
  fadd r.1 r.2

/-- A matrix from its entries. -/
def matOf (rows cols : Nat) (f : Nat → Nat → FVal) : Mat := (List.range rows).map fun i => (List.range cols).map (f i)

def matMul (a b : Mat) : Mat :=
  let cols := (List.range ((b.headD []).length)).map b.col
  a.map fun r => cols.map (cdot r)

/-- Load a matrix. -/
def UpdWork.loadMat (w : UpdWork) (r : UpdRec) (t : Tensor) : UpdWork × Mat :=
  (List.range (t.size 1)).foldl (fun acc i =>
    let (w, xs) := acc.1.load r t [i, 0, 0, 0, 0]
    (w, acc.2 ++ [xs])) (w, [])

def UpdWork.loadMatOpt (w : UpdWork) (r : UpdRec) (t : Option Tensor) : UpdWork × Mat :=
  match t with
  | some t => w.loadMat r t
  | none => (w, [])

def UpdWork.storeMat (w : UpdWork) (t : Option Tensor) (a : Mat) : UpdWork :=
  a.zipIdx.foldl (fun w x => w.store t [x.2, 0, 0, 0, 0] x.1) w

/-- PSTAT (14 R437). -/
def UpdWork.pstat (w : UpdWork) (r : UpdRec) (t : UpdTensors) : UpdWork :=
  let (w, g) := w.loadMat r t.grad
  let (w, sl) := w.loadMatOpt r t.state0
  let (w, sr) := w.loadMatOpt r t.state1
  let mu := r.imm.mu
  let cols := (List.range (t.grad.size 0)).map g.col
  let upd := fun (s : Mat) (vs : List (List FVal)) =>
    matOf vs.length vs.length fun i j => ffma mu (s.entry i j) (cdot (vs.getD i []) (vs.getD j []))
  (w.storeMat t.state0 (upd sl g)).storeMat t.state1 (upd sr cols)

/-- Take a square root a number of times. -/
def sqrtTimes (n : Nat) (x : FVal) : FVal :=
  match n with
  | 0 => x
  | k + 1 => sqrtTimes k (fsqrt x)

/-- Square a matrix a number of times. -/
def squareTimes (n : Nat) (a : Mat) : Mat :=
  match n with
  | 0 => a
  | k + 1 => squareTimes k (matMul a a)

/-- One coupled Newton step on x and m (14 R438). -/
def rootStep (pLog b : Nat) (xm : Mat × Mat) : Mat × Mat :=
  let p := 2 ^ pLog
  let inv : FVal := .num true 1 (-(pLog : Int))
  let diag : FVal := .num false (p + 1) (-(pLog : Int))
  let t := matOf b b fun i j => if i = j then ffma (xm.2.entry i j) inv diag else fmul (xm.2.entry i j) inv
  (matMul xm.1 t, matMul (squareTimes pLog t) xm.2)

/-- Add EPS on the diagonal. -/
def damped (a : Mat) (b : Nat) (eps : FVal) : Mat :=
  matOf b b fun i j => if i = j then fadd (a.entry i j) eps else a.entry i j

/-- PROOT with FUNC 0 (14 R438). -/
def UpdWork.proot (w : UpdWork) (r : UpdRec) (t : UpdTensors) : UpdWork :=
  let b := t.grad.size 0
  let (w, xm) :=
    if r.i0 = 0 then
      let (w, a) := w.loadMat r t.grad
      let a1 := damped a b r.imm.eps
      let c := fsqrt (cdot a1.flatten a1.flatten)
      let ir := fdiv fone (sqrtTimes r.pLog c)
      let ic := fdiv fone c
      (w, matOf b b (fun i j => fmul ir (if i = j then fone else fzero)), matOf b b fun i j => fmul (a1.entry i j) ic)
    else
      let (w, x) := w.loadMatOpt r t.state0
      let (w, m) := w.loadMatOpt r t.state1
      (w, x, m)
  let (x, m) := (List.range (r.i1 - r.i0)).foldl (fun xm _ => rootStep r.pLog b xm) xm
  let w := (w.storeMat t.state0 x).storeMat t.state1 m
  if r.final then w.storeMat t.param x else w

/-- The next column of a Cholesky factor, from the rows of the columns before it; once a pivot is not positive every
entry on and below the diagonal is NaN (14 R439). -/
def cholColumn (a : Mat) (b : Nat) (st : Mat × Bool) (j : Nat) : Mat × Bool :=
  let done := fun i => st.1.getD i []
  let pivot := fsub (a.entry j j) (cdot (done j) (done j))
  let ok := st.2 && FVal.lt? fzero pivot = some true
  let root := fsqrt pivot
  ((List.range b).map fun i => done i ++
    [if i < j then fzero else if !ok then .nan else if i = j then root
     else fdiv (fsub (a.entry i j) (cdot (done i) (done j))) root], ok)

/-- PROOT with FUNC 1. -/
def UpdWork.cholesky (w : UpdWork) (r : UpdRec) (t : UpdTensors) : UpdWork :=
  let b := t.grad.size 0
  let (w, a) := w.loadMat r t.grad
  let l := (List.range b).foldl (cholColumn (damped a b r.imm.eps) b) (List.replicate b [], true)
  w.storeMat t.param l.1

/-- PSGDM (14 R440). -/
def UpdWork.psgdm (w : UpdWork) (r : UpdRec) (t : UpdTensors) : UpdWork :=
  let (w, g) := w.loadMat r t.grad
  let (w, pl) := w.loadMatOpt r t.state1
  let (w, pr) := w.loadMatOpt r t.aux
  let (w, p) := w.loadMatOpt r t.param
  let (w, m) := w.loadMatOpt r t.state0
  let u := matMul (matMul pl g) pr
  let k := r.imm
  let bl := t.grad.size 1
  let br := t.grad.size 0
  let m' := matOf bl br fun i j => ffma k.mu (m.entry i j) (u.entry i j)
  let p' := matOf bl br fun i j => k.apply (p.entry i j) (m'.entry i j)
  (w.storeMat t.param p').storeMat t.state0 m'

/-! ### Embedding rows (14 R441) -/

/-- pw(x, k): a power by squaring from bit `n - 1` down. -/
def fpw (n k : Nat) (x y : FVal) : FVal :=
  match n with
  | 0 => y
  | j + 1 =>
    let y := fmul y y
    fpw j k x (if k.testBit j then fmul y x else y)

def pw (x : FVal) (k : Nat) : FVal := fpw 32 k x fone

/-- The skipped-step correction of one element: p, m and v. -/
def UpdImm.skipped (k : UpdImm) (adam : Bool) (n : Nat) (x : FVal × FVal × FVal) : FVal × FVal × FVal :=
  let p := fmul x.1 (pw (fsub fone (fmul k.lr k.wd)) n)
  if adam then (p, fmul x.2.1 (pw k.mu n), fmul x.2.2 (pw k.beta2 n))
  else
    let s := fdiv (fmul k.mu (fsub fone (pw k.mu n))) (fsub fone k.mu)
    (ffma (fmul k.lr.neg s) x.2.1 p, fmul x.2.1 (pw k.mu n), x.2.2)

/-- Address of element i of the row-step tensor, in the order of its dimensions. -/
def rowStepAddr (t : Tensor) (i : Nat) : Nat :=
  let idx := (List.range 5).map fun k =>
    i / ((List.range (k + 1)).foldl (fun n j => n * t.size j) 1) % t.size (k + 1)
  t.elemAddr t.base 0 (i % t.size 0) idx

def rowStepBlock (t : Tensor) (i : Nat) : Nat :=
  let idx := (List.range 5).map fun k =>
    i / ((List.range (k + 1)).foldl (fun n j => n * t.size j) 1) % t.size (k + 1)
  t.blockOf (i % t.size 0) idx

/-- One list entry: the old step number decides whether the row is updated. -/
def UpdWork.embRow (w : UpdWork) (r : UpdRec) (t : UpdTensors) (e : Nat × Nat) : UpdWork :=
  match t.param, t.aux with
  | some tp, some ta =>
    let a := rowStepAddr ta e.2
    let (d, bs, bad) := w.dev.fetch none a 4
    let w := { w with dev := d, bad := if bad then w.bad ++ [(ta.addr, rowStepBlock ta e.2)] else w.bad }
    let k := wrapInt ((r.step : Int) - leNat bs - 1) 32
    if 2 ^ 31 ≤ k then { w with rowsBad := w.rowsBad ++ [e.2] }
    else
      let at_ := fun i => [i, 0, 0, 0, 0]
      let (w, p) := w.load r tp (at_ e.2)
      let (w, g) := w.load r t.grad (at_ e.1)
      let (w, m) := w.loadOpt r t.state0 (at_ e.2)
      let (w, v) := w.loadOpt r t.state1 (at_ e.2)
      let c := (List.range p.length).map fun i =>
        r.imm.skipped r.rule k (p.getD i fzero, m.getD i fzero, v.getD i fzero)
      let (p, m, v) := r.imm.row r.rule (c.map (·.1)) g (c.map (·.2.1)) (c.map (·.2.2))
      let w := ((w.store t.param (at_ e.2) p).store t.state0 (at_ e.2) m).store t.state1 (at_ e.2) v
      w.put [(a, leBytes 4 r.step)]
  | _, _ => w

/-! ### Bad data (14 R444) -/

/-- Blocks of an output that hold an element of block j of an input of the same shape. -/
def Tensor.blocksMeeting (o t : Tensor) (j : Nat) : List Nat :=
  if o.blockDim = t.blockDim then
    let r := t.blockRange j
    (List.range o.nb).filter fun b => let q := o.blockRange b; q.1 < r.2 && r.1 < q.2
  else List.range o.nb

/-- Bad blocks of an operand: those met, those marked, and all of a poisoned one that marks none. -/
def badOf (marks : List (Nat × List Nat)) (met : List (Nat × Nat)) (t : Tensor) : List Nat :=
  let marked := ((marks.find? fun x => x.1 = t.addr).map (·.2)).getD []
  let bs := (List.range t.nb).filter fun b => marked.contains b || met.contains (t.addr, b)
  if bs = [] ∧ t.poison then List.range t.nb else bs

/-- For each output of a command, the operands that its elements are computed from. -/
def UpdTensors.deps (t : UpdTensors) (r : UpdRec) : List (Tensor × List Tensor) :=
  let g := [t.grad]
  let p := t.param.toList
  let m := t.state0.toList
  let v := t.state1.toList
  let x := t.aux.toList
  match r.op with
  | 3 => m.map (fun o => (o, m ++ g)) ++ v.map fun o => (o, v ++ g)
  | 4 =>
    let src := if r.func ∨ r.i0 = 0 then g else m ++ v
    (if r.func ∨ r.final then p else []).map (fun o => (o, src)) ++ (m ++ v).map fun o => (o, src)
  | 5 => p.map (fun o => (o, p ++ m ++ g ++ v ++ x)) ++ m.map fun o => (o, p ++ m ++ g ++ v ++ x)
  | _ => p.map (fun o => (o, p ++ m ++ v ++ g ++ x)) ++ m.map (fun o => (o, m ++ g ++ x)) ++
      v.map (fun o => (o, v ++ g ++ x)) ++ x.map fun o => (o, x)

/-- Affected blocks of an output, by operation: the whole of a matrix output; for EMB the listed rows; else by element. -/
def UpdTensors.affected (t : UpdTensors) (r : UpdRec) (es : List (Nat × Nat)) (marks : List (Nat × List Nat))
    (met : List (Nat × Nat)) (o : Tensor) (srcs : List Tensor) : List Nat :=
  (srcs.flatMap fun s =>
    let bad := badOf marks met s
    if r.op = 6 then
      let rowBlock := fun (x : Tensor) (e : Nat × Nat) =>
        if t.aux.map (·.addr) = some x.addr then rowStepBlock x e.2 else if x.addr = t.grad.addr then e.1 else e.2
      (es.filter fun e => bad.contains (rowBlock s e)).map (rowBlock o)
    else if 3 ≤ r.op then (if bad = [] then [] else List.range o.nb)
    else bad.flatMap (o.blocksMeeting s)).eraseDups

/-! ### Units of work (14 R445) -/

/-- What the bytes of block j of a tensor hold. -/
def Dev.blockBytes (d : Dev) (t : Tensor) (j : Nat) : Pieces :=
  let e := t.blockElems j
  (t.blockRows j).flatMap fun idx =>
    let a := t.elemAddr t.base 0 e.1 idx
    let n := t.bytesOf (e.2 - e.1)
    let b := t.scaleAddr t.base 0 (e.1 / 32) idx
    (a, d.rd a n) :: (if t.bs then [(b, d.rd b (ceilDiv (e.2 - e.1) 32))] else [])

/-- The units of a clear command, as the blocks of the outputs that each is: of EMB the rows and the row-step word of one list
entry, else the blocks of one number (log entry 25). -/
def UpdTensors.unitBlocks (t : UpdTensors) (r : UpdRec) (es : List (Nat × Nat)) (outs : List Tensor) : List (List (Tensor × Nat)) :=
  if r.op = 6 then es.map fun e => outs.map fun o => (o, if t.aux.map (·.addr) = some o.addr then rowStepBlock o e.2 else e.2)
  else (List.range ((outs.map (·.nb)).foldl max 0)).map fun j => (outs.filter fun o => j < o.nb).map fun o => (o, j)

/-- What the units of a clear command hold. -/
def Dev.unitPieces (d : Dev) (t : UpdTensors) (r : UpdRec) (es : List (Nat × Nat)) (outs : List Tensor) : List Pieces :=
  if r.op = 6 then
    es.map fun e => outs.flatMap fun o =>
      if t.aux.map (·.addr) = some o.addr then (let a := rowStepAddr o e.2; [(a, d.rd a 4)]) else d.blockBytes o e.2
  else (t.unitBlocks r es outs).map fun u => u.flatMap fun x => d.blockBytes x.1 x.2

/-! ### Cost (14 R446) -/

def UpdTensors.cost (t : UpdTensors) (r : UpdRec) : Nat :=
  let e := (t.param.map (·.count)).getD 0
  let bl := t.grad.size 1
  let br := t.grad.size 0
  match r.op with
  | 1 => 256 + 2 * ceilDiv e 256
  | 2 => 256 + 6 * ceilDiv e 256
  | 3 => 256 + ceilDiv (bl ^ 2 * br + br ^ 2 * bl) 256
  | 4 =>
    if r.func then 256 + ceilDiv (br ^ 3) 768 + 32 * br
    else 256 + (r.i1 - r.i0) * ((2 + r.pLog) * ceilDiv (br ^ 3) 256 + ceilDiv (br ^ 2) 256) +
      (if r.i0 = 0 then 2 * ceilDiv (br ^ 3) 256 else 0)
  | 5 => 256 + ceilDiv (bl ^ 2 * br + bl * br ^ 2) 256 + 2 * ceilDiv e 256
  | _ => 256 + r.listCount * (112 + 6 * ceilDiv br 256)

/-! ### Running a clear command -/

/-- How a command started: refused, skipped, or with what it will write. `outs` are a clear command's outputs, by address and
descriptor; `marks` the output blocks of each unit; `spoils` the blocks of each output that it will mark. -/
structure UpdDone where
  dev : Dev
  status : BitVec 8
  satSkip : Bool
  outs : List (Nat × List Byte)
  units : List Pieces
  marks : List (List (Nat × Nat))
  spoils : List (List Nat)
  effect : Effect
  blocks : Nat
  rowsBad : List Nat
  nonfinite : Nat
  stated : Nat

def UpdDone.stopped (d : Dev) (st : BitVec 8) (skip : Bool) : UpdDone :=
  { dev := d, status := st, satSkip := skip, outs := [], units := [], marks := [], spoils := [], effect := .nothing, blocks := 0,
    rowsBad := [], nonfinite := 0, stated := 0 }

/-- A skipped command is counted and shown in the frame's record (14 R430). -/
def Dev.satSkip (d : Dev) : Dev := (d.bump 0x9000 2 1).modFrame fun f => { f with satSkip := true }

/-- The work of a clear command, by operation. -/
def UpdWork.run (w : UpdWork) (r : UpdRec) (t : UpdTensors) (es : List (Nat × Nat)) : UpdWork :=
  match r.op with
  | 1 => w.elementwise r t false
  | 2 => w.elementwise r t true
  | 3 => w.pstat r t
  | 4 => if r.func then w.cholesky r t else w.proot r t
  | 5 => w.psgdm r t
  | _ => es.foldl (fun w e => w.embRow r t e) w

/-- The device knows the scale records that a command names (02 R66, log entry 26). -/
def Dev.noteScales (d : Dev) (r : UpdRec) (g : Tensor) : Dev :=
  if g.etype = 9 ∧ !d.tick.esRecords.contains (r.esScales, g.nb) then
    d.modTick fun k => { k with esRecords := k.esRecords ++ [(r.esScales, g.nb)] }
  else d

/-- A clear command from its descriptors to what it will write. Its results stand on a copy of the memory while it computes. -/
def Dev.runClear (d : Dev) (m : Nat) (r : UpdRec) : UpdDone :=
  let (d, t) := d.updTensors r
  match d.updChecks m r t with
  | some st => .stopped d st false
  | none =>
    let d := d.noteScales r t.grad
    if d.satSkips r t.grad then .stopped d.satSkip stAborted true
    else
      let es := if r.op = 6 then d.updList r else []
      let deps := t.deps r
      let outs := deps.map (·.1)
      let w := UpdWork.run (UpdWork.readSides { dev := d, bad := [], nonfinite := 0, rowsBad := [] } r t.grad es) r t es
      let (e, marks) := t.all.foldl (fun (x : Dev × List (Nat × List Nat)) y =>
        let (e, bs) := x.1.markedBlocks none .host y
        (e, x.2 ++ [(y.addr, bs)])) (w.dev, [])
      let w := { w with dev := e }
      let hit := deps.map fun x => t.affected r es marks w.bad x.1 x.2
      { dev := { w.dev with mem := { w.dev.mem with cells := d.mem.cells } },
        status := doneStatus (hit.any fun x => x ≠ []), satSkip := false,
        outs := outs.map fun o => (o.addr, d.rd o.addr 128), units := w.dev.unitPieces t r es outs,
        marks := (t.unitBlocks r es outs).map fun u => u.map fun x => (x.1.addr, x.2),
        spoils := (outs.zip hit).map fun x => if t.param.map (·.addr) = some x.1.addr then x.2 ++ w.rowsBad else x.2,
        effect := .nothing, blocks := (t.unitBlocks r es outs).length, rowsBad := (es.zipIdx.filter fun e => w.rowsBad.contains e.1.2).map (·.2),
        nonfinite := min w.nonfinite 0xFFFFFFFF, stated := t.cost r }

/-! ### Encrypted adapters (14 R427, R442, R443) -/

/-- The coefficients of ENC_AXPY: KA, KB, FA, FB, and whether the bits around FA and FB are zero. -/
def UpdRec.coeffs (r : UpdRec) : Int × Int × Nat × Nat × Bool :=
  (signed r.lr 32, signed r.mu 32, bitsAt r.beta2 0 5, bitsAt r.beta2 8 5,
   bitsAt r.beta2 5 3 = 0 && bitsAt r.beta2 13 19 = 0)

/-- A ciphertext's storage lies in the unit's stack (14 R420). -/
def Dev.ctInPiece (d : Dev) (m : Nat) (t : CtDesc) (logN polys : Nat) : Bool :=
  t.placement = 0 && (t.storage logN polys).all fun p => d.inPiece m p.1 p.2

/-- The checks of ENC_AXPY; a term whose coefficient is zero takes no part in steps 4b and 7. -/
def Dev.axpyChecks (d : Dev) (m : Nat) (r : UpdRec) (a b dest : Operand) (res : CtDesc) : List Check :=
  let (ka, kb, fa, fb, zeros) := r.coeffs
  let v := d.vals a.desc.pset
  let ins := [a, b]
  let present := (if ka = 0 then [] else [a]) ++ (if kb = 0 then [] else [b])
  let first := (present.head?).getD a
  let tag := (ins.find? fun i => !i.desc.isPlain).map (·.desc.tag)
  let set := d.live first.desc.pset
  let inPlace := ins.any fun i => i.addr = dest.addr
  let sa := a.desc.scale + fa * 2 ^ 24
  let sb := b.desc.scale + fb * 2 ^ 24
  let bgv := (d.vals first.desc.pset).scheme = 1
  ins.map (fun i => Check.mk (d.inputForm i && d.ctInPiece m i.desc i.desc.logN i.desc.polys) stBounds i.addr) ++
  [⟨r.formOk && zeros, stBounds, dest.addr⟩,
   ⟨(if inPlace then d.storageOk dest.desc res.logN res.polys else d.destForm dest res.logN res.polys) &&
      d.ctInPiece m dest.desc res.logN res.polys, stBounds, dest.addr⟩] ++
  ins.map (fun i => Check.mk (i.addr = dest.addr ||
    !overlaps (dest.desc.storage res.logN res.polys) (i.desc.storage i.desc.logN i.desc.polys)) stBounds dest.addr) ++
  ins.map (fun i => Check.mk (!i.desc.torn) stTorn i.addr) ++
  ins.map (fun i => Check.mk (i.desc.isPlain || some i.desc.tag = tag) stKeyMismatch i.addr) ++
  ins.map (fun i => Check.mk (d.live i.desc.pset ≠ none) stUncommitted i.addr) ++
  present.map (fun i => Check.mk
    (i.desc.pset = first.desc.pset && i.desc.logN = first.desc.logN && !i.desc.isPlain && i.desc.ntt &&
     (present.all fun j => !slotLayout i.desc.layout || !slotLayout j.desc.layout || i.desc.layout = j.desc.layout) &&
     (match set with
      | some v => (i.desc.layout ≠ 0x30 || v.scheme = 1) && i.desc.logN ≤ v.logNMax.toNat && i.desc.level ≤ v.l &&
          v.scheme.toNat ≤ 1
      | none => true)) stMismatch i.addr) ++
  [⟨(!bgv || ((ka = 0 || fa = 0) && (kb = 0 || fb = 0))) &&
      (present.length ≠ 2 || (if bgv then a.desc.scale = b.desc.scale
        else (if sa ≤ sb then sb - sa else sa - sb) ≤ 4096)), stMismatch, b.addr⟩,
   ⟨1 ≤ res.level, stUnderflow, a.addr⟩, ⟨res.level ≤ dest.desc.alloc, stBounds, dest.addr⟩,
   ⟨res.noise + 16 ≤ v.log2Q res.level, stBudget, dest.addr⟩]

/-- The descriptor fields of the result (14 R443), which names those that come from A. KIND is A's too, also when KA is zero and
A is a plaintext, and POLYS is the larger of the two: R443 gives neither (log entry 96). -/
def axpyResult (v : PSetVals) (r : UpdRec) (a b : CtDesc) : CtDesc :=
  let (ka, kb, fa, fb, _) := r.coeffs
  let na := if ka = 0 then 0 else a.noise + 16 * bitLength ka.natAbs
  let nb := if kb = 0 then 0 else b.noise + 16 * bitLength kb.natAbs
  { a with
    polys := max a.polys b.polys, level := min a.level b.level,
    noise := sat16 ((max na nb + (if ka ≠ 0 ∧ kb ≠ 0 then 16 else 0) : Nat) : Int),
    scale := if v.scheme = 1 then a.scale
      else if ka = 0 then sat32 ((b.scale : Int) + fb * 2 ^ 24) else sat32 ((a.scale : Int) + fa * 2 ^ 24) }

/-- Free words in place of an input's, where a set or ring dimension that no check compared differs (log entry 25). -/
def Dev.freeLimbs (d : Dev) (v : PSetVals) (polys level n : Nat) : Dev × Polys :=
  ((List.range polys).map (fun p => (List.range level).map fun i => (List.range n).map fun k =>
      (Config.freeWord (d.draw + (p * level + i) * n + k)).toNat % v.q i),
   { d with draw := d.draw + polys * level * n }) |> fun x => (x.2, x.1)

/-- [KA × A + KB × B] for every limb and word (14 R442); a missing polynomial counts as zero. -/
def axpyWords (v : PSetVals) (ka kb : Int) (polys level n : Nat) (a b : Polys) : Polys :=
  (List.range polys).map fun p => (List.range level).map fun i =>
    let xs := (a.getD p []).getD i []
    let ys := (b.getD p []).getD i []
    (List.range n).map fun k => resOf (v.q i) (ka * (xs.getD k 0 : Nat) + kb * (ys.getD k 0 : Nat))

/-- An operand of ENC_AXPY; one that a bank does not deliver is misplaced (log entry 25). -/
def Dev.axpyOperand (d : Dev) (a : Nat) : Dev × Operand :=
  if d.descAccess .host [a] = some none then d.readOperand a else (d, ⟨a, CtDesc.parse [], false⟩)

/-- ENC_AXPY, from its descriptors to what it will write (14 R427, R430, R442, R443). -/
def Dev.runAxpy (d : Dev) (m : Nat) (r : UpdRec) : UpdDone :=
  let (d, a) := d.axpyOperand r.grad
  let (d, b) := d.axpyOperand r.state0
  let (d, dest) := d.axpyOperand r.param
  let v := d.vals a.desc.pset
  let res := axpyResult v r a.desc b.desc
  match firstFailed (d.axpyChecks m r a b dest res) with
  | some c =>
    let d := if dest.placed then (d.writeDesc dest.addr (dest.desc.refusedAs c.status d.tickNumber).bytes c.status).1 else d
    .stopped d c.status false
  | none =>
    if d.reg 0x9000 1 % 2 = 1 then .stopped d.satSkip stAborted true
    else
      let (ka, kb, _, _, _) := r.coeffs
      let (d, xs, bad1) := d.readPolys a.desc res.level
      let (d, ys, bad2) := d.readPolys b.desc res.level
      let odd := ka = 0 && kb ≠ 0 && (a.desc.pset ≠ b.desc.pset || a.desc.logN ≠ b.desc.logN)
      let (d, out) := if odd then d.freeLimbs v res.polys res.level (2 ^ res.logN)
        else (d, axpyWords v ka kb res.polys res.level (2 ^ res.logN) xs ys)
      let poison := a.desc.poison || b.desc.poison || bad1 || bad2
      let units := ({ dest.desc with level := res.level, logN := res.logN, ntt := res.ntt } : CtDesc).units out
      { UpdDone.stopped d (doneStatus poison) false with
        effect := { units := units, also := [], work := [], dest := some (dest.completion res poison), poisonIn := poison },
        blocks := units.length, stated := 128 + 2 * ceilDiv (res.polys * res.level * 2 ^ res.logN) 64 }

/-! ### Start, completion, drop, stop (14 R421-R423, R428, R445) -/

/-- A command as it starts. -/
def UpdRun.of (record : Nat) (bytes : List Byte) (clock : Nat) : UpdRun :=
  { record := record, bytes := bytes, outs := [], units := [], marks := [], spoils := [], effect := .nothing, status := 0,
    satSkip := false, blocksDone := 0, rowsBad := [], nonfinite := 0, startedAt := clock, stated := 0 }

/-- The descriptors that a command names. -/
def UpdRec.descs (r : UpdRec) : List Nat :=
  if r.op = 0x10 then [r.grad, r.state0, r.param]
  else
    let (p, s0, s1, x) := r.roles
    r.grad :: ((if p then [r.param] else []) ++ (if s0 then [r.state0] else []) ++ (if s1 then [r.state1] else []) ++
      if x then [r.aux] else [])

/-- Start the next command of a unit's list, when it is of the given kind. -/
def Dev.startUpdate (d0 : Dev) (m : Nat) (kind : UpdRec → Bool) (ups : List Upset) (f : Dev → UpdRec → UpdDone) : Dev :=
  let x := d0.updUnit m
  let at_ := x.list + 128 * x.next
  let bytes := d0.rd at_ 128
  let r := UpdRec.parse bytes
  let evt := tget (d0.core r.startCore).events r.startEvt 0
  if !d0.frameOpen ∨ d0.power.withholding.contains (264 + m) ∨ x.halted ∨ x.run.isSome ∨ x.owed ≠ [] ∨ x.count ≤ x.next ∨
      d0.faults.holds (.update m) ∨ !kind r ∨ d0.descAccess .host r.descs = none ∨
      (r.start = 1 ∧ ((d0.core r.startCore).frame ≠ .inFrame ∨ evt = 0)) then d0
  else
    let d := if r.start = 1 then d0.modCore r.startCore fun k => { k with events := tset k.events r.startEvt (evt - 1) } else d0
    let w := f (d.addUpsets ups) r
    let refused := w.status ≠ stOk && w.status ≠ stPoison && !w.satSkip
    let d := if refused then ((w.dev.bump (0x9100 + m) 4 1).faultUc 0x0C m at_ 0 w.status 0).countRefusal else w.dev
    d.setUpdUnit m { x with
      next := x.next + 1,
      run := some { UpdRun.of at_ bytes d.clock with
        outs := w.outs, units := w.units, marks := w.marks, spoils := w.spoils, effect := w.effect, status := w.status,
        satSkip := w.satSkip, blocksDone := w.blocks, rowsBad := w.rowsBad, nonfinite := w.nonfinite, stated := w.stated } }

/-- A record whose OP is reserved is met by the row of SGDM, and refused (14 R426). -/
def execSgdm (unit : Nat) (ups : List Upset) (s : State) : Host.Outcome State Fault Refusal :=
  s.onDev fun d => d.startUpdate unit (fun r => r.op = 1 || r.op = 0 || (6 < r.op && r.op ≠ 0x10)) ups fun d r => d.runClear unit r

def execAdamw (unit : Nat) (ups : List Upset) (s : State) : Host.Outcome State Fault Refusal :=
  s.onDev fun d => d.startUpdate unit (fun r => r.op = 2) ups fun d r => d.runClear unit r

def execPstat (unit : Nat) (ups : List Upset) (s : State) : Host.Outcome State Fault Refusal :=
  s.onDev fun d => d.startUpdate unit (fun r => r.op = 3) ups fun d r => d.runClear unit r

def execProot (unit : Nat) (ups : List Upset) (s : State) : Host.Outcome State Fault Refusal :=
  s.onDev fun d => d.startUpdate unit (fun r => r.op = 4 && !r.func) ups fun d r => d.runClear unit r

def execProotCholesky (unit : Nat) (ups : List Upset) (s : State) : Host.Outcome State Fault Refusal :=
  s.onDev fun d => d.startUpdate unit (fun r => r.op = 4 && r.func) ups fun d r => d.runClear unit r

def execPsgdm (unit : Nat) (ups : List Upset) (s : State) : Host.Outcome State Fault Refusal :=
  s.onDev fun d => d.startUpdate unit (fun r => r.op = 5) ups fun d r => d.runClear unit r

def execEmb (unit : Nat) (ups : List Upset) (s : State) : Host.Outcome State Fault Refusal :=
  s.onDev fun d => d.startUpdate unit (fun r => r.op = 6) ups fun d r => d.runClear unit r

def execEncAxpy (unit : Nat) (ups : List Upset) (s : State) : Host.Outcome State Fault Refusal :=
  s.onDev fun d => d.startUpdate unit (fun r => r.op = 0x10) ups fun d r => d.runAxpy unit r

/-- Write a command's status record and signal its event; while a bank makes the write wait, the record is owed. -/
def Dev.writeUpdStatus (d : Dev) (m : Nat) (j : UpdRun) : Dev :=
  let r := UpdRec.parse j.bytes
  match d.writeRecord .host r.status
    (mkRecord 64 [(0, 8, j.status.toNat), (8, 1, bit j.satSkip), (32, 32, j.blocksDone), (64, 32, j.rowsBad.length),
      (96, 32, j.nonfinite), (128, 64, d.tickNumber), (192, 32, d.tickCycle)]) with
  | none => (fun x => d.setUpdUnit m { x with owed := x.owed ++ [j] }) (d.updUnit m)
  | some d =>
    let d := if j.status = stPoison then d.countPoison false else d
    if r.doneEn then d.deviceSignal r.startCore r.doneEvt else d

/-- Write the records that a unit owes. -/
def Dev.payUpdates (d : Dev) (m : Nat) : Dev :=
  let x := d.updUnit m
  x.owed.foldl (fun d j => d.writeUpdStatus m j) (d.setUpdUnit m { x with owed := [] })

/-- The command passed its checks, was not skipped, and has not been stopped. -/
def UpdRun.ran (j : UpdRun) : Bool := j.status = stOk || j.status = stPoison

/-- What a command that ran writes: the units of a clear one and its marks (14 R441, R444), or an ENC_AXPY's destination. -/
def Dev.putUpdate (d : Dev) (j : UpdRun) : Dev :=
  let d := j.units.foldl (fun d u => d.putPieces u) d
  let d := (j.outs.zip j.spoils).foldl (fun (d : Dev) x => if x.2 = [] then d else d.spoil .host x.1 x.2.eraseDups) d
  (d.finishEffect j.effect j.status).1

/-- UPDATE_CMD_DONE: the command's writes, the counts, the status record, the event; the next command may start. -/
def Dev.updateDone (d : Dev) (m : Nat) : Dev :=
  let x := d.updUnit m
  match x.run with
  | none => d.payUpdates m
  | some j =>
    if d.faults.holds (.update m) then d
    else
      let d := if j.ran then ((d.putUpdate j).bump (0x9100 + m) 3 1).bump (0x9100 + m) 5 j.rowsBad.length else d
      ((d.bump (0x9100 + m) 6 (max (d.clock - j.startedAt) j.stated)).setUpdUnit m { x with run := none }).writeUpdStatus m j

def execUpdateCmdDone (unit : Nat) (s : State) : Host.Outcome State Fault Refusal := s.onDev fun d => d.updateDone unit

/-- Commands that have not started when every core has exited are dropped (14 R422). -/
def Dev.dropUpdates (d : Dev) (m : Nat) : Dev :=
  let x := d.updUnit m
  (List.range (x.count - x.next)).foldl (fun d i =>
    let at_ := x.list + 128 * (x.next + i)
    ((d.bump (0x9100 + m) 4 1).faultUc 0x0C m at_ 0 stAborted 0).writeUpdStatus m
      { UpdRun.of at_ (d.rd at_ 128) d.clock with status := stAborted })
    (d.setUpdUnit m { x with next := max x.count x.next })

/-- Blocks of an output in the units from some unit on. -/
def UpdRun.beyond (j : UpdRun) (v o : Nat) : List Nat :=
  (((j.marks.drop v).flatten.filter fun p => p.1 = o).map (·.2)).eraseDups

/-- A reset stops the running command and its list (14 R445): a free count of units is complete, each byte of the rest is old or
new, its blocks are marked bad, and an ENC_AXPY destination is torn. The record is written when the unit leaves reset. -/
def Dev.stopUpdate (d : Dev) (m : Nat) : Dev :=
  let x := d.updUnit m
  match x.run with
  | none => d
  | some j =>
    if !j.ran then d.setUpdUnit m { x with halted := true }
    else
      let axpy := (UpdRec.parse j.bytes).op = 0x10
      let (v, d) := d.drawUnits (if axpy then j.effect.units.length else j.units.length)
      let d :=
        if axpy then d.abortEffect v j.effect
        else
          let d := (j.units.take v).foldl (fun d u => d.putPieces u) d
          let d := (j.units.drop v).foldl (fun d u => d.mixPieces u) d
          j.outs.zipIdx.foldl (fun d o => d.spoil .host o.1 (j.beyond v o.1.1 ++ j.spoils.getD o.2 []).eraseDups) d
      let rows := j.rowsBad.filter (· < v)
      (d.bump (0x9100 + m) 5 rows.length).setUpdUnit m { x with halted := true, run := some { j with
        status := stAborted, blocksDone := v, rowsBad := rows, units := [], marks := [], spoils := [], effect := .nothing } }

end Sys2Proof.Machine
end

