-- ==== Sys2Proof/Machine/CoreFrame.lean ====
section
/-! DEFINITION. A core's way through a frame: entry, exit, the deadlock watchdog, and a block reset (08 R243-R250, R285). -/

namespace Sys2Proof.Machine

/-- Write a core's status record (08 R249). -/
def Dev.writeCoreStatus (d : Dev) (n state reason stream pc cycle tick residue busy : Nat) : Dev :=
  d.wr (coreAddr n 0x40) (mkRecord 64 [(0, 8, state), (8, 8, reason), (16, 2, stream), (18, 14, pc), (64, 64, cycle),
    (128, 64, tick), (192, 64, residue), (256, 64, busy)])

/-- QRESIDUE: 16 bits for each queue; a count that the field cannot hold shows as its largest value. -/
def Core.residueWord (c : Core) : Nat :=
  (List.range 4).foldl (fun v q => v + min (tget c.residue q 0) 65535 <<< (16 * q)) 0

/-- The core writes its status record and has exited its frame. -/
def Dev.leaveFrame (d : Dev) (n : Nat) : Dev :=
  let c := (d.core n).discard
  let w := c.stop.getD { state := 1, reason := 0, stream := 3, pc := 0 }
  (d.setCore n { c with frame := .exited }).writeCoreStatus n w.state.toNat w.reason.toNat w.stream.toNat w.pc
    (d.clock - c.barrierAt) c.tick.toNat c.residueWord c.busy

/-- No core of a cluster that entered the frame enabled is still in it. -/
def Dev.clusterOut (d : Dev) (c : Nat) : Bool := (List.range 16).all fun k => (d.core (16 * c + k)).frame ≠ .inFrame

/-- When no core of a cluster is in the frame, its streams and jobs that have not started are dropped (11 R354, 12 R381). -/
def Dev.clusterExit (d : Dev) (c : Nat) : Dev := if d.clusterOut c then (d.dropStreams c).dropJobs c else d

/-- When no core is in the frame, update commands that have not started are dropped (14 R422). -/
def Dev.lastExit (d : Dev) : Dev :=
  if d.cores.all fun p => p.2.frame ≠ .inFrame then (List.range 8).foldl (fun d m => d.dropUpdates m) d else d

/-- What the exit of a core leaves without a user: streams and jobs of its cluster, update commands of the device. -/
def Dev.afterExit (d : Dev) (n : Nat) : Dev := (d.clusterExit (n / 16)).lastExit

/-- After the barrier has reached every core: clusters and devices whose cores are all disabled have no exit to wait for. -/
def Dev.afterBarrier (d : Dev) : Dev := ((List.range 256).foldl (fun d c => d.clusterExit c) d).lastExit

/-- CORE_EXIT: every program has retired or was stopped, and no transfer is open (08 R247). -/
def Dev.coreExit (d : Dev) (n : Nat) : Dev :=
  let c := d.core n
  if c.frame = .inFrame ∧ !d.faults.holds (.cluster (n / 16)) ∧ d.isDone n .tin ∧ d.isDone n .access ∧
      d.isDone n .execute ∧ c.transfers = [] ∧ c.paccs = [] then
    (d.leaveFrame n).afterExit n
  else d

def execCoreExit (core : Nat) (s : State) : Host.Outcome State Fault Refusal := s.onDev fun d => d.coreExit core

/-- CORE_DEADLOCK: every program is blocked or retired, and at least one is blocked (08 R285). -/
def Dev.coreDeadlock (d : Dev) (n : Nat) : Dev :=
  let c := d.core n
  let ps := [Program.tin, Program.access, Program.execute].filter fun p => (c.prog p).run = .running
  if c.frame = .inFrame ∧ c.stop = none ∧ ps ≠ [] ∧ ps.all fun p => d.isBlocked n p then
    (((d.abortCoreCall n).stopCore n { state := 3, reason := 0, stream := 3, pc := 0 }).bump 0x3001 3 1).faultUc 0x03 n 0 0
      0 0
  else d

def execCoreDeadlock (core : Nat) (s : State) : Host.Outcome State Fault Refusal := s.onDev fun d => d.coreDeadlock core

/-! ### Entry (08 R243-R246) -/

/-- A program at its start. -/
def ProgState.start (pc : Nat) : ProgState := { pc := pc, run := .running, waits := [], loops := [] }

/-- The core's state at cycle 72 of its entry, from its entry record. -/
def Dev.enteredCore (d : Dev) (n : Nat) (r : List Byte) : Core :=
  let v := leNat r
  let k := bitsAt v 8 4
  let args := (List.range 4).map fun k => (4 + k, BitVec.ofNat 64 (bitsAt v (128 + 64 * k) 64))
  { Core.fresh with
    frame := .inFrame, half := v.testBit 1, barrierAt := d.clock, tick := BitVec.ofNat 64 d.tickNumber,
    tin := .start (bitsAt v 32 14), acc := .start (bitsAt v 48 14), exe := .start (bitsAt v 64 14),
    g := (1, BitVec.ofNat 64 n) :: (2, BitVec.ofNat 64 d.tickNumber) :: args, logN := bitsAt v 16 5,
    activeSet := if (d.live k).isSome then some k else none, lastSel := if (d.live k).isSome then 0 else stUncommitted }

/-- Signals that waited for the core arrive (11 R356). -/
def Dev.deliverHeld (d : Dev) (n : Nat) (es : List (BitVec 4)) : Dev := es.foldl (fun d e => d.deviceSignal n e) d

/-- The frame barrier reaches a core. One still in an earlier frame keeps running it; one whose cluster is in reset takes no
part, and writes STATE 0x04 when the cluster leaves reset (08 R249, R250). -/
def Dev.coreBarrier (d : Dev) (n : Nat) : Dev :=
  let c := d.core n
  let stopped : Core :=
    { Core.fresh with frame := .inFrame, barrierAt := d.clock, tick := BitVec.ofNat 64 d.tickNumber,
                      stop := some { state := 4, reason := 0, stream := 3, pc := 0 }, heldSignals := c.heldSignals }
  if c.frame = .inFrame then d
  else if d.faults.holds (.cluster (n / 16)) then
    (d.setCore n stopped).modFrame fun f => { f with coresStopped := f.coresStopped + 1 }
  else
    let r := d.rd (coreAddr n 0) 64
    if !(leNat r).testBit 0 then
      (d.setCore n { Core.fresh with frame := .disabled, heldSignals := c.heldSignals }).writeCoreStatus n 0 0 3 0 8
        d.tickNumber 0 0
    else
      let x := d.enteredCore n r
      let d := d.setCore n x
      if x.logN < 12 ∨ 17 < x.logN then
        ((((d.stopCore n { state := 2, reason := 0x0B, stream := 3, pc := 0 }).bump 0x3001 2 1).faultUc 0x02 n
          (coreAddr n (if x.half then 0x14000 else 0x10000)) 0x0B 0 3).modCore n fun y => { y with heldSignals := [] })
      else ((((d.deliverHeld n c.heldSignals).checkPc n .tin).checkPc n .access).checkPc n .execute)

/-! ### A block reset (08 R250) -/

/-- Stop the programs of a cluster's cores; those in the frame will write STATE 0x04 when the cluster leaves reset. -/
def Dev.resetCores (d : Dev) (c : Nat) : Dev :=
  (List.range 16).foldl (fun d k =>
    let n := 16 * c + k
    let x := d.core n
    if x.frame ≠ .inFrame then d
    else
      let why : CoreStop := { state := 4, reason := 0, stream := 3, pc := 0 }
      (if x.stop ≠ none then d.setCore n { x with stop := some why } else d.stopCore n why).modCore n fun y =>
        { y with paccs := [], call := none }) d

/-- The cluster leaves reset: the cores that were in the frame write their records. -/
def Dev.coresLeaveReset (d : Dev) (c : Nat) : Dev :=
  (List.range 16).foldl (fun d k =>
    let n := 16 * c + k
    if (d.core n).frame = .inFrame then (d.leaveFrame n).afterExit n else d) d

end Sys2Proof.Machine
end

