-- ==== Sys2Proof/Machine/Nickel.lean ====
section
/-! DEFINITION. The Nickel engine: slots, job records, checks, commands, queues and yield points (19 R558-R583). Sealed jobs
are in Sealed.lean. -/

namespace Sys2Proof.Machine

/-- A range of bytes lies within one range of the address map. -/
def mapRange (a n : Nat) : Bool :=
  n = 0 ||
    match regionOf a, regionOf (a + n - 1) with
    | .stack, .stack => true
    | .bank c _, .bank k _ => c = k
    | .core c x, .core k y => c = k && x < 0x18000 && y < 0x18000
    | _, _ => false

/-! ### Access by the device's own units, as a host access (10 R318) -/

/-- Read a range: bytes, and whether the delivery is bad or refused. -/
def Dev.hostRead (d : Dev) (a n : Nat) : Dev × List Byte × Bool :=
  (pieces a n).foldl (fun (x : Dev × List Byte × Bool) p =>
    let k := min (p / 256 * 256 + 256) (a + n) - p
    match x.1.problemAt .host .read p with
    | some q => (if x.2.2 then x.1 else x.1.noteProblem .host .read q, x.2.1 ++ zeroBytes k, true)
    | none =>
      let (d, bs, bad) := x.1.fetch none p k
      (d, x.2.1 ++ bs, x.2.2 || bad)) (d, [], false)

/-- A read of a range has to wait for a bank (10 R324, R332). -/
def Dev.hostWaits (d : Dev) (a n : Nat) : Bool :=
  (pieces a n).any fun p => d.problemAt .host .read p = some .wait

/-- Write a range. -/
def Dev.hostWrite (d : Dev) (a : Nat) (bs : List Byte) : Dev := d.writeAs .host a bs

/-! ### Records (19 R565) -/

structure NickelRec where
  op : Nat
  len : Nat
  out : Nat
  sa : Nat
  sb : Nat
  sm : Nat
  msg : Nat
  msgLen : Nat
  status : Nat
  reserved : Nat
  deriving DecidableEq, Repr

def NickelRec.parse (b : List Byte) : NickelRec :=
  let v := leNat b
  { op := bitsAt v 0 8, len := bitsAt v 8 2, out := bitsAt v 16 6, sa := bitsAt v 24 6, sb := bitsAt v 32 6,
    sm := bitsAt v 40 6, msg := bitsAt v 64 48, msgLen := bitsAt v 128 24, status := bitsAt v 192 48,
    reserved := bitsAt v 10 6 + bitsAt v 22 2 + bitsAt v 30 2 + bitsAt v 38 2 + bitsAt v 46 18 + bitsAt v 112 16 +
      bitsAt v 152 40 + bitsAt v 240 272 }

/-- Slot length in bits. -/
def NickelRec.w (r : NickelRec) : Nat := [256, 384, 512, 1024].getD r.len 256

/-- Fields a command uses: length, OUT, SA, SB, SM, MSG, MSG_LEN (19 R567). Ed25519 and SHA-512 commands ignore SLOT_LEN. -/
structure Uses where
  len : Bool := false
  out : Bool := false
  sa : Bool := false
  sb : Bool := false
  sm : Bool := false
  msg : Bool := false
  msgLen : Bool := false
  deriving DecidableEq, Repr

def usesOf (op : Nat) : Option Uses :=
  match op with
  | 0x01 => some { len := true, out := true, msg := true }
  | 0x02 => some { len := true, sa := true, msg := true }
  | 0x03 => some { sa := true, sb := true }
  | 0x10 => some { len := true, out := true, sa := true, sb := true, sm := true }
  | 0x11 => some { len := true, out := true, sa := true, sb := true, sm := true }
  | 0x12 => some { len := true, out := true, sa := true, sb := true, sm := true }
  | 0x13 => some { len := true, out := true, sa := true, sm := true }
  | 0x14 => some { len := true, out := true, sa := true, sb := true, sm := true }
  | 0x20 => some { len := true, out := true, sa := true }
  | 0x21 => some { len := true, out := true, sa := true, sb := true, msg := true, msgLen := true }
  | 0x22 => some { len := true, sa := true, sb := true, msg := true, msgLen := true }
  | 0x23 => some { len := true, out := true, sa := true, sb := true }
  | 0x24 => some { len := true, out := true, sa := true }
  | 0x25 => some { len := true, out := true, sa := true, sb := true }
  | 0x30 => some { len := true, out := true, msg := true, msgLen := true }
  | _ => none

def nickelM (w : Nat) : Nat := (w / 64) * (w / 64)

/-- Stated cycles (19 R567). -/
def NickelRec.stated (r : NickelRec) : Nat :=
  let w := r.w
  match r.op with
  | 0x01 => 128
  | 0x02 => 128
  | 0x03 => 160
  | 0x10 => 96 + w / 16
  | 0x11 => 96 + w / 16
  | 0x12 => 96 + 3 * nickelM w
  | 0x13 => 96 + 2 * w * (w / 64 + 2)
  | 0x14 => 96 + 2 * nickelM w + w * (2 * nickelM w)
  | 0x20 => 46200
  | 0x21 => 50400 + 128 * ((r.msgLen - 1024 + 127) / 128)
  | 0x22 => 100800 + 64 * ((r.msgLen - 1024 + 127) / 128)
  | 0x23 => 48300
  | 0x24 => 45150
  | 0x25 => 4200
  | 0x30 => 96 + 64 * ((r.msgLen + 17 + 127) / 128)
  | _ => 96

/-- Yield points of a job (19 R578). -/
def NickelRec.yieldPoints (r : NickelRec) : Nat :=
  let blocks := (r.msgLen + 17 + 127) / 128 / 256
  match r.op with
  | 0x13 => 2 * r.w / 512
  | 0x14 => r.w / 32
  | 0x20 => 8
  | 0x21 => 8 + 2 * blocks
  | 0x22 => 16 + blocks
  | 0x23 => 8
  | 0x24 => 8
  | 0x30 => blocks
  | _ => 0

/-! ### Slots (19 R558, R562) -/

def Dev.slot (d : Dev) (k : Nat) : Nat := (tget d.nickel.slots k 0).toNat

/-- Store a slot: its pairings end, its stored errors are gone (19 R564, R572). -/
def Dev.setSlot (d : Dev) (k v : Nat) : Dev :=
  d.modNickel fun x => { x with
    slots := tset x.slots k (BitVec.ofNat 1024 v), pairs := x.pairs.filter fun p => p.1 ≠ k && p.2 ≠ k,
    badSlots := x.badSlots.filter fun b => b.1 / 16 ≠ k }

/-- A range that a job reads or writes in memory: MSG_LEN bytes, or a slot's bytes. -/
def NickelRec.bytes (r : NickelRec) : Nat := if r.op = 0x01 ∨ r.op = 0x02 then r.w / 8 else r.msgLen

/-- Step 1 of R573. -/
def Dev.nickelForm (d : Dev) (r : NickelRec) (firmware : Bool) : Bool :=
  match usesOf r.op with
  | none => false
  | some u =>
    let own := fun (used : Bool) (k : Nat) => if used then (if firmware then 48 ≤ k else k < 48) else k = 0
    r.reserved = 0 && (u.len || r.len = 0) && own u.out r.out && own u.sa r.sa && own u.sb r.sb && own u.sm r.sm &&
      (u.msg || r.msg = 0) && (u.msgLen || r.msgLen = 0) && (r.op ≠ 0x03 || r.sa ≤ r.sb) &&
      (r.op ≠ 0x21 || d.nickel.pairs.contains (r.sb, r.sa)) && (!u.msg || mapRange r.msg r.bytes) &&
      r.status % 64 = 0 && mapRange r.status 64

/-- What a command computes: its output, flags UNREDUCED, DIV_ZERO, NOT_ON_CURVE, VERDICT from bit 0 on (19 R567-R571). -/
def nickelResult (r : NickelRec) (a b m : Nat) (msg : List Byte) : Option Nat × Nat :=
  let w := r.w
  let unred := bit (a = m || (r.op ≠ 0x13 && b = m))
  let x := if a = m then 0 else a
  let y := if b = m then 0 else b
  let pt := fun v => edDecode (leBytes 32 v)
  let enc := fun p => some (leNat (edEncode p))
  match r.op with
  | 0x01 => (some (leNat msg), 0)
  | 0x10 => (some ((x + y) % m), unred)
  | 0x11 => (some ((x + (m - y)) % m), unred)
  | 0x12 => (some (x * y % m), unred)
  | 0x13 => match invMod? x m with
    | some v => (some v, unred)
    | none => (some 0, unred + 2)
  | 0x14 => (some (powModGo w x y m (1 % m)), unred)
  | 0x20 => (some (leNat (edPublic (leBytes 32 a))), 0)
  | 0x21 => (some (leNat (edSignMsg (leBytes 32 a) (leBytes 32 b) msg)), 0)
  | 0x22 => match edVerifyMsg (leBytes 32 a) (leBytes 64 b) msg with
    | some v => (none, 8 * bit v)
    | none => (none, 4)
  | 0x23 => match pt b with
    | some p => (enc (edMul (a % 2 ^ 256) p), 0)
    | none => (none, 4)
  | 0x24 => (enc (edMul (a % 2 ^ 256) edBase), 0)
  | 0x25 => match pt a, pt b with
    | some p, some q => (enc (edAddPt p q), 0)
    | _, _ => (none, 4)
  | 0x30 => (some (leNat (sha512 msg)), 0)
  | _ => (none, 0)

/-- Status of a job that is not refused (19 R575). -/
def nickelStatus (flags : Nat) : BitVec 8 :=
  if flags.testBit 2 then stNotOnCurve else if flags.testBit 1 then stDivZero else if flags.testBit 0 then stUnreduced
  else stOk

/-- Step 2 of R573. -/
def moduliOk (r : NickelRec) (a b m : Nat) : Bool :=
  !(0x10 ≤ r.op && r.op ≤ 0x14) || (m % 2 = 1 && 3 ≤ m && a ≤ m && (r.op = 0x13 || b ≤ m))

/-- Slots a job reads. -/
def NickelRec.reads (r : NickelRec) : List Nat :=
  match usesOf r.op with
  | some u => if r.op = 0x03 then [] else
      (if u.sa then [r.sa] else []) ++ (if u.sb then [r.sb] else []) ++ (if u.sm then [r.sm] else [])
  | none => []

/-- Errors in the slots that a job reads are corrected or met (19 R564). True: one could not be corrected. -/
def Dev.meetSlots (d : Dev) (addr unit : Nat) (ks : List Nat) : Dev × Bool :=
  d.nickel.badSlots.foldl (fun (x : Dev × Bool) b =>
    if !ks.contains (b.1 / 16) then x
    else match b.2 with
      | .correctable =>
        ((x.1.modNickel fun y => { y with badSlots := y.badSlots.filter (· ≠ b) }).faultCorr 0x14 unit addr 0, x.2)
      | .uncorrectable => (if x.2 then x.1 else x.1.faultUc 0x14 unit addr 0 stAborted 0, true)) (d, false)

/-- Read a record and carry the job out; its outputs wait for NICKEL_JOB_DONE. -/
def Dev.runJob (d : Dev) (addr : Nat) (firmware short : Bool) : Dev × NickelJob :=
  let (d, bytes, badRec) := d.hostRead addr 64
  let r := NickelRec.parse bytes
  let job : NickelJob :=
    { record := addr, short := short, op := BitVec.ofNat 8 r.op, status := stBounds, flags := 0,
      out := none, clearTo := none, pair := none, store := none, statusAddr := some r.status, stated := 96, yields := 0,
      startedAt := d.clock, refused := true, points := 0 }
  if !d.nickelForm r firmware then (d, job)
  else
    let job := { job with stated := r.stated, points := r.yieldPoints }
    let (d, torn) := d.meetSlots addr (bit firmware) r.reads
    let cut := if 0x20 ≤ r.op then 512 else r.w
    let a := d.slot r.sa % 2 ^ cut
    let b := d.slot r.sb % 2 ^ cut
    let m := d.slot r.sm % 2 ^ cut
    if !moduliOk r a b m then (d, job)
    else
      let (d, msg, badMsg) := if r.op = 0x02 ∨ r.bytes = 0 then (d, [], false) else d.hostRead r.msg r.bytes
      if badRec ∨ badMsg then (d, { job with status := stPoison })
      else if torn then (d, { job with status := stAborted, refused := false })
      else
        let (v, flags) := nickelResult r a b m msg
        let ok := nickelStatus flags
        (d, { job with
          status := ok, flags := BitVec.ofNat 4 flags, refused := false, out := v.map fun v => (r.out, BitVec.ofNat 1024 v),
          clearTo := if r.op = 0x03 then some (r.sa, r.sb) else none,
          pair := if r.op = 0x20 then some (r.out, r.sa) else none,
          store := if r.op = 0x02 then some (r.msg, leBytes (r.w / 8) a) else none })

/-- The job that would start now: its address and requester, whether it is a short one, and whether the running long job
yields to it (19 R577, R579, R580). -/
def Dev.nextJob (d : Dev) : Option ((Nat × Bool) × Bool × Bool) :=
  let n := d.nickel
  if d.phase ≠ .service ∨ n.sealedWork ≠ [] then none
  else match n.run, n.shortQ, n.longQ with
    | none, j :: _, _ => some (j, true, false)
    | none, [], j :: _ => if n.yielded = none then some (j, false, false) else none
    | some r, j :: _, _ => if !r.short ∧ n.yielded = none ∧ r.yields < r.points then some (j, true, true) else none
    | _, _, _ => none

/-- Start the next job if its record holds one of the given operations, or a reserved one, which is refused. -/
def Dev.startNickel (d : Dev) (ops : Nat → Bool) : Dev :=
  match d.nextJob with
  | none => d
  | some ((addr, fw), short, yields) =>
    let r := NickelRec.parse (d.rd addr 64)
    if (!ops r.op ∧ usesOf r.op ≠ none) ∨ d.hostWaits addr 64 ∨ (mapRange r.msg r.bytes ∧ d.hostWaits r.msg r.bytes) then d
    else
      let (d, job) := d.runJob addr fw short
      let d := if yields then d.bump 0xA000 8 1 else d
      d.modNickel fun x => { x with
        run := some job,
        yielded := if yields then x.run.map fun j => { j with yields := j.yields + 1 } else x.yielded,
        shortQ := if short then x.shortQ.tail else x.shortQ, longQ := if short then x.longQ else x.longQ.tail }

def execLoad (s : State) : Host.Outcome State Fault Refusal :=
  s.onDev fun d => d.startNickel (· = 0x01)
def execStore (s : State) : Host.Outcome State Fault Refusal := s.onDev fun d => d.startNickel (· = 0x02)
def execClear (s : State) : Host.Outcome State Fault Refusal := s.onDev fun d => d.startNickel (· = 0x03)
def execNickelMadd (s : State) : Host.Outcome State Fault Refusal := s.onDev fun d => d.startNickel (· = 0x10)
def execNickelMsub (s : State) : Host.Outcome State Fault Refusal := s.onDev fun d => d.startNickel (· = 0x11)
def execNickelMmul (s : State) : Host.Outcome State Fault Refusal := s.onDev fun d => d.startNickel (· = 0x12)
def execMinv (s : State) : Host.Outcome State Fault Refusal := s.onDev fun d => d.startNickel (· = 0x13)
def execMexp (s : State) : Host.Outcome State Fault Refusal := s.onDev fun d => d.startNickel (· = 0x14)
def execEdPubkey (s : State) : Host.Outcome State Fault Refusal := s.onDev fun d => d.startNickel (· = 0x20)
def execEdSign (s : State) : Host.Outcome State Fault Refusal := s.onDev fun d => d.startNickel (· = 0x21)
def execEdVerify (s : State) : Host.Outcome State Fault Refusal := s.onDev fun d => d.startNickel (· = 0x22)
def execEdSmul (s : State) : Host.Outcome State Fault Refusal := s.onDev fun d => d.startNickel (· = 0x23)
def execEdSmulBase (s : State) : Host.Outcome State Fault Refusal := s.onDev fun d => d.startNickel (· = 0x24)
def execEdAdd (s : State) : Host.Outcome State Fault Refusal := s.onDev fun d => d.startNickel (· = 0x25)
def execSha512 (s : State) : Host.Outcome State Fault Refusal := s.onDev fun d => d.startNickel (· = 0x30)

/-- Write a job's status record (19 R566). -/
def Dev.writeNickelStatus (d : Dev) (j : NickelJob) : Dev :=
  match j.statusAddr with
  | none => d
  | some a =>
    if a % 64 ≠ 0 ∨ !mapRange a 64 then d
    else
      d.hostWrite a (mkRecord 64 [(0, 8, j.status.toNat), (8, 4, j.flags.toNat), (32, 32, j.yields), (64, 64, d.counter),
        (128, 32, j.stated), (160, 32, max (d.clock - j.startedAt) j.stated)])

/-- The running job ends: its slots, its memory write, its status record; then the yielded job resumes unless another short
job waits at the yield point (19 R566, R579, R581). -/
def Dev.nickelDone (d : Dev) : Dev :=
  let done := match d.nickel.run with
    | some j => some (j, { d.nickel with run := none })
    | none => d.nickel.yielded.map fun j => (j, { d.nickel with yielded := none })
  match done with
  | none => d
  | some (j, n) =>
    let d := { d with nickel := n }
    let d := match j.clearTo with
      | some (a, b) => (List.range (b + 1 - a)).foldl (fun (d : Dev) k => d.setSlot (a + k) 0) d
      | none => d
    let d := match j.out with
      | some (k, v) => d.setSlot k v.toNat
      | none => d
    let d := match j.pair with
      | some p => d.modNickel fun x => { x with pairs := x.pairs ++ [p] }
      | none => d
    let d := match j.store with
      | some (a, bs) => d.hostWrite a bs
      | none => d
    let d := d.bump 0xA000 6 1
    let d := if j.refused then d.bump 0xA000 7 1 else d
    let d := d.writeNickelStatus j
    if j.short ∧ d.nickel.shortQ = [] then
      d.modNickel fun x => { x with run := x.yielded, yielded := none }
    else d

def execNickelJobDone (s : State) : Host.Outcome State Fault Refusal := s.onDev Dev.nickelDone

/-! ### Submission and reset (19 R563, R583) -/

/-- The address of a status record that a job record names. -/
def Dev.nickelStatusAddr (d : Dev) (addr : Nat) : Nat := (NickelRec.parse (d.rd addr 64)).status

/-- A chip reset or a fatal fault: slots, pairings and queues are gone; the discarded jobs are owed their ABORTED records
(19 R563). Sealed work goes with the store it works for. -/
def Dev.clearNickel (d : Dev) : Dev :=
  let n := d.nickel
  let jobs := n.run.toList ++ n.yielded.toList
  let owed := (jobs.filterMap (·.statusAddr)) ++ (n.shortQ ++ n.longQ).map fun j => d.nickelStatusAddr j.1
  { d with nickel := { Nickel.fresh with owed := n.owed ++ owed } }

/-- Write the status records that a reset owes. -/
def Dev.payNickel (d : Dev) : Dev :=
  let job (a : Nat) : NickelJob :=
    { record := 0, short := false, op := 0, status := stAborted, flags := 0, out := none, clearTo := none,
      pair := none, store := none, statusAddr := some a, stated := 0, yields := 0, startedAt := d.clock, refused := false,
      points := 0 }
  (d.nickel.owed.foldl (fun d a => d.writeNickelStatus (job a)) d).modNickel fun x => { x with owed := [] }

end Sys2Proof.Machine
end

