-- ==== Sys2Proof/Machine/Sealed.lean ====
section
/-! DEFINITION. Sealed jobs on the Nickel datapath: the identity key, attestation reports, share-mode handshakes; and clearing
the Sterling store (07 R196-R202, R208, 19 R580, 20 R596-R600). -/

namespace Sys2Proof.Machine

/-- The bytes of an ASCII label. -/
def ascii (s : String) : List Byte := s.toList.map fun c => BitVec.ofNat 8 c.toNat

/-- A fuse as its bytes, byte 0 in the low bits. -/
def fuseBytes (n v : Nat) : List Byte := leBytes n v

/-! ### The identity key (20 R596) -/

def identitySeedOf : List Byte := (sha512 (ascii "CREUC-ID1" ++ fuseBytes 32 Config.identityEntropy.toNat)).take 32

/-- Derive the identity key pair into the store; the dictionary shows the public key. -/
def Dev.deriveIdentity (d : Dev) : Dev :=
  let seed := identitySeedOf
  let pub := edPublic seed
  let d := d.modSterling fun x => { x with identitySeed := seed, identityPub := pub }
  (List.range 4).foldl (fun (d : Dev) k => d.setReg 0xA120 (k + 1) (leNat ((pub.drop (8 * k)).take 8))) d

/-! ### Attestation reports (20 R598) -/

/-- Bytes 0 to 447 of a report on 64 bytes of report data. -/
def Dev.reportFields (d : Dev) (f : Fuses) (data : List Byte) : List Byte :=
  mkRecord 448 [(0, 32, 0x41545331), (32, 8, 1), (48, 16, 0x7200), (64, 8, 0xA0), (128, 64, Config.serial.toNat),
    (192, 2, d.boot.mode.toNat), (194, 1, bit (f.ownerKeyHash ≠ 0)), (195, 1, bit (d.lib.inService ≠ none)),
    (196, 1, bit d.boot.jtagOpened), (256, 256, leNat d.sterling.identityPub), (512, 512, Config.identityCert.toNat),
    (1024, 512, leNat d.sterling.fwMeasure), (1536, 512, leNat d.sterling.extMeasure),
    (2048, 256, f.ownerKeyHash.toNat), (2304, 32, d.reg 0xA100 4), (2336, 32, d.reg 0xA100 5),
    (2368, 8, secverCount f), (2432, 64, d.counter), (2496, 64, d.tickNumber), (2560, 512, leNat data)]

/-- A signed report. -/
def Dev.reportOf (d : Dev) (f : Fuses) (data : List Byte) : List Byte :=
  let b := d.reportFields f data
  b ++ edSignMsg d.sterling.identitySeed d.sterling.identityPub (ascii "CREUC-AT1" ++ b)

/-! ### Handshakes (07, session handshake; R197, R202) -/

/-- P_K of a HELLO body. -/
def helloPoint (body : List Byte) : List Byte := (body.drop 32).take 32

/-- Steps 2 to 4 of the handshake: P_D, the report body, T, and the two keys; k_D is erased. -/
def Dev.handshake (d : Dev) (f : Fuses) (n : Nat) : Dev :=
  match d.session n with
  | none => d
  | some s =>
    match s.scalar, edDecode (helloPoint s.hello) with
    | some k, some p =>
      let pd := edEncode (edMul k edBase)
      let z := edEncode (edMul k p)
      let report := d.reportOf f (sha512 (s.hello ++ pd)) ++ pd
      let t := sha512 (s.hello ++ report)
      let h := sha512 (ascii "CREUC-SH1" ++ z ++ t)
      d.putSession n { s with scalar := none, report := report, transcript := t, keyOut := h.take 32, keyIn := h.drop 32 }
    | _, _ => d

/-! ### Running sealed work (19 R579, R580) -/

def Dev.sealedStep (d : Dev) (f : Fuses) (w : SealedWork) : Dev :=
  let d := d.bump 0xA000 9 1
  match w with
  | .identity => d.deriveIdentity
  | .hostReport => d.modBoot fun b => { b with attestReport := d.reportOf f b.attestData }
  | .handshake n => d.handshake f n

/-- SEALED_JOB: all waiting sealed work runs, at a job boundary or at a yield point of the running job. -/
def Dev.sealedJobs (d : Dev) (f : Fuses) : Dev :=
  let n := d.nickel
  match n.run with
  | none => n.sealedWork.foldl (fun d w => d.sealedStep f w) (d.modNickel fun x => { x with sealedWork := [] })
  | some j =>
    if n.sealedWork = [] ∨ j.points ≤ j.yields then d
    else
      n.sealedWork.foldl (fun d w => d.sealedStep f w)
        ((d.modNickel fun x => { x with sealedWork := [], run := some { j with yields := j.yields + 1 } }).bump 0xA000 8 1)

def execSealedJob (s : State) : Host.Outcome State Fault Refusal := .next (s.withDev (s.dev.sealedJobs s.fuses))

/-! ### Host reports (20 R600) -/

/-- ATTEST_REPORT: the signed report is written, and ATTEST_COUNT rises. -/
def Dev.attestReport (d : Dev) : Dev :=
  match d.boot.attestAt with
  | none => d
  | some a =>
    if d.boot.attestReport = [] then d
    else
      ((d.hostWrite (a + 64) d.boot.attestReport).bump 0xA120 6 1).modBoot fun b =>
        { b with attestAt := none, attestData := [], attestReport := [] }

def execAttestReport (s : State) : Host.Outcome State Fault Refusal := s.onDev Dev.attestReport

/-! ### Clearing the store (07 R208) -/

/-- Overwrite the Sterling store with zeros and draw a new sealing key. Every session closes, and each exchange that had not
failed fails (07 R200): its slot stays claimed until it is released, and what the store held of it is gone. The sealed work that concerned it goes; a host
report still to be signed waits for the identity key, which is derived again (20 R596). -/
def Dev.clearSterling (d : Dev) : Dev :=
  let lost := (d.exchanges.filter fun e => !e.2.state.failed).length
  let (rnd, d) := (d.bump 0x5800 8 lost).drawRandom
  { d with
    sterling := { Sterling.fresh with sealingKey := rnd.take 32 },
    nickel := { d.nickel with
      sealedWork := .identity :: d.nickel.sealedWork.filter fun w => w = .hostReport } }

end Sys2Proof.Machine
end

