-- ==== Sys2Proof/Machine/Faults.lean ====
section
/-! DEFINITION. The fault collector: sources and classes, classification, reactions, block reset, forced faults, and the start
of a chip reset (21). -/

namespace Sys2Proof.Machine

/-! ### Sources (21 R605) -/

/-- Classes that a source raises: corrected, uncorrected-contained, fatal. -/
def sourceClasses (src : Nat) : Bool × Bool × Bool :=
  match src with
  | 0x05 => (true, true, false)
  | 0x07 => (true, true, false)
  | 0x0D => (true, true, false)
  | 0x13 => (false, true, true)
  | 0x14 => (true, true, false)
  | 0x15 => (true, true, true)
  | 0x16 => (false, true, true)
  | 0x17 => (false, false, true)
  | 0x18 => (true, false, true)
  | 0x19 => (false, false, true)
  | _ => (false, 1 ≤ src && src ≤ 0x12, false)

/-- The source belongs to a block. -/
def sourceHasBlock (src : Nat) : Bool := [0x02, 0x03, 0x05, 0x08, 0x09, 0x0A, 0x0B, 0x0C, 0x0D].contains src

/-- Values of UNIT that a source's faults carry: the first value above them. The target of a checkpoint is a system device,
and a port fault names an endpoint index (log entry 39). -/
def unitLimit (src : Nat) : Nat :=
  match src with
  | 0x01 => 4096
  | 0x02 => 4096
  | 0x03 => 4096
  | 0x04 => 4096
  | 0x05 => 256
  | 0x06 => 256
  | 0x07 => 256
  | 0x08 => 8
  | 0x09 => 16
  | 0x0A => 256
  | 0x0B => 256
  | 0x0C => 8
  | 0x0D => 8
  | 0x0E => 8
  | 0x10 => 1024
  | 0x11 => 1025
  | 0x12 => 512
  | 0x13 => 512
  | 0x14 => 2
  | 0x15 => 80
  | 0x16 => 8
  | 0x18 => 4
  | _ => 1

/-- A reaction set is one that may be written (21 R609). -/
def reactOk (src v : Nat) (uc : Bool) : Bool :=
  let c := sourceClasses src
  v < 32 && ((if uc then c.2.1 else c.1) || v = 0) && (sourceHasBlock src || !v.testBit 2)

/-- A value of FORCE is one that may be written (21 R620). -/
def forceOk (src v : Nat) : Bool :=
  let c := sourceClasses src
  let cls := bitsAt v 0 2
  bitsAt v 2 14 = 0 && v < 2 ^ 32 && bitsAt v 16 16 < unitLimit src &&
    (match cls with
     | 0 => c.1
     | 1 => c.2.1
     | 2 => c.2.2
     | _ => false)

/-! ### The order of classification (21 R608) -/

/-- One fault is classified before another. -/
def RaisedFault.before (a b : RaisedFault) : Bool :=
  a.raisedAt < b.raisedAt || (a.raisedAt = b.raisedAt &&
    (a.source < b.source || (a.source = b.source && a.unit < b.unit)))

/-- The first fault in order. -/
def firstFault (fs : List RaisedFault) : Option RaisedFault :=
  match fs with
  | [] => none
  | f :: r => match firstFault r with
    | some g => some (if g.before f then g else f)
    | none => some f

/-! ### Records (21 R606) -/

/-- The reactions that a fault takes (21 R609-R611). -/
def Dev.reactions (d : Dev) (f : RaisedFault) : Nat :=
  if f.cls = 2 then 0x18
  else
    let set := d.reg (0x6100 + f.source.toNat) (if f.cls = 0 then 1 else 2)
    if f.block = none then set % 4 + set / 8 * 8 else set

def Dev.faultRecord (d : Dev) (f : RaisedFault) (reacted count : Nat) : List Byte :=
  mkRecord 64 [(0, 8, f.source.toNat), (8, 2, f.cls.toNat), (10, 1, bit f.forced), (16, 5, reacted),
    (24, 8, f.status.toNat), (32, 16, f.unit.toNat), (48, 8, f.reason.toNat), (64, 48, f.addr.toNat),
    (128, 64, d.tickNumber), (192, 64, d.frameNumber), (256, 64, d.counter), (320, 32, d.reg 0x6000 6),
    (352, 32, count), (384, 64, f.detail.toNat)]

/-! ### Block reset (21 R616) -/

/-- Streams that reach cluster `c` stop; those that `c` lists write their records when it leaves reset (11 R362, R374). -/
def Dev.stopStreams (d : Dev) (c : Nat) : Dev :=
  d.clusters.foldl (fun d p =>
    (d.cluster p.1).streams.foldl (fun d s =>
      if s.active ∧ s.reaches.contains c then (if p.1 = c then (d.stopStream c s).1 else d.abortStream p.1 s) else d) d) d

/-- The call that a cluster takes part in has passed its checks and has not returned, in a gang of several clusters: its
transfers fail (04 R126). UNIT is the lowest other cluster (log entry 40). -/
def Dev.failTransfers (d : Dev) (c : Nat) : Dev :=
  match (d.cluster c).call with
  | some g =>
    match g.clusters.filter (· ≠ c) with
    | [] => d
    | o :: os => if g.ran && !g.aborted then d.faultUc 0x07 (os.foldl min o) 0 0 stAborted c else d
  | none => d

/-- A reset cluster leaves the gang of its call: the others' headers are written, its own are not (09 R290). -/
def Dev.leaveCall (d : Dev) (c : Nat) : Dev :=
  let gang := ((d.cluster c).call.map (·.everywhere)).getD []
  (d.modCalls gang fun g => { g with clusters := g.clusters.filter (· ≠ c), joined := g.joined.filter (· ≠ c) }).modCluster c
    fun x => { x with call := none }

/-- A cluster is reset: what it takes part in stops, and its ports detach from every stream (05 R161, 06 R191, 08 R250, 10
R334, 11 R374, 12 R400). -/
def Dev.stopCluster (d : Dev) (c : Nat) : Dev :=
  let d := ((d.failTransfers c).abortCall c).leaveCall c
  let d := (List.range 8).foldl (fun (d : Dev) k => d.detachAll k [c]) d
  (((d.stopStreams c).stopJob c).stopFill c).resetCores c

/-- The BLOCK reaction (21 R616). -/
def Dev.resetBlock (d : Dev) (b : Block) : Dev :=
  (match b with
   | .cluster c => d.stopCluster c
   | .channel k => d.failStream k
   | .update m => d.stopUpdate m
   | .electrum e => (List.range 16).foldl (fun (d : Dev) i => d.stopCluster (16 * e + i)) d).modFaults fun x =>
    { x with inReset := (b :: x.inReset).eraseDups }

/-- A cluster leaves reset: its cores, its streams and its vector engine write the records that they owe. -/
def Dev.clusterLeavesReset (d : Dev) (c : Nat) : Dev :=
  if d.faults.holds (.cluster c) then d
  else
    let d := (d.coresLeaveReset c).payStreams c
    if (d.cluster c).veRun.any fun j => j.status = stAborted then d.jobDone c else d.payJobs c

/-- BLOCK_RESET_END: the stopped units write their status records. -/
def Dev.blockResetEnd (d : Dev) (b : Block) : Dev :=
  if !d.faults.inReset.contains b then d
  else
    let d := d.modFaults fun x => { x with inReset := x.inReset.filter (· ≠ b) }
    match b with
    | .cluster c => d.clusterLeavesReset c
    | .electrum e => (List.range 16).foldl (fun (d : Dev) i => d.clusterLeavesReset (16 * e + i)) d
    | .update m => d.updateDone m
    | .channel _ => d

def execBlockResetEnd (block : Block) (s : State) : Host.Outcome State Fault Refusal :=
  s.onDev fun d => d.blockResetEnd block

/-! ### Reactions (21 R611-R617) -/

/-- EVENT: the record goes into the fault ring (21 R614). One that a bank makes wait is written later. -/
def Dev.faultEvent (d : Dev) (record : List Byte) : Dev :=
  let count := d.reg 0x6000 2
  let head := d.reg 0x6000 3
  let at_ := d.reg 0x6000 1 + 64 * head
  if count = 0 then d
  else if (head + 1) % count = d.reg 0x6000 4 then d.bump 0x6000 5 1
  else
    match d.problemIn .host .write at_ 64 with
    | none => (d.writeAs .host at_ record).setReg 0x6000 3 ((head + 1) % count)
    | some .wait => (d.writeAs .host at_ record).setReg 0x6000 3 ((head + 1) % count)
    | some _ => d.bump 0x6000 5 1

/-- CHIP, or a fatal fault: the sticky record and RESET_CAUSE; no further fault is classified until the reset. -/
def Dev.startReset (d : Dev) (record : List Byte) (fatal : Bool) : Dev :=
  (d.modFaults fun x => { x with sticky := record, resetPending := true, resetErrn := true }).setReg 0x6000 9
    (if fatal then 1 else 2)

/-- Carry out the reactions of a record, in order: BLOCK, ERRN, EVENT, TRAP, CHIP. -/
def Dev.react (d : Dev) (f : RaisedFault) (set : Nat) (record : List Byte) : Dev :=
  let d := if set.testBit 2 then (match f.block with | some b => d.resetBlock b | none => d) else d
  let d := if set.testBit 4 then d.setReg 0x6000 7 1 else d
  let d := if set.testBit 0 then d.faultEvent record else d
  let d := if set.testBit 1 then d.modFaults fun x => { x with trap := true } else d
  if set.testBit 3 then d.startReset record (f.cls = 2) else d

/-- Steps 1 to 4 of classification for a fault that makes a record standing for `count` faults. -/
def Dev.recordFault (d : Dev) (f : RaisedFault) (count : Nat) : Dev :=
  let i := 0x6100 + f.source.toNat
  let d := d.setReg 0x6000 6 ((d.reg 0x6000 6 + 1) % 2 ^ 32)
  let d := match f.cls with
    | 0 => d.bump i 3 1
    | 1 => (((d.bump i 4 1).setReg i 6 d.tickNumber).setReg i 7 f.addr.toNat).modFrame fun x =>
        { x with faultsUc := x.faultsUc + 1 }
    | _ => d.bump i 5 1
  let set := d.reactions f
  let record := d.faultRecord f set count
  let (w, d) := d.drawWord
  let d := d.logAppend 0x03 w.toNat d.frameNumber record
  let d := if f.cls = 2 then d.clearNickel.clearSterling else d
  d.react f set record

/-- FAULT_CLASSIFY: the first fault in order; corrected faults of a source make one record in a tick (21 R608, R612). -/
def Dev.classify (d : Dev) : Dev :=
  match (if d.faults.resetPending then none else firstFault d.faults.raised) with
  | none => d
  | some f =>
    let src := f.source.toNat
    let d := d.modFaults fun x => { x with raised := x.raised.erase f }
    if f.cls ≠ 0 then d.recordFault f 1
    else if d.faults.corrRecorded.contains src then
      (d.bump (0x6100 + src) 3 1).modFaults fun x => { x with corrSince := tset x.corrSince src (tget x.corrSince src 0 + 1) }
    else
      let n := tget d.faults.corrSince src 0 + 1
      (d.modFaults fun x => { x with corrRecorded := src :: x.corrRecorded, corrSince := tset x.corrSince src 0 }).recordFault f n

def execFaultClassify (s : State) : Host.Outcome State Fault Refusal := s.onDev Dev.classify

/-- What a forced fault of the share-mode peer or the Sterling source does, of whatever class (07 R235, 21 R621): the exchanges
of session UNIT fail as under 07 R232, and nothing else is recorded than the forced fault itself. -/
def Dev.failSession (d : Dev) (n : Nat) : Dev :=
  (d.exchanges.filter fun e => e.2.session = n && !e.2.state.failed).foldl (fun d p =>
    let d := (d.putExchange p.1 { p.2 with state := .failedPeer }).bump 0x5800 8 1
    (d.shareSend n 0x1F p.1 p.2.round p.2.serial.toNat [stPeerFail]).1) d

/-- The block that a forced fault's UNIT names (21 R620); a forced stack error names none. -/
def forcedBlock (src unit : Nat) : Option Block := sourceBlock src unit

/-- A fault raised through FORCE. -/
def Dev.forceFault (d : Dev) (src v : Nat) : Dev :=
  let unit := bitsAt v 16 16
  let d := if src = 0x12 ∨ src = 0x13 then d.failSession unit else d
  d.raise { source := BitVec.ofNat 8 src, cls := BitVec.ofNat 2 v, unit := BitVec.ofNat 16 unit, addr := 0, reason := 0,
            status := 0, detail := 0, block := forcedBlock src unit, forced := true }

/-- An earlier forced fault of the source waits for classification. -/
def Dev.forcePending (d : Dev) (src : Nat) : Bool :=
  d.faults.raised.any fun f => f.forced && f.source.toNat = src

/-! ### Faults that commands bring about directly -/

/-- The device is running: boot ROM or firmware. -/
def Dev.alive (d : Dev) : Bool := d.phase = .boot || d.phase = .service

/-- MANAGEMENT_WATCHDOG_EXPIRY (21 R605). -/
def execManagementWatchdogExpiry (s : State) : Host.Outcome State Fault Refusal :=
  s.onDev fun d => if d.alive then d.faultFatal 0x19 0 else d

/-- STERLING_INTERNAL_ERROR (21 R605): UNIT names a session; none is named by an error of the store itself. -/
def execSterlingInternalError (s : State) : Host.Outcome State Fault Refusal :=
  s.onDev fun d => if d.alive then d.faultFatal 0x13 0 else d

end Sys2Proof.Machine
end

