-- ==== Sys2Proof/Machine/Boot.lean ====
section
/-! DEFINITION. Reset, the boot ROM and its exchanges, firmware images, and extension images (20 R584-R595, 21 R617-R619,
22 R626-R630, R645-R648, 13 R408, R409, 09 R299, R300). -/

namespace Sys2Proof.Machine

/-! ### Clearing everything (18 R541, 21 R618) -/

/-- What keeps its value across every reset but power-on: COUNT_FATAL of the sources. -/
def isCountFatal (key : Nat) : Bool := 0x6101 ≤ key / 256 && key / 256 ≤ 0x6119 && key % 256 = 5

/-- The device with every register, memory and unit at its default. Kept: the model's own counters, the straps, the pins,
what the regulators hold, status records that Nickel owes, and COUNT_FATAL. -/
def Dev.cleared (d : Dev) (phase : Phase) : Dev :=
  { Dev.fresh with
    phase := phase, draw := d.draw, clock := d.clock,
    regs := d.regs.filter fun p => isCountFatal p.1,
    nickel := { Nickel.fresh with owed := d.clearNickel.nickel.owed },
    boot := { Boot.fresh with mode := d.boot.mode, masterSel := d.boot.masterSel },
    pins := d.pins,
    power := { Power.fresh with voutSent := d.power.voutSent } }

/-- The fuse bits with the lowest free ones programmed until `v` are (20 R603). -/
def raiseBits (w : BitVec 63) (v : Nat) : BitVec 63 :=
  (List.range 63).foldl (fun (w : BitVec 63) i =>
    let count := (List.range 63).foldl (fun n j => n + bit (w.getLsbD j)) 0
    if count < v ∧ !w.getLsbD i then w ||| (1#63 <<< i) else w) w

/-- Fuses whose programming a reset cuts short: any part of the bits may be programmed (log entry 42). -/
def cutFuses (f : Fuses) (d : Dev) : Fuses × Dev :=
  let (w0, d) := d.drawWord
  let (w1, d) := d.drawWord
  let (w2, d) := d.drawWord
  let (w3, d) := d.drawWord
  let (w4, d) := d.drawWord
  let mask : BitVec 256 := BitVec.ofNat 256 (w0.toNat + w1.toNat <<< 64 + w2.toNat <<< 128 + w3.toNat <<< 192)
  ({ ownerKeyHash := match d.boot.ownerProgramming with
       | some h => f.ownerKeyHash ||| (BitVec.ofNat 256 (leNat h) &&& mask)
       | none => f.ownerKeyHash,
     secver := match d.boot.secverProgramming with
       | some v => f.secver ||| (raiseBits f.secver v &&& BitVec.ofNat 63 w4.toNat)
       | none => f.secver }, d)

/-! ### Holding and releasing the device (22 R626, R627, R645, R646) -/

/-- POWER_ON: the detector releases power-on reset; the board still holds RESET_N low (22 R626). -/
def Dev.powerOn (d : Dev) : Dev :=
  if d.phase ≠ .unpowered then d
  else { d.cleared .held with regs := [], nickel := .fresh, power := .fresh }

def execPowerOn (s : State) : Host.Outcome State Fault Refusal := s.onDev Dev.powerOn

/-- RESET_N_ASSERT: the device is held, the sticky record and RESET_CAUSE are cleared. -/
def Dev.resetAssert (d : Dev) : Dev :=
  if d.phase = .unpowered then d else { d.cleared .held with pins := { d.pins with resetN := false } }

def execResetNAssert (s : State) : Host.Outcome State Fault Refusal :=
  if s.dev.phase = .unpowered then .next s
  else
    let (f, d) := cutFuses s.fuses s.dev
    .next { s with fuses := f, dev := d.resetAssert }

/-- POWER_DOWN: only a device held by RESET_N loses its rails (22 R627). -/
def Dev.powerDown (d : Dev) : Dev :=
  if d.phase ≠ .held then d
  else { d.cleared .unpowered with regs := [], nickel := .fresh, power := .fresh, pins := { Pins.fresh with resetN := false } }

def execPowerDown (s : State) : Host.Outcome State Fault Refusal := s.onDev Dev.powerDown

/-! ### BOOT messages (20 R587) -/

def broadcast : BitVec 48 := 0xFFFFFFFFFFFF

/-- Send a message of class BOOT. It goes untagged, so at the priority of untagged frames, which the default PRIO_MAP gives
to events (log entry 43). -/
def Dev.sendBoot (d : Dev) (to_ : BitVec 48) (kind : BitVec 8) (body : List Byte) : Dev :=
  d.sendMsg (.mac to_) .event 6 kind (d.answerVersion (.mac to_) 1) 0xFFFF body

/-- BOOT_HELLO. -/
def Dev.sendHello (d : Dev) : Dev :=
  d.sendBoot (if d.boot.mode = 0 then Config.bootServer else broadcast) 1
    (beBytes 2 0x7200 ++ beBytes 1 0xA0 ++ beBytes 1 d.boot.mode.toNat ++ beBytes 4 d.boot.attempt.toNat ++
      beBytes 8 Config.serial.toNat ++ d.sterling.identityPub ++ fuseBytes 64 Config.identityCert.toNat)

/-- The BOOT_READ that awaits its answer. -/
def Dev.sendRead (d : Dev) : Dev :=
  d.sendBoot d.boot.server 3 (beBytes 8 d.boot.imageId.toNat ++ beBytes 8 d.boot.nextRead ++ beBytes 4 d.boot.readLen)

/-- BOOT_DONE. -/
def Dev.sendDone (d : Dev) (result : Nat) : Dev :=
  d.sendBoot d.boot.server 5 (beBytes 8 d.boot.imageId.toNat ++ beBytes 1 result)

/-! ### The boot sequence (20 R586, R588) -/

/-- An attempt begins: nothing is fetched, and BOOT_HELLO goes out. -/
def Dev.startAttempt (d : Dev) (n : BitVec 32) : Dev :=
  (d.modBoot fun b => { b with step := .hello, attempt := n, server := 0, imageId := 0, imageLen := 0, image := [],
                               nextRead := 0, readLen := 0, readResends := 0 }).sendHello

/-- The first attempt begins when every slab is initialised and the link is up. -/
def Dev.tryHello (d : Dev) : Dev :=
  if d.phase = .boot ∧ d.boot.step = .idle ∧ d.stk.initialising = [] ∧ d.linkUp then d.startAttempt 1 else d

/-- The sequence of R586 up to the training of the port. -/
def Dev.bootSequence (d : Dev) : Dev :=
  let d := d.clearSterling.deriveIdentity
  let d := (d.modNickel fun x => { x with sealedWork := [] }).bump 0xA000 9 1
  let d := (d.setReg 0x8000 2 0).setReg 0xA100 1 d.boot.mode.toNat
  let d := { d with phase := .boot, stk := { d.stk with initialising := List.range 96 } }
  d.modBoot fun b => { b with step := if b.mode.getLsbD 1 then .hold else .idle }

/-- RESET_RELEASE: the straps are latched; BOOT_MODE 0b11 asserts ERR_N (20 R585, 22 R646). -/
def Dev.resetRelease (d : Dev) (mode : BitVec 2) (masterSel : Bool) : Dev :=
  if d.phase ≠ .held then d
  else
    let d := { d with pins := { d.pins with resetN := true }, boot := { Boot.fresh with mode := mode, masterSel := masterSel } }
    d.bootSequence.modFaults fun x => { x with bootErrn := mode = 3 }

def execResetRelease (bootMode : BitVec 2) (masterSel : Bool) (s : State) : Host.Outcome State Fault Refusal :=
  s.onDev fun d => d.resetRelease bootMode masterSel

/-- HELLO_REPEAT: no OFFER has been accepted for 1 s. -/
def execHelloRepeat (s : State) : Host.Outcome State Fault Refusal :=
  s.onDev fun d => if d.phase = .boot ∧ d.boot.step = .hello then d.sendHello else d

/-- SLAB_INIT_DONE (13 R408): the slab stops refusing accesses. -/
def Dev.slabInitDone (d : Dev) (slab : Nat) : Dev :=
  ({ d with stk := { d.stk with initialising := d.stk.initialising.filter (· ≠ slab) } }).tryHello

def execSlabInitDone (slab : Nat) (s : State) : Host.Outcome State Fault Refusal := s.onDev fun d => d.slabInitDone slab

/-- Ask for the next range: the header, then the code in order, 1 MiB at a time (log entry 43). -/
def Dev.askRange (d : Dev) (off len : Nat) : Dev :=
  (d.modBoot fun b => { b with nextRead := off, readLen := len, readResends := 0 }).sendRead

/-- BOOT_OFFER (20 R588 step 2). -/
def Dev.bootOffer (d : Dev) (src : BitVec 48) (id len : BitVec 64) : Dev :=
  if d.phase = .boot ∧ d.boot.step = .hello ∧ (d.boot.mode ≠ 0 ∨ src = Config.bootServer) then
    (d.modBoot fun b => { b with step := .reading, server := src, imageId := id, imageLen := len, image := [] }).askRange 0 384
  else d

def execBootOffer (src : BitVec 48) (imageId imageLen : BitVec 64) (s : State) : Host.Outcome State Fault Refusal :=
  s.onDev fun d => (d.consume (.mac src) 6 2).bootOffer src imageId imageLen

/-- An attempt fails (20 R589). -/
def Dev.failAttempt (d : Dev) (result : Nat) : Dev :=
  ((d.sendDone result).modFaults fun x => { x with bootErrn := true }).modBoot fun b =>
    { b with step := .waitRetry, image := [], nextRead := 0, readLen := 0 }

/-- BOOT_READ_RESEND (20 R588 step 4). -/
def Dev.readResend (d : Dev) : Dev :=
  if d.phase ≠ .boot ∨ d.boot.step ≠ .reading then d
  else if d.boot.readResends < 8 then (d.modBoot fun b => { b with readResends := b.readResends + 1 }).sendRead
  else d.failAttempt 0x0A

def execBootReadResend (s : State) : Host.Outcome State Fault Refusal := s.onDev Dev.readResend

/-- ATTEMPT_RETRY (20 R589). -/
def execAttemptRetry (s : State) : Host.Outcome State Fault Refusal :=
  s.onDev fun d => if d.phase = .boot ∧ d.boot.step = .waitRetry then d.startAttempt (d.boot.attempt + 1) else d

/-! ### Image checks (20 R591, R592) -/

def sliceOf (b : List Byte) (off n : Nat) : List Byte := (b.drop off).take n

/-- A signature verifies (19 R568). -/
def verifies (pub sig msg : List Byte) : Bool := edVerifyMsg pub sig msg = some true

/-- Step 1 but for the length: MAGIC, KIND, reserved bits. -/
def headerForm (h : List Byte) (kind : Nat) : Bool :=
  fld h 0 32 = 0x494D4731 && fld h 32 8 = kind && fld h 40 24 = 0 && fld h 216 40 = 0

def codeLen (h : List Byte) : Nat := fld h 128 64

/-- Step 5 for a hash that is enrolled. -/
def ownerOk (h : List Byte) (hash : BitVec 256) : Bool :=
  leNat ((sha512 (sliceOf h 96 32)).take 32) = hash.toNat && verifies (sliceOf h 96 32) (sliceOf h 192 64) (sliceOf h 0 128)

/-- The header checks of a firmware image, steps 1 to 6: RESULT, zero when all pass. -/
def firmwareCheck (f : Fuses) (h : List Byte) (imageLen : Nat) : Nat :=
  let root := sliceOf h 256 32
  let sign := sliceOf h 288 32
  if !headerForm h 1 || imageLen ≠ 384 + codeLen h then 0x02
  else if 2 ^ 26 < imageLen then 0x03
  else if fld h 192 16 ≠ 0x7200 ∨ fld h 208 8 ≠ 0xA0 then 0x04
  else if leNat ((sha512 root).take 32) ≠ Config.vendorRootHash.toNat ∨ !verifies root (sliceOf h 320 64) sign then 0x05
  else if !verifies sign (sliceOf h 128 64) (sliceOf h 0 128) then 0x06
  else if f.ownerKeyHash ≠ 0 ∧ !ownerOk h f.ownerKeyHash then 0x07
  else if fld h 96 32 < secverCount f then 0x08
  else 0

/-- FIRMWARE_START (20 R593, 22 R630, 19 R563): the measurement, BOOT_DONE, and the firmware's first acts. -/
def Dev.firmwareStart (d : Dev) : Dev :=
  let m := sha512 (d.boot.image.take 128)
  let d := d.modSterling fun x => { x with fwMeasure := m }
  let d := (List.range 8).foldl (fun (d : Dev) k => d.setReg 0xA100 (6 + k) (leNat (sliceOf m (8 * k) 8))) d
  let d := ((d.setReg 0xA100 2 d.boot.attempt.toNat).setReg 0xA100 3 d.boot.server.toNat).setReg 0xA100 4
    (fld d.boot.image 64 32)
  let d := (d.setReg 0xA100 5 (fld d.boot.image 96 8)).sendDone 0
  let d := d.modFaults fun x => { x with bootErrn := false, resetErrn := false }
  let d := d.modBoot fun b => { b with step := .idle }
  let d := (List.range 3).foldl (fun (d : Dev) j =>
    d.modPower fun x => { x with voutSent := tset x.voutSent j (BitVec.ofNat 16 (d.reg (0x7300 + j) 3)) }) d
  { d with phase := .service }.payNickel

/-- The next range of the code, or the end of the image. -/
def Dev.nextRange (d : Dev) : Dev :=
  let have_ := d.boot.image.length
  let len := d.boot.imageLen.toNat
  if have_ < len then d.askRange have_ (min (2 ^ 20) (len - have_))
  else if sha512 (d.boot.image.drop 384) ≠ sliceOf d.boot.image 32 64 then d.failAttempt 0x09
  else d.firmwareStart

/-- BOOT_DATA: the answer to the outstanding BOOT_READ (20 R588, R592). -/
def Dev.bootData (d : Dev) (f : Fuses) (src : BitVec 48) (id off : BitVec 64) (data : List Byte) : Dev :=
  let b := d.boot
  if d.phase = .boot ∧ b.step = .reading ∧ src = b.server ∧ id = b.imageId ∧ off.toNat = b.nextRead ∧
      data.length = b.readLen then
    let d := d.modBoot fun b => { b with image := b.image ++ data }
    if b.nextRead ≠ 0 then d.nextRange
    else
      match firmwareCheck f data b.imageLen.toNat with
      | 0 => d.nextRange
      | r => d.failAttempt r
  else d

def execBootData (src : BitVec 48) (imageId offset : BitVec 64) (data : List Byte) (s : State) :
    Host.Outcome State Fault Refusal := .next (s.withDev ((s.dev.consume (.mac src) 6 4).bootData s.fuses src imageId offset data))

/-! ### Chip reset (21 R617, R618, 22 R641, R644, R647) -/

/-- CHIP_RESET: everything is cleared but the sticky record and RESET_CAUSE; ERR_N stays asserted until firmware starts.
A fatal thermal or clock fault holds the device longer. -/
def Dev.chipReset (d : Dev) : Dev :=
  if !d.faults.resetPending then d
  else
    let record := d.faults.sticky
    let e := d.cleared .chipReset
    let e := e.setReg 0x6000 9 (d.reg 0x6000 9)
    let e := (List.range 8).foldl (fun (e : Dev) k => e.setReg 0x6010 (k + 1) (leNat (sliceOf record (8 * k) 8))) e
    let fatal (src : Nat) : Bool := d.reg 0x6000 9 = 1 && fld record 0 8 = src
    { e with
      faults := { Faults.fresh with sticky := record, resetErrn := true },
      power := { e.power with thermHold := fatal 0x15 } }

def execChipReset (s : State) : Host.Outcome State Fault Refusal :=
  if !s.dev.faults.resetPending then .next s
  else
    let (f, d) := cutFuses s.fuses s.dev
    .next { s with fuses := f, dev := d.chipReset }

/-- CHIP_RESET_END: the reset sequence begins, once the sensors have cooled. That the clock is good again is what this
event says. -/
def Dev.chipResetEnd (d : Dev) : Dev :=
  if d.phase ≠ .chipReset ∨ d.power.thermHold then d
  else
    d.bootSequence.modFaults fun x =>
      { x with bootErrn := d.boot.mode = 3 }

def execChipResetEnd (s : State) : Host.Outcome State Fault Refusal := s.onDev Dev.chipResetEnd

/-! ### Extension images (20 R594, R595, 09 R299, R300) -/

/-- The routine table of an extension's code. -/
def extRoutines (code : List Byte) : Option (List ExtRoutine) :=
  let n := leNat (code.take 4)
  if code.length < 4 + 64 * n then none
  else
    let rows := (List.range n).map fun i => sliceOf code (4 + 64 * i) 64
    let rs := rows.map fun r => ExtRoutine.mk (fld r 0 16)
      ((List.range 6).map fun k => (fld r (64 + 64 * k) 32, fld r (96 + 64 * k) 32))
    let nums := rs.map (·.number)
    if nums.all (fun x => 0x200 ≤ x && x ≤ 0x3FF) ∧ nums.eraseDups.length = n ∧
        (rows.all fun r => fld r 16 48 = 0 && fld r 448 64 = 0) then some rs
    else none

/-- The checks of R594 on an image read from the stacks, with the hash read when the check started. -/
def extCheck (hash : BitVec 256) (image : List Byte) : Option ExtImage :=
  let code := image.drop 256
  if headerForm image 2 ∧ image.length = 256 + codeLen image ∧ image.length ≤ 2 ^ 18 ∧ fld image 192 16 = 0x7200 ∧
      fld image 208 8 = 0xA0 ∧ hash ≠ 0 ∧ ownerOk image hash ∧ sha512 code = sliceOf image 32 64 then
    (extRoutines code).map fun rs => { digest := sha512 image, routines := rs, code := code }
  else none

/-- EXT_TAKE_EFFECT: a waiting extension or removal takes effect (09 R299, 20 R597). -/
def Dev.takeExt (d : Dev) : Dev :=
  match d.lib.waiting with
  | none => d
  | some none =>
    (((((d.modLib fun x => { x with waiting := none, inService := none }).setReg 0xA300 1 0).setReg 0xA300 3 0).setReg
      0xA300 4 0).modSterling fun x => { x with extMeasure := [] })
  | some (some e) =>
    (((((d.modLib fun x => { x with waiting := none, inService := some e }).setReg 0xA300 1 1).setReg 0xA300 3
      (leNat (e.digest.take 8))).setReg 0xA300 4 e.routines.length).setReg 0xA300 6 d.tickNumber).modSterling fun x =>
        { x with extMeasure := e.digest }

/-- EXT_COPY_DONE. The image is read as a host access; a refused or bad read fails it. -/
def Dev.extCopyDone (d : Dev) : Dev :=
  match d.lib.loading with
  | none => d
  | some (a, hash) =>
    let fail (d : Dev) : Dev := (d.modLib fun x => { x with loading := none }).setReg 0xA300 1 3
    if !inStack a 256 then fail d
    else
      let (d, h, bad) := d.hostRead a 256
      if bad ∨ 2 ^ 18 < 256 + codeLen h ∨ !inStack a (256 + codeLen h) then fail d
      else
        let (d, code, bad) := d.hostRead (a + 256) (codeLen h)
        match (if bad then none else extCheck hash (h ++ code)) with
        | none => fail d
        | some e =>
          let d := d.modLib fun x => { x with loading := none, waiting := some (some e) }
          if d.tickRun then d else d.takeExt

def execExtCopyDone (s : State) : Host.Outcome State Fault Refusal := s.onDev Dev.extCopyDone

end Sys2Proof.Machine
end

