-- ==== Sys2Proof/Machine/Grants.lean ====
section
/-! DEFINITION. The power arbiter: floors and maxima, the budget, and the grants (22 R632-R635). -/

namespace Sys2Proof.Machine

/-- Number of requesters: clusters, stacks, update units, port. -/
def requesters : Nat := 273

/-- Floor of a requester; the port has none while its link is down (22 R633). -/
def Dev.powerFloor (d : Dev) (i : Nat) : Nat :=
  if i < 256 then 2 else if i < 264 then 20 else if i < 272 then 1 else if d.reg 0x8000 2 = 0 then 0 else 40

def powerMax (i : Nat) : Nat := if i < 256 then 24 else if i < 264 then 100 else if i < 272 then 20 else 120

/-- A request raised to the floor and lowered to the maximum. -/
def Dev.clampRequest (d : Dev) (i r : Nat) : Nat := min (powerMax i) (max (d.powerFloor i) r)

/-- The budget B (22 R634). -/
def Dev.budget (d : Dev) : Nat := min (d.reg 0x7000 1) (d.reg 0x7000 2) - d.reg 0x7000 3

def total (xs : List Nat) : Nat := xs.foldl (· + ·) 0

/-- What is left over goes one each to requesters below their request, in ascending index, until none remains. -/
def leftOver (n : Nat) (gs : List (Nat × Nat)) : List Nat :=
  match gs with
  | [] => []
  | (g, r) :: t => if n = 0 then g :: leftOver 0 t else if g < r then (g + 1) :: leftOver (n - 1) t else g :: leftOver n t

/-- Grants for clamped requests (22 R634), and whether they are scaled. One pass over the requesters is enough: scaled
grants leave fewer than 273 units. -/
def Dev.grantsFor (d : Dev) (rs : List Nat) : List Nat × Bool :=
  let b := d.budget
  let r := total rs
  let fs := (List.range requesters).map d.powerFloor
  let f := total fs
  if r ≤ b then (rs, false)
  else
    let gs := (rs.zip fs).map fun p => p.2 + (p.1 - p.2) * (b - f) / (r - f)
    (leftOver (b - total gs) (gs.zip rs), true)

/-- The grants without a boundary: every request at its maximum (22 R635). -/
def Dev.idleGrants (d : Dev) : List Nat := (d.grantsFor ((List.range requesters).map powerMax)).1

/-- Live grant of a requester. -/
def Dev.grant (d : Dev) (i : Nat) : Nat :=
  match tfind d.power.grants i with
  | some g => g
  | none => d.idleGrants.getD i 0

/-- The arbiter computes the grants of a tick from a request table (22 R633-R635). -/
def Dev.applyGrants (d : Dev) (table : List Nat) : Dev :=
  let rs := (List.range requesters).map fun i => d.clampRequest i (table.getD i 0)
  let (gs, scaled) := d.grantsFor rs
  let d := (d.setReg 0x7000 4 d.budget).setReg 0x7000 5 (total rs)
  let d := if scaled then d.bump 0x7000 6 1 else d
  d.modPower fun x => { x with grants := (List.range requesters).zip gs, requests := (List.range requesters).zip rs }

end Sys2Proof.Machine
end

