-- ==== Sys2Proof/Machine/Launch.lean ====
section
/-! DEFINITION. Launches: arming, and which one fires next; and the launches that replay arms from a log (15 R469, R470,
R481). -/

namespace Sys2Proof.Machine

/-- Arm a launch. One that is late fires in the cycle in which it is armed. -/
def Dev.arm (d : Dev) (kind at_ arg : Nat) (input : Option (List Byte)) : Dev :=
  let now := d.counter
  let d := if at_ ≤ now then d.bump 0x2020 7 1 else d
  d.modTick fun t => { t with
    launches := t.launches ++ [{ kind := BitVec.ofNat 8 kind, at_ := BitVec.ofNat 64 at_, arg := arg, fire := max at_ now,
                                 input := input }] }

/-- The launch that fires next: the earliest that is due, ties in the order in which they were armed. -/
def Dev.dueLaunch (d : Dev) : Option Launch :=
  (d.tick.launches.filter fun l => l.fire ≤ d.counter).foldl (fun (m : Option Launch) l =>
    match m with
    | none => some l
    | some b => if l.fire < b.fire then some l else some b) none

/-- The next launch fires, if it is of the given kind. -/
def Dev.fireLaunch (d : Dev) (kind : BitVec 8) : Option (Launch × Dev) :=
  match d.dueLaunch with
  | some l => if l.kind = kind then some (l, d.modTick fun t => { t with launches := t.launches.erase l }) else none
  | none => none

/-- Launches armed by headers: the count that R469 limits (log entry 44). -/
def Dev.armedCount (d : Dev) : Nat := (d.tick.launches.filter fun l => l.kind ≠ 3).length

/-! ### Role and membership (15 R459, R462) -/

/-- The device acts as tick master (15 R462). -/
def Dev.isMaster (d : Dev) : Bool := d.reg 0x2000 2 = 1 && d.boot.masterSel

/-- The device acts as a follower. -/
def Dev.isFollower (d : Dev) : Bool := d.reg 0x2000 2 = 0 && !d.boot.masterSel

/-- Bit of a system device in TICK_MEMBERS. -/
def Dev.isMember (d : Dev) (n : Nat) : Bool := n < 1024 && (d.reg 0x2040 (n / 64 + 1)).testBit (n % 64)

/-! ### Replay (15 R481) -/

/-- FRAME, COUNTER and KIND of a log record. -/
def logFrame (r : List Byte) : Nat := fld r 192 64
def logCounter (r : List Byte) : Nat := fld r 128 64
def logKind (r : List Byte) : Nat := fld r 0 8

/-- The records of a log copy, and whether one of them is malformed. -/
def logRecords (fuel : Nat) (bs : List Byte) : List (List Byte) × Bool :=
  match fuel with
  | 0 => ([], bs ≠ [])
  | n + 1 =>
    if bs = [] then ([], false)
    else
      let len := fld bs 32 32
      if bs.length < 64 ∨ len < 64 ∨ len % 64 ≠ 0 ∨ bs.length < len ∨ !([1, 2, 3, 4, 5, 7].contains (logKind bs)) then ([], true)
      else
        let (rs, bad) := logRecords n (bs.drop len)
        (bs.take len :: rs, bad)

/-- REPLAY_MODE becomes 1: a launch for each record after REPLAY_FROM, in log order. -/
def Dev.startReplay (d : Dev) : Dev :=
  let (d, bs, bad) := d.hostRead (d.reg 0x2060 2) (d.reg 0x2060 3)
  let (rs, broken) := if bad then ([], true) else logRecords (bs.length / 64 + 1) bs
  let rs := rs.filter fun r => d.reg 0x2060 5 < logFrame r
  let d := rs.foldl (fun (d : Dev) r => d.arm 3 ((logCounter r + d.reg 0x2060 4) % 2 ^ 64) 0 (some r)) d
  d.setReg 0x2060 6 (if broken then 3 else 1)

/-- Every logged input of a frame has been injected (15 R458). -/
def Dev.injected (d : Dev) (frame : Nat) : Bool :=
  d.tick.launches.all fun l => match l.input with
    | some r => frame < logFrame r
    | none => true

end Sys2Proof.Machine
end

