-- ==== Sys2Proof/Machine/Shadow.lean ====
section
/-! DEFINITION. The values that dictionary entries take, and shadowed entries: pending values, and the processing by which
they take effect at a boundary, or at once while TICK_RUN is 0 (18 R544-R547, 15 R449, R453, R658, 13 R407, R408,
10 R326-R331, 02 R43-R45). -/

namespace Sys2Proof.Machine

/-! ### Values that an entry accepts when it is written (18 R549) -/

/-- The set voltages of a rail in mV (22 R624). -/
def railRange (j : Nat) : Nat × Nat :=
  if j ≤ 1 then (railNominal j, 720) else if j = 2 then (660, 750) else (railNominal j, railNominal j)

/-- A write of LOSS_CMD that is accepted (16 R495). -/
def Dev.lossOk (d : Dev) (v : Nat) : Bool :=
  let dev := bitsAt v 0 10
  bitsAt v 10 6 = 0 && (d.reg 0x2040 (dev / 64 + 1)).testBit (dev % 64) && dev ≠ d.systemDevice &&
    bitsAt v 16 48 = if d.tickRun then d.frameNumber + 1 else d.reg 0x2000 0x0B

def encapOk (v : Nat) : Bool := v ≤ 2 || v = 0xFF

/-- Values of the entries below 0x3000. -/
def Dev.valueOkLow (d : Dev) (idx sub v : Nat) : Bool :=
  match idx, sub with
  | 0x1010, 1 => v ≤ 1023
  | 0x1040, 1 => v ≤ 1
  | 0x2000, 1 => v ≤ 1
  | 0x2000, 2 => v ≤ 1
  | 0x2000, 4 => 52500 ≤ v && v ≤ 21000000
  | 0x2000, 5 => v < 21000000
  | 0x2000, 6 => 2048 ≤ v && v ≤ 1048576
  | 0x2000, 7 => v ≤ 4095
  | 0x2000, 8 => v ≤ 1
  | 0x2010, 1 => v % 128 = 0
  | 0x2010, 2 => v ≤ 4096
  | 0x2020, 2 => v ≤ 2
  | 0x2050, 1 => v % 64 = 0
  | 0x2050, 2 => v % 64 = 0
  | 0x2060, 1 => v ≤ 1
  | 0x2070, 1 => d.lossOk v
  | _, 1 => if 0x2080 ≤ idx then v % 256 = 0 else if 0x1041 ≤ idx && idx ≤ 0x1048 then encapOk v else true
  | _, 2 => if 0x2080 ≤ idx then v % 256 = 0 else if 0x1041 ≤ idx && idx ≤ 0x1048 then v < 2 ^ 48 else true
  | _, 3 => if 0x2080 ≤ idx then v ≤ 1023 || v = 0xFFFF else true
  | _, _ => true

/-- Values of the scratchpad entries (10 R329, R331, R336). -/
def spValueOk (sub v : Nat) : Bool :=
  match sub with
  | 1 => v ≤ 1
  | 2 => bitsAt v 6 2 = 0 && v < 2 ^ 14 && bitsAt v 0 6 ≤ bitsAt v 8 6 && bitsAt v 8 6 ≤ 32
  | 7 => v < 2 ^ 37 && (bitsAt v 32 5 ≤ 0x10 || bitsAt v 32 5 = 0x1F)
  | 8 => (List.range 32).all fun b => bitsAt v (2 * b) 2 ≠ 3
  | _ => true

/-- Values of the entries from 0x3000 to 0x6FFF. -/
def Dev.valueOkMid (d : Dev) (idx sub v : Nat) : Bool :=
  match idx / 256, sub with
  | 0x30, 1 => 4096 ≤ v && v ≤ 2 ^ 30
  | 0x31, _ => spValueOk sub v
  | 0x32, 1 => v % 64 = 0
  | 0x32, 2 => v ≤ 1024
  | 0x33, 1 => 1 ≤ v && v ≤ 100
  | 0x34, 1 => v % 128 = 0
  | 0x34, 2 => v ≤ 256
  | 0x40, 8 => 1 ≤ v && v ≤ 168
  | 0x51, 2 => v = 1 || v = 2
  | 0x52, _ => v < 2 ^ 38
  | 0x58, 2 => 1 ≤ v && v ≤ 10000
  | 0x58, 3 => 1 ≤ v && v ≤ 10000
  | 0x58, 4 => v ≤ 7
  | 0x58, 5 => v % 4352 = 0
  | 0x58, 6 => v % 4352 = 0
  | 0x60, 1 => v % 64 = 0
  | 0x60, 4 => if d.reg 0x6000 2 = 0 then v = 0 else v < d.reg 0x6000 2
  | 0x60, 8 => v = 1
  | 0x61, 1 => reactOk (idx % 256) v false
  | 0x61, 2 => reactOk (idx % 256) v true
  | 0x61, 8 => forceOk (idx % 256) v
  | _, _ => true

/-- Values of the entries from 0x7000 on. -/
def Dev.valueOkHigh (d : Dev) (idx sub v : Nat) : Bool :=
  match idx / 256, sub with
  | 0x70, 1 => 1200 ≤ v && v ≤ 3400
  | 0x70, 8 => v ≤ d.reg 0x2000 4
  | 0x70, 0x0B => v ≤ 1
  | 0x73, 1 => v < 128
  | 0x73, 3 => (railRange (idx % 256)).1 ≤ v && v ≤ (railRange (idx % 256)).2
  | 0x74, 1 => 60 ≤ v && v ≤ 110
  | 0x74, 2 => 60 ≤ v && v ≤ 100
  | 0x74, 5 => 1 ≤ v && v ≤ 20
  | 0x74, 6 => 10 ≤ v && v ≤ 1000
  | 0x80, _ =>
    if idx = 0x8000 then
      (match sub with
       | 1 => v ≤ 2
       | 3 => 1518 ≤ v && v ≤ 9216
       | 4 => v < 2 ^ 48
       | 0x0A => v < 4096 || v = 0xFFFF
       | 0x0B => v < 2 ^ 20
       | _ => true)
    else
      (match sub with
       | 1 => v ≤ 1023
       | 2 => 1 ≤ v && v ≤ 60000
       | 3 => v % 64 = 0
       | _ => true)
  | 0x91, 1 => v % 128 = 0
  | 0x91, 2 => v ≤ 256
  | 0xA0, _ => v % 64 = 0 && v < 2 ^ 48 && mapRange v 64
  | 0xA1, 5 => idx ≠ 0xA120 || (v % 64 = 0 && v < 2 ^ 48 && mapRange v 576)
  | _, _ => if 0x8400 ≤ idx && idx ≤ 0x8800 then (if sub = 1 then v < 2 ^ 48 else sub ≠ 5 || encapOk v) else true

/-- Step 5 of R550 for a value that fits the type, but for OWNER_ENROL and SECVER_RAISE, whose rows judge them. -/
def Dev.valueOk (d : Dev) (idx sub v : Nat) : Bool :=
  v < 2 ^ dictWidth idx sub &&
    (if idx < 0x3000 then d.valueOkLow idx sub v
     else if idx < 0x7000 then d.valueOkMid idx sub v else d.valueOkHigh idx sub v)

/-! ### Pending values (18 R542, R544) -/

/-- What a read of an entry returns, and what a commit takes: the pending value if there is one. -/
def Dev.shown (d : Dev) (idx sub : Nat) : Nat :=
  match tfind d.shadow (idx * 256 + sub) with
  | some v => v.toNat
  | none => d.reg idx sub

/-- A value becomes pending; a later one takes the place of an earlier. -/
def Dev.setPending (d : Dev) (idx sub v : Nat) : Dev :=
  { d with shadow := tdel d.shadow (idx * 256 + sub) ++ [(idx * 256 + sub, BitVec.ofNat 64 v)] }

/-! ### Frame work (15 R458) -/

/-- Every demand stream of a cluster's list has written its status record. -/
def Dev.streamsDone (d : Dev) (c : Nat) (frame : BitVec 64) : Bool :=
  (List.range (min (d.reg (0x3200 + c) 2) 1024)).all fun i =>
    (StreamRec.parse (d.rd (d.streamRecAt c i) 64)).prefetch ||
      (d.cluster c).streams.any fun s => s.index = i && s.frame = frame && s.phase = .finished

/-- A cluster's part of the running frame is complete (11 R354). -/
def Dev.clusterDone (d : Dev) (c : Nat) : Bool :=
  match d.tick.frame with
  | none => true
  | some f => f.barrier && d.clusterOut c && d.streamsDone c f.number

/-- The first three conditions of R458. -/
def Dev.frameDone (d : Dev) : Bool :=
  match d.tick.frame with
  | none => true
  | some f =>
    f.barrier && (d.cores.all fun p => p.2.frame ≠ .inFrame) &&
    ((List.range 256).all fun c =>
      d.streamsDone c f.number && (d.cluster c).veRun = none && (d.cluster c).veOwed = [] && (d.cluster c).veCount ≤ (d.cluster c).veNext) &&
    ((List.range 8).all fun m =>
      let u := d.updUnit m
      u.run = none && u.owed = [] && (u.halted || u.count ≤ u.next)) &&
    d.tick.fill = none && d.tick.fillCount ≤ d.tick.fillNext

/-! ### Checks on several entries -/

/-- The value of a key after some staged ones. -/
def Dev.stagedVal (d : Dev) (staged : List (Nat × Nat)) (idx sub : Nat) : Nat :=
  (staged.foldl (fun (a : Option Nat) p => if p.1 = idx * 256 + sub then some p.2 else a) none).getD (d.reg idx sub)

/-- The check of TICK_PERIOD, TICK_PHASE and READY_LEAD together (15 R449). -/
def tickCfgOk (period phase lead : Nat) : Bool := phase < period && lead + 512 + 4096 ≤ period

def isTickCfg (key : Nat) : Bool := key = 0x200004 || key = 0x200005 || key = 0x200006

/-- The check of a region table (13 R407). -/
def regionsOk (get : Nat → Nat → Nat) : Bool :=
  let rs := (List.range 32).map fun r => (get (0x4100 + r) 1, get (0x4100 + r) 2)
  let used := rs.filter fun r => r.2 ≠ 0
  ((List.range 32).all fun r => get (0x4100 + r) 3 ≤ 1 && get (0x4100 + r) 4 ≤ 2) &&
  used.all (fun r => r.1 + r.2 ≤ 96) &&
  (List.range used.length).all fun i => (List.range i).all fun j =>
    let a := used.getD i (0, 0)
    let b := used.getD j (0, 0)
    a.1 + a.2 ≤ b.1 || b.1 + b.2 ≤ a.1

def isRegion (key : Nat) : Bool := 0x4100 ≤ key / 256 && key / 256 ≤ 0x411F

/-- A new table is live: slabs that changed or became mapped are initialised, unmapped ones lose their contents (13 R408). -/
def Dev.slabsChanged (d old : Dev) : Dev :=
  (List.range 96).foldl (fun d s =>
    let now := d.slabClass s
    if old.slabClass s = now then d
    else
      let d := { d with mem := d.mem.clear (s * 0x200000000) 0x200000000 }
      { d with stk := { d.stk with
          initialising := if now = none then d.stk.initialising.filter (· ≠ s) else (s :: d.stk.initialising).eraseDups } }) d

/-! ### One entry -/

/-- Payload of a KIND 0x02 log record, laid out as an update item (15 R457, R477; log entry 41). -/
def dictPayload (idx sub v : Nat) : List Byte := mkRecord 16 [(0, 16, idx), (16, 8, sub), (64, 64, v)]

/-- Append a dictionary write to the log, but for the entries of the log and of replay (15 R477). Which requester SOURCE
names is not said (log entry 41). -/
def Dev.logDict (d : Dev) (idx sub v : Nat) : Dev :=
  if idx = 0x2050 ∨ idx = 0x2060 then d
  else
    let (w, d) := d.drawWord
    d.logAppend 0x02 w.toNat d.frameNumber (dictPayload idx sub v)

/-- An entry takes a value, with what the value does at once. -/
def Dev.applyEntry (d : Dev) (key v : Nat) (host : Bool) : Dev :=
  let idx := key / 256
  let sub := key % 256
  if d.reg idx sub = v then d
  else
    let d := d.setReg idx sub v
    let d := if idx = 0x6000 ∧ (sub = 1 ∨ sub = 2) then (d.setReg 0x6000 3 0).setReg 0x6000 4 0 else d
    let d := if 0x7300 ≤ idx ∧ idx ≤ 0x7307 ∧ sub = 3 then
        d.modPower fun x => { x with voutSent := tset x.voutSent (idx - 0x7300) (BitVec.ofNat 16 v) } else d
    if host then d.logDict idx sub v else d

/-- An entry of a parameter set whose PENDING bit is set (02 R42, 15 R658). -/
def Dev.psetBusy (d : Dev) (idx : Nat) : Bool :=
  0x5100 ≤ idx && idx ≤ 0x52FF && (d.pset (idx % 256)).waiting ≠ none

/-! ### Scratchpads (10 R326, R330, R331) -/

/-- Handovers of the frame that ends complete, then queued ownership changes apply in order; `ready` says that the cluster's frame
work is done. -/
def Dev.applyOwners (d : Dev) (c : Nat) (ready : Bool) : Dev :=
  if !ready then d
  else
    let put (t : Tbl (BitVec 8)) (mask : BitVec 32) (o : BitVec 8) : Tbl (BitVec 8) :=
      (List.range 32).foldl (fun t b => if mask.getLsbD b then tset t b o else t) t
    d.modCluster c fun x =>
      let t := x.handovers.foldl (fun t h => put t h.banks h.owner) x.owners
      { x with owners := x.ownQueue.foldl (fun t q => put t q.1 q.2) t, handovers := [], ownQueue := [] }

/-- A bank's next power state, and whether its contents are lost. -/
def bankStep (now : BankPower) (want : Nat) : BankPower × Bool :=
  match now, want with
  | .on, 0 => (.on, false)
  | .waking, 0 => (.waking, false)
  | _, 0 => (.waking, false)
  | _, 1 => (.retention, false)
  | .off, _ => (.off, false)
  | _, _ => (.off, true)

def bankAddr (c b : Nat) : Nat := clusterAddr c (b * 0x20000)

/-- Free contents for a bank whose granules a change of division moves (10 R330). -/
def Dev.freeBank (d : Dev) (c b : Nat) : Dev :=
  let (bs, d) := { d with mem := d.mem.clear (bankAddr c b) 0x20000 }.drawBytes 0x20000
  d.wr (bankAddr c b) bs

/-- Mode, division and power of a cluster have taken the values that `d` shows; `old` is what stood before. A bank that is off
holds nothing, and reads as zero when it is woken (10 R330, R331). -/
def Dev.applyBanks (d old : Dev) (c : Nat) : Dev :=
  let a := old.division c
  let z := d.division c
  let d := (List.range 32).foldl (fun d b =>
    if (a.1 ≤ b && b < a.2) ≠ (z.1 ≤ b && b < z.2) && d.bankPower c b ≠ .off then d.freeBank c b else d) d
  if d.reg (0x3100 + c) 8 = old.reg (0x3100 + c) 8 then d
  else
    (List.range 32).foldl (fun (d : Dev) b =>
      let s := bankStep (d.bankPower c b) (bitsAt (d.reg (0x3100 + c) 8) (2 * b) 2)
      let d := if s.2 then { d with mem := d.mem.clear (bankAddr c b) 0x20000 } else d
      d.modCluster c fun x => { x with power := tset x.power b s.1 }) d

/-- Mode, division and power entries of a cluster: their changes wait while its frame runs. -/
def Dev.spWaits (d : Dev) (key : Nat) : Bool :=
  let idx := key / 256
  let sub := key % 256
  0x3100 ≤ idx && idx ≤ 0x31FF && (sub = 1 || sub = 2 || sub = 8) && !d.clusterDone (idx - 0x3100)

/-! ### Parameter sets (02 R43-R45) -/

/-- The waiting commit whose derivation has finished, or the waiting withdrawal, of a set takes effect. -/
def Dev.applyPset (d : Dev) (s : Nat) : Dev :=
  let p := d.pset s
  match p.waiting with
  | some (.commit vals (some (code, at_))) =>
    let d := (d.setReg (0x5100 + s) 3 code.toNat).setReg (0x5100 + s) 4 at_.toNat
    if code = 0 then (d.setPset s { live := some vals, waiting := none }).setReg (0x5100 + s) 0x0B d.tickNumber
    else d.setPset s { p with waiting := none }
  | some .withdraw =>
    (((d.setPset s .fresh).setReg (0x5100 + s) 3 0).setReg (0x5100 + s) 4 0xFF).setReg (0x5100 + s) 0x0B d.tickNumber
  | _ => d

/-! ### All pending values (15 R453, 18 R546) -/

/-- A header's update items: entry and value, and the header's address for a fault. -/
structure Items where
  header : Nat
  list : List (Nat × Nat)

/-- Shadowed changes take effect, in the order of R453: host writes, update items, parameter sets, region table, ownership,
scratchpad mode, division and power. `seeds` says that JOB_SEED is among them (15 R474). -/
def Dev.applyShadow (d0 : Dev) (items : Items) (seeds : Bool) : Dev :=
  let keep (p : Nat × BitVec 64) : Bool := d0.spWaits p.1 || (!seeds && p.1 / 256 = 0x2030)
  let host := d0.shadow.filter fun p => !keep p
  let late := items.list.filter fun p => d0.spWaits p.1
  let list := items.list.filter fun p => !d0.spWaits p.1 && !d0.psetBusy (p.1 / 256)
  let busy := items.list.filter fun p => d0.psetBusy (p.1 / 256)
  let staged := host.map (fun (p : Nat × BitVec 64) => (p.1, p.2.toNat)) ++ list
  let tickOk := tickCfgOk (d0.stagedVal staged 0x2000 4) (d0.stagedVal staged 0x2000 5) (d0.stagedVal staged 0x2000 6)
  let regionOk := regionsOk (d0.stagedVal staged)
  let drop (key : Nat) : Bool := (!tickOk && isTickCfg key) || (!regionOk && isRegion key)
  let d := { d0 with shadow := d0.shadow.filter keep ++ late.map fun (p : Nat × Nat) => (p.1, BitVec.ofNat 64 p.2) }
  let d := (d.setReg 0x2000 0x10 (bit (!tickOk)))
  let d := host.foldl (fun (d : Dev) p => if drop p.1 then d else d.applyEntry p.1 p.2.toNat true) d
  let d := list.foldl (fun (d : Dev) p => if drop p.1 then d else d.applyEntry p.1 p.2 false) d
  let d := busy.foldl (fun (d : Dev) p => d.faultUc 0x0F 0 items.header 8 0 p.1) d
  let d := (List.range 16).foldl (fun (d : Dev) s => d.applyPset s) d
  let d := if staged.any fun p => isRegion p.1 then
      (if regionOk then (d.setReg 0x4000 2 0).slabsChanged d0 else d.setReg 0x4000 2 1) else d
  let d := d.clusters.foldl (fun (d : Dev) p => d.applyOwners p.1 (d0.clusterDone p.1)) d
  let d := (List.range 256).foldl (fun (d : Dev) c =>
    if staged.any fun p => p.1 / 256 = 0x3100 + c then d.applyBanks d0 c else d) d
  if d.replaying ∧ !d0.replaying then d.startReplay
  else if d0.replaying ∧ !d.replaying then d.setReg 0x2060 6 0 else d

def Items.none : Items := { header := 0, list := [] }

/-- While TICK_RUN is 0 and no frame work runs, everything pending takes effect at once (18 R546, R547). -/
def Dev.applyNow (d : Dev) : Dev := (d.applyShadow .none false).payWrites

/-- Whether a write takes effect without a boundary. -/
def Dev.immediate (d : Dev) : Bool := !d.tickRun && d.frameDone

end Sys2Proof.Machine
end

