-- ==== Sys2Proof/Machine/Header.lean ====
section
/-! DEFINITION. The frame loader: frame headers, their lists and load items (15 R455-R457). -/

namespace Sys2Proof.Machine

/-- The frame that the next boundary enters (15 R452). -/
def Dev.nextFrame (d : Dev) : Nat := if d.tick.firstFrame then d.reg 0x2000 0x0B else (d.frameNumber + 1) % 2 ^ 64

/-- Read a list that must lie in the stack range; none where it does not or cannot be read whole. -/
def Dev.readList (d : Dev) (a n : Nat) : Dev × Option (List Byte) :=
  if n = 0 then (d, some [])
  else if !inStack a n then (d, none)
  else
    let (d, bs, bad) := d.hostRead a n
    (d, if bad then none else some bs)

/-- Cut a list into records. -/
def records (size : Nat) (bs : List Byte) : List (List Byte) :=
  (List.range (bs.length / size)).map fun i => (bs.drop (i * size)).take size

/-- The destination of a load item: data memory of one core, or the half that is not active in the frame that runs
(15 R457, 08 R239). A half that was active counts as active until the next frame. -/
def Dev.loadable (d : Dev) (dst n : Nat) : Bool :=
  match regionOf dst with
  | .core k off =>
    let c := d.core k
    off + n ≤ 0x10000 ||
      (List.range 2).any fun h =>
        !((c.frame = .inFrame || c.frame = .exited) && decide (h = if c.half then 1 else 0)) &&
          decide (0x10000 + h * 0x4000 ≤ off) && decide (off + n ≤ 0x10000 + (h + 1) * 0x4000)
  | _ => false

/-- The fields that R457 judges in the header's own bytes. -/
def headerOwn (h : List Byte) : Bool :=
  fld h 0 32 = 0x46524D31 && fld h 368 16 = 0 && fld h 432 16 = 0 && fld h 496 16 = 0 && fld h 560 432 = 0 &&
    fld h 992 32 = crc32c (h.take 124) && fld h 48 8 ≤ 64 && fld h 56 8 ≤ 64 && fld h 240 16 ≤ 4096 && fld h 304 16 ≤ 256 &&
    fld h 192 48 % 32 = 0 && fld h 256 48 % 16 = 0 && fld h 320 48 % 64 = 0 && fld h 384 48 % 64 = 0 && fld h 448 48 % 32 = 0 &&
    fld h 512 48 % 64 = 0

/-- An update item names a rwt entry with a value that it would accept. -/
def Dev.updateOk (d : Dev) (u : List Byte) : Bool :=
  let idx := fld u 0 16
  let sub := fld u 16 8
  match dictRow idx sub with
  | some r => r.right = .rwt && d.valueOk idx sub (fld u 64 64)
  | none => false

def OpenRec.ofBytes (b : List Byte) : OpenRec :=
  { image := BitVec.ofNat 48 (fld b 0 48), channel := BitVec.ofNat 3 (fld b 48 3), level := BitVec.ofNat 6 (fld b 52 6),
    openAt := BitVec.ofNat 32 (fld b 64 32), subscribers := BitVec.ofNat 256 (fld b 256 256) }

/-- A launch record as it is kept in the header: not armed yet. -/
def launchOf (b : List Byte) : Launch :=
  { kind := BitVec.ofNat 8 (fld b 0 8), at_ := BitVec.ofNat 64 (fld b 64 64), arg := fld b 128 48, fire := 0, input := none }

/-- The sources of the load items, read in list order; none where an item is malformed or cannot be read. -/
def Dev.readLoads (d : Dev) (items : List (List Byte)) : Dev × Option (List (Nat × List Byte)) :=
  items.foldl (fun (p : Dev × Option (List (Nat × List Byte))) b =>
    match p.2 with
    | none => p
    | some done =>
      let n := fld b 128 32
      let dst := fld b 64 48
      if n % 8 ≠ 0 ∨ n < 8 ∨ 65536 < n ∨ !p.1.loadable dst n then (p.1, none)
      else
        match p.1.readList (fld b 0 48) n with
        | (d, some bs) => (d, some (done ++ [(dst, bs)]))
        | (d, none) => (d, none)) (d, some [])

/-- R457 for a header that is present: what it loads, and the copies to make. -/
def Dev.checkHeader (d : Dev) (addr : Nat) (h : List Byte) : Dev × Option (LoadedHeader × List (Nat × List Byte)) :=
  if !headerOwn h then (d, none)
  else
    let (d, loads) := d.readList (fld h 192 48) (32 * fld h 32 16)
    let (d, updates) := d.readList (fld h 256 48) (16 * fld h 240 16)
    let (d, opens) := d.readList (fld h 320 48) (64 * fld h 48 8)
    let (d, fills) := d.readList (fld h 384 48) (64 * fld h 304 16)
    let (d, launches) := d.readList (fld h 448 48) (32 * fld h 56 8)
    let (d, power) := d.readList (fld h 512 48) 1024
    match loads, updates, opens, fills, launches, power with
    | some loads, some updates, some opens, some _, some launches, some power =>
      let ls := (records 32 launches).map launchOf
      let us := records 16 updates
      if !(us.all d.updateOk) ∨ (ls.any fun l => !([1, 2, 4].contains l.kind.toNat)) ∨ 256 < d.armedCount + ls.length then (d, none)
      else
        match d.readLoads (records 32 loads) with
        | (d, none) => (d, none)
        | (d, some copies) =>
          (d, some ({ addr := addr, frame := BitVec.ofNat 64 (fld h 64 64), genTick := BitVec.ofNat 64 (fld h 128 64),
                      updates := us.map fun u => (BitVec.ofNat 16 (fld u 0 16), BitVec.ofNat 8 (fld u 16 8),
                                                  BitVec.ofNat 64 (fld u 64 64)),
                      opens := (records 64 opens).map OpenRec.ofBytes, fills := fld h 384 48, fillCount := fld h 304 16,
                      launches := ls, power := (List.range requesters).map fun i => leNat ((power.drop (2 * i)).take 2) }, copies))
    | _, _, _, _, _, _ => (d, none)

/-- The loader reads the header of the next frame, and performs its load items when it is valid (15 R455-R457). It starts at the
barrier of the frame before, but not while a trap handler runs (21 R615). -/
def Dev.loadHeader (d : Dev) : Dev :=
  let f := d.nextFrame
  let count := d.reg 0x2010 2
  let early := (d.tick.frame.map fun x => !x.barrier).getD false
  if !d.tickRun ∨ early ∨ d.tick.next ≠ none ∨ count = 0 then d
  else if d.faults.trap then d.modTick fun t => { t with loadHeld := true }
  else
    let addr := d.reg 0x2010 1 + f % count * 128
    match d.readList addr 128 with
    | (d, none) => d
    | (d, some h) =>
      if fld h 64 64 ≠ f then d
      else
        match d.checkHeader addr h with
        | (d, none) =>
          if d.tick.badHeader = some (addr, h) then d
          else (d.faultUc 0x0F 0 addr 1 0 0).modTick fun t => { t with badHeader := some (addr, h) }
        | (d, some (x, copies)) =>
          let d := copies.foldl (fun (d : Dev) c => d.hostWrite c.1 c.2) d
          (d.modTick fun t => { t with next := some x, badHeader := none }).setReg 0x2010 3 f

/-- Ring entries that wait while no ring is live take effect at an edge of any kind; the header is read at the first edge after
(15 R456). -/
def Dev.loaderEdge (d : Dev) : Dev :=
  let ring (p : Nat × BitVec 64) : Bool := p.1 = 0x201001 || p.1 = 0x201002
  if d.reg 0x2010 2 = 0 ∧ d.shadow.any ring then
    (d.shadow.filter ring).foldl (fun (d : Dev) p => d.applyEntry p.1 p.2.toNat true)
      { d with shadow := d.shadow.filter fun p => !ring p }
  else d.loadHeader

end Sys2Proof.Machine
end

