-- ==== Sys2Proof/Machine/Request.lean ====
section
/-! DEFINITION. Requests: headers, command streams, admission, the duplicate window, assignment, execution of commands one by
one, and replies (17 R516-R525, 18 R551, R555, R556, 15 R480). -/

namespace Sys2Proof.Machine

/-! ### Headers and commands (17 R516-R519) -/

structure ReqHdr where
  id : Nat
  stream : Nat
  format : Nat
  count : Nat
  length : Nat
  deriving DecidableEq, Repr

/-- The request header, a big-endian number. -/
def ReqHdr.parse (b : List Byte) : ReqHdr :=
  let h := beNat (b.take 32 ++ zeroBytes (32 - b.length))
  { id := bitsAt h 192 64, stream := bitsAt h 176 16, format := bitsAt h 168 8, count := bitsAt h 144 16,
    length := bitsAt h 64 64 }

/-- Bytes of a command header. -/
def cmdHdrLen (fmt : Nat) : Nat := if fmt = 1 then 16 else 24

/-- A command header of either format. -/
def cmdHdr (fmt : Nat) (b : List Byte) : HostCmd :=
  let h := beNat (b.take (cmdHdrLen fmt))
  if fmt = 1 then
    { op := BitVec.ofNat 8 (bitsAt h 120 8), cont := false, len := BitVec.ofNat 64 (bitsAt h 64 32),
      addr := BitVec.ofNat 48 (bitsAt h 0 48), data := [] }
  else
    { op := BitVec.ofNat 8 (bitsAt h 184 8), cont := h.testBit 176, len := BitVec.ofNat 64 (bitsAt h 64 64),
      addr := BitVec.ofNat 48 (bitsAt h 0 48), data := [] }

/-- Bytes of data that follow a command header in the request. -/
def HostCmd.dataLen (c : HostCmd) : Nat := if c.op = 1 ∨ c.op = 4 then c.len.toNat else 0

def pad8 (n : Nat) : Nat := (n + 7) / 8 * 8

/-- The commands whose header and data have wholly arrived, at most `n`. -/
def parseCmds (fmt n : Nat) (bs : List Byte) : List HostCmd :=
  match n with
  | 0 => []
  | k + 1 =>
    if bs.length < cmdHdrLen fmt then []
    else
      let c := cmdHdr fmt bs
      if bs.length < cmdHdrLen fmt + pad8 c.dataLen then []
      else
        { c with data := (bs.drop (cmdHdrLen fmt)).take c.dataLen } ::
          parseCmds fmt k (bs.drop (cmdHdrLen fmt + pad8 c.dataLen))

/-- OPs of the commands whose header has arrived, at most `n`. -/
def opsIn (fmt n : Nat) (bs : List Byte) : List (BitVec 8) :=
  match n with
  | 0 => []
  | k + 1 =>
    if bs.length < cmdHdrLen fmt then []
    else (cmdHdr fmt bs).op :: opsIn fmt k (bs.drop (cmdHdrLen fmt + pad8 (cmdHdr fmt bs).dataLen))

/-- A bulk request breaks R519 by another command among its MEM_WRITEs, a control request by a MEM_WRITE or by its size. -/
def breaksBulk (h : ReqHdr) (ops : List (BitVec 8)) : Bool :=
  (ops.contains 1 && ops.any (· ≠ 1)) || (!ops.contains 1 && decide (65536 < h.length))

/-- A command that no row runs: a reserved OP, or a LEN that its OP does not admit (17 R518, R520). -/
def HostCmd.malformed (c : HostCmd) : Bool :=
  match c.op.toNat with
  | 1 => c.len = 0
  | 2 => c.len = 0 || 2 ^ 32 ≤ c.len.toNat
  | 3 => false
  | 4 => false
  | 5 => 1 < c.len.toNat
  | _ => true

/-- What stands for a command that the message promised and does not hold. -/
def HostCmd.missing : HostCmd := { op := 0, cont := false, len := 0, addr := 0, data := [] }

/-! ### Admission (18 R555) -/

/-- Entry 0x1041 + e matches an endpoint. -/
def Dev.admits (d : Dev) (e : Nat) (ep : Endpoint) : Bool :=
  let i := 0x1041 + e
  match ep with
  | .mac a => d.reg i 1 = 0 && d.reg i 2 = a.toNat
  | .ipv4 a _ => d.reg i 1 = 1 && d.reg i 3 = a.toNat
  | .ipv6 a _ => d.reg i 1 = 2 && d.reg i 4 * 2 ^ 64 + d.reg i 5 = a.toNat

def Dev.admitted (d : Dev) (ep : Endpoint) : Bool :=
  d.reg 0x1040 1 = 0 || (List.range 8).any fun e => d.admits e ep

/-! ### Replies (17 R523, R525) -/

/-- A result record, big-endian. -/
def resultRecord (status done fail abort frame tick len : Nat) : List Byte :=
  (mkRecord 64 [(504, 8, status), (480, 16, done), (464, 16, fail), (432, 32, abort), (352, 64, frame), (288, 64, tick),
    (224, 64, len)]).reverse

def Dev.sendReply (d : Dev) (ep : Endpoint) (version : BitVec 4) (stream id : Nat) (status : BitVec 8)
    (record data : List Byte) : Dev :=
  let hdr := (mkRecord 32 [(192, 64, id), (176, 16, stream), (168, 8, status.toNat), (64, 64, 96 + data.length)]).reverse
  d.sendMsg ep .request 1 1 version 0xFFFF (hdr ++ record ++ data)

/-- Answer a request that is not executed; where it was assigned to is open (log entry 45). -/
def Dev.answer (d : Dev) (m : Msg) (h : ReqHdr) (status : BitVec 8) : Dev :=
  let (f, d) := d.drawWord
  let (t, d) := d.drawWord
  d.sendReply m.ep m.version h.stream h.id status (resultRecord status.toNat 0 0xFFFF 0 f.toNat t.toNat 0) []

/-- DATA_OMITTED of a stored record: set when DATA_LEN is not zero. -/
def omitData (record : List Byte) : List Byte :=
  if (record.drop 28).take 8 = zeroBytes 8 then record else record.take 1 ++ [record.getD 1 0 ||| 0x80] ++ record.drop 2

/-! ### Requests of a context -/

def Dev.setCtx (d : Dev) (k : Nat) (c : StreamCtx) : Dev := d.modPort fun x => { x with contexts := tset x.contexts k c }

def Dev.request (d : Dev) (k : Nat) (id : BitVec 64) : Option Request := (d.ctx k).requests.find? fun r => r.reqId = id

def Dev.putRequest (d : Dev) (k : Nat) (r : Request) : Dev :=
  d.setCtx k { d.ctx k with requests := (d.ctx k).requests.map fun q => if q.reqId = r.reqId then r else q }

def Dev.dropRequest (d : Dev) (k : Nat) (id : BitVec 64) : Dev :=
  (d.setCtx k { d.ctx k with requests := (d.ctx k).requests.filter fun q => q.reqId ≠ id }).modPort fun x =>
    { x with waiting := x.waiting.filter fun w => !(w.1 = k && w.2 = id) }

/-- The outcome of one command. -/
structure CmdOut where
  status : BitVec 8
  abort : Nat
  data : List Byte

/-- Enter a command's outcome. The first failure of a control request without CONTINUE ends it. -/
def Request.took (r : Request) (c : HostCmd) (o : CmdOut) : Request :=
  let ok := o.status = stOk
  let first := !ok && r.failIndex.isNone
  { r with
    ran := if ok || c.cont || r.bulk then r.ran + 1 else r.count,
    done := r.done + bit ok,
    failIndex := if first then some r.ran else r.failIndex,
    failStatus := if first then o.status else r.failStatus,
    abortCode := if first then BitVec.ofNat 32 o.abort else r.abortCode,
    reads := r.reads ++ [o.data ++ zeroBytes (pad8 o.data.length - o.data.length)] }

/-- Commands that no row runs are refused with BOUNDS, up to the next that one does. -/
def Request.skipMalformed (fuel : Nat) (r : Request) : Request :=
  match fuel with
  | 0 => r
  | n + 1 =>
    match r.cmds[r.ran]? with
    | some c => if c.malformed then Request.skipMalformed n (r.took c ⟨stBounds, 0, []⟩) else r
    | none => r

/-- The request ends: its reply, and its entry in the duplicate window (17 R523, R524). -/
def Dev.endRequest (d : Dev) (k : Nat) (r : Request) : Dev :=
  let data := r.reads.flatten
  let status := if r.failIndex.isSome then r.failStatus else stOk
  let record := resultRecord status.toNat r.done (r.failIndex.getD 0xFFFF) r.abortCode.toNat r.execFrame.toNat
    r.execTick.toNat data.length
  let d := d.dropRequest k r.reqId
  if r.replayed then d
  else
    let c := d.ctx k
    let window := c.window ++ [(r.reqId, record)]
    let d := d.setCtx k { c with window := window.drop (window.length - 64),
                                 highest := if c.highest.toNat < r.reqId.toNat then r.reqId else c.highest }
    d.sendReply r.ep r.version k r.reqId.toNat status record data

/-- Pass over malformed commands, and end the request when nothing is left. -/
def Dev.settle (d : Dev) (k : Nat) (id : BitVec 64) : Dev :=
  match d.request k id with
  | none => d
  | some r =>
    if !r.assigned && !r.bulk then d
    else
      let r := Request.skipMalformed (r.count + 1) r
      let d := d.putRequest k r
      if r.assigned && decide (r.count ≤ r.ran) then d.endRequest k r else d

/-! ### Assignment (17 R521, 15 R477, R480) -/

/-- The request takes its place behind those already assigned, as of the current frame and tick. -/
def Dev.place (d : Dev) (k : Nat) (r : Request) : Dev :=
  let r := { r with assigned := true, execFrame := BitVec.ofNat 64 d.frameNumber, execTick := BitVec.ofNat 64 d.tickNumber }
  let others := (d.ctx k).requests.filter fun q => q.reqId ≠ r.reqId
  (d.setCtx k { d.ctx k with requests := others.filter (·.assigned) ++ [r] ++ others.filter (!·.assigned) }).settle k r.reqId

/-- REQUEST_ASSIGN: counted and logged. -/
def Dev.assign (d : Dev) (k : Nat) (id : BitVec 64) : Dev :=
  match d.request k id with
  | none => d
  | some r => ((d.bump 0x8010 5 1).logAppend 0x01 k d.frameNumber r.raw).place k r

/-- Every request that waits is assigned, in the order in which the last segments arrived; none in replay (15 R480). -/
def Dev.assignWaiting (d : Dev) : Dev :=
  if d.replaying then d
  else
    d.port.waiting.foldl (fun (d : Dev) w => d.assign w.1 w.2) (d.modPort fun x => { x with waiting := [] })

/-- The last segment of a request is in. -/
def Dev.requestArrived (d : Dev) (k : Nat) (r : Request) : Dev :=
  if d.replaying ∧ !r.bulk then d.place k r
  else if d.replaying ∨ d.reg 0x2000 3 = 1 then d.modPort fun x => { x with waiting := x.waiting ++ [(k, r.reqId)] }
  else d.assign k r.reqId

/-! ### Arrival (17 R519, R520, R525) -/

/-- A judged request gains from the segments that have arrived. -/
def Dev.requestGrows (d : Dev) (m : Msg) : Dev :=
  let body := m.body.take m.reach
  let h := ReqHdr.parse body
  let k := h.stream
  let id := BitVec.ofNat 64 h.id
  match d.request k id with
  | none => d
  | some r =>
    let fmt := h.format
    if breaksBulk h (opsIn fmt h.count (body.drop 32)) ∨ (m.whole ∧ body.length ≠ h.length) then
      ((d.dropRequest k id).dropMsg m).answer m h stBounds
    else
      let cmds := parseCmds fmt h.count (body.drop 32)
      if m.whole then
        let r := { r with cmds := cmds ++ List.replicate (h.count - cmds.length) HostCmd.missing, complete := true, raw := body }
        (((d.dropMsg m).putRequest k r).requestArrived k r).settle k id
      else if r.bulk then (d.putRequest k { r with cmds := cmds }).settle k id
      else d

/-- REQUEST: the FIRST segment is judged. -/
def Dev.judgeRequest (d : Dev) (m : Msg) : Dev :=
  let body := m.body.take m.reach
  let h := ReqHdr.parse body
  let id := BitVec.ofNat 64 h.id
  let refuse (d : Dev) (st : BitVec 8) : Dev := (d.dropMsg m).answer m h st
  if !d.admitted m.ep then (d.dropMsg m).bump 0x1040 2 1
  else if d.phase ≠ .service then refuse d stBusy
  else
    let ops := opsIn h.format h.count (body.drop 32)
    let bulk := ops.contains 1
    if body.length < 32 ∨ h.id = 0 ∨ 8191 < h.stream ∨ !(h.format = 1 || h.format = 2) ∨ h.count = 0 ∨ 4096 < h.count ∨
        breaksBulk h ops then refuse d stBounds
    else if d.replaying ∧ bulk then refuse d stBusy
    else
      let c := d.ctx h.stream
      match c.window.find? (fun w => w.1 = id) with
      | some w => ((d.dropMsg m).bump 0x8010 6 1).sendReply m.ep m.version h.stream h.id stDuplicate (omitData w.2) []
      | none =>
        if c.requests.any fun r => r.reqId = id then (d.dropMsg m).bump 0x8010 7 1
        else if h.id ≤ c.highest.toNat then (refuse d stBounds).bump 0x8010 8 1
        else
          let r : Request :=
            { ep := m.ep, prio := m.prio, version := m.version, msg := m.number, reqId := id, count := h.count, bulk := bulk,
              complete := false, assigned := false, cmds := [], done := 0, ran := 0, failIndex := none, failStatus := 0,
              abortCode := 0, execFrame := 0, execTick := 0, reads := [], raw := [], replayed := false }
          let j := { m with judged := true }
          ((d.setMsg m j).setCtx h.stream { c with requests := c.requests ++ [r] }).requestGrows j

def Dev.doRequest (d : Dev) (ep : Endpoint) (prio : BitVec 3) (number : BitVec 32) : Dev :=
  match d.findMsg ep prio number with
  | some m => if m.cls = 0 ∧ !m.judged ∧ d.alive then d.judgeRequest m else d
  | none => d

def execRequest (ep : Endpoint) (prio : BitVec 3) (msg : BitVec 32) (s : State) : Host.Outcome State Fault Refusal :=
  s.onDev fun d => d.doRequest ep prio msg

/-! ### Running commands (17 R522) -/

/-- Contexts whose request is in the middle of its commands. -/
def Dev.midRequests (d : Dev) (k : Nat) : Nat :=
  (d.port.contexts.filter fun c => c.1 ≠ k && c.2.requests.any fun r => r.assigned && 0 < r.ran && r.ran < r.count).length

/-- The command that a context runs next: of its first assigned request, when firmware runs and at most 16 requests are in
hand. -/
def Dev.nextCmd (d : Dev) (k : Nat) : Option (Request × HostCmd) :=
  if d.phase ≠ .service ∨ d.faults.trap ∨ d.faults.resetPending ∨ 16 ≤ d.midRequests k then none
  else
    match (d.ctx k).requests.head? with
    | none => none
    | some r => if r.assigned ∧ !r.bulk then (r.cmds[r.ran]?).map fun c => (r, c) else none

/-- The write that a context's bulk request makes next: its data has arrived. -/
def Dev.nextBulk (d : Dev) (k : Nat) : Option (Request × HostCmd) :=
  if d.phase ≠ .service ∨ d.faults.resetPending then none
  else (d.ctx k).requests.findSome? fun r => if r.bulk then (r.cmds[r.ran]?).map fun c => (r, c) else none

/-- Run a context's next command, when it is the one that the row names. `f` answers none where the command must wait. -/
def Dev.runCmd (d : Dev) (k : Nat) (next : Option (Request × HostCmd)) (mine : HostCmd → Bool)
    (f : Dev → Request → Option (Dev × CmdOut)) : Dev :=
  match next with
  | none => d
  | some (r, c) =>
    if !mine c then d
    else
      match f d r with
      | none => d
      | some (d, o) => (d.putRequest k (r.took c o)).settle k r.reqId

/-! ### Memory commands (17 R518, R522, 10 R320, 13 R410, R416) -/

/-- Status that a host access gets for a refusal. -/
def Problem.status (p : Problem) : BitVec 8 :=
  match p with
  | .stack _ _ => stNotOwner
  | .bank _ _ _ => stNotOwner
  | _ => stBounds

/-- Every byte of a range is in the address map. -/
def inMap (a n : Nat) : Bool := (pieces a n).all fun p => regionOf p ≠ .nowhere

/-- MEM_READ. One that meets a write of the same granule has status BUSY and no data (10 R314). -/
def Dev.memRead (d : Dev) (a n : Nat) (ups : List Upset) : Option (Dev × CmdOut) :=
  if !inMap a n then some (d, ⟨stBounds, 0, []⟩)
  else
    match d.problemIn .host .read a n with
    | some .wait => none
    | some p => some (d.noteProblem .host .read p, ⟨p.status, 0, []⟩)
    | none =>
      let (busy, d) := (d.addUpsets ups).meetWrites a n fun c => d.dmaWrites ++ d.callWrites c ++ d.portWrites c
      if busy ≠ 0 then some (d, ⟨stBusy, 0, []⟩)
      else
        let (d, bs, bad) := d.hostRead a n
        some (d, ⟨if bad then stPoison else stOk, 0, bs⟩)

def execMemRead (ctx addr len : Nat) (ups : List Upset) (s : State) : Host.Outcome State Fault Refusal :=
  s.onDev fun d => d.runCmd ctx (d.nextCmd ctx) (fun c => c.op = 2 && c.addr.toNat = addr && c.len.toNat = len)
    fun d _ => d.memRead addr len ups

/-- MEM_WRITE of a bulk request: bytes whose part of the range is refused are discarded; the first refusal is the status. -/
def Dev.memWrite (d : Dev) (a : Nat) (bs : List Byte) : Option (Dev × CmdOut) :=
  if !inMap a bs.length then some (d, ⟨stBounds, 0, []⟩)
  else if (pieces a bs.length).any fun p => d.problemAt .host .write p = some .wait then none
  else
    let step (x : Dev × Option Problem) (p : Nat) : Dev × Option Problem :=
      match x.1.problemAt .host .write p with
      | some q => (if x.2 = none then x.1.noteProblem .host .write q else x.1, some (x.2.getD q))
      | none => (x.1.store none p ((bs.drop (p - a)).take (p / 256 * 256 + 256 - p)), x.2)
    let (d, q) := (pieces a bs.length).foldl step (d, none)
    some (d, ⟨(q.map Problem.status).getD stOk, 0, []⟩)

def execMemWrite (ctx addr : Nat) (data : List Byte) (s : State) : Host.Outcome State Fault Refusal :=
  s.onDev fun d => d.runCmd ctx (d.nextBulk ctx) (fun c => c.op = 1 && c.addr.toNat = addr && c.data = data)
    fun d _ => d.memWrite addr data

/-- Read what a CREATE needs beside its descriptor: none where a bank makes it wait, no bytes where it cannot be read. -/
def Dev.hostTake (d : Dev) (here : Bool) (a n : Nat) : Option (Dev × Option (List Byte)) :=
  if !here then some (d, none)
  else if d.hostWaits a n then none
  else
    let (d, b, bad) := d.hostRead a n
    some (d, if bad then none else some b)

/-- CREATE of a tensor (`n` 128) or a copy (`n` 64): the descriptor is read, judged and written back (11 R343, R344, R364).
In a request that arrived in replay it fails with BUSY (15 R480). -/
def Dev.hostCreate (d : Dev) (r : Request) (a n : Nat) (f : Dev → List Byte → Option (Dev × List Byte × BitVec 8)) :
    Option (Dev × CmdOut) :=
  if d.replaying ∧ !r.replayed then some (d, ⟨stBusy, 0, []⟩)
  else if !descPlaced a n then some (d, ⟨stBounds, 0, []⟩)
  else
    match d.problemIn .host .write a n with
    | some .wait => none
    | some p => some (d.noteProblem .host .write p, ⟨p.status, 0, []⟩)
    | none =>
      let (d, b, bad) := d.hostRead a n
      if bad then some (d, ⟨stPoison, 0, []⟩)
      else (f d b).map fun (d, out, st) => (d.hostWrite a out, ⟨st, 0, []⟩)

/-- The tensor bytes after creation; a distributed tensor's owner table is read for it. -/
def Dev.hostTensor (d : Dev) (addr : Nat) (b : List Byte) : Option (Dev × List Byte × BitVec 8) :=
  let t := Tensor.parse addr b
  (d.hostTake (t.dist && inOneRange t.owner (ownerTableLen t.nb)) t.owner (ownerTableLen t.nb)).map fun (d, tb) =>
    (d, d.createdTensor addr b (tb.getD []))

/-- The copy's bytes after creation; its two tensor descriptors are read for it. -/
def Dev.hostCopy (d : Dev) (b : List Byte) : Option (Dev × List Byte × BitVec 8) :=
  let k := CopyDesc.parse b
  (d.hostTake (descPlaced k.src 128) k.src 128).bind fun (d, x) =>
    (d.hostTake (descPlaced k.dst 128) k.dst 128).map fun (d, y) =>
      (d, createdCopy b (x.bind fun x => y.map fun y => (Tensor.parse k.src x, Tensor.parse k.dst y)))

def execCreateTensor (ctx addr : Nat) (s : State) : Host.Outcome State Fault Refusal :=
  s.onDev fun d => d.runCmd ctx (d.nextCmd ctx) (fun c => c.op = 5 && c.len = 0 && c.addr.toNat = addr)
    fun d r => d.hostCreate r addr 128 fun d b => d.hostTensor addr b

def execCreateCopy (ctx addr : Nat) (s : State) : Host.Outcome State Fault Refusal :=
  s.onDev fun d => d.runCmd ctx (d.nextCmd ctx) (fun c => c.op = 5 && c.len = 1 && c.addr.toNat = addr)
    fun d r => d.hostCreate r addr 64 fun d b => d.hostCopy b

end Sys2Proof.Machine
end

