-- ==== Sys2Proof/Machine/Peer.lean ====
section
/-! DEFINITION. Traffic between devices: who is heard, port transfers, writes by a peer, and readiness (17 R530, R531, R533,
15 R481). -/

namespace Sys2Proof.Machine

/-! ### Who is heard (16 R498, 17 R530) -/

/-- SRC matches the sending endpoint in the peer entries, and its bit is set in TICK_MEMBERS. -/
def Dev.hears (d : Dev) (src : BitVec 16) (ep : Endpoint) : Bool :=
  d.isMember src.toNat && !d.tick.lost.contains src.toNat && d.peerEndpoint (0x8400 + src.toNat) = some ep

/-- A peer message of a running device: acted on, or discarded and counted. -/
def Dev.fromPeer (d : Dev) (src : BitVec 16) (ep : Endpoint) (f : Dev → Dev) : Dev :=
  if d.phase ≠ .service then d
  else if d.hears src ep then f d
  else if d.tick.lost.contains src.toNat then d.bump 0x2070 5 1
  else d.bump 0x8000 0x12 1

/-! ### Status records and data of transfers (11 R356, R358) -/

/-- A status record in the layout of R358. -/
def Dev.statusBytes (d : Dev) (status : BitVec 8) (done bad first granules : Nat) : List Byte :=
  mkRecord 64 [(0, 8, status.toNat), (32, 32, done), (64, 32, bad), (96, 32, first), (192, 64, granules),
    (256, 64, d.tickNumber), (320, 32, min (d.clock - ((d.tick.frame.map (·.barrierAt)).getD 0)) 0xFFFFFFFF)]

/-- Write the status record of a port transfer or collective descriptor, and signal its event. -/
def Dev.endTransfer (d : Dev) (desc : List Byte) (status : BitVec 8) (done bad first granules : Nat) : Dev :=
  let d := if status = stPoison then d.countPoison false else d
  let d := d.hostWrite (fld desc 192 48) (d.statusBytes status done bad first granules)
  if fld desc 272 1 = 1 then d.deviceSignal (fld desc 256 12) (BitVec.ofNat 4 (fld desc 268 4)) else d

/-- Read a range granule by granule: its bytes, and the offsets of granules that were delivered bad or refused. -/
def Dev.readMarked (d : Dev) (a n : Nat) : Dev × List Byte × List Nat :=
  (pieces a n).foldl (fun (x : Dev × List Byte × List Nat) p =>
    let (d, bs, bad) := x.1.hostRead p (min (p / 256 * 256 + 256) (a + n) - p)
    (d, x.2.1 ++ bs, if bad then x.2.2 ++ [p - a] else x.2.2)) (d, [], [])

/-! ### Port transfers (17 R531) -/

/-- The check of a port transfer descriptor. -/
def Dev.xferOk (d : Dev) (b : List Byte) : Bool :=
  let src := fld b 0 48
  let dst := fld b 64 48
  let dev := fld b 112 10
  let len := fld b 128 48
  src % 256 = 0 && dst % 256 = 0 && len % 256 = 0 && mapRange src len && inStack dst len && d.isMember dev &&
    dev ≠ d.systemDevice

/-- A passed check sends one PEER_WRITE. A device that cannot be reached ends the transfer (log entry 53). -/
def Dev.sendXfer (d : Dev) (b : List Byte) (ups : List Upset) : Dev :=
  let dev := fld b 112 10
  let len := fld b 128 48
  if !d.linkUp ∨ (d.peerEndpoint (0x8400 + dev)).isNone then d.endTransfer b stAborted 0 0 0xFFFFFFFF 0
  else
    let (d, data, bad) := (d.addUpsets ups).readMarked (fld b 0 48) len
    let x : PortXfer := { msg := d.port.nextMsg, dev := dev, desc := b, status := if bad = [] then stOk else stPoison,
                          granules := len / 256 }
    (d.sendPeerMarked dev .bulk 2 (leBytes 8 (fld b 64 48) ++ leBytes 8 len ++ data) (bad.map (· + 16))).modTick fun t =>
      { t with xfers := t.xfers ++ [x] }

/-- PORT_TX. A bank that makes the read of the descriptor or of the source wait holds the launch back. -/
def Dev.portTx (d0 : Dev) (ups : List Upset) : Dev :=
  match d0.fireLaunch 1 with
  | none => d0
  | some (l, d) =>
    let b := d.rd l.arg 64
    if d.hostWaits l.arg 64 ∨ (d.xferOk b ∧ d.hostWaits (fld b 0 48) (fld b 128 48)) then d0
    else
    let (d, b, bad) := d.hostRead l.arg 64
    if bad then d
    else if d.xferOk b then d.sendXfer b ups else d.endTransfer b stBounds 0 0 0xFFFFFFFF 0

def execPortTx (ups : List Upset) (s : State) : Host.Outcome State Fault Refusal := s.onDev fun d => d.portTx ups

/-- A transfer ends: its record carries `status`, or POISON_INPUT when its source was bad. -/
def Dev.endXfer (d : Dev) (x : PortXfer) (status : BitVec 8) : Dev :=
  let d := d.modTick fun t => { t with xfers := t.xfers.filter (· ≠ x) }
  let st := if status ≠ stAborted ∧ x.status = stPoison then stPoison else status
  d.endTransfer x.desc st 0 0 0xFFFFFFFF x.granules

/-! ### Writes by a peer (17 R530, 13 R417) -/

/-- PEER_DONE goes back to the sender. -/
def Dev.answerPeer (d : Dev) (n : Nat) (msg : BitVec 32) (status : BitVec 8) : Dev :=
  d.sendPeer n .control 3 (leBytes 4 msg.toNat ++ [status] ++ zeroBytes 3)

/-- Give the poison code to granules of a range that a peer delivered bad. -/
def Dev.poisonGranules (d : Dev) (a : Nat) (bad : List Nat) : Dev :=
  { d with mem := { d.mem with poison := (d.mem.poison ++ bad.map fun o => (a + o) / 256 * 256).eraseDups } }

/-- A peer's data is written to the stack range; what the stacks refuse is answered with its status. -/
def Dev.peerStore (d : Dev) (addr : Nat) (data : List Byte) (bad : List Nat) : Dev × BitVec 8 :=
  if !inStack addr data.length then (d, stBounds)
  else
    match d.problemIn .host .write addr data.length with
    | some p => (d.noteProblem .host .write p, p.status)
    | none => ((d.hostWrite addr data).poisonGranules addr (bad.filter (· < data.length)), stOk)

/-- PEER_WRITE. `bad` lists offsets of data in segments marked BAD. -/
def Dev.peerWrite (d : Dev) (src : BitVec 16) (ep : Endpoint) (msg : BitVec 32) (addr : Nat) (data : List Byte)
    (bad : List Nat) : Dev :=
  d.fromPeer src ep fun d =>
    let (d, st) := (d.consume ep 3 2).peerStore addr data bad
    d.answerPeer src.toNat msg st

def execPeerWrite (src : BitVec 16) (ep : Endpoint) (msg : BitVec 32) (addr : Nat) (data : List Byte) (bad : List Nat)
    (s : State) : Host.Outcome State Fault Refusal :=
  s.onDev fun d => d.peerWrite src ep msg addr data bad

/-! ### READY (15 R459, 17 R530, R533) -/

/-- READY: only the tick master keeps it. -/
def Dev.peerReady (d : Dev) (src : BitVec 16) (ep : Endpoint) (frame : BitVec 64) : Dev :=
  d.fromPeer src ep fun d =>
    let d := d.consume ep 3 1
    if d.isMaster then
      d.modTick fun t => { t with readyFrom := (t.readyFrom ++ [(src.toNat, frame.toNat)]).eraseDups }
    else d

def execReady (src : BitVec 16) (ep : Endpoint) (frame : BitVec 64) (s : State) : Host.Outcome State Fault Refusal :=
  s.onDev fun d => d.peerReady src ep frame

/-! ### Replay launches (15 R481) -/

/-- REPLAY_INPUT: the record waits for the boundary, or for the SHARE_IN, of its frame. -/
def Dev.replayInput (d : Dev) : Dev :=
  match d.fireLaunch 3 with
  | none => d
  | some (l, d) =>
    match l.input with
    | some r => if logKind r = 7 then d else d.modTick fun t => { t with replayInputs := t.replayInputs ++ [r] }
    | none => d

def execReplayInput (s : State) : Host.Outcome State Fault Refusal := s.onDev Dev.replayInput

end Sys2Proof.Machine
end

