-- ==== Sys2Proof/Machine/Checkpoint.lean ====
section
/-! DEFINITION. Checkpoints: the launch, its start, images sent and received, completion and failure (16 R484-R494). -/

namespace Sys2Proof.Machine

/-! ### Descriptors, extents and images (16 R485, R486, R492) -/

/-- A checkpoint descriptor. -/
structure CkptDesc where
  list : Nat
  count : Nat
  peer : Nat
  target : Nat
  area : Nat
  seq : Nat
  holdEdges : Nat
  status : Nat
  deriving DecidableEq, Repr

def CkptDesc.parse (b : List Byte) : CkptDesc :=
  { list := fld b 0 48, count := fld b 48 16, peer := fld b 64 10, target := fld b 74 2, area := fld b 76 2,
    seq := fld b 128 64, holdEdges := fld b 192 16, status := fld b 256 48 }

/-- A descriptor as it stands; one that a bank refuses reads as zeros, which no check passes. -/
def Dev.ckptDesc (d : Dev) (a : Nat) : CkptDesc :=
  CkptDesc.parse (if d.problemIn .host .read a 64 = none then d.rd a 64 else zeroBytes 64)

/-- The extents of a list: address and length. -/
def extentsOf (b : List Byte) : List (Nat × Nat) := (records 16 b).map fun r => (fld r 0 48, fld r 64 48)

/-- The replica areas of this device: base and length of both slots. -/
def Dev.replicaRanges (d : Dev) : List (Nat × Nat) :=
  (List.range 4).map fun a => (d.reg (0x2080 + a) 1, 2 * d.reg (0x2080 + a) 2)

def Dev.extentOk (d : Dev) (e : Nat × Nat) : Bool :=
  e.1 % 256 = 0 && e.2 % 256 = 0 && 256 ≤ e.2 && (e.1 < stackEnd || (clusterBase ≤ e.1 && e.1 < clusterEnd)) &&
    mapRange e.1 e.2 && !(d.replicaRanges.any fun r => rangesMeet e.1 e.2 r.1 r.2)

/-- The checks of a descriptor in itself. -/
def CkptDesc.formOk (c : CkptDesc) : Bool :=
  c.list % 16 = 0 && c.count ≤ 4096 && c.target ≤ 1 && 1 ≤ c.seq && 1 ≤ c.holdEdges && c.status % 64 = 0

/-- Where the data of an image begins. -/
def imageData (count : Nat) : Nat := 256 + ceilDiv (16 * count) 256 * 256

/-- The image header. -/
def imageHeader (source seq count bytes frame crc : Nat) : List Byte :=
  let head := (mkRecord 256 [(0, 32, 0x434B5031), (32, 10, source), (64, 64, seq), (128, 16, count), (192, 48, bytes),
    (256, 64, frame), (320, 32, crc)]).take 252
  head ++ leBytes 4 (crc32c head)

/-- A header is valid. -/
def imageValid (h : List Byte) : Bool := fld h 0 32 = 0x434B5031 && fld h 2016 32 = crc32c (h.take 252)

/-! ### The launch (16 R484, R488, R494) -/

/-- The status record of a checkpoint descriptor, where the descriptor can be read. -/
def Dev.ckptStatus (d : Dev) (desc : Nat) (status : BitVec 8) (extents granules : Nat) : Dev :=
  if d.problemIn .host .read desc 64 ≠ none then d
  else d.hostWrite (d.ckptDesc desc).status (d.statusBytes status extents 0 0xFFFFFFFF granules)

/-- A fault of the checkpoint source. -/
def Dev.ckptFault (d : Dev) (desc : Nat) (reason : BitVec 8) : Dev := d.faultUc 0x10 (d.ckptDesc desc).peer desc reason 0 0

/-- CKPT_STATE while checkpoints are under way, and `done` once none is (16 R504). -/
def Dev.showCkpt (d : Dev) (done : Nat) : Dev :=
  d.setReg 0x2070 6 (if d.tick.ckpts.any fun c => c.sending then 2 else if d.tick.ckpts = [] then done else 1)

/-- Take every checkpoint launch that fires in one cycle. -/
def Dev.fireCheckpoint (d : Dev) : Option (List Nat × Dev) :=
  match d.dueLaunch with
  | some l =>
    if l.kind = 2 then
      let mine := d.tick.launches.filter fun x => x.kind = 2 && x.fire = l.fire
      some (mine.map (·.arg), d.modTick fun t => { t with launches := t.launches.filter fun x => !(x.kind = 2 && x.fire = l.fire) })
    else none
  | none => none

/-- CHECKPOINT. -/
def Dev.checkpoint (d : Dev) : Dev :=
  match d.fireCheckpoint with
  | none => d
  | some (descs, d) =>
    if d.reg 0x2000 3 ≠ 1 then descs.foldl (fun (d : Dev) a => (d.ckptStatus a stAborted 0 0).ckptFault a 4) d
    else
      let hold := descs.foldl (fun n a => max n (d.ckptDesc a).holdEdges) 0
      (d.modTick fun t => { t with
        holdLeft := max t.holdLeft hold,
        ckpts := t.ckpts ++ [{ descs := descs, sending := false, awaiting := [], sizes := [],
                               seq := BitVec.ofNat 64 (d.ckptDesc (descs.headD 0)).seq, startedAt := 0 }] }).showCkpt 1

def execCheckpoint (s : State) : Host.Outcome State Fault Refusal := s.onDev Dev.checkpoint

/-! ### Start and sending (16 R486, R487, R492) -/

/-- The extents of a descriptor; none where a check fails. -/
def Dev.ckptExtents (d : Dev) (desc : Nat) : Dev × Option (List (Nat × Nat)) :=
  let (d, _, lost) := if mapRange desc 64 then d.hostRead desc 64 else (d, [], true)
  let c := d.ckptDesc desc
  if lost ∨ !c.formOk ∨ !mapRange c.list (16 * c.count) then (d, none)
  else
    let (d, b, bad) := d.hostRead c.list (16 * c.count)
    let es := extentsOf b
    (d, if bad ∨ !(es.all d.extentOk) then none else some es)

/-- Every descriptor's extents; the first that fails a check. -/
def Dev.ckptChecks (d : Dev) (descs : List Nat) : Dev × List (Nat × List (Nat × Nat)) × Option Nat :=
  descs.foldl (fun (x : Dev × List (Nat × List (Nat × Nat)) × Option Nat) a =>
    match x.2.2 with
    | some _ => x
    | none =>
      match x.1.ckptExtents a with
      | (d, some es) => (d, x.2.1 ++ [(a, es)], none)
      | (d, none) => (d, x.2.1, some a)) (d, [], none)

/-- Every running prefetch stream stops. -/
def Dev.stopPrefetch (d : Dev) : Dev :=
  d.clusters.foldl (fun (d : Dev) p => (d.cluster p.1).streams.foldl (fun (d : Dev) s =>
    if s.prefetch ∧ (s.phase = .running ∨ s.phase = .paused) then d.abortStream p.1 s else d) d) d

/-- Send a message of an image to the target: a peer, or the event endpoint. -/
def Dev.sendImage (d : Dev) (c : CkptDesc) (kind : BitVec 8) (body : List Byte) : Dev :=
  if c.target = 0 then d.sendPeer c.peer .bulk kind body
  else
    match d.peerEndpoint 0x8800 with
    | some e => d.sendMsg e .bulk 3 kind 2 0xFFFF body
    | none => d

/-- The target can be reached. -/
def Dev.reachable (d : Dev) (c : CkptDesc) : Bool :=
  d.linkUp && (if c.target = 0 then d.isMember c.peer && c.peer ≠ d.systemDevice && (d.peerEndpoint (0x8400 + c.peer)).isSome
    else (d.peerEndpoint 0x8800).isSome)

/-- Read the data of the extents. -/
def Dev.readExtents (d : Dev) (es : List (Nat × Nat)) : Dev × List Byte × Bool :=
  es.foldl (fun (x : Dev × List Byte × Bool) e =>
    let (d, bs, bad) := x.1.hostRead e.1 e.2
    (d, x.2.1 ++ bs, x.2.2 || bad)) (d, [], false)

/-- Put a changed checkpoint in the place of the one that is sending. -/
def Dev.setCkpt (d : Dev) (old new : CkptRun) : Dev :=
  d.modTick fun t => { t with ckpts := t.ckpts.map fun c => if c = old then new else c }

/-- A checkpoint fails: descriptors that are not complete get ABORTED (16 R493). -/
def Dev.failCkpt (d : Dev) (c : CkptRun) (desc : Nat) (left : List Nat) : Dev :=
  let d := left.foldl (fun (d : Dev) a =>
    let z := (c.sizes.find? fun x => x.1 = a).getD (a, 0, 0)
    d.ckptStatus a stAborted z.2.1 z.2.2) d
  ((d.modTick fun t => { t with ckpts := t.ckpts.filter (· ≠ c) }).showCkpt 3).ckptFault desc 2

/-- The checkpoint is complete. -/
def Dev.endCkpt (d : Dev) (c : CkptRun) : Dev :=
  (((d.modTick fun t => { t with ckpts := t.ckpts.filter (· ≠ c) }).showCkpt 0).setReg 0x2070 7 c.seq.toNat).setReg
    0x2070 8 (d.clock - c.startedAt)

/-- Send the image of one descriptor: the extent list and the data in one message, then the header (log entry 54). The outcome
is none where the target cannot be reached or the source is bad. -/
def Dev.sendDesc (d : Dev) (desc : Nat) (es : List (Nat × Nat)) : Dev × Option (BitVec 32) :=
  let c := d.ckptDesc desc
  if !d.reachable c then (d, none)
  else
    let (d, list, bad0) := d.hostRead c.list (16 * c.count)
    let (d, data, bad1) := d.readExtents es
    if bad0 ∨ bad1 then (d, none)
    else
      let start := leBytes 1 c.area ++ zeroBytes 7 ++ leBytes 8 c.seq
      let pad := zeroBytes (imageData c.count - 256 - list.length)
      let d := d.sendImage c 5 (start ++ leBytes 8 256 ++ list ++ pad ++ data)
      let msg := d.port.nextMsg
      let frame := (d.tick.frame.map fun f => f.number.toNat).getD d.frameNumber
      (d.sendImage c 6 (start ++ imageHeader d.systemDevice c.seq c.count data.length frame (crc32c data)), some msg)

/-- Send the images in order of the descriptors. -/
def Dev.sendAll (d : Dev) (c : CkptRun) (todo : List (Nat × List (Nat × Nat))) : Dev :=
  match todo with
  | [] => if c.awaiting = [] then d.endCkpt c else d
  | (a, es) :: rest =>
    if es = [] then (d.ckptStatus a stOk 0 0).sendAll c rest
    else
      match d.sendDesc a es with
      | (d, none) => d.failCkpt c a ((a :: rest.map (·.1)) ++ c.awaiting.map (·.2))
      | (d, some msg) =>
        let n := { c with awaiting := c.awaiting ++ [(msg, a)],
                          sizes := c.sizes ++ [(a, es.length, total (es.map fun e => e.2 / 256))] }
        (d.setCkpt c n).sendAll n rest

/-- A bank makes the reads of a checkpoint's start wait. -/
def Dev.ckptWaits (d : Dev) (descs : List Nat) : Bool :=
  descs.any fun a =>
    let c := d.ckptDesc a
    d.hostWaits a 64 || (mapRange c.list (16 * c.count) && (d.hostWaits c.list (16 * c.count) ||
      (extentsOf (d.rd c.list (16 * c.count))).any fun e => d.extentOk e && d.hostWaits e.1 e.2))

/-- CHECKPOINT_START: the launch has fired and the device's part of the frame is complete. -/
def Dev.checkpointStart (d : Dev) (ups : List Upset) : Dev :=
  match d.tick.ckpts with
  | [] => d
  | c :: _ =>
    if c.sending ∨ !d.frameDone ∨ d.ckptWaits c.descs then d
    else
      match (d.addUpsets ups).ckptChecks c.descs with
      | (d, _, some a) =>
        let d := c.descs.foldl (fun (d : Dev) a => d.ckptStatus a stBounds 0 0) d
        ((d.modTick fun t => { t with ckpts := t.ckpts.filter (· ≠ c) }).showCkpt 3).ckptFault a 1
      | (d, todo, none) =>
        let n := { c with sending := true, startedAt := d.clock }
        (((d.stopPrefetch).setReg 0x2070 6 2).setCkpt c n).sendAll n todo

def execCheckpointStart (ups : List Upset) (s : State) : Host.Outcome State Fault Refusal :=
  s.onDev fun d => d.checkpointStart ups

/-- PEER_DONE for the image of one descriptor. -/
def Dev.imageAnswered (d : Dev) (c : CkptRun) (msg : BitVec 32) (desc : Nat) (status : BitVec 8) : Dev :=
  let n := { c with awaiting := c.awaiting.filter fun x => x.1 ≠ msg }
  if status ≠ stOk then d.failCkpt c desc (desc :: n.awaiting.map (·.2))
  else
    let z := (c.sizes.find? fun x => x.1 = desc).getD (desc, 0, 0)
    let d := (d.ckptStatus desc stOk z.2.1 z.2.2).setCkpt c n
    if n.awaiting = [] then d.endCkpt n else d

/-! ### Receiving an image (16 R491) -/

/-- Base of a slot, its length, and the source that its area accepts. -/
def Dev.slotOf (d : Dev) (area : Nat) (seq : BitVec 64) : Nat × Nat :=
  let size := d.reg (0x2080 + area) 2
  (d.reg (0x2080 + area) 1 + seq.toNat % 2 * size, size)

def Dev.areaTakes (d : Dev) (area : Nat) (src : BitVec 16) : Bool :=
  area < 4 && d.reg (0x2080 + area) 2 ≠ 0 && d.reg (0x2080 + area) 3 = src.toNat

def Dev.setReplica (d : Dev) (area : Nat) (r : ReplicaRun) : Dev :=
  d.modTick fun t => { t with replicas := tset t.replicas area r }

/-- The image's slot loses its header before any of its data is written. -/
def Dev.openSlot (d : Dev) (area : Nat) (seq : BitVec 64) : Dev :=
  ((d.hostWrite (d.slotOf area seq).1 (zeroBytes 256)).setReg (0x2080 + area) (4 + seq.toNat % 2) 0).setReplica area
    { seq := seq, refused := false }

/-- Data of an image: refused where it does not fit the slot, or where the stacks refuse it. -/
def Dev.imagePart (d : Dev) (area : Nat) (seq : BitVec 64) (offset : Nat) (data : List Byte) : Dev :=
  let slot := d.slotOf area seq
  let run := (tfind d.tick.replicas area).bind fun r => if r.seq = seq then some r else none
  if (run.map (·.refused)).getD false then d
  else if offset < 256 ∨ slot.2 < offset + data.length then d.setReplica area { seq := seq, refused := true }
  else
    let d := if run.isNone then d.openSlot area seq else d
    let (d, st) := d.peerStore (slot.1 + offset) data []
    if st = stOk then d else d.setReplica area { seq := seq, refused := true }

/-- CKPT_DATA. -/
def Dev.ckptData (d : Dev) (src : BitVec 16) (ep : Endpoint) (area : Nat) (seq : BitVec 64) (offset : Nat)
    (data : List Byte) : Dev :=
  d.fromPeer src ep fun d =>
    let d := d.consume ep 3 5
    if d.areaTakes area src then d.imagePart area seq offset data else d

def execCkptData (src : BitVec 16) (ep : Endpoint) (area : Nat) (seq : BitVec 64) (offset : Nat) (data : List Byte)
    (s : State) : Host.Outcome State Fault Refusal :=
  s.onDev fun d => d.ckptData src ep area seq offset data

/-- The header of an image ends it. -/
def Dev.closeImage (d : Dev) (area : Nat) (seq : BitVec 64) (header : List Byte) : Dev × BitVec 8 :=
  let run := (tfind d.tick.replicas area).bind fun r => if r.seq = seq then some r else none
  let d := if run.isNone then d.openSlot area seq else d
  let refused := (run.map (·.refused)).getD false
  let d := d.modTick fun t => { t with replicas := tdel t.replicas area }
  if refused ∨ header.length ≠ 256 then (d, stBounds)
  else
    let (d, st) := d.peerStore (d.slotOf area seq).1 header []
    (if st = stOk ∧ imageValid header then d.setReg (0x2080 + area) (4 + seq.toNat % 2) seq.toNat else d, st)

/-- CKPT_END. -/
def Dev.ckptEnd (d : Dev) (src : BitVec 16) (ep : Endpoint) (msg : BitVec 32) (area : Nat) (seq : BitVec 64)
    (header : List Byte) : Dev :=
  d.fromPeer src ep fun d =>
    let d := d.consume ep 3 6
    if !d.areaTakes area src then d.answerPeer src.toNat msg stNotOwner
    else
      let (d, st) := d.closeImage area seq header
      d.answerPeer src.toNat msg st

def execCkptEnd (src : BitVec 16) (ep : Endpoint) (msg : BitVec 32) (area : Nat) (seq : BitVec 64) (header : List Byte)
    (s : State) : Host.Outcome State Fault Refusal :=
  s.onDev fun d => d.ckptEnd src ep msg area seq header

end Sys2Proof.Machine
end

