-- ==== Sys2Proof/Machine/Collective.lean ====
section
/-! DEFINITION. Clear-mode collectives: digests, a ring reduce-scatter and all-gather, and their end (17 R532). How the
steps are numbered and what a step carries is this model's own (log entry 55): step 0 carries a digest; steps 1 to n - 1 carry
a chunk of partial sums to the next member, steps n to 2n - 2 a chunk of full sums. -/

namespace Sys2Proof.Machine

/-! ### Descriptor and digest -/

/-- The bytes of a collective descriptor: OP, tensor, scale records. -/
def collOp (b : List Byte) : Nat := fld b 0 4
def collTensor (b : List Byte) : Nat := fld b 64 48
def collScales (b : List Byte) : Nat := fld b 128 48

/-- Bytes of an element: exact-sum or int32. -/
def collBytes (op : Nat) : Nat := if op = 0 then 12 else 4

/-- The check of the tensor. -/
def Dev.collOk (d : Dev) (op : Nat) (t : Tensor) : Bool :=
  op ≤ 1 && d.tensorOk t [] && !t.dist && t.etype = (if op = 0 then 9 else 5)

/-- The bytes of the scale records of an ES_SUM, and whether one could not be read. -/
def Dev.collRecords (d : Dev) (op scales n : Nat) : Dev × List Byte × Bool :=
  if op = 0 then d.hostRead scales (4 * n) else (d, [], false)

/-- The digest that the members exchange; all zero where the check fails. -/
def Dev.collDigest (d : Dev) (b : List Byte) (t : Tensor) : Dev × List Byte :=
  if d.collOk (collOp b) t then
    let (d, es, bad) := d.collRecords (collOp b) (collScales b) t.nb
    (d, if bad then zeroBytes 64
        else sha512 (leBytes 1 (collOp b) ++ leBytes 1 t.etype ++ leBytes 1 t.rank ++ (t.sizes.flatMap fun n => leBytes 4 n) ++
          leBytes 4 t.blockSize ++ (List.range (es.length / 4)).map fun j => es.getD (4 * j) 0))
  else (d, zeroBytes 64)

/-! ### Elements and blocks -/

/-- Addresses of a tensor's elements, with the block of each, in row order of the blocks. -/
def Tensor.places (t : Tensor) : List (Nat × Nat) :=
  (List.range t.nb).flatMap fun j =>
    let e := t.blockElems j
    (t.blockRows j).flatMap fun idx => (List.range (e.2 - e.1)).map fun k => (j, t.elemAddr t.base j (e.1 + k) idx)

/-- Read the elements: values, and the blocks that were delivered bad. -/
def Dev.readElems (d : Dev) (n : Nat) (ps : List (Nat × Nat)) : Dev × List Nat × List Nat :=
  ps.foldl (fun (x : Dev × List Nat × List Nat) p =>
    let (d, bs, bad) := x.1.hostRead p.2 n
    (d, x.2.1 ++ [leNat bs], if bad then (p.1 :: x.2.2).eraseDups else x.2.2)) (d, [], [])

/-- SAT and E_NEXT of the scale records, and what is bad: by a delivery, by the map, or by a poisoned tensor. A record that
is delivered bad makes its block bad. -/
def Dev.collBlocks (d : Dev) (op scales : Nat) (t : Tensor) (bad : List Nat) : Dev × List CollBlock :=
  let (d, marked) := d.markedBlocks none .host t
  let (d, es, esBad) := d.collRecords op scales t.nb
  (d, (List.range t.nb).map fun j =>
    let v := leNat ((es.drop (4 * j)).take 4)
    { sat := v.testBit 16, eNext := bitsAt v 8 8, bad := bad.contains j || marked.contains j || esBad })

/-- Member `k` of `n` owns these elements, or blocks, of `size`. -/
def chunk (size n k : Nat) : Nat × Nat := (k * size / n, (k + 1) * size / n)

def cut {α : Type} (xs : List α) (r : Nat × Nat) : List α := (xs.drop r.1).take (r.2 - r.1)

def paste {α : Type} (xs : List α) (r : Nat × Nat) (ys : List α) : List α := xs.take r.1 ++ ys ++ xs.drop r.2

/-- A chunk as it travels. -/
def chunkBytes (n : Nat) (es : List Nat) (bs : List CollBlock) : List Byte :=
  (es.flatMap fun e => leBytes n e) ++ bs.flatMap fun b => [BitVec.ofNat 8 (bit b.sat), BitVec.ofNat 8 b.eNext, BitVec.ofNat 8 (bit b.bad)]

/-- A chunk of `ne` elements and `nb` blocks read back. -/
def chunkRead (n ne nb : Nat) (bs : List Byte) : List Nat × List CollBlock :=
  ((List.range ne).map fun i => leNat ((bs.drop (n * i)).take n),
   (List.range nb).map fun j =>
     let b := (bs.drop (n * ne + 3 * j)).take 3
     { sat := b.getD 0 0 ≠ 0, eNext := (b.getD 1 0).toNat, bad := b.getD 2 0 ≠ 0 })

/-- Element-wise sums; SAT as the OR, E_NEXT as the maximum over members. -/
def addChunk (n : Nat) (a b : List Nat × List CollBlock) : List Nat × List CollBlock :=
  (List.zipWith (fun x y => (x + y) % 2 ^ (8 * n)) a.1 b.1,
   List.zipWith (fun x y => { sat := x.sat || y.sat, eNext := max x.eNext y.eNext, bad := x.bad || y.bad }) a.2 b.2)

/-! ### The run -/

/-- Place of this device among the members. -/
def CollRun.place (r : CollRun) (self : Nat) : Nat := r.members.findIdx (· = self)

/-- The chunk that the member at place `p` sends in a step, and the one that it receives. -/
def sentChunk (n p step : Nat) : Nat := if step < n then (p + n + 1 - step) % n else (p + 2 * n + 1 - step) % n
def takenChunk (n p step : Nat) : Nat := if step < n then (p + n - step) % n else (p + 2 * n - step) % n

/-- The right neighbour and the left one. -/
def CollRun.next (r : CollRun) (p : Nat) : Nat := r.members.getD ((p + 1) % r.members.length) 0
def CollRun.prev (r : CollRun) (p : Nat) : Nat := r.members.getD ((p + r.members.length - 1) % r.members.length) 0

def collMsg (collId : BitVec 64) (step : Nat) (data : List Byte) : List Byte :=
  leBytes 8 collId.toNat ++ leBytes 2 step ++ zeroBytes 6 ++ data

def Dev.setColl (d : Dev) (r : CollRun) : Dev :=
  d.modTick fun t => { t with colls := t.colls.map fun x => if x.collId = r.collId then r else x }

def Dev.dropColl (d : Dev) (r : CollRun) : Dev :=
  d.modTick fun t => { t with colls := t.colls.filter fun x => x.collId ≠ r.collId,
                              collEarly := t.collEarly.filter fun x => x.collId ≠ r.collId }

/-- Send the chunk of a step to the next member. -/
def Dev.sendChunk (d : Dev) (r : CollRun) (n : Nat) (step : Nat) : Dev :=
  let p := r.place d.systemDevice
  let m := r.members.length
  let k := sentChunk m p step
  let data := chunkBytes n (cut r.elems (chunk r.elems.length m k)) (cut r.blocks (chunk r.blocks.length m k))
  d.sendPeer (r.next p) .control 4 (collMsg r.collId step data)

/-- The tensor as the launch found it. -/
def CollRun.local (r : CollRun) : Tensor := Tensor.parse r.tensor r.tensorDesc

/-- Write the sums and the scale records, mark bad blocks, and end with a status (02 R63, 14 R429). -/
def Dev.finishColl (d : Dev) (r : CollRun) : Dev :=
  let b := r.desc
  let op := collOp b
  let t := r.local
  let n := collBytes op
  let d := (t.places.zip r.elems).foldl (fun (d : Dev) p => d.hostWrite p.1.2 (leBytes n p.2)) d
  let bad := (List.range r.blocks.length).filter fun j => (r.blocks.map (·.bad)).getD j false
  let sat := r.blocks.any (·.sat)
  let d :=
    if op = 0 then
      let d := r.blocks.zipIdx.foldl (fun (d : Dev) p =>
        d.hostWrite (collScales b + 4 * p.2 + 1) [BitVec.ofNat 8 p.1.eNext, BitVec.ofNat 8 (bit p.1.sat)]) d
      let d := if d.tick.esRecords.contains (collScales b, t.nb) then d
        else d.modTick fun k => { k with esRecords := k.esRecords ++ [(collScales b, t.nb)] }
      if sat then (d.setReg 0x9000 1 1).modFrame fun f => { f with esSat := true } else d
    else d
  let d := bad.foldl (fun (d : Dev) j => d.markBlock .host t j) d
  let d := if bad = [] then d else d.poisonTensor .host r.tensor
  (d.dropColl r).endTransfer b (if bad = [] then stOk else stPoison) (t.nb - bad.length) bad.length
    (bad.foldl min 0xFFFFFFFF) (total (r.elems.map fun _ => n) / 256)

/-- All digests are in: they agree and the check passed, or nothing is changed. -/
def Dev.judgeColl (d : Dev) (r : CollRun) : Dev × Option CollRun :=
  if r.digest = zeroBytes 64 ∨ !(r.digests.all fun x => x.2 = r.digest) then
    ((d.dropColl r).endTransfer r.desc stBounds 0 0 0xFFFFFFFF 0, none)
  else
    let (d, es, bad) := d.readElems (collBytes (collOp r.desc)) r.local.places
    let (d, blocks) := d.collBlocks (collOp r.desc) (collScales r.desc) r.local bad
    let n := { r with nextStep := 1, elems := es, blocks := blocks }
    (d.setColl n, some n)

/-- Take the data of the step that the run waits for: reduced, or kept. -/
def CollRun.take (r : CollRun) (self n : Nat) (data : List Byte) : CollRun :=
  let m := r.members.length
  let k := takenChunk m (r.place self) r.nextStep
  let re := chunk r.elems.length m k
  let rb := chunk r.blocks.length m k
  let c := chunkRead n (re.2 - re.1) (rb.2 - rb.1) data
  let x := if r.nextStep < m then addChunk n (cut r.elems re, cut r.blocks rb) c else c
  { r with nextStep := r.nextStep + 1, elems := paste r.elems re x.1, blocks := paste r.blocks rb x.2 }

/-- The message that the run needs next, if it has arrived. -/
def Dev.nextCollMsg (d : Dev) (r : CollRun) : Option CollMsg :=
  d.tick.collEarly.find? fun m => m.collId = r.collId && m.step = r.nextStep &&
    (if r.nextStep = 0 then r.members.contains m.src && !(r.digests.map (·.1)).contains m.src
     else m.src = r.prev (r.place d.systemDevice))

/-- Carry a run on with what has arrived. -/
def Dev.advanceColl (fuel : Nat) (d : Dev) (r : CollRun) : Dev :=
  match fuel with
  | 0 => d
  | k + 1 =>
    let n := collBytes (collOp r.desc)
    let m := r.members.length
    if r.nextStep = 0 ∧ m ≤ r.digests.length then
      match d.judgeColl r with
      | (d, none) => d
      | (d, some r) => if m = 1 then d.finishColl r else Dev.advanceColl k (d.sendChunk r n 1) r
    else
      match d.nextCollMsg r with
      | none => d
      | some x =>
        let d := d.modTick fun t => { t with collEarly := t.collEarly.erase x }
        if r.nextStep = 0 then
          let r := { r with digests := r.digests ++ [(x.src, x.data)] }
          Dev.advanceColl k (d.setColl r) r
        else
          let r := r.take d.systemDevice n x.data
          let d := d.setColl r
          if r.nextStep ≤ 2 * m - 2 then Dev.advanceColl k (d.sendChunk r n r.nextStep) r else d.finishColl r

/-- What a collective reads as its launch fires has to wait for a bank. -/
def Dev.collWaits (d : Dev) (l : Launch) : Bool :=
  let b := d.rd l.arg 64
  let t := Tensor.parse (collTensor b) (d.rd (collTensor b) 128)
  d.hostWaits l.arg 64 || d.hostWaits (collTensor b) 128 || d.hostWaits (collScales b) (4 * t.nb) ||
    t.places.any fun p => d.hostWaits p.2 (collBytes (collOp b))

/-- COLLECTIVE: the members are those of TICK_MEMBERS when the launch fires. -/
def Dev.collective (d0 : Dev) : Dev :=
  match d0.fireLaunch 4 with
  | none => d0
  | some (l, d) =>
    if d.collWaits l then d0
    else
    let (d, b, bad) := d.hostRead l.arg 64
    let members := (List.range 1024).filter d.isMember
    if bad then d
    else if !members.contains d.systemDevice then d.endTransfer b stBounds 0 0 0xFFFFFFFF 0
    else
      let (d, tb, tbad) := if descPlaced (collTensor b) 128 then d.hostRead (collTensor b) 128 else (d, zeroBytes 128, true)
      let (d, digest) := if tbad then (d, zeroBytes 64) else d.collDigest b (Tensor.parse (collTensor b) tb)
      let r : CollRun :=
        { collId := l.at_, desc := b, tensor := collTensor b, tensorDesc := tb, members := members, digest := digest,
          digests := [(d.systemDevice, digest)], nextStep := 0, elems := [], blocks := [] }
      let d := d.modTick fun t => { t with colls := t.colls ++ [r] }
      let d := (members.filter (· ≠ d.systemDevice)).foldl (fun (d : Dev) n => d.sendPeer n .control 4 (collMsg l.at_ 0 digest)) d
      Dev.advanceColl (3 * members.length + 3) d r

def execCollective (s : State) : Host.Outcome State Fault Refusal := s.onDev Dev.collective

/-- COLL: a step's data arrives; it is kept until its launch has fired and its step has come. -/
def Dev.collStep (d : Dev) (src : BitVec 16) (ep : Endpoint) (collId : BitVec 64) (step : Nat) (data : List Byte) : Dev :=
  d.fromPeer src ep fun d =>
    let m : CollMsg := { src := src.toNat, collId := collId, step := step, data := data }
    let d := (d.consume ep 3 4).modTick fun t => { t with collEarly := t.collEarly ++ [m] }
    match d.tick.colls.find? fun r => r.collId = collId with
    | some r => Dev.advanceColl (3 * r.members.length + 3) d r
    | none => d

def execColl (src : BitVec 16) (ep : Endpoint) (collId : BitVec 64) (step : BitVec 16) (data : List Byte) (s : State) :
    Host.Outcome State Fault Refusal :=
  s.onDev fun d => d.collStep src ep collId step.toNat data

/-- A transport failure to a member ends the collective (17 R532). -/
def Dev.abortColl (d : Dev) (r : CollRun) (index : Nat) : Dev :=
  let d := (d.dropColl r).faultUc 0x11 index 0 0 stAborted 0
  (d.poisonTensor .host r.tensor).endTransfer r.desc stAborted 0 0 0xFFFFFFFF 0

end Sys2Proof.Machine
end

