-- ==== Sys2Proof/Machine/Links.lean ====
section
/-! DEFINITION. The end of peer transfers: PEER_DONE, and the failure of the transport to an endpoint or of the link (17 R506,
R514, R531, R532, 16 R493). -/

namespace Sys2Proof.Machine

/-! ### PEER_DONE (17 R530, R531) -/

/-- The checkpoint that awaits an answer to message `msg`, and the descriptor it was sent for. -/
def Dev.awaitingImage (d : Dev) (msg : BitVec 32) (from_ : Option Nat) : Option (CkptRun × Nat) :=
  d.tick.ckpts.findSome? fun c => c.awaiting.findSome? fun x =>
    let k := d.ckptDesc x.2
    let mine : Bool := match from_ with | some n => k.target = 0 && k.peer = n | none => k.target = 1
    if x.1 = msg ∧ mine then some (c, x.2) else none

/-- Complete what waits for the answer: a port transfer, or an image. -/
def Dev.answered (d : Dev) (from_ : Option Nat) (msg : BitVec 32) (status : BitVec 8) : Dev :=
  match d.tick.xfers.find? fun x => x.msg = msg && some x.dev = from_ with
  | some x => d.endXfer x status
  | none =>
    match d.awaitingImage msg from_ with
    | some (c, desc) => d.imageAnswered c msg desc status
    | none => d

/-- PEER_DONE, from a peer, or from the host that holds checkpoint data. -/
def Dev.peerDone (d : Dev) (src : BitVec 16) (ep : Endpoint) (msg : BitVec 32) (status : BitVec 8) : Dev :=
  if d.phase = .service ∧ src = 0xFFFF ∧ d.peerEndpoint 0x8800 = some ep then (d.consume ep 3 3).answered none msg status
  else d.fromPeer src ep fun d => (d.consume ep 3 3).answered (some src.toNat) msg status

def execPeerDone (src : BitVec 16) (ep : Endpoint) (msg : BitVec 32) (status : BitVec 8) (s : State) :
    Host.Outcome State Fault Refusal :=
  s.onDev fun d => d.peerDone src ep msg status

/-! ### Failures -/

/-- Index of an endpoint in the peer entries, 1024 for the event endpoint; any other endpoint has no index that the manual
gives (log entry 56). -/
def Dev.endpointIndex (d : Dev) (ep : Endpoint) : Nat × Dev :=
  match (List.range 1025).find? fun n => d.peerEndpoint (0x8400 + n) = some ep with
  | some n => (n, d)
  | none =>
    let (w, d) := d.drawWord
    (w.toNat % 65536, d)

/-- The device can no longer reach what `gone` says: transfers, images and collectives that wait on it end. -/
def Dev.unreachable (d : Dev) (gone : Nat → Bool) (hostGone : Bool) (index : Nat) : Dev :=
  let d := (d.tick.xfers.filter fun x => gone x.dev).foldl (fun (d : Dev) x => d.endXfer x stAborted) d
  let d := d.tick.ckpts.foldl (fun (d : Dev) c =>
    match c.awaiting.find? fun x => if (d.ckptDesc x.2).target = 1 then hostGone else gone (d.ckptDesc x.2).peer with
    | some x => d.failCkpt c x.2 (c.awaiting.map (·.2))
    | none => d) d
  d.tick.colls.foldl (fun (d : Dev) r =>
    if r.members.any fun n => n ≠ d.systemDevice && gone n then d.abortColl r index else d) d

/-- A request of which only a part has arrived is gone with its message. -/
def Dev.dropPartial (d : Dev) (m : Msg) : Dev :=
  let d := d.dropMsg m
  if m.cls = 0 ∧ m.judged then
    let h := ReqHdr.parse (m.body.take m.reach)
    d.dropRequest h.stream (BitVec.ofNat 64 h.id)
  else d

/-- TRANSPORT_FAIL (17 R514). -/
def Dev.transportFails (d : Dev) (ep : Endpoint) (prio : BitVec 3) : Dev :=
  let t := d.transport ep prio
  if t.unacked = [] then d
  else
    let (k, d) := d.endpointIndex ep
    let d := (d.setTransport { t with unacked := [], syncNext := true }).bump 0x8000 0x0E 1
    let d := (d.port.messages.filter fun m => m.ep = ep && m.prio = prio && !m.whole).foldl
      (fun (d : Dev) m => d.dropPartial m) (d.faultUc 0x11 k 0 0 0 0)
    d.unreachable (fun n => d.peerEndpoint (0x8400 + n) = some ep) (d.peerEndpoint 0x8800 = some ep) k

def execTransportFail (ep : Endpoint) (prio : BitVec 3) (s : State) : Host.Outcome State Fault Refusal :=
  s.onDev fun d => d.transportFails ep prio

/-- The link goes down: the transport state of every endpoint is reset, the port source records a fault, and nothing can be
reached (17 R506; log entry 53). Every message that was not complete is lost with the transport that carried it. -/
def Dev.linkLost (d : Dev) : Dev :=
  if !d.linkUp then d
  else
    let (w, d) := d.drawWord
    let k := w.toNat % 65536
    let d := (d.port.messages.filter fun m => !m.whole).foldl (fun (d : Dev) m => d.dropPartial m) (d.faultUc 0x11 k 0 0 0 0)
    (d.modPort fun x => { x with transports := [], held := [], paused := [] }).unreachable (fun _ => true) true k

end Sys2Proof.Machine
end

