-- ==== Sys2Proof/Machine/Dictionary.lean ====
section
/-! DEFINITION. Accesses to the object dictionary: what an entry reads as, the checks of a write, its effect, and the entries
that act when they are written (18 R538-R557, and the chapters that own the entries). -/

namespace Sys2Proof.Machine

/-! ### Abort codes (18 R549) -/

def abBadLength : Nat := 0x00010001
def abNoIndex : Nat := 0x00010002
def abNoSubindex : Nat := 0x00010003
def abReadOnly : Nat := 0x00020001
def abInvalid : Nat := 0x00030001
def abBusy : Nat := 0x00040001
def abLocked : Nat := 0x00040002

/-! ### Reading (18 R536, R542) -/

/-- Entries below 0x5000 that show state held elsewhere. -/
def Dev.readLow (d : Dev) (idx sub : Nat) : Nat :=
  match idx / 256, sub with
  | 0x10, 6 => if idx = 0x1020 then d.dictPending else d.reg idx sub
  | 0x20, 5 => if idx = 0x2050 then d.logState else d.reg idx sub
  | 0x20, 6 => if idx = 0x2020 then min 256 d.tick.launches.length else d.reg idx sub
  | 0x31, 3 => d.ownerWord (idx - 0x3100) 0
  | 0x31, 4 => d.ownerWord (idx - 0x3100) 1
  | 0x31, 5 => d.ownerWord (idx - 0x3100) 2
  | 0x31, 6 => d.ownerWord (idx - 0x3100) 3
  | 0x31, 9 => d.powerWord (idx - 0x3100)
  | 0x31, 0x0A => d.spPending (idx - 0x3100)
  | 0x32, 5 => d.dmaRunning (idx - 0x3200)
  | 0x40, 3 => d.slabWord 0
  | 0x40, 4 => d.slabWord 1
  | 0x40, 5 => d.slabWord 2
  | _, _ => d.reg idx sub

/-- ROOT_j (02 R38). -/
def Dev.rootOf (d : Dev) (s j : Nat) : Nat :=
  match (d.pset s).live with
  | some v => if j < v.count then psiOf (v.q j) else 0
  | none => 0

/-- Entries from 0x5000 on that show state held elsewhere. -/
def Dev.readHigh (d : Dev) (f : Fuses) (idx sub : Nat) : Nat :=
  match idx, sub with
  | 0x5800, 1 => d.liveSessions
  | 0x7000, 4 => if d.power.grants = [] then d.budget else d.reg idx sub
  | 0xA000, 3 => d.nickelState
  | 0xA000, 4 => d.nickel.shortQ.length
  | 0xA000, 5 => d.nickel.longQ.length + bit d.nickel.yielded.isSome
  | 0xA110, 6 => ownerState f d
  | 0xA110, 7 => secverCount f
  | 0xA120, 7 => bit d.boot.jtagOpened
  | _, _ =>
    if idx / 256 = 0x51 ∧ sub = 1 then d.psetState (idx - 0x5100)
    else if idx / 256 = 0x53 then d.rootOf (idx - 0x5300) (sub - 1)
    else if idx / 256 = 0x54 ∧ sub = 1 then d.chanState (idx - 0x5400)
    else if 0x7100 ≤ idx ∧ idx ≤ 0x7210 ∧ sub = 1 then d.grant (idx - 0x7100)
    else if 0x7100 ≤ idx ∧ idx ≤ 0x7210 ∧ sub = 2 then tget d.power.requests (idx - 0x7100) 0
    else d.reg idx sub

/-- The live value of an entry. -/
def Dev.live? (d : Dev) (f : Fuses) (idx sub : Nat) : Nat :=
  if idx < 0x5000 then d.readLow idx sub else d.readHigh f idx sub

/-- What a read of an entry that exists returns (18 R542): the pending value of a rwt entry, zero for a wo entry. -/
def Dev.entryValue (d : Dev) (f : Fuses) (idx sub : Nat) : Nat :=
  if sub = 0 then highestSub idx
  else
    match (dictRow idx sub).map DictRow.right with
    | some .wo => 0
    | some .rwt => d.shown idx sub
    | _ => d.live? f idx sub

/-- Steps 1 to 3 of R550. -/
def entryAbort (badLength : Bool) (addr : Nat) : Nat :=
  if badLength then abBadLength
  else if 2 ^ 24 ≤ addr ∨ !indexExists (addr / 256) then abNoIndex
  else if (dictRow (addr / 256) (addr % 256)).isNone then abNoSubindex else 0

/-- A refused access is counted and noted (18 R550). -/
def Dev.refusedAccess (d : Dev) (addr code : Nat) : Dev × CmdOut :=
  (((d.bump 0x1020 3 1).setReg 0x1020 4 code).setReg 0x1020 5 (addr % 2 ^ 24), ⟨stAborted, code, []⟩)

/-- DICT_READ. -/
def Dev.dictReadCmd (d : Dev) (f : Fuses) (addr len : Nat) : Dev × CmdOut :=
  match entryAbort (len ≠ 0) addr with
  | 0 =>
    let d := d.bump 0x1020 1 1
    (d, ⟨stOk, 0, beBytes 8 (d.entryValue f (addr / 256) (addr % 256))⟩)
  | code => d.refusedAccess addr code

def execDictRead (ctx : Nat) (addr : BitVec 48) (len : BitVec 64) (s : State) : Host.Outcome State Fault Refusal :=
  .next (s.withDev (s.dev.runCmd ctx (s.dev.nextCmd ctx) (fun c => c.op = 3 && c.addr = addr && c.len = len)
    fun d _ => some (d.dictReadCmd s.fuses addr.toNat len.toNat)))

/-! ### Checks of a write (18 R548, R550, R557) -/

/-- The owner key as it stands in OWNER_KEY_k (20 R601). -/
def Dev.ownerKey (d : Dev) : List Byte := (List.range 4).flatMap fun k => leBytes 8 (d.reg 0xA110 (k + 1))

/-- Step 5 for the entries whose condition involves more than the entry: enrolment, security version, admission. -/
def Dev.conditionOk (d : Dev) (f : Fuses) (ep : Endpoint) (idx sub v : Nat) : Bool :=
  if idx = 0xA110 ∧ sub = 5 then v = 0x454E524F && leNat d.ownerKey ≠ 0 && (edDecode d.ownerKey).isSome
  else if idx = 0xA110 ∧ sub = 8 then decide (secverCount f < v) && decide (v ≤ d.reg 0xA100 5)
  else if 0x1040 ≤ idx ∧ idx ≤ 0x1048 then (d.setReg idx sub v).admitted ep
  else true

/-- The busy conditions (R548 and the owning chapters). -/
def Dev.entryBusy (d : Dev) (idx sub : Nat) : Bool :=
  (d.replaying && idx / 256 ≠ 0x20) ||
  (d.tickRun && ((idx = 0x2000 && (sub = 2 || sub = 0x0B)) || (idx = 0x2020 && sub = 5) || (idx = 0x1010 && sub = 1))) ||
  d.psetBusy idx ||
  (idx = 0xA300 && sub = 2 && d.reg 0xA300 1 = 2) ||
  (idx / 256 = 0x61 && sub = 8 && d.forcePending (idx % 256)) ||
  (idx = 0xA110 && sub = 5 && d.boot.ownerProgramming.isSome) ||
  (idx = 0xA110 && sub = 8 && d.boot.secverProgramming.isSome) ||
  (idx = 0xA120 && sub = 5 && d.boot.attestAt.isSome) ||
  (idx = 0xA000 && sub = 1 && decide (64 ≤ d.nickel.shortQ.length)) ||
  (idx = 0xA000 && sub = 2 && decide (64 ≤ d.nickel.longQ.length + bit d.nickel.yielded.isSome))

/-- The entry accepts no further write (20 R602, R603). -/
def entryLocked (f : Fuses) (idx sub : Nat) : Bool :=
  (idx = 0xA110 && sub = 5 && f.ownerKeyHash ≠ 0) || (idx = 0xA110 && sub = 8 && secverCount f = 63)

/-- The abort code of a write, zero where it is accepted. At a count of 63 every write of SECVER_RAISE is LOCKED, whatever its
value (20 R603). -/
def Dev.writeAbort (d : Dev) (f : Fuses) (ep : Endpoint) (addr len v : Nat) : Nat :=
  let idx := addr / 256
  let sub := addr % 256
  match entryAbort (len ≠ 8) addr with
  | 0 =>
    if (dictRow idx sub).any (fun r => r.right = .ro) then abReadOnly
    else if idx = 0xA110 ∧ sub = 8 ∧ entryLocked f idx sub then abLocked
    else if !(d.valueOk idx sub v && d.conditionOk f ep idx sub v) then abInvalid
    else if d.entryBusy idx sub then abBusy
    else if entryLocked f idx sub then abLocked else 0
  | code => code

/-! ### The write command (18 R543, R544, R546) -/

/-- A rw entry takes its value, with what follows at once. -/
def Dev.writeRw (d : Dev) (idx sub v : Nat) : Dev :=
  let full := d.logState = 2
  let old := d.reg idx sub
  let d := d.applyEntry (idx * 256 + sub) v true
  let d := if idx = 0x2050 ∧ sub = 4 ∧ full ∧ old ≠ v then d.modTick fun t => { t with logResume := true } else d
  if idx = 0x2020 ∧ sub = 2 ∧ v = 0 then
    (d.setReg 0x2020 3 0).modTick fun t => { t with slew := 0, lockSeconds := 0 }
  else d

/-- An accepted write takes effect, or becomes pending. None: TICK_RUN is 0 and frame work runs, so it waits (18 R546). -/
def Dev.writeEntry (d : Dev) (idx sub v : Nat) : Option Dev :=
  match (dictRow idx sub).map DictRow.right with
  | some .rwt =>
    if d.tickRun then some (d.setPending idx sub v)
    else if d.frameDone then some (d.setPending idx sub v).applyNow else none
  | some .wo => some (d.setPending idx sub v)
  | _ => some (d.writeRw idx sub v)

/-- Entries whose writes have rows of their own. -/
def ownRow (idx sub v : Nat) : Bool :=
  match idx, sub with
  | 0x2000, 1 => v ≤ 1
  | 0x2020, 5 => true
  | 0x2070, 1 => true
  | 0x5800, 0x0A => true
  | 0x6000, 8 => true
  | 0x8000, 1 => true
  | 0xA000, 1 => true
  | 0xA000, 2 => true
  | 0xA110, 5 => true
  | 0xA110, 8 => true
  | 0xA120, 5 => true
  | 0xA300, 2 => true
  | _, _ =>
    (idx = 0x1040 && sub = 1) || (0x1041 ≤ idx && idx ≤ 0x1048 && 1 ≤ sub && sub ≤ 5) ||
      (0x3100 ≤ idx && idx ≤ 0x31FF && sub = 7) ||
      (0x5100 ≤ idx && idx ≤ 0x510F && sub = 2 && (v = 1 || v = 2)) || (0x6101 ≤ idx && idx ≤ 0x6119 && sub = 8)

/-- Carry out a write command: checked, and then `act` answers its effect, or none where it waits. The write of a request that
replay made has its effect through its own log record (15 R481). -/
def Dev.writeCmd (d : Dev) (f : Fuses) (r : Request) (addr len v : Nat) (act : Dev → Option Dev) : Option (Dev × CmdOut) :=
  if r.replayed then some (d, ⟨stOk, 0, []⟩)
  else
    match d.writeAbort f r.ep addr len v with
    | 0 => (act d).map fun d => (d.bump 0x1020 2 1, ⟨stOk, 0, []⟩)
    | code => some (d.refusedAccess addr code)

def execDictWrite (ctx : Nat) (addr : BitVec 48) (len value : BitVec 64) (s : State) : Host.Outcome State Fault Refusal :=
  let idx := addr.toNat / 256
  let sub := addr.toNat % 256
  .next (s.withDev (s.dev.runCmd ctx (s.dev.nextCmd ctx)
    (fun c => c.op = 4 && c.addr = addr && c.len = len && beNat (c.data.take 8) = value.toNat &&
      !(len = 8 && ownRow idx sub value.toNat))
    fun d r => d.writeCmd s.fuses r addr.toNat len.toNat value.toNat fun d => d.writeEntry idx sub value.toNat))

/-- A write to an entry with a row of its own. -/
def State.runWrite (s : State) (ctx idx sub : Nat) (v : Nat) (act : Dev → Option Dev) : State :=
  s.withDev (s.dev.runCmd ctx (s.dev.nextCmd ctx)
    (fun c => c.op = 4 && c.addr.toNat = idx * 256 + sub && c.len = 8 && beNat c.data = v)
    fun d r => d.writeCmd s.fuses r (idx * 256 + sub) 8 v act)

/-! ### Parameter sets (02 R41-R45) -/

/-- The values that a commit would use now. -/
def Dev.committed (d : Dev) (s : Nat) : PSetVals :=
  { scheme := BitVec.ofNat 8 (d.shown (0x5100 + s) 5), logNMax := BitVec.ofNat 8 (d.shown (0x5100 + s) 6),
    chain := BitVec.ofNat 8 (d.shown (0x5100 + s) 7), special := BitVec.ofNat 8 (d.shown (0x5100 + s) 8),
    dnum := BitVec.ofNat 8 (d.shown (0x5100 + s) 9), plainMod := BitVec.ofNat 64 (d.shown (0x5100 + s) 0x0A),
    moduli := (List.range 64).map fun j => BitVec.ofNat 64 (d.shown (0x5200 + s) (j + 1)) }

/-- A commit is pending, and derivation starts. -/
def Dev.commitSet (d : Dev) (s : Nat) : Dev :=
  (d.setPset s { d.pset s with waiting := some (.commit (d.committed s) none) }).logDict (0x5100 + s) 2 1

def execPsetCommit (ctx pset : Nat) (s : State) : Host.Outcome State Fault Refusal :=
  .next (s.runWrite ctx (0x5100 + pset) 2 1 fun d => some (d.commitSet pset))

/-- A withdrawal is pending; while TICK_RUN is 0 it waits for frame work and takes effect (18 R546). -/
def Dev.withdrawSet (d : Dev) (s : Nat) : Dev :=
  (d.setPset s { d.pset s with waiting := some .withdraw }).logDict (0x5100 + s) 2 2

def execPsetWithdraw (ctx pset : Nat) (s : State) : Host.Outcome State Fault Refusal :=
  .next (s.runWrite ctx (0x5100 + pset) 2 2 fun d =>
    if d.tickRun then some (d.withdrawSet pset)
    else if d.frameDone then some ((d.withdrawSet pset).applyPset pset) else none)

/-- DERIVATION_DONE: the checks of R48 have their outcome; it waits for a boundary, or for frame work while TICK_RUN is 0. -/
def Dev.derivationDone (d : Dev) (s : Nat) : Dev :=
  match (d.pset s).waiting with
  | some (.commit vals none) =>
    let out := (vals.fault.map fun f => (BitVec.ofNat 8 f.1, BitVec.ofNat 8 f.2)).getD (0, 0xFF)
    let d := d.setPset s { d.pset s with waiting := some (.commit vals (some out)) }
    if d.immediate then d.applyPset s else d
  | _ => d

def execDerivationDone (pset : Nat) (s : State) : Host.Outcome State Fault Refusal := s.onDev fun d => d.derivationDone pset

/-! ### Scratchpad ownership (10 R326) -/

/-- A host change of ownership is queued. -/
def Dev.queueOwner (d : Dev) (c v : Nat) : Dev :=
  (d.modCluster c fun x => { x with ownQueue := x.ownQueue ++ [(BitVec.ofNat 32 v, BitVec.ofNat 8 (bitsAt v 32 5))] }).logDict
    (0x3100 + c) 7 v

def execSpOwnSet (ctx cluster : Nat) (value : BitVec 64) (s : State) : Host.Outcome State Fault Refusal :=
  .next (s.runWrite ctx (0x3100 + cluster) 7 value.toNat fun d =>
    if d.tickRun then some (d.queueOwner cluster value.toNat)
    else if d.frameDone then some ((d.queueOwner cluster value.toNat).applyOwners cluster true).payWrites else none)

/-! ### The library extension (09 R299, 20 R594) -/

def execLibExtLoad (ctx : Nat) (addr : BitVec 64) (s : State) : Host.Outcome State Fault Refusal :=
  if addr = 0 then .next s
  else
    .next (s.runWrite ctx 0xA300 2 addr.toNat fun d =>
      some (((d.setReg 0xA300 1 2).modLib fun x => { x with loading := some (addr.toNat, s.fuses.ownerKeyHash) }).logDict
        0xA300 2 addr.toNat))

/-- Removal takes effect at the next boundary, at once while TICK_RUN is 0. -/
def Dev.removeExt (d : Dev) : Dev :=
  let d := ((d.setReg 0xA300 1 2).modLib fun x => { x with waiting := some none }).logDict 0xA300 2 0
  if d.tickRun then d else d.takeExt

def execLibExtRemove (ctx : Nat) (s : State) : Host.Outcome State Fault Refusal :=
  .next (s.runWrite ctx 0xA300 2 0 fun d => some d.removeExt)

/-! ### Share sessions (07 R200) -/

/-- The live session bound to a tag closes. -/
def Dev.closeTag (d : Dev) (tag : Nat) : Dev :=
  let d := d.logDict 0x5800 0x0A tag
  match d.sterling.sessions.find? fun p => p.2.live && p.2.tag.toNat = tag with
  | some p => d.closeSession p.1 false 0x20
  | none => d

def execShareCloseTag (ctx : Nat) (tag : BitVec 64) (s : State) : Host.Outcome State Fault Refusal :=
  .next (s.runWrite ctx 0x5800 0x0A tag.toNat fun d => some (d.closeTag tag.toNat))

/-! ### Counter, loss of a device, errors, forced faults -/

def execCounterSet (ctx : Nat) (value : BitVec 64) (s : State) : Host.Outcome State Fault Refusal :=
  .next (s.runWrite ctx 0x2020 5 value.toNat fun d =>
    some (((d.setReg 0x2020 1 value.toNat).modTick fun t => { t with slew := 0 }).logDict 0x2020 5 value.toNat))

/-- A word without one of its bits. -/
def clearBit (w b : Nat) : Nat := if w.testBit b then w - 2 ^ b else w

/-- Take a device out of the live TICK_MEMBERS. -/
def Dev.dropMember (d : Dev) (n : Nat) : Dev := d.setReg 0x2040 (n / 64 + 1) (clearBit (d.reg 0x2040 (n / 64 + 1)) (n % 64))

/-- LOSS_CMD (16 R495, R496): on the master the membership bit goes at once, also from a pending value; on every survivor
the loss waits for its frame. -/
def Dev.loseDevice (d : Dev) (v : Nat) : Dev :=
  let n := bitsAt v 0 10
  let key := 0x204000 + n / 64 + 1
  let d := d.modTick fun t => { t with losses := t.losses ++ [(n, BitVec.ofNat 64 (bitsAt v 16 48))] }
  if d.isMaster then
    let d := (d.dropMember n).modTick fun t => { t with readyFrom := t.readyFrom.filter fun p => p.1 ≠ n }
    { d with shadow := d.shadow.map fun p =>
        if p.1 = key then (p.1, BitVec.ofNat 64 (clearBit p.2.toNat (n % 64))) else p }
  else d

def execLossCmd (ctx : Nat) (value : BitVec 64) (s : State) : Host.Outcome State Fault Refusal :=
  .next (s.runWrite ctx 0x2070 1 value.toNat fun d => some (d.loseDevice value.toNat))

def execErrClear (ctx : Nat) (value : BitVec 64) (s : State) : Host.Outcome State Fault Refusal :=
  .next (s.runWrite ctx 0x6000 8 value.toNat fun d => some ((d.setReg 0x6000 7 0).logDict 0x6000 8 value.toNat))

def execForce (ctx source : Nat) (value : BitVec 64) (s : State) : Host.Outcome State Fault Refusal :=
  .next (s.runWrite ctx (0x6100 + source) 8 value.toNat fun d => some (d.forceFault source value.toNat))

/-! ### Owner key and security version (20 R601-R603) -/

def execOwnerEnrol (ctx : Nat) (value : BitVec 64) (s : State) : Host.Outcome State Fault Refusal :=
  .next (s.runWrite ctx 0xA110 5 value.toNat fun d =>
    some ((d.modBoot fun b => { b with ownerProgramming := some ((sha512 d.ownerKey).take 32) }).logDict 0xA110 5 value.toNat))

/-- OWNER_PROGRAM_DONE: the hash is in the fuses. -/
def execOwnerProgramDone (s : State) : Host.Outcome State Fault Refusal :=
  match s.dev.boot.ownerProgramming with
  | none => .next s
  | some h =>
    .next { s with
      fuses := { s.fuses with ownerKeyHash := s.fuses.ownerKeyHash ||| BitVec.ofNat 256 (leNat h) },
      dev := s.dev.modBoot fun b => { b with ownerProgramming := none } }

def execSecverRaise (ctx : Nat) (value : BitVec 64) (s : State) : Host.Outcome State Fault Refusal :=
  .next (s.runWrite ctx 0xA110 8 value.toNat fun d =>
    some ((d.modBoot fun b => { b with secverProgramming := some value.toNat }).logDict 0xA110 8 value.toNat))

/-- SECVER_PROGRAM_DONE: as many bits are programmed as the value says. -/
def execSecverProgramDone (s : State) : Host.Outcome State Fault Refusal :=
  match s.dev.boot.secverProgramming with
  | none => .next s
  | some v =>
    .next { s with fuses := { s.fuses with secver := raiseBits s.fuses.secver v },
                   dev := s.dev.modBoot fun b => { b with secverProgramming := none } }

/-! ### Attestation (20 R600) -/

/-- The report data is read, once the banks it lies in admit it, and signing waits as a sealed job. -/
def Dev.attestRequest (d : Dev) (a : Nat) : Dev :=
  let (d, data, _) := d.hostRead a 64
  ((d.modBoot fun b => { b with attestAt := some a, attestData := data, attestReport := [] }).modNickel fun x =>
    { x with sealedWork := x.sealedWork ++ [.hostReport] }).logDict 0xA120 5 a

def execAttestRequest (ctx : Nat) (addr : BitVec 64) (s : State) : Host.Outcome State Fault Refusal :=
  .next (s.runWrite ctx 0xA120 5 addr.toNat fun d =>
    if d.hostWaits addr.toNat 64 then none else some (d.attestRequest addr.toNat))

/-! ### Port mode (17 R505, R506) -/

/-- A write retrains the link; PORT_STATE reads down while it trains. -/
def Dev.retrain (d : Dev) (v : Nat) : Dev := ((d.applyEntry 0x800001 v true).linkLost).setReg 0x8000 2 0

def execPortMode (ctx : Nat) (value : BitVec 64) (s : State) : Host.Outcome State Fault Refusal :=
  .next (s.runWrite ctx 0x8000 1 value.toNat fun d => some (d.retrain value.toNat))

/-! ### Admission (18 R555-R557) -/

def execReqAdmit (ctx : Nat) (addr : BitVec 48) (value : BitVec 64) (s : State) : Host.Outcome State Fault Refusal :=
  let idx := addr.toNat / 256
  let sub := addr.toNat % 256
  if 0x1040 ≤ idx ∧ idx ≤ 0x1048 ∧ ownRow idx sub value.toNat then
    .next (s.runWrite ctx idx sub value.toNat fun d => some (d.applyEntry (idx * 256 + sub) value.toNat true))
  else .next s

/-! ### Nickel submission (19 R577, R583) -/

def execNickelSubmitShort (ctx : Nat) (addr : BitVec 64) (s : State) : Host.Outcome State Fault Refusal :=
  .next (s.runWrite ctx 0xA000 1 addr.toNat fun d =>
    some ((d.modNickel fun x => { x with shortQ := x.shortQ ++ [(addr.toNat, false)] }).logDict 0xA000 1 addr.toNat))

def execNickelSubmitLong (ctx : Nat) (addr : BitVec 64) (s : State) : Host.Outcome State Fault Refusal :=
  .next (s.runWrite ctx 0xA000 2 addr.toNat fun d =>
    some ((d.modNickel fun x => { x with longQ := x.longQ ++ [(addr.toNat, false)] }).logDict 0xA000 2 addr.toNat))

end Sys2Proof.Machine
end

