-- ==== Sys2Proof/Machine/Boundary.lean ====
section
/-! DEFINITION. What an edge does: the parts common to edges of every kind, the completion of a frame, and the boundary
sequence of an ENTER edge (15 R450-R454, R478, R481, 16 R498, R502, 17 R529, 22 R632-R642). -/

namespace Sys2Proof.Machine

/-! ### Every edge (15 R450) -/

/-- WITHHELD and POWER_ESTIMATED take the figures of the tick that ends (22 R657; log entry 47). -/
def Dev.rollPower (d : Dev) : Dev :=
  let d := (List.range requesters).foldl (fun (d : Dev) i =>
    let w := min (tget d.power.withheldNow i 0) (2 ^ 32 - 1)
    if d.reg (0x7100 + i) 3 = w then d else d.setReg (0x7100 + i) 3 w) d
  let d := if d.power.tickElapsed = 0 then d
    else d.setReg 0x7000 7 (min (d.power.tickEnergy / d.power.tickElapsed) 65535)
  d.modPower fun x => { x with withheldNow := [], tickEnergy := 0, tickElapsed := 0 }

/-- TICK_NUMBER advances, and what is kept for one tick starts anew (15 R450, 21 R612, 22 R639). -/
def Dev.edge (d : Dev) : Dev :=
  let d := if d.power.hot then d.bump 0x7400 7 1 else d
  let d := (d.setReg 0x2000 0x09 (d.tickNumber + 1)).rollPower
  ((d.modPower fun x => { x with hot := false, warm := false, hottest := none }).modFaults fun x =>
    { x with corrRecorded := [] }).modTick fun t => { t with accepted := none }

/-! ### Thermal limit and stretch (22 R639, R640, R642) -/

/-- POWER_THERM_LIMIT after a tick that was hot, cool or neither. -/
def thermLimit (limit now step : Nat) (hot warm : Bool) : Nat :=
  if hot then max 1200 (min now limit - step) else if warm then now else min 3400 (now + step)

/-- Set POWER_THERM_LIMIT after the tick that `was` describes; a fault is raised when it falls below POWER_LIMIT. -/
def Dev.thermBoundary (d : Dev) (was : Power) : Dev :=
  let limit := d.reg 0x7000 1
  let old := d.reg 0x7000 2
  let new := thermLimit limit old (d.reg 0x7400 6) was.hot was.warm
  let d := d.setReg 0x7000 2 new
  if new < limit ∧ limit ≤ old then d.faultUc 0x15 ((was.hottest.map (·.1)).getD 0) 0 0 0 0 else d

/-- The stretch of R642. -/
def stretchOf (period floor limit therm : Nat) : Nat :=
  min period (max floor (if therm < limit then ceilDiv (period * (limit - therm)) therm else 0))

/-- The tick master stretches the coming edges. -/
def Dev.stretch (d : Dev) : Dev :=
  if !d.isMaster then d
  else
    let s := stretchOf (d.reg 0x2000 4) (d.reg 0x7000 8) (d.reg 0x7000 1) (d.reg 0x7000 2)
    (d.setReg 0x7000 9 s).setReg 0x7000 0x0A (d.reg 0x7000 0x0A + s)

/-! ### Completion of a frame (17 R529) -/

/-- A share exchange whose frame ends before all its parts have been issued fails, and sends nothing (07 R221). -/
def Dev.failUnsent (d : Dev) : Dev :=
  d.exchanges.foldl (fun (d : Dev) p =>
    if p.2.state = .sending then d.failExchange p.1 false 0 else d) d

def Dev.compRecord (d : Dev) (f : FrameRun) : List Byte :=
  mkRecord 64 [(0, 64, f.number.toNat), (64, 64, f.tick.toNat), (128, 8, if f.overrun then stOverrun.toNat else 0),
    (136, 1, bit f.esSat), (137, 1, bit f.poison), (138, 1, bit f.satSkip), (144, 16, f.coresStopped),
    (160, 32, f.poisonWrites), (192, 32, f.refusals), (224, 32, f.faultsUc), (256, 64, d.clock - f.barrierAt),
    (320, 64, d.counter)]

/-- Send a record to the event endpoint, if there is one. -/
def Dev.sendEvent (d : Dev) (record : List Byte) : Dev :=
  match d.peerEndpoint 0x8800 with
  | some e => d.sendMsg e .event 5 1 1 0xFFFF record
  | none => d

/-- The record goes into the completion ring. A write that the stacks refuse is counted as lost and noted nowhere (13 R410); one
that a bank makes wait is made later. -/
def Dev.writeCompletion (d : Dev) (f : FrameRun) (record : List Byte) : Dev :=
  let count := d.reg 0x8010 4
  let at_ := d.reg 0x8010 3 + f.number.toNat % count * 64
  if count = 0 then d
  else match d.problemIn .host .write at_ 64 with
    | some (.stack _ _) => d.bump 0x8010 9 1
    | some .wait => d.hostWrite at_ record
    | some _ => (d.hostWrite at_ record).bump 0x8010 9 1
    | none => d.store none at_ record

/-- FRAME_COMPLETE: the first three conditions of R458 hold, and every fault of the frame is classified. A pending value
that waits for frame work while TICK_RUN is 0 then takes effect (18 R547). -/
def Dev.completeFrame (d : Dev) : Dev :=
  match d.tick.frame with
  | none => d
  | some f =>
    if f.complete ∨ !d.frameDone ∨ d.faults.raised ≠ [] then d
    else
      let record := d.compRecord f
      let d := (((d.writeCompletion f record).sendEvent record).modFrame fun x => { x with complete := true }).failUnsent
      if d.tickRun then d else d.applyNow

def execFrameComplete (s : State) : Host.Outcome State Fault Refusal := s.onDev Dev.completeFrame

/-! ### Losses (16 R498, R502) -/

/-- A loss takes effect. In replay TICK_MEMBERS stays. -/
def Dev.applyLoss (d : Dev) (n frame : Nat) (replayed : Bool) : Dev :=
  let d := if replayed then d else d.dropMember n
  let d := ((d.setReg 0x2070 4 (d.reg 0x2070 4 - 1)).bump 0x2070 3 1).setReg 0x2070 2 n
  (d.modTick fun t => { t with lost := (n :: t.lost).eraseDups }).logAppend 0x04 n frame
    (mkRecord 64 [(0, 16, n), (16, 16, d.reg 0x2070 4)])

/-- The losses held for a frame take effect, in the order in which they were written. -/
def Dev.applyLosses (d : Dev) (frame : Nat) : Dev :=
  let mine := d.tick.losses.filter fun l => l.2.toNat = frame
  mine.foldl (fun (d : Dev) l => d.applyLoss l.1 frame false)
    (d.modTick fun t => { t with losses := t.losses.filter fun l => l.2.toNat ≠ frame })

/-! ### Replay (15 R481, 21 R622) -/

/-- TICK_RUN becomes 0: waiting requests are assigned, pending values take effect once frame work is done, and a master
goes on with HOLD symbols (15 R465, 17 R521, 18 R547, 22 R635). -/
def Dev.stopTick (d : Dev) : Dev :=
  if !d.tickRun then d
  else
    let master := d.isMaster
    let d := (d.setReg 0x2000 1 0).setReg 0x2000 3 0
    let d := d.modTick fun t => { t with
      holdOnly := t.holdOnly || master, next := none, readySent := false, chosen := none, missing := [],
      starved := false, accepted := none }
    let d := (d.modPower fun x => { x with grants := [] }).assignWaiting.takeExt
    if d.frameDone then d.applyNow else d

/-- A logged dictionary write takes effect again (log entry 48). -/
def Dev.replayWrite (d : Dev) (s : Fuses) (idx sub v : Nat) : Dev :=
  match idx, sub with
  | 0x2000, 1 => if v = 0 then d.stopTick else d
  | 0x2020, 5 => (d.setReg 0x2020 1 v).modTick fun t => { t with slew := 0 }
  | 0x5800, 0x0A => d.closeTag v
  | 0x6000, 8 => d.setReg 0x6000 7 0
  | 0x8000, 1 => d.retrain v
  | 0xA000, 1 => d.modNickel fun x => { x with shortQ := x.shortQ ++ [(v, false)] }
  | 0xA000, 2 => d.modNickel fun x => { x with longQ := x.longQ ++ [(v, false)] }
  | 0xA110, 5 => d.modBoot fun b => { b with ownerProgramming := some ((sha512 d.ownerKey).take 32) }
  | 0xA110, 8 => d.modBoot fun b => { b with secverProgramming := some v }
  | 0xA120, 5 => d.attestRequest v
  | 0xA300, 2 =>
    if v = 0 then d.removeExt
    else (d.setReg 0xA300 1 2).modLib fun x => { x with loading := some (v, s.ownerKeyHash) }
  | _, _ =>
    if 0x3100 ≤ idx ∧ idx ≤ 0x31FF ∧ sub = 7 then d.queueOwner (idx - 0x3100) v
    else if 0x5100 ≤ idx ∧ idx ≤ 0x510F ∧ sub = 2 then
      (if v = 1 then d.commitSet (idx - 0x5100) else d.withdrawSet (idx - 0x5100))
    else d.applyEntry (idx * 256 + sub) v false

/-- A logged request is assigned again; nothing answers it. -/
def Dev.replayRequest (d : Dev) (body : List Byte) : Dev :=
  let h := ReqHdr.parse body
  let cmds := parseCmds h.format h.count (body.drop 32)
  let r : Request :=
    { ep := .mac 0, prio := 0, version := 1, msg := 0, reqId := BitVec.ofNat 64 h.id, count := h.count,
      bulk := cmds.any fun c => c.op = 1, complete := true, assigned := false,
      cmds := cmds ++ List.replicate (h.count - cmds.length) HostCmd.missing, done := 0, ran := 0, failIndex := none,
      failStatus := 0, abortCode := 0, execFrame := 0, execTick := 0, reads := [], raw := body, replayed := true }
  let c := d.ctx h.stream
  (d.setCtx h.stream { c with requests := c.requests ++ [r] }).place h.stream r

/-- A logged input takes effect at the boundary of its frame. A share result waits for the frame's SHARE_IN. -/
def Dev.replayRecord (d : Dev) (s : Fuses) (r : List Byte) : Dev :=
  let body := (r.drop 64)
  match logKind r with
  | 1 => d.replayRequest (body.take (ReqHdr.parse body).length)
  | 2 => d.replayWrite s (fld body 0 16) (fld body 16 8) (fld body 64 64)
  | 3 =>
    let d := d.faultEvent (body.take 64)
    if d.reg 0x6000 6 < fld body 320 32 then d.setReg 0x6000 6 (fld body 320 32) else d
  | 4 => d.applyLoss (fld body 0 16) (logFrame r) true
  | _ => d

/-- The inputs that have fired for frames up to the one entered take effect, in log order. -/
def Dev.replayInputs (d : Dev) (s : Fuses) (frame : Nat) : Dev :=
  let due (r : List Byte) : Bool := logKind r ≠ 5 && decide (logFrame r ≤ frame)
  let mine := d.tick.replayInputs.filter due
  let d := mine.foldl (fun (d : Dev) r => d.replayRecord s r)
    (d.modTick fun t => { t with replayInputs := t.replayInputs.filter fun r => !due r })
  if d.reg 0x2060 6 = 1 ∧ d.tick.replayInputs = [] ∧ (d.tick.launches.all fun l => l.input.isNone) then d.setReg 0x2060 6 2
  else d

/-! ### Parts of the boundary sequence (15 R453) -/

/-- Every open Bronze stream closes and every port detaches, which CHAN_DETACH does not count; streams of the last frame that
never opened are dropped, and CHAN_STATE says nothing more of that frame (05 R158, R165). -/
def Dev.closeChannels (d : Dev) : Dev :=
  (List.range 8).foldl (fun (d : Dev) k =>
    let d := if d.channel k = Channel.fresh then d else d.setChannel k .fresh
    if d.reg (0x5400 + k) 1 = 0 then d else d.setReg (0x5400 + k) 1 0) d

/-- The open records of the header wait on their channels. -/
def Dev.queueOpens (d : Dev) (rs : List OpenRec) : Dev :=
  rs.foldl (fun (d : Dev) r =>
    let k := r.channel.toNat
    d.setChannel k { d.channel k with waiting := (d.channel k).waiting ++ [r] }) d

/-- Lists that a frame runs as they stand at its boundary (12 R378, 14 R421). -/
def Dev.latchLists (d : Dev) : Dev :=
  let d := (List.range 256).foldl (fun (d : Dev) c =>
    let x := d.cluster c
    let n := min 256 (d.reg (0x3400 + c) 2)
    let live := x.streams.filter fun s => s.phase ≠ .finished
    if n = 0 ∧ x.veCount = 0 ∧ x.streams = [] then d
    else d.setCluster c { x with veList := d.reg (0x3400 + c) 1, veCount := n, veNext := 0, streams := live }) d
  (List.range 8).foldl (fun (d : Dev) m =>
    let x := d.updUnit m
    d.setUpdUnit m { x with list := d.reg (0x9100 + m) 1, count := min 256 (d.reg (0x9100 + m) 2), next := 0,
                            halted := false }) d

/-- E_NEXT as it reads: a record in which nothing has written it has its reset value, E_CUR (02 R61). -/
def Dev.eNext (d : Dev) (record : Nat) : Byte :=
  let next := d.mem.byte (record + 1)
  if next = 0 then d.mem.byte record else next

/-- E_NEXT is copied into E_CUR in the scale records that commands of the tick have named, and UPD_SAT_LATCH clears (02 R66, 14
R429; log entry 26). -/
def Dev.copyExponents (d : Dev) : Dev :=
  let d := d.tick.esRecords.foldl (fun (d : Dev) r => (List.range r.2).foldl (fun (d : Dev) i =>
    d.wr (r.1 + 4 * i) (List.replicate 2 (d.eNext (r.1 + 4 * i)))) d) d
  (d.modTick fun t => { t with esRecords := [] }).setReg 0x9000 1 0

/-- The record of the frame entered. A frame without a header has a free GEN_TICK (log entry 49). -/
def Dev.openFrame (d : Dev) (frame : Nat) : Dev :=
  let (w, d) := d.drawWord
  let g := (d.tick.next.map (·.genTick)).getD w
  d.modTick fun t => { t with
    frame := some { number := BitVec.ofNat 64 frame, tick := BitVec.ofNat 64 d.tickNumber, genTick := g, barrier := false,
                    barrierAt := 0, complete := false, overrun := false, esSat := false, poison := false, satSkip := false,
                    coresStopped := 0, poisonWrites := 0, refusals := 0, faultsUc := 0 },
    fillList := (t.next.map (·.fills)).getD 0, fillCount := (t.next.map (·.fillCount)).getD 0, fillNext := 0,
    firstFrame := false, readySent := false, readyFrom := t.readyFrom.filter (fun p => frame < p.2), missing := [], starved := false }

/-- The launches of the header are armed (15 R469). -/
def Dev.armLaunches (d : Dev) (ls : List Launch) : Dev :=
  ls.foldl (fun (d : Dev) l => d.arm l.kind.toNat l.at_.toNat l.arg none) d

/-- The log goes on after LOG_TAIL has been advanced (15 R478). -/
def Dev.resumeLog (d : Dev) : Dev :=
  if d.tick.logResume ∧ d.reg 0x2050 5 = 2 then (d.setReg 0x2050 5 1).modTick fun t => { t with logResume := false } else d

/-- Every fault raised in a frame is classified by the boundary that ends it (01 R26), with those that the reactions raise in
turn. `n` bounds their number. -/
def Dev.classifyAll (d : Dev) (n : Nat) : Dev :=
  match n with
  | 0 => d
  | k + 1 => if d.faults.raised = [] ∨ d.faults.resetPending then d else d.classify.classifyAll k

/-- The boundary sequence. Changes that wait for a cluster's frame work are judged by the frame that ends (10 R326, R328,
R331). -/
def Dev.enterEdge (d : Dev) (s : Fuses) : Dev :=
  if d.tick.accepted ≠ some .enter ∨ d.reg 0x2000 3 ≠ 1 then d
  else
    let frame := d.nextFrame
    let was := d.power
    let d := ((d.classifyAll 65536).completeFrame).failUnsent.edge
    let head := d.tick.next
    let d := ((d.setReg 0x2000 0x0A frame).resumeLog).closeChannels
    let d := d.applyShadow { header := (head.map (·.addr)).getD 0,
                             list := (head.map fun h => h.updates.map fun u => (u.1.toNat * 256 + u.2.1.toNat, u.2.2.toNat)).getD [] }
      true
    let d := d.payWrites.openFrame frame
    let d := ((d.latchLists.copyExponents.prefetchBoundary).takeExt).assignWaiting
    let d := (d.thermBoundary was).stretch
    let d := d.modPower fun x => { x with energy := [], withholding := [], elapsed := 0 }
    let d := match head with
      | some h => ((d.applyGrants h.power).queueOpens h.opens).armLaunches h.launches
      | none => d
    let d := (d.modTick fun t => { t with next := none }).applyLosses frame
    d.replayInputs s frame

def execEnterEdge (s : State) : Host.Outcome State Fault Refusal := .next (s.withDev (s.dev.enterEdge s.fuses))

end Sys2Proof.Machine
end

