-- ==== Sys2Proof/Machine/Edges.lean ====
section
/-! DEFINITION. The tick: starting and stopping it, symbols and edges, readiness, and the frame barrier (15 R448-R466,
16 R488, R489, 08 R244, 10 R331), and the end of a trap (21 R615). -/

namespace Sys2Proof.Machine

/-! ### Starting and stopping (15 R452, R462, 18 R547) -/

/-- TICK_RUN becomes 1: a master starts edges, a follower listens, any other combination of role and strap is a conflict. -/
def Dev.startTick (d : Dev) : Dev :=
  if d.tickRun then d
  else
    let state := if d.isMaster then 1 else if d.isFollower then 5 else 4
    let d := ((d.setReg 0x2000 1 1).setReg 0x2000 3 state).setReg 0x7000 0x0A 0
    let d := d.modTick fun t => { t with
      firstFrame := true, adopted := false, next := none, readySent := false, chosen := none, missing := [],
      starved := false, accepted := none }
    d.loadHeader.logDict 0x2000 1 1

def execTickRunStart (ctx : Nat) (s : State) : Host.Outcome State Fault Refusal :=
  .next (s.runWrite ctx 0x2000 1 1 fun d => some d.startTick)

/-- A write of 0 that changes TICK_RUN is logged with what it brings about. -/
def Dev.stopWrite (d : Dev) : Dev := if d.tickRun then (d.logDict 0x2000 1 0).stopTick else d

def execTickRunStop (ctx : Nat) (s : State) : Host.Outcome State Fault Refusal :=
  .next (s.runWrite ctx 0x2000 1 0 fun d => some d.stopWrite)

/-! ### Tick symbols (15 R462-R465) -/

def EdgeKind.code (k : EdgeKind) : Nat :=
  match k with
  | .enter => 1
  | .skip => 2
  | .hold => 3

def edgeKind (code : Nat) : Option EdgeKind :=
  match code with
  | 1 => some .enter
  | 2 => some .skip
  | 3 => some .hold
  | _ => none

/-- CRC of bits [127:40] of a symbol, taken as 11 bytes with the high byte first. -/
def symbolCrc (tick kind : Nat) : Nat := crc32c (beBytes 11 (tick * 2 ^ 24 + kind * 2 ^ 16))

/-- The symbol of an edge. -/
def tickSymbol (tick : Nat) (k : EdgeKind) : BitVec 128 :=
  BitVec.ofNat 128 (tick % 2 ^ 64 * 2 ^ 64 + k.code * 2 ^ 56 + symbolCrc (tick % 2 ^ 64) k.code * 2 ^ 8 + 0x1B)

/-- TICK and kind of a symbol whose SYNC is right; none for the kind where CRC, kind or the zero field is wrong. -/
def readSymbol (w : BitVec 128) : Option (Nat × Option EdgeKind) :=
  let v := w.toNat
  if bitsAt v 0 8 ≠ 0x1B then none
  else
    let tick := bitsAt v 64 64
    let kind := bitsAt v 56 8
    some (tick, if bitsAt v 40 16 = 0 ∧ bitsAt v 8 32 = symbolCrc tick kind then edgeKind kind else none)

/-- EDGE_EMIT: the master finishes sending the symbol of the chosen kind; one whose TICK_RUN was cleared sends HOLD
(15 R465). -/
def Dev.edgeEmit (d : Dev) : Dev :=
  let send (d : Dev) (k : EdgeKind) : Dev :=
    (d.modPins fun x => { x with tickOut := x.tickOut ++ [tickSymbol (d.tickNumber + 1) k] }).modTick fun t =>
      { t with chosen := none }
  if d.tick.holdOnly then send d .hold
  else if d.tickRun ∧ d.reg 0x2000 3 = 1 ∧ d.isMaster then
    match d.tick.chosen with
    | some k => send d k
    | none => d
  else d

def execEdgeEmit (s : State) : Host.Outcome State Fault Refusal := s.onDev Dev.edgeEmit

/-- The device stops entering frames in a state other than running: requests no longer wait for a boundary (17 R521). -/
def Dev.leaveRunning (d : Dev) (state : Nat) (reason : BitVec 8) : Dev :=
  (((d.setReg 0x2000 3 state).modTick fun t => { t with accepted := none }).faultUc 0x0F 0 0 reason 0 0).assignWaiting

/-- A valid symbol is taken: the first after TICK_RUN sets the numbering. -/
def Dev.takeSymbol (d : Dev) (tick : Nat) (k : EdgeKind) : Dev :=
  let d := if d.tick.adopted then d else (d.setReg 0x2000 9 ((tick + 2 ^ 64 - 1) % 2 ^ 64))
  let d := if d.tickRun then d.setReg 0x2000 3 1 else d
  d.modTick fun t => { t with adopted := true, accepted := some k }

/-- The device listens for symbols: it runs, or is a master that sends HOLD. -/
def Dev.listens (d : Dev) : Bool :=
  (d.tickRun && (d.reg 0x2000 3 = 1 || d.reg 0x2000 3 = 5)) || (!d.tickRun && d.tick.holdOnly)

/-- TICK_SYMBOL. A repeating follower sends the symbol on. One that arrives while another has not been acted on yet has no
place in R463 and is not taken. -/
def Dev.symbolIn (d : Dev) (w : BitVec 128) : Dev :=
  let d := if d.isFollower ∧ d.reg 0x2000 8 = 1 then
      d.modPins fun x => { x with tickOut := x.tickOut ++ [w] } else d
  match readSymbol w with
  | none => d
  | some (tick, kind) =>
    if !d.listens ∨ d.tick.accepted ≠ none then d
    else
      let d := d.setReg 0x2000 0x0C d.counter
      let first := d.tickRun && !d.tick.adopted && d.isFollower
      match kind with
      | some k =>
        if first ∨ tick = (d.tickNumber + 1) % 2 ^ 64 then d.takeSymbol tick k
        else if d.tickRun then d.leaveRunning 2 3 else d
      | none => if first ∨ !d.tickRun then d else d.leaveRunning 2 3

def execTickSymbol (symbol : BitVec 128) (s : State) : Host.Outcome State Fault Refusal := s.onDev fun d => d.symbolIn symbol

/-- TICK_LOST. -/
def Dev.tickLost (d : Dev) : Dev :=
  if d.tickRun ∧ d.isFollower ∧ (d.reg 0x2000 3 = 1 ∨ d.reg 0x2000 3 = 5) then d.leaveRunning 3 4 else d

def execTickLost (s : State) : Host.Outcome State Fault Refusal := s.onDev Dev.tickLost

/-! ### Readiness (15 R458-R461, 16 R487-R489, 21 R613) -/

/-- The device may send READY for the next frame. -/
def Dev.ready (d : Dev) : Bool :=
  d.frameDone && d.tick.next.isSome && d.injected d.nextFrame && d.tick.ckpts = [] && d.faults.raised = []

/-- DEVICE_READY: READY goes to the tick master, which takes its own internally. -/
def Dev.deviceReady (d : Dev) : Dev :=
  let state := d.reg 0x2000 3
  if !d.tickRun ∨ !(state = 1 ∨ state = 5) ∨ d.tick.readySent ∨ !d.ready then d
  else
    let d := d.modTick fun t => { t with readySent := true }
    if d.isMaster then d else d.sendPeer (d.reg 0x8010 1) .control 1 (leBytes 8 d.nextFrame)

def execDeviceReady (s : State) : Host.Outcome State Fault Refusal := s.onDev Dev.deviceReady

/-- Devices whose READY the master lacks: members, and the master itself (log entry 50). -/
def Dev.missingReady (d : Dev) : List Nat :=
  (List.range 1024).filter fun n =>
    if n = d.systemDevice then !d.tick.readySent else d.isMember n && !d.tick.readyFrom.contains (n, d.nextFrame)

/-- A frame still running at the deadline has overrun, once. -/
def Dev.overrun (d : Dev) : Dev :=
  match d.tick.frame with
  | some f =>
    if d.frameDone ∨ f.overrun then d
    else ((d.bump 0x2000 0x0D 1).faultUc 0x0F 0 0 2 0 0).modFrame fun x => { x with overrun := true }
  | none => d

/-- The deadline of an edge of a running device. -/
def Dev.runningDeadline (d : Dev) : Dev :=
  let late := d.tick.holdLeft = 0 && (d.tick.ckpts.any fun c => c.sending)
  let starved := d.frameDone && d.tick.next.isNone && d.tick.ckpts = [] && d.injected d.nextFrame && d.faults.raised = []
  let d := d.overrun
  let d := if late then
      (match d.tick.ckpts.find? fun c => c.sending with
       | some c => d.faultUc 0x10 (fld (d.rd (c.descs.headD 0) 64) 64 10) (c.descs.headD 0) 3 0 0
       | none => d) else d
  let missing := d.missingReady
  let hold := d.tick.holdLeft ≠ 0
  let kind : EdgeKind := if hold then .hold else if missing = [] then .enter else .skip
  d.modTick fun t => { t with
    chosen := if d.isMaster then some kind else none, missing := missing, starved := starved, holdLeft := t.holdLeft - 1 }

/-- READINESS_DEADLINE. -/
def Dev.deadline (d : Dev) : Dev := if d.tickRun ∧ d.reg 0x2000 3 = 1 then d.runningDeadline else d

def execReadinessDeadline (s : State) : Host.Outcome State Fault Refusal := s.onDev Dev.deadline

/-! ### SKIP and HOLD edges (15 R451, R456, R460, R461, R477) -/

/-- The tick master records a SKIP, unless only its own header was absent (21 R605, R607; log entry 51). -/
def Dev.skipFault (d : Dev) : Dev :=
  let missing := d.tick.missing
  if !d.isMaster ∨ (missing = [d.systemDevice] ∧ d.tick.starved) then d
  else d.faultUc 0x0F 0 0 7 0 (missing.headD 0 + missing.length * 2 ^ 16)

def Dev.skipEdge (d : Dev) : Dev :=
  if d.tick.accepted ≠ some .skip then d
  else
    let d := (d.edge.bump 0x2000 0x0E 1)
    let d := if d.tick.starved then d.bump 0x2000 0x0F 1 else d
    let (w, d) := d.skipFault.drawWord
    ((d.logAppend 0x07 w.toNat d.frameNumber []).modTick fun t => { t with starved := false, missing := [] }).loaderEdge

def execSkipEdge (s : State) : Host.Outcome State Fault Refusal := s.onDev Dev.skipEdge

def Dev.holdEdge (d : Dev) : Dev :=
  if d.tick.accepted ≠ some .hold then d
  else (d.edge.modTick fun t => { t with starved := false, missing := [] }).loaderEdge

def execHoldEdge (s : State) : Host.Outcome State Fault Refusal := s.onDev Dev.holdEdge

/-! ### The barrier, waking banks and handovers (08 R244, 10 R324, R331) -/

/-- FRAME_BARRIER: it reaches every core; the loader turns to the next frame's header (08 R244, 15 R453, R455). -/
def Dev.barrier (d : Dev) : Dev :=
  match d.tick.frame with
  | none => d
  | some f =>
    if f.barrier then d
    else
      let d := d.modFrame fun x => { x with barrier := true, barrierAt := d.clock }
      ((List.range 4096).foldl (fun (d : Dev) n => d.coreBarrier n) d).afterBarrier.loadHeader

def execFrameBarrier (s : State) : Host.Outcome State Fault Refusal := s.onDev Dev.barrier

/-- TRAP_HANDLER_EXIT: commands run again, and a header whose turn came meanwhile is read (21 R615). -/
def Dev.trapExit (d : Dev) : Dev :=
  let held := d.tick.loadHeld
  let d := (d.modFaults fun x => { x with trap := false }).modTick fun t => { t with loadHeld := false }
  if held then d.loadHeader else d

def execTrapHandlerExit (s : State) : Host.Outcome State Fault Refusal := s.onDev Dev.trapExit

/-- Those who wait for a bank of a cluster go on: its cores, calls, owed records and writes (10 R324, R332). -/
def Dev.wake (d : Dev) (c : Nat) : Dev :=
  let d := (d.pumpCluster c).tryCalls
  let d := if d.faults.holds (.cluster c) then d else (d.payStreams c).payJobs c
  ((List.range 8).foldl (fun (d : Dev) m => d.payUpdates m) d).payWrites

/-- BANK_WAKE: the bank is on. -/
def Dev.bankWake (d : Dev) (c b : Nat) : Dev :=
  if d.bankPower c b = .waking then (d.modCluster c fun x => { x with power := tset x.power b .on }).wake c else d

def execBankWake (cluster bank : Nat) (s : State) : Host.Outcome State Fault Refusal := s.onDev fun d => d.bankWake cluster bank

/-- HANDOVER_COMPLETE: no running call or job holds a named bank, so the owner changes and those who waited go on (10 R322,
R324). -/
def Dev.handoverDone (d : Dev) (cluster writer : Nat) : Dev :=
  let x := d.cluster cluster
  match x.handovers.find? fun h => h.writer = writer with
  | none => d
  | some h =>
    let holds := ((x.call.map (·.held)).getD []) ++ (x.veRun.map (·.held)).getD []
    if holds.any fun b => b.1 = cluster && h.banks.getLsbD b.2 then d
    else
      (d.setCluster cluster { x with
        owners := (List.range 32).foldl (fun t b => if h.banks.getLsbD b then tset t b h.owner else t) x.owners,
        handovers := x.handovers.filter fun k => k.writer ≠ writer }).wake cluster

def execHandoverComplete (cluster writer : Nat) (s : State) : Host.Outcome State Fault Refusal :=
  s.onDev fun d => d.handoverDone cluster writer

end Sys2Proof.Machine
end

