-- ==== Sys2Proof/Machine/Operands.lean ====
section
/-! DEFINITION. Operand forms of the execute stream: vectors in registers and queues, the order in which sources are taken,
and the issue of a lane instruction (08 R257-R260, R269-R271, R283). -/

namespace Sys2Proof.Machine

/-- Bytes of a vector: clear or residue (08 R260). -/
def vecBytes (clear : Bool) : Nat := if clear then 256 else 288

/-- The 32-bit words of a clear vector. -/
def clearWords (k : Nat) (bs : List Byte) : List Nat :=
  match k with
  | 0 => []
  | j + 1 => leNat (bs.take 4) :: clearWords j (bs.drop 4)

/-- The 64 lane words of a vector's bytes (02 R29, 08 R260). -/
def vecOf (clear : Bool) (bs : List Byte) : List Nat := if clear then clearWords 64 bs else unpackPairs 32 bs

/-- The bytes of a vector of 64 lane words. -/
def vecPacked (clear : Bool) (ws : List Nat) : List Byte := if clear then ws.flatMap (leBytes 4) else packWords ws

/-- Register v_r of a slice: 64 lane words. -/
def Core.vreg (c : Core) (slice r : Nat) : List Nat :=
  let v := tget c.vregs (8 * slice + r) []
  (List.range 64).map fun i => (v.getD i 0).toNat

def Core.setVreg (c : Core) (slice r : Nat) (ws : List Nat) : Core :=
  { c with vregs := tset c.vregs (8 * slice + r) (ws.map (BitVec.ofNat 36)) }

/-- A source field: its code, the size of its vectors, and how many of them one issue takes. -/
structure Source where
  code : BitVec 4
  clear : Bool
  count : Nat

/-- Bytes popped from each queue so far, and bytes that must be present in each. -/
structure Taken where
  popped : Tbl Nat
  need : Tbl Nat

/-- Take one source of one slice: its vectors. A register holds one vector; what further vectors of it would be no rule
says, and they are free values numbered from `draw` (08 R269, R274; log entry 21). -/
def Core.takeSource (c : Core) (slice : Nat) (x : Source) (draw : Nat) (t : Taken) : Taken × List (List Nat) :=
  let k := x.code.toNat
  if 8 ≤ k then
    let v := c.vreg slice (k - 8)
    (t, (if x.clear then v.map (· % 2 ^ 32) else v) :: (List.range (x.count - 1)).map fun j =>
      (List.range 64).map fun i => (Config.freeWord (draw + 64 * j + i)).toNat % (if x.clear then 2 ^ 32 else 2 ^ 36))
  else
    let q := k % 4
    let at_ := tget t.popped q 0
    let n := x.count * vecBytes x.clear
    let bytes := (c.queue q).bytes.drop at_
    ({ popped := if k < 4 then tset t.popped q (at_ + n) else t.popped,
       need := tset t.need q (max (tget t.need q 0) (at_ + n)) },
     (List.range x.count).map fun j => vecOf x.clear (bytes.drop (j * vecBytes x.clear)))

/-- Take the sources of one slice in order. -/
def Core.takeSlice (c : Core) (slice : Nat) (xs : List Source) (draw : Nat) (t : Taken) : Taken × List (List (List Nat)) :=
  xs.zipIdx.foldl (fun p x =>
    let r := c.takeSource slice x.1 (draw + 1024 * (4 * slice + x.2)) p.1
    (r.1, p.2 ++ [r.2])) (t, [])

/-- The slices of a mask. -/
def slicesOf (m : BitVec 2) : List Nat := (if m.getLsbD 0 then [0] else []) ++ (if m.getLsbD 1 then [1] else [])

/-- Take every slice's sources, slice 0 first (08 R260). -/
def Core.gather (c : Core) (slices : List Nat) (xs : List Source) (draw : Nat) : Taken × List (Nat × List (List (List Nat))) :=
  slices.foldl (fun p s =>
    let r := c.takeSlice s xs draw p.1
    (r.1, p.2 ++ [(s, r.2)])) ({ popped := [], need := [] }, [])

/-- What a lane instruction is: its operand fields, whether a field of it is undefined or of the wrong kind, whether it
runs under a modulus, its issue cycles, and its results for one slice, one vector for each destination. -/
structure LaneOp where
  slice : BitVec 2
  sources : List Source
  dests : List (BitVec 4)
  clearOut : Bool
  undefined : Bool
  wrongKind : Bool
  modIdx : Option Nat
  cycles : PSetVals → Nat
  result : PSetVals → Nat → List (List (List Nat)) → List (List Nat)

/-- Values for an instruction that names no modulus. -/
def PSetVals.none_ : PSetVals :=
  { scheme := 0, logNMax := 0, chain := 0, special := 0, dnum := 0, plainMod := 0, moduli := [] }

/-- Claim the queues that an instruction names; none: one of them has another program (08 R259). -/
def Core.claimAll (c : Core) (push : Bool) (p : Program) (qs : List Nat) : Option Core :=
  match qs with
  | [] => some c
  | q :: r => match (c.queue q).claim push p with
    | some x => (c.setQueue q x).claimAll push p r
    | none => none

/-- Take popped bytes out of the queues. -/
def Core.popAll (c : Core) (t : Taken) : Core :=
  t.popped.foldl (fun c p => let x := c.queue p.1; c.setQueue p.1 { x with bytes := x.bytes.drop p.2 }) c

/-- Write a result vector to a destination. -/
def Core.deliver (c : Core) (slice : Nat) (dst : BitVec 4) (clear : Bool) (ws : List Nat) : Core :=
  let k := dst.toNat
  if 8 ≤ k then c.setVreg slice (k - 8) ws
  else let x := c.queue k; c.setQueue k { x with bytes := x.bytes ++ vecPacked clear ws }

/-- The modulus values a lane instruction runs under; none: its index is not below L + K (02 R35, 08 R246). -/
def Dev.laneVals (d : Dev) (c : Core) (m : Option Nat) : Option PSetVals :=
  match m with
  | none => some .none_
  | some j => (d.activeVals c).bind fun v => if j < v.count then some v else none

/-- Issue a lane instruction (08 R269-R271, R283; log entry 21 for the order of its checks). -/
def Dev.lane (d : Dev) (n : Nat) (o : LaneOp) : Dev :=
  d.issue n .execute fun c =>
    let slices := slicesOf o.slice
    let pulls := (o.sources.filter fun x => x.code.toNat < 8).map fun x => x.code.toNat % 4
    let pushes := (o.dests.filter fun x => x.toNat < 4).map (·.toNat)
    if o.slice = 0 ∨ o.undefined ∨ o.dests.any (fun x => 4 ≤ x.toNat && x.toNat < 8) then d.faultHere n .execute 0x01
    else if o.wrongKind then d.faultHere n .execute 0x0D
    else
      let g := c.gather slices o.sources d.draw
      let short := g.1.need.filterMap fun p => if (c.queue p.1).bytes.length < p.2 then some (Wait.data p.1 p.2) else none
      let full := pushes.eraseDups.filterMap fun q =>
        let k := (pushes.filter (· = q)).length * slices.length * vecBytes o.clearOut
        if 4096 < ((c.popAll g.1).queue q).bytes.length + k then some (Wait.room q (k - tget g.1.popped q 0)) else none
      if short ≠ [] ∨ full ≠ [] then d.await n .execute (short ++ full)
      else
        match (c.claimAll false .execute pulls).bind fun c => c.claimAll true .execute pushes with
        | none => d.faultHere n .execute 0x0A
        | some c =>
          match d.laneVals c o.modIdx with
          | none => d.faultHere n .execute 0x02
          | some v =>
            let done := g.2.foldl (fun c s =>
              (o.dests.zip (o.result v s.1 s.2)).foldl (fun c x => c.deliver s.1 x.1 o.clearOut x.2) c) (c.popAll g.1)
            let free := o.sources.any fun x => 8 ≤ x.code.toNat && 1 < x.count
            let d := if free then { d with draw := d.draw + 8192 } else d
            ((d.setCore n { done with busy := done.busy + o.cycles v }).goOn n .execute).pump n

end Sys2Proof.Machine
end

