-- ==== Sys2Proof/Machine/Execute.lean ====
section
/-! DEFINITION. The execute stream: residue operations, butterflies, permutations, clear multiply-accumulate, conversion,
accumulation to memory, and its control instructions (08 R269-R279). -/

namespace Sys2Proof.Machine

/-- A plain source field of one vector. -/
def src (code : BitVec 4) (clear : Bool) : Source := { code := code, clear := clear, count := 1 }

/-- The first vector of source `k`. -/
def vecAt (xs : List (List (List Nat))) (k : Nat) : List Nat := (xs.getD k []).headD []

/-! ### Residue operations (02 R32, R36, 08 R271) -/

/-- A residue operation: a function of modulus, its reduction method, and the words of up to three sources. -/
def residueOp (f : RFields) (sources : List (BitVec 4)) (cycles : PSetVals → Nat)
    (g : Nat → Bool → Nat → Nat → Nat → Nat) : LaneOp :=
  { slice := f.slice, sources := sources.map fun c => src c false, dests := [f.dst], clearOut := false,
    undefined := false, wrongKind := false, modIdx := some f.modIdx.toNat, cycles := cycles,
    result := fun v _ xs =>
      let q := v.q f.modIdx.toNat
      let sp := v.sparse f.modIdx.toNat
      let y := vecAt xs 1
      let z := vecAt xs 2
      [(vecAt xs 0).zipIdx.map fun p => g q sp p.1 (y.getD p.2 0) (z.getD p.2 0)] }

/-- Two cycles for a product of two plain words under a Montgomery modulus, else one (02 R32). -/
def mulCycles (f : RFields) (v : PSetVals) : Nat := if f.mb || v.sparse f.modIdx.toNat then 1 else 2

/-- A product of words, the second plain or in Montgomery form (02 R32). -/
def laneProduct (mb : Bool) (q : Nat) (sparse : Bool) (x y : Nat) : Nat :=
  if mb then resMulMb q sparse x y else resMul q x y

def execMadd (core : Nat) (f : RFields) (s : State) : Host.Outcome State Fault Refusal :=
  s.onDev fun d => d.lane core (residueOp f [f.sa, f.sb] (fun _ => 1) fun q _ x y _ => resAdd q x y)

def execMsub (core : Nat) (f : RFields) (s : State) : Host.Outcome State Fault Refusal :=
  s.onDev fun d => d.lane core (residueOp f [f.sa, f.sb] (fun _ => 1) fun q _ x y _ => resSub q x y)

def execMneg (core : Nat) (f : RFields) (s : State) : Host.Outcome State Fault Refusal :=
  s.onDev fun d => d.lane core (residueOp f [f.sa] (fun _ => 1) fun q _ x _ _ => resNeg q x)

def execMmul (core : Nat) (f : RFields) (s : State) : Host.Outcome State Fault Refusal :=
  s.onDev fun d => d.lane core (residueOp f [f.sa, f.sb] (mulCycles f) fun q sp x y _ => laneProduct f.mb q sp x y)

def execMmac (core : Nat) (f : RFields) (s : State) : Host.Outcome State Fault Refusal :=
  s.onDev fun d => d.lane core (residueOp f [f.sa, f.sb, f.sc] (mulCycles f) fun q sp x y z => resAdd q (laneProduct f.mb q sp x y) z)

def execMtom (core : Nat) (f : RFields) (s : State) : Host.Outcome State Fault Refusal :=
  s.onDev fun d => d.lane core (residueOp f [f.sa] (fun _ => 1) fun q sp x _ _ => resToMont q sp x)

def execMfrom (core : Nat) (f : RFields) (s : State) : Host.Outcome State Fault Refusal :=
  s.onDev fun d => d.lane core (residueOp f [f.sa] (fun _ => 1) fun q sp x _ _ => resFromMont q sp x)

/-! ### Butterflies (04 R109, R110, 08 R272, R273) -/

/-- The twiddle of lane `i` of a slice, plain. -/
def twiddle (v : PSetVals) (f : BFields) (logN iter slice i : Nat) : Nat :=
  let q := v.q f.modIdx.toNat
  let m := 2 ^ (logN + 1)
  let e0 := (f.e0.toNat + iter * 2 ^ f.ls.toNat) % m
  let step := if f.dcode = 0 then 0 else 2 ^ (f.dcode.toNat - 1)
  powMod (psiN q logN) ((e0 + (64 * slice + i) * step) % m) q

/-- One butterfly of either kind. -/
def fly (ct : Bool) (q x y w : Nat) : Nat × Nat :=
  if ct then (resAdd q x (resMul q w y), resSub q x (resMul q w y)) else (resAdd q x y, resMul q (resSub q x y) w)

/-- The words of a butterfly instruction: in pair mode the two results; else one vector in place. -/
def flyAll (ct : Bool) (q hc : Nat) (tw : Nat → Nat) (a b : List Nat) : List (List Nat) :=
  if hc = 6 then
    let r := (List.range 64).map fun i => fly ct q (a.getD i 0) (b.getD i 0) (tw i)
    [r.map (·.1), r.map (·.2)]
  else
    [(List.range 64).map fun i =>
      let lo := if i.testBit hc then i - 2 ^ hc else i
      let r := fly ct q (a.getD lo 0) (a.getD (lo + 2 ^ hc) 0) (tw lo)
      if i.testBit hc then r.2 else r.1]

def butterflyOp (ct : Bool) (c : Core) (f : BFields) : LaneOp :=
  let pair := f.hc = 6
  let iter := if f.lv = 0 then 0 else ((c.exe.loops[f.lv.toNat - 1]?).map (·.iter)).getD 0
  { slice := f.slice, sources := if pair then [src f.sa false, src f.sb false] else [src f.sa false],
    dests := if pair then [f.dst, f.dst2] else [f.dst], clearOut := false,
    undefined := f.hc = 7 || decide (18 < f.dcode.toNat) || decide (17 < f.ls.toNat) ||
      decide (c.exe.loops.length < f.lv.toNat),
    wrongKind := false, modIdx := some f.modIdx.toNat, cycles := fun _ => if pair then 2 else 1,
    result := fun v slice xs => flyAll ct (v.q f.modIdx.toNat) f.hc.toNat (twiddle v f c.logN iter slice) (vecAt xs 0)
      (vecAt xs 1) }

def execBct (core : Nat) (f : BFields) (s : State) : Host.Outcome State Fault Refusal :=
  s.onDev fun d => d.lane core (butterflyOp true (d.core core) f)

def execBgs (core : Nat) (f : BFields) (s : State) : Host.Outcome State Fault Refusal :=
  s.onDev fun d => d.lane core (butterflyOp false (d.core core) f)

/-! ### Permutations, copies (08, permutation patterns) -/

/-- A permutation: lane i takes a word of SA or SB. -/
def permOp (f : RFields) (two undefined : Bool) (pick : Nat → List Nat → List Nat → Nat) : LaneOp :=
  { slice := f.slice, sources := if two then [src f.sa f.w, src f.sb f.w] else [src f.sa f.w], dests := [f.dst],
    clearOut := f.w, undefined := undefined, wrongKind := false, modIdx := none, cycles := fun _ => 1,
    result := fun _ _ xs => [(List.range 64).map fun i => pick i (vecAt xs 0) (vecAt xs 1)] }

def execPermRotate (core : Nat) (f : RFields) (amt : BitVec 6) (s : State) : Host.Outcome State Fault Refusal :=
  s.onDev fun d => d.lane core (permOp f false false fun i a _ => a.getD ((i + amt.toNat) % 64) 0)

def execPermReverse (core : Nat) (f : RFields) (_ : BitVec 6) (s : State) : Host.Outcome State Fault Refusal :=
  s.onDev fun d => d.lane core (permOp f false false fun i a _ => a.getD (63 - i) 0)

def execPermBitReverse (core : Nat) (f : RFields) (_ : BitVec 6) (s : State) : Host.Outcome State Fault Refusal :=
  s.onDev fun d => d.lane core (permOp f false false fun i a _ => a.getD (brv 6 i) 0)

def execPermXor (core : Nat) (f : RFields) (amt : BitVec 6) (s : State) : Host.Outcome State Fault Refusal :=
  s.onDev fun d => d.lane core (permOp f false (decide (5 < amt.toNat)) fun i a _ => a.getD (i ^^^ 2 ^ amt.toNat) 0)

def execPermBroadcast (core : Nat) (f : RFields) (amt : BitVec 6) (s : State) : Host.Outcome State Fault Refusal :=
  s.onDev fun d => d.lane core (permOp f false false fun _ a _ => a.getD amt.toNat 0)

def execPermInterleaveLow (core : Nat) (f : RFields) (_ : BitVec 6) (s : State) : Host.Outcome State Fault Refusal :=
  s.onDev fun d => d.lane core (permOp f true false fun i a b => if i % 2 = 0 then a.getD (i / 2) 0 else b.getD (i / 2) 0)

def execPermInterleaveHigh (core : Nat) (f : RFields) (_ : BitVec 6) (s : State) : Host.Outcome State Fault Refusal :=
  s.onDev fun d => d.lane core (permOp f true false fun i a b => if i % 2 = 0 then a.getD (i / 2 + 32) 0 else b.getD (i / 2 + 32) 0)

def execPermDeinterleaveEven (core : Nat) (f : RFields) (_ : BitVec 6) (s : State) : Host.Outcome State Fault Refusal :=
  s.onDev fun d => d.lane core (permOp f true false fun i a b => if i < 32 then a.getD (2 * i) 0 else b.getD (2 * (i - 32)) 0)

def execPermDeinterleaveOdd (core : Nat) (f : RFields) (_ : BitVec 6) (s : State) : Host.Outcome State Fault Refusal :=
  s.onDev fun d => d.lane core (permOp f true false fun i a b => if i < 32 then a.getD (2 * i + 1) 0 else b.getD (2 * (i - 32) + 1) 0)

def execMov (core : Nat) (f : RFields) (s : State) : Host.Outcome State Fault Refusal :=
  s.onDev fun d => d.lane core (permOp f false false fun i a _ => a.getD i 0)

/-- VZERO takes no source. -/
def zeroOp (f : RFields) : LaneOp :=
  { permOp f false false fun _ _ _ => 0 with sources := [] }

def execVzero (core : Nat) (f : RFields) (s : State) : Host.Outcome State Fault Refusal :=
  s.onDev fun d => d.lane core (zeroOp f)

/-! ### Clear multiply-accumulate (02 R57-R59, 08 R274) -/

/-- Bits of an element under FMT. -/
def fmtBits (fmt : Nat) : Nat := match fmt with | 0 => 16 | 1 => 16 | 5 => 4 | _ => 8

/-- The floating format of FMT; none for the integers. -/
def fmtFloat (fmt : Nat) : Option Fmt :=
  match fmt with
  | 0 => some bf16
  | 1 => some fp16
  | 2 => some fp8e4m3
  | 3 => some fp8e5m2
  | _ => none

/-- The packed elements of a 32-bit word, lowest first. -/
def elemsOf (bits w : Nat) : List Nat := (List.range (32 / bits)).map fun k => bitsAt w (bits * k) bits

/-- The value of an element. -/
def elemVal (fmt x : Nat) : FVal :=
  match fmtFloat fmt with
  | some f => f.decode x
  | none => fvalOfInt (signed x (fmtBits fmt)) 0

/-- One lane's accumulation of one pair of words. -/
def macLane (fmt acc x y : Nat) : Nat :=
  let b := fmtBits fmt
  match fmtFloat fmt with
  | some f => macFloat f acc (elemsOf b x) (elemsOf b y)
  | none => macInt b acc (elemsOf b x) (elemsOf b y)

def cmacOp (f : RFields) (fmt : Nat) : LaneOp :=
  { slice := f.slice, sources := [src f.sa true, src f.sb true, src (f.dst ||| 8) true], dests := [f.dst],
    clearOut := true, undefined := decide (5 < fmt), wrongKind := decide (f.dst.toNat < 8), modIdx := none,
    cycles := fun _ => 1,
    result := fun _ _ xs => [(List.range 64).map fun i =>
      macLane fmt ((vecAt xs 2).getD i 0) ((vecAt xs 0).getD i 0) ((vecAt xs 1).getD i 0)] }

def execCmac (core : Nat) (f : RFields) (fmt : BitVec 3) (s : State) : Host.Outcome State Fault Refusal :=
  s.onDev fun d => d.lane core (cmacOp f fmt.toNat)

/-- The 32 elements that lane `i` takes from consecutive vectors. -/
def blockElems (fmt : Nat) (vs : List (List Nat)) (i : Nat) : List FVal :=
  vs.flatMap fun v => (elemsOf (fmtBits fmt) (v.getD i 0)).map (elemVal fmt)

/-- One block of 32 elements per lane from each source, with its scale bytes in SC. -/
def cmacBsOp (f : RFields) (fmt : Nat) : LaneOp :=
  { slice := f.slice,
    sources := [⟨f.sa, true, fmtBits fmt⟩, ⟨f.sb, true, fmtBits fmt⟩, src f.sc true, src (f.dst ||| 8) true],
    dests := [f.dst], clearOut := true, undefined := decide (5 < fmt), wrongKind := decide (f.dst.toNat < 8),
    modIdx := none, cycles := fun _ => fmtBits fmt,
    result := fun _ _ xs => [(List.range 64).map fun i =>
      let sc := (vecAt xs 2).getD i 0
      macBlock ((vecAt xs 3).getD i 0) (blockElems fmt (xs.getD 0 []) i) (blockElems fmt (xs.getD 1 []) i)
        (bitsAt sc 0 8) (bitsAt sc 8 8)] }

def execCmacBs (core : Nat) (f : RFields) (fmt : BitVec 3) (s : State) : Host.Outcome State Fault Refusal :=
  s.onDev fun d => d.lane core (cmacBsOp f fmt.toNat)

/-! ### Conversion (02 R53, 08 R275) -/

/-- A clear type code: a floating format, or the width of an integer. -/
def cvtType (code : Nat) : Fmt ⊕ Nat :=
  match code with
  | 0 => .inl fp32
  | 1 => .inl bf16
  | 2 => .inl fp16
  | 3 => .inl fp8e4m3
  | 4 => .inl fp8e5m2
  | 5 => .inr 32
  | 6 => .inr 8
  | _ => .inr 4

/-- A clear-to-clear conversion. -/
def convert (a b x : Nat) : Nat :=
  let v := match cvtType a with
    | .inl f => f.decode (bitsAt x 0 (1 + f.ebits + f.mbits))
    | .inr w => fvalOfInt (signed x w) 0
  match cvtType b with
  | .inl f => f.encode v
  | .inr w => wrapInt (v.toIntSat w) w

/-- The conversion of one lane under a modulus. -/
def cvtLane (a b q x : Nat) : Nat :=
  if b = 8 then resOf q (signed x 32)
  else if a = 8 then wrapInt (max (-(2 ^ 31 : Nat)) (min ((2 ^ 31 : Nat) - 1) (liftQ q (x % q)))) 32
  else convert a b x

def cvtOp (f : RFields) (a b : Nat) : LaneOp :=
  let res := a = 8 || b = 8
  { slice := f.slice, sources := [src f.sa (a != 8)], dests := [f.dst], clearOut := b != 8,
    undefined := decide (8 < a) || decide (8 < b) || (res && !(a = 5 && b = 8) && !(a = 8 && b = 5)),
    wrongKind := false, modIdx := if res then some f.modIdx.toNat else none, cycles := fun _ => 1,
    result := fun v _ xs => [(vecAt xs 0).map (cvtLane a b (v.q f.modIdx.toNat))] }

def execCvt (core : Nat) (f : RFields) (fromType toType : BitVec 4) (s : State) : Host.Outcome State Fault Refusal :=
  s.onDev fun d => d.lane core (cvtOp f fromType.toNat toType.toNat)

/-! ### PACC (08 R276, 10 R315-R321) -/

/-- PACC: its checks, then its source, then one step of the generator for each slice. While an earlier write through the
generator has not reached its bank, nothing happens. -/
def Dev.pacc (d : Dev) (n : Nat) (f : RFields) (agsel : Bool) : Dev :=
  d.issue n .execute fun c =>
    let k := if agsel then 7 else 6
    let slices := slicesOf f.slice
    let x := src f.sa f.w
    let pulls := if f.sa.toNat < 8 then [f.sa.toNat % 4] else []
    if f.slice = 0 then d.faultHere n .execute 0x01
    else
      match tfind c.gens k with
      | none => d.faultHere n .execute 0x0C
      | some g =>
        let r := c.gather slices [x] d.draw
        let short := r.1.need.filterMap fun p =>
          if (c.queue p.1).bytes.length < p.2 then some (Wait.data p.1 p.2) else none
        if g.width ≠ vecBytes f.w then d.faultHere n .execute 0x0D
        else if g.steps < g.stepsDone + slices.length then d.faultHere n .execute 0x0E
        else if short ≠ [] then d.await n .execute short
        else if c.paccs.any fun w => w.gen = k then d.await n .execute []
        else
          match c.claimAll false .execute pulls with
          | none => d.faultHere n .execute 0x0A
          | some c =>
            match d.accModulus c g with
            | none => d.faultHere n .execute 0x02
            | some q =>
              let ws := r.2.zipIdx.map fun s =>
                { gen := k, mode := g.mode, q := q, addr := g.addr (g.stepsDone + s.2), data := vecPacked f.w (vecAt s.1.2 0),
                  pc := c.exe.pc : PaccWrite }
              let taken := { c.popAll r.1 with gens := tset c.gens k { g with stepsDone := g.stepsDone + slices.length },
                                               paccs := c.paccs ++ ws }
              let e := (d.setCore n taken).pumpPaccs n
              if (e.core n).stop = none then (e.goOn n .execute).pump n else e

def execPacc (core : Nat) (f : RFields) (agsel : Bool) (s : State) : Host.Outcome State Fault Refusal :=
  s.onDev fun d => d.pacc core f agsel

/-! ### Control -/

def execExeNop (core : Nat) (s : State) : Host.Outcome State Fault Refusal :=
  s.onDev fun d => d.issue core .execute fun _ => d.goOn core .execute

def execExeAgset (core : Nat) (ag : BitVec 3) (ovr : Bool) (greg : BitVec 5) (offset : BitVec 16) (s : State) :
    Host.Outcome State Fault Refusal :=
  s.onDev fun d => d.agset core .execute 6 7 ag ovr greg offset

def execExeLoop (core : Nat) (csrc : Bool) (greg : BitVec 5) (len : BitVec 11) (count : BitVec 32) (s : State) :
    Host.Outcome State Fault Refusal :=
  s.onDev fun d => d.loop core .execute csrc greg len count

def execExeSignal (core : Nat) (event : BitVec 4) (s : State) : Host.Outcome State Fault Refusal :=
  s.onDev fun d => d.signal core .execute event

def execExeWait (core : Nat) (event : BitVec 4) (s : State) : Host.Outcome State Fault Refusal :=
  s.onDev fun d => d.waitEvent core .execute event

/-- END of the execute stream: it retires when its accumulating writes are done. -/
def Dev.exeEnd (d : Dev) (n : Nat) : Dev :=
  d.issue n .execute fun c => if c.paccs = [] then d.retireEnd n .execute else d.await n .execute [.paccWrites]

def execExeEnd (core : Nat) (s : State) : Host.Outcome State Fault Refusal :=
  s.onDev fun d => d.exeEnd core

end Sys2Proof.Machine
end

