-- ==== Sys2Proof/Machine/Library.lean ====
section
/-! DEFINITION. CALL, one row per routine: the core's execute stream issues it, and the call runs when all its gangs have
started it (08 R280-R282, 09 R286-R303). -/

namespace Sys2Proof.Machine

def execNtt (core : Nat) (args : BitVec 16) (link : LinkEvent) (s : State) : Host.Outcome State Fault Refusal :=
  s.onDev fun d => d.call core 0x001 args link

def execIntt (core : Nat) (args : BitVec 16) (link : LinkEvent) (s : State) : Host.Outcome State Fault Refusal :=
  s.onDev fun d => d.call core 0x002 args link

def execAdd (core : Nat) (args : BitVec 16) (s : State) : Host.Outcome State Fault Refusal :=
  s.onDev fun d => d.call core 0x010 args .clean

def execSub (core : Nat) (args : BitVec 16) (s : State) : Host.Outcome State Fault Refusal :=
  s.onDev fun d => d.call core 0x011 args .clean

def execNeg (core : Nat) (args : BitVec 16) (s : State) : Host.Outcome State Fault Refusal :=
  s.onDev fun d => d.call core 0x012 args .clean

def execAddPlain (core : Nat) (args : BitVec 16) (s : State) : Host.Outcome State Fault Refusal :=
  s.onDev fun d => d.call core 0x013 args .clean

def execMulPlain (core : Nat) (args : BitVec 16) (s : State) : Host.Outcome State Fault Refusal :=
  s.onDev fun d => d.call core 0x014 args .clean

def execMul (core : Nat) (args : BitVec 16) (s : State) : Host.Outcome State Fault Refusal :=
  s.onDev fun d => d.call core 0x015 args .clean

def execAxpy (core : Nat) (args : BitVec 16) (s : State) : Host.Outcome State Fault Refusal :=
  s.onDev fun d => d.call core 0x016 args .clean

def execDrop (core : Nat) (args : BitVec 16) (s : State) : Host.Outcome State Fault Refusal :=
  s.onDev fun d => d.call core 0x017 args .clean

def execRescale (core : Nat) (args : BitVec 16) (link : LinkEvent) (s : State) : Host.Outcome State Fault Refusal :=
  s.onDev fun d => d.call core 0x020 args link

def execBconv (core : Nat) (args : BitVec 16) (link : LinkEvent) (s : State) : Host.Outcome State Fault Refusal :=
  s.onDev fun d => d.call core 0x021 args link

def execRelin (core : Nat) (args : BitVec 16) (link : LinkEvent) (s : State) : Host.Outcome State Fault Refusal :=
  s.onDev fun d => d.call core 0x030 args link

def execRotate (core : Nat) (args : BitVec 16) (link : LinkEvent) (s : State) : Host.Outcome State Fault Refusal :=
  s.onDev fun d => d.call core 0x031 args link

def execConj (core : Nat) (args : BitVec 16) (link : LinkEvent) (s : State) : Host.Outcome State Fault Refusal :=
  s.onDev fun d => d.call core 0x032 args link

def execKswitch (core : Nat) (args : BitVec 16) (link : LinkEvent) (s : State) : Host.Outcome State Fault Refusal :=
  s.onDev fun d => d.call core 0x033 args link

def execEvalPoly (core : Nat) (args : BitVec 16) (link : LinkEvent) (s : State) : Host.Outcome State Fault Refusal :=
  s.onDev fun d => d.call core 0x040 args link

def execElecBr (core : Nat) (args : BitVec 16) (s : State) : Host.Outcome State Fault Refusal :=
  s.onDev fun d => d.call core 0x050 args .clean

def execElecPack (core : Nat) (args : BitVec 16) (link : LinkEvent) (s : State) : Host.Outcome State Fault Refusal :=
  s.onDev fun d => d.call core 0x051 args link

def execRingSwitch (core : Nat) (args : BitVec 16) (link : LinkEvent) (s : State) : Host.Outcome State Fault Refusal :=
  s.onDev fun d => d.call core 0x052 args link

def execShareOut (core : Nat) (args : BitVec 16) (s : State) : Host.Outcome State Fault Refusal :=
  s.onDev fun d => d.call core 0x060 args .clean

def execShareIn (core : Nat) (args : BitVec 16) (s : State) : Host.Outcome State Fault Refusal :=
  s.onDev fun d => d.call core 0x061 args .clean

/-- BOOT_STEP is one routine; the PLAN word of the argument block says which of its rows this is (06 R185). A row given
where the block names another plan is no event of the machine and changes nothing (log entry 19). -/
def Dev.bootStep (d : Dev) (n plan : Nat) (args : BitVec 16) (link : LinkEvent) : Dev :=
  let word := ((d.argWords n args.toNat).getD 1 0).toNat
  let other := n % 16 = 0 && word ≠ plan && word ≤ 2
  if other then d else d.call n 0x041 args link

def execBootStepFull (core : Nat) (args : BitVec 16) (link : LinkEvent) (s : State) : Host.Outcome State Fault Refusal :=
  s.onDev fun d => d.bootStep core 0 args link

def execBootStepHalfE (core : Nat) (args : BitVec 16) (link : LinkEvent) (s : State) : Host.Outcome State Fault Refusal :=
  s.onDev fun d => d.bootStep core 1 args link

def execBootStepS2cOnly (core : Nat) (args : BitVec 16) (link : LinkEvent) (s : State) : Host.Outcome State Fault Refusal :=
  s.onDev fun d => d.bootStep core 2 args link

def execExtensionRoutine (core : Nat) (routine : BitVec 10) (args : LinkedArgs) (s : State) : Host.Outcome State Fault Refusal :=
  s.onDev fun d => d.call core routine.toNat args.block args.link

/-- UNDEFINED_OPCODE: a program fetches an instruction that is not in its tables (08 R283). -/
def execUndefinedOpcode (core : Nat) (program : Program) (s : State) : Host.Outcome State Fault Refusal :=
  s.onDev fun d => d.issue core program fun _ => d.faultHere core program 0x01

end Sys2Proof.Machine
end

