-- ==== Sys2Proof/Machine/Pins.lean ====
section
/-! DEFINITION. The test access port (22 R651). -/

namespace Sys2Proof.Machine

/-- Load a JTAG instruction; an unpowered device takes none. -/
def Dev.jtagLoad (d : Dev) (i : JtagInstr) (f : Dev → Dev) : Dev :=
  if d.phase = .unpowered then d else f (d.modPins fun x => { x with jtag := i })

/-- A test mode sets JTAG_OPENED and stops the frame tick. -/
def Dev.testMode (d : Dev) : Dev := (d.modBoot fun b => { b with jtagOpened := true }).stopTick

def execBypass (s : State) : Host.Outcome State Fault Refusal := s.onDev fun d => d.jtagLoad .bypass id

def execIdcode (s : State) : Host.Outcome State Fault Refusal :=
  s.onDev fun d => d.jtagLoad .idcode fun d => d.modPins fun x => { x with jtagOut := 0xA7200CB1 }

def execSamplePreload (preload : List Bool) (s : State) : Host.Outcome State Fault Refusal :=
  s.onDev fun d => d.jtagLoad .samplePreload fun d => d.modPins fun x => { x with boundary := preload }

/-- EXTEST: the side pins show the boundary cells that were preloaded. -/
def execExtest (s : State) : Host.Outcome State Fault Refusal := s.onDev fun d => d.jtagLoad .extest Dev.testMode

/-- JTAG_PRIVATE: its scan path passes through the Sterling store, which is cleared (07 R208). -/
def execJtagPrivate (s : State) : Host.Outcome State Fault Refusal :=
  s.onDev fun d => d.jtagLoad .privateTest fun d => d.testMode.clearSterling

end Sys2Proof.Machine
end

