-- ==== Sys2Proof/Machine/Port.lean ====
section
/-! DEFINITION. The port: the link, address queries, flow control, frames as they arrive, acknowledgements, resends, and
messages given up (17 R506-R515). -/

namespace Sys2Proof.Machine

/-! ### The link (17 R506) -/

/-- LINK_UP: training completes; in the boot sequence the boot ROM then begins (20 R586). -/
def Dev.linkRises (d : Dev) : Dev := if d.alive ∧ !d.linkUp then (d.setReg 0x8000 2 2).tryHello else d

def execLinkUp (s : State) : Host.Outcome State Fault Refusal := s.onDev Dev.linkRises

/-- LINK_DOWN. -/
def Dev.linkFalls (d : Dev) : Dev := if d.alive ∧ d.linkUp then (d.linkLost).setReg 0x8000 2 0 else d

def execLinkDown (s : State) : Host.Outcome State Fault Refusal := s.onDev Dev.linkFalls

/-! ### Address queries (17 R507) -/

/-- A frame that is not accepted. -/
def Dev.dropFrame (d : Dev) : Dev := d.bump 0x8000 0x12 1

/-- Answer a query for one of the device's addresses; zero is no address. -/
def Dev.answerQuery (d : Dev) (mac : BitVec 48) (own : Nat) (target : BitVec 128) : Dev :=
  if !d.alive ∨ !d.linkUp then d
  else if own ≠ 0 ∧ target.toNat = own then d.modPort fun x => { x with arpReplies := x.arpReplies ++ [(mac, target)] }
  else d.dropFrame

def execArpRequest (mac : BitVec 48) (target : BitVec 32) (s : State) : Host.Outcome State Fault Refusal :=
  s.onDev fun d => d.answerQuery mac (d.reg 0x8000 5) (target.zeroExtend 128)

def execNeighbourSolicitation (mac : BitVec 48) (target : BitVec 128) (s : State) : Host.Outcome State Fault Refusal :=
  s.onDev fun d => d.answerQuery mac (d.reg 0x8000 6 * 2 ^ 64 + d.reg 0x8000 7) target

/-! ### Flow control (17 R509) -/

/-- Messages held for a priority go out in order. -/
def Dev.releaseHeld (d : Dev) (p : BitVec 3) : Dev :=
  (d.port.held.filter fun m => m.prio = p).foldl (fun (d : Dev) m => d.emit m)
    (d.modPort fun x => { x with paused := x.paused.filter (· ≠ p), held := x.held.filter fun m => m.prio ≠ p })

/-- PFC_PAUSE: only the priorities of PFC_ENABLE are paused. -/
def Dev.pfc (d : Dev) (p : BitVec 3) (pause : Bool) : Dev :=
  if !d.alive ∨ !d.linkUp ∨ !(d.reg 0x8000 0x0C).testBit p.toNat then d
  else if pause then d.modPort fun x => { x with paused := (p :: x.paused).eraseDups }
  else d.releaseHeld p

def execPfcPause (prio : BitVec 3) (pause : Bool) (s : State) : Host.Outcome State Fault Refusal :=
  s.onDev fun d => d.pfc prio pause

/-! ### Acknowledgement and resends (17 R513, R514) -/

/-- A TSEQ lies before another, in the modular order. -/
def seqBefore (a b : BitVec 32) : Bool := 0 < (b - a).toNat && (b - a).toNat < 2 ^ 31

/-- A cumulative acknowledgement: every frame before `to_` is done with. -/
def Dev.acked (d : Dev) (ep : Endpoint) (p : BitVec 3) (to_ : BitVec 32) : Dev :=
  let t := d.transport ep p
  let left := t.unacked.filter fun f => !seqBefore f.hdr.tseq to_
  if left = t.unacked then d else d.setTransport { t with unacked := left }

def execAck (ep : Endpoint) (prio : BitVec 3) (ackTo : BitVec 32) (s : State) : Host.Outcome State Fault Refusal :=
  s.onDev fun d => if d.alive ∧ d.linkUp then d.acked ep prio ackTo else d

/-- RESEND_TIMER: every unacknowledged frame goes out again, three times at most; a paused priority sends nothing. -/
def Dev.resend (d : Dev) (ep : Endpoint) (p : BitVec 3) : Dev :=
  let t := d.transport ep p
  match t.unacked with
  | [] => d
  | f :: _ =>
    if 3 ≤ f.resends ∨ !d.linkUp ∨ d.port.paused.contains p then d
    else (d.setTransport { t with unacked := t.unacked.map fun g => { g with resends := g.resends + 1 } }).bump 0x8000 0x0F
      t.unacked.length

def execResendTimer (ep : Endpoint) (prio : BitVec 3) (s : State) : Host.Outcome State Fault Refusal :=
  s.onDev fun d => d.resend ep prio

/-! ### Frames (17 R507, R508, R511-R513) -/

/-- The encapsulation is one that the port accepts: its address is not disabled, and the boot ROM takes only frames under
CWP_ETHERTYPE (20 R587). -/
def Dev.encapOk (d : Dev) (ep : Endpoint) : Bool :=
  match ep with
  | .mac _ => true
  | .ipv4 _ _ => d.phase = .service && d.reg 0x8000 5 ≠ 0
  | .ipv6 _ _ => d.phase = .service && (d.reg 0x8000 6 ≠ 0 || d.reg 0x8000 7 ≠ 0)

/-- The tag is the one that VLAN names, if it names one. -/
def Dev.vlanOk (d : Dev) (tag : Option (BitVec 12)) : Bool :=
  d.reg 0x8000 0x0A = 0xFFFF || tag = some (BitVec.ofNat 12 (d.reg 0x8000 0x0A))

/-- The device receives this class and kind, in this version (17 R512). While the boot ROM runs, only BOOT messages, requests
and acknowledgements. -/
def Dev.classOk (d : Dev) (h : CwpHeader) : Bool :=
  let k := h.kind.toNat
  let boot := d.phase = .boot
  (h.version = 2 || (h.version = 1 && h.cls ≠ 3 && h.offset.toNat < 2 ^ 32)) &&
    (match h.cls.toNat with
     | 0 => k = 1
     | 2 => !boot
     | 3 => !boot && 1 ≤ k && k ≤ 6
     | 4 => k = 0
     | 6 => boot && (k = 2 || k = 4)
     | _ => false)

/-- The port accepts the frame. -/
def Dev.frameOk (d : Dev) (w : WireFrame) : Bool :=
  w.wellAddressed && w.header.length = 32 && d.vlanOk w.vlan && w.length ≤ d.reg 0x8000 3 && d.encapOk w.ep && d.classOk w.hdr &&
    (w.hdr.dst = 0xFFFF || w.hdr.dst = BitVec.ofNat 16 d.systemDevice) && w.hdr.segLen.toNat ≤ w.data.length

/-- Endpoints for which the port keeps transport state. -/
def Dev.endpoints (d : Dev) : List Endpoint := (d.port.transports.map (·.ep)).eraseDups

/-- The first segment of a message opens it; a message from a lost device is discarded (16 R498). -/
def Dev.openMsg (d : Dev) (w : WireFrame) : Dev :=
  let h := w.hdr
  if h.cls = 3 ∧ d.tick.lost.contains h.src.toNat then d.bump 0x2070 5 1
  else
    let m : Msg :=
      { ep := w.ep, prio := w.prio, number := h.msg, cls := h.cls, kind := h.kind, version := h.version, src := h.src,
        segs := [(h.offset.toNat, w.data.take h.segLen.toNat)], last := h.last, startedAt := d.clock, judged := false }
    let d := match d.findMsg w.ep w.prio h.msg with
      | some old => d.dropPartial old
      | none => d
    d.modPort fun x => { x with messages := x.messages ++ [m] }

/-- A later segment is placed in its message. A request from an endpoint that is no longer admitted is discarded (18 R557). -/
def Dev.growMsg (d : Dev) (w : WireFrame) : Dev :=
  let h := w.hdr
  match d.findMsg w.ep w.prio h.msg with
  | none => d
  | some m =>
    if m.cls ≠ h.cls then d
    else if m.cls = 0 ∧ m.judged ∧ !d.admitted m.ep then (d.dropPartial m).bump 0x1040 2 1
    else
      let n := { m with segs := m.segs ++ [(h.offset.toNat, w.data.take h.segLen.toNat)], last := m.last || h.last }
      let d := d.setMsg m n
      if n.cls = 0 ∧ n.judged then d.requestGrows n else d

/-- An accepted frame: its sequence number, its acknowledgement, and its segment. -/
def Dev.acceptFrame (d : Dev) (w : WireFrame) (t : Transport) : Dev :=
  let d := (d.setTransport { t with expect := some (w.hdr.tseq + 1) }).modPort fun x =>
    { x with acksSent := x.acksSent ++ [(w.ep, w.prio, w.hdr.tseq + 1)],
             spoke := (w.ep, w.hdr.version) :: x.spoke.filter fun p => p.1 ≠ w.ep }
  let d := if w.hdr.ackv then d.acked w.ep w.prio w.hdr.ack else d
  if w.hdr.first then d.openMsg w else d.growMsg w

/-- The transport judges a frame by its TSEQ: expected or SYNC, repeated, or neither. -/
def Dev.judgeFrame (d : Dev) (w : WireFrame) : Dev :=
  let t := d.transport w.ep w.prio
  if !(d.endpoints.contains w.ep) ∧ 4096 ≤ d.endpoints.length then d
  else if w.hdr.sync ∨ t.expect = some w.hdr.tseq then d.acceptFrame w t
  else
    match t.expect with
    | some e => if seqBefore w.hdr.tseq e then d.modPort fun x => { x with acksSent := x.acksSent ++ [(w.ep, w.prio, e)] } else d
    | none => d

/-- CWP_FRAME. A frame of class ACK is not numbered (log entry 57). -/
def Dev.frameIn (d : Dev) (w : WireFrame) : Dev :=
  if !d.alive ∨ !d.linkUp then d
  else if !d.frameOk w then d.dropFrame
  else if w.hdr.cls = 4 then (if w.hdr.ackv then d.acked w.ep w.prio w.hdr.ack else d)
  else d.judgeFrame w

def execCwpFrame (frame : WireFrame) (s : State) : Host.Outcome State Fault Refusal := s.onDev fun d => d.frameIn frame

/-! ### Messages given up (17 R515) -/

/-- REASSEMBLY_TIMEOUT: a message that is not whole is discarded. -/
def Dev.giveUp (d : Dev) (ep : Endpoint) (p : BitVec 3) (number : BitVec 32) : Dev :=
  match d.findMsg ep p number with
  | some m => if m.whole then d else d.dropPartial m
  | none => d

def execReassemblyTimeout (ep : Endpoint) (prio : BitVec 3) (msg : BitVec 32) (s : State) : Host.Outcome State Fault Refusal :=
  s.onDev fun d => d.giveUp ep prio msg

end Sys2Proof.Machine
end

