-- ==== Sys2Proof/Machine/Power.lean ====
section
/-! DEFINITION. Rails, PMBus, sensors, power estimates, the counter's discipline, and the scrub (22 R628-R641, 15 R468,
17 R510, 13 R418). -/

namespace Sys2Proof.Machine

/-! ### Rails and clocks (22 R628, R644) -/

/-- RAIL_OUT_OF_TOLERANCE, while RESET_N is high. -/
def Dev.railOut (d : Dev) (j : Nat) : Dev := if d.alive ∧ d.pins.resetN then d.faultFatal 0x16 j else d

def execRailOutOfTolerance (rail : Nat) (s : State) : Host.Outcome State Fault Refusal := s.onDev fun d => d.railOut rail

/-- REFCLK_LOSS. -/
def Dev.clockLost (d : Dev) : Dev := if d.alive then d.faultFatal 0x17 0 else d

def execRefclkLoss (s : State) : Host.Outcome State Fault Refusal := s.onDev Dev.clockLost

/-! ### PMBus (22 R631) -/

/-- What a reading of a rail's STATUS_WORD, or its absence, raises: one warning record until the condition clears. -/
def Dev.railStatus (d : Dev) (j : Nat) (r : RailReading) : Dev :=
  let bad := !r.answered || r.warning
  let d := if bad then
      (if d.power.railWarned.contains j then d
       else (d.faultUc 0x16 j 0 0 0 0).modPower fun x => { x with railWarned := j :: x.railWarned })
    else d.modPower fun x => { x with railWarned := x.railWarned.filter (· ≠ j) }
  if r.answered ∧ r.shutdown then d.faultFatal 0x16 j else d

/-- PMBUS_POLL of one rail. -/
def Dev.pollRail (d : Dev) (j : Nat) (r : RailReading) : Dev :=
  let i := 0x7300 + j
  let d := if r.answered then
      ((d.setReg i 5 r.vout.toNat).setReg i 6 r.iout.toNat).setReg i 7 r.status.toNat else d
  d.railStatus j r

/-- PMB_ALERT of one rail: its STATUS_WORD only. -/
def Dev.alertRail (d : Dev) (j : Nat) (r : RailReading) : Dev :=
  (if r.answered then d.setReg (0x7300 + j) 7 r.status.toNat else d).railStatus j r

/-- The management processor goes through the rails. -/
def Dev.eachRail (d : Dev) (rs : List RailReading) (f : Dev → Nat → RailReading → Dev) : Dev :=
  if d.phase ≠ .service then d else (rs.take 8).zipIdx.foldl (fun (d : Dev) r => f d r.2 r.1) d

def execPmbusPoll (readings : List RailReading) (s : State) : Host.Outcome State Fault Refusal :=
  s.onDev fun d => d.eachRail readings Dev.pollRail

def execPmbAlert (readings : List RailReading) (s : State) : Host.Outcome State Fault Refusal :=
  s.onDev fun d => d.eachRail readings Dev.alertRail

/-! ### Sensors (22 R638, R639, R641) -/

/-- Sensors of the die, or of the stacks, that a sensor belongs to: first and count. -/
def sensorGroup (k : Nat) : Nat × Nat :=
  if k < 32 then (0, 32) else if k < 64 then (32, 32) else if k < 72 then (64, 8) else (72, 8)

/-- The other sensors' samples. -/
def otherSamples (ts : List Int) (k : Nat) : List Int :=
  (((List.range (sensorGroup k).2).map fun i => (sensorGroup k).1 + i).filter (· ≠ k)).map fun i => ts.getD i 0

/-- A sample more than 20 °C from the mean of the others, in 1/16 °C. -/
def isOutlier (ts : List Int) (k : Nat) : Bool :=
  let os := otherSamples ts k
  decide (320 * os.length < ((ts.getD k 0) * os.length - os.foldl (· + ·) 0).natAbs)

/-- The sample that counts: an outlier is replaced by the largest of the others. -/
def goodSample (ts : List Int) (k : Nat) : Int :=
  if isOutlier ts k then
    match otherSamples ts k with
    | o :: os => os.foldl max o
    | [] => ts.getD k 0
  else ts.getD k 0

/-- Throttle and shutdown thresholds of a sensor, in 1/16 °C. -/
def Dev.thresholds (d : Dev) (k : Nat) : Int × Int :=
  if k < 72 then (16 * (d.reg 0x7400 1 : Int), 16 * (d.reg 0x7400 3 : Int))
  else (16 * (d.reg 0x7400 2 : Int), 16 * (d.reg 0x7400 4 : Int))

/-- Below the throttle threshold by the hysteresis. -/
def Dev.cool (d : Dev) (k : Nat) (t : Int) : Bool := decide (t < (d.thresholds k).1 - 16 * (d.reg 0x7400 5 : Int))

/-- One sensor's sample: its register, the tick's record of heat, and its faults. -/
def Dev.sense (d : Dev) (ts : List Int) (k : Nat) : Dev :=
  let t := goodSample ts k
  let lim := d.thresholds k
  let d := if isOutlier ts k then d.faultCorr 0x15 k 0 0 else d
  let d := d.setReg (0x7500 + k) 1 (wrapInt t 32)
  let d := d.modPower fun x => { x with
    hot := x.hot || decide (lim.1 ≤ t), warm := x.warm || !d.cool k t,
    hottest := match x.hottest with
      | some h => if h.2 < t then some (k, t) else some h
      | none => some (k, t) }
  if lim.2 ≤ t then d.faultFatal 0x15 k else d

/-- SENSOR_SAMPLE. A device that a thermal reset holds goes on once every sensor is cool. -/
def Dev.sample (d : Dev) (temps : List (BitVec 32)) : Dev :=
  let ts := temps.map BitVec.toInt
  if d.alive then (List.range 80).foldl (fun (d : Dev) k => d.sense ts k) d
  else if d.phase = .chipReset ∧ (List.range 80).all (fun k => d.cool k (goodSample ts k)) then
    d.modPower fun x => { x with thermHold := false }
  else d

def execSensorSample (temps : List (BitVec 32)) (s : State) : Host.Outcome State Fault Refusal :=
  s.onDev fun d => d.sample temps

/-! ### Power estimates (22 R636) -/

/-- One requester's estimate over 1,024 cycles, of which `elapsed` have passed since the boundary. -/
def Dev.estimate (d : Dev) (i e : Nat) : Dev :=
  let sum := tget d.power.energy i 0 + e
  let beyond := d.grant i * (d.power.elapsed + 65536) < sum
  d.modPower fun x => { x with
    energy := tset x.energy i sum,
    tickEnergy := x.tickEnergy + e,
    withheldNow := if x.withholding.contains i then tset x.withheldNow i (tget x.withheldNow i 0 + 1024) else x.withheldNow,
    withholding := if beyond then (i :: x.withholding).eraseDups else x.withholding.filter (· ≠ i) }

/-- POWER_ESTIMATE: energies are in units of 0.5 W for one cycle (log entry 47). -/
def Dev.estimates (d : Dev) (es : List Nat) : Dev :=
  if !d.alive then d
  else
    (es.take requesters).zipIdx.foldl (fun (d : Dev) e => d.estimate e.2 e.1)
      (d.modPower fun x => { x with elapsed := x.elapsed + 1024, tickElapsed := x.tickElapsed + 1024 })

def execPowerEstimate (energies : List Nat) (s : State) : Host.Outcome State Fault Refusal :=
  s.onDev fun d => d.estimates energies

/-! ### The counter's discipline (15 R468, 17 R510; log entry 58) -/

/-- The counter value that a time in nanoseconds stands for. -/
def counterAt (ns : Nat) : Nat := (ns * 21 + 10) / 20

/-- Consecutive seconds in which the error was at most 1 count. -/
def lockedSeconds (so last sec : Nat) : Nat := if so = 0 then 1 else if sec = last then so else if sec = last + 1 then so + 1 else 1

/-- An error is measured; the counter is steered back by as much. One that the entry cannot hold leaves it open. -/
def Dev.measured (d : Dev) (ns : Nat) (err : Int) : Dev :=
  let sec := ns / 1000000000
  let lock := if err.natAbs ≤ 1 then lockedSeconds d.tick.lockSeconds d.tick.lastSecond sec else 0
  let (w, d) := d.drawWord
  let fits := -(2 ^ 31 : Int) ≤ err ∧ err < 2 ^ 31
  let d := d.setReg 0x2020 4 (if fits then wrapInt err 32 else w.toNat % 2 ^ 32)
  let d := if 1050 < err.natAbs then d.setReg 0x2020 3 1 else if 16 ≤ lock then d.setReg 0x2020 3 2 else d
  d.modTick fun t => { t with slew := -err, lockSeconds := lock, lastSecond := sec }

/-- PPS_EDGE, under COUNTER_SOURCE 0x02. -/
def Dev.pps (d : Dev) (ns : Nat) : Dev :=
  if d.alive ∧ d.reg 0x2020 2 = 2 then d.measured ns ((d.counter : Int) - counterAt ns) else d

def execPpsEdge (timeNs : Nat) (s : State) : Host.Outcome State Fault Refusal := s.onDev fun d => d.pps timeNs

/-- PTP_MESSAGE: an event message feeds the discipline of COUNTER_SOURCE 0x01, corrected by PTP_ASYM. -/
def Dev.ptp (d : Dev) (event : Bool) (ns : Nat) : Dev :=
  if d.alive ∧ d.linkUp ∧ event ∧ d.reg 0x2020 2 = 1 then
    d.measured ns ((d.counter : Int) - counterAt ns - signed (d.reg 0x8000 0x0D) 32)
  else d

def execPtpMessage (event : Bool) (timeNs : Nat) (s : State) : Host.Outcome State Fault Refusal :=
  s.onDev fun d => d.ptp event timeNs

/-- COUNTER_SOURCE_LOST. -/
def Dev.sourceLost (d : Dev) : Dev :=
  if d.alive ∧ d.reg 0x2020 2 ≠ 0 then (d.setReg 0x2020 3 1).modTick fun t => { t with lockSeconds := 0 } else d

def execCounterSourceLost (s : State) : Host.Outcome State Fault Refusal := s.onDev Dev.sourceLost

/-! ### The scrub (13 R418; log entry 59) -/

/-- Granules of a stack's piece of a correct slab. -/
def pieceGranules : Nat := 0x3C00000 / 16

/-- Offset within its piece of a usable offset of a correct slab (13 R406). -/
def pieceOffset (mode u : Nat) : Nat :=
  match mode with
  | 2 => u % 0x3C000000
  | 1 => u / 524288 * 65536 + u % 65536
  | _ => u / 32768 * 4096 + u % 4096

/-- The first place not before `p`, counted in slabs and granules, that a controller scrubs. -/
def Dev.scrubNext (d : Dev) (p : Nat) : Option Nat :=
  if p % 2 ^ 22 < pieceGranules ∧ p / 2 ^ 22 < 96 ∧ d.correctAt (p / 2 ^ 22 * 2 ^ 33) then some p
  else ((List.range 96).find? fun s => p / 2 ^ 22 < s && d.correctAt (s * 2 ^ 33)).map (· * 2 ^ 22)

/-- The pass of a controller moves on by the granule it was due to read, and ends behind the last. -/
def Dev.scrubMoves (d : Dev) (k a : Nat) : Dev :=
  let u := a % 2 ^ 33
  let mode := ((d.slabClass (a / 2 ^ 33)).getD (0, 0)).2
  let here := a / 2 ^ 33 * 2 ^ 22 + pieceOffset mode u / 256
  let due := match d.scrubNext (tget d.stk.scrubAt k 0) with
    | some p => some p
    | none => d.scrubNext 0
  if due ≠ some here then d
  else
    match d.scrubNext (here + 1) with
    | some p => { d with stk := { d.stk with scrubAt := tset d.stk.scrubAt k p } }
    | none => { d with stk := { d.stk with scrubAt := tset d.stk.scrubAt k 0 } }.bump (0x4200 + k) 5 1

/-- SCRUB: a usable granule of a correct slab of the controller's stack is read, and an error in it handled. -/
def Dev.scrub (d : Dev) (k addr : Nat) (found : Option UpsetKind) : Dev :=
  let g := addr / 256 * 256
  if !d.alive ∨ stackEnd ≤ g ∨ !d.correctAt g ∨ d.stackCause g ≠ none ∨ d.stackOf g ≠ k then d
  else
    let d := match found with
      | some e => d.addUpsets [⟨g, e⟩]
      | none => d
    ((d.meetGranule none g).1.countGranules 6 [g]).scrubMoves k g

def execScrub (controller addr : Nat) (found : Option UpsetKind) (s : State) : Host.Outcome State Fault Refusal :=
  s.onDev fun d => d.scrub controller addr found

end Sys2Proof.Machine
end

