-- ==== Sys2Proof/Machine/ShareMsg.lean ====
section
/-! DEFINITION. Messages of share mode as they arrive, and the timers of sessions and exchanges (07 R194-R205, R221-R232). -/

namespace Sys2Proof.Machine

/-! ### Handshake: SH_HELLO and SH_REPORT (07 R195-R197, R201) -/

/-- A message dropped under R204. -/
def Dev.shareDrop (d : Dev) : Dev := d.bump 0x5800 9 1

/-- SH_ABORT that answers an SH_HELLO. -/
def Dev.abortHello (d : Dev) (ep : Endpoint) (status : BitVec 8) : Dev :=
  d.sendShare ep 0x1F (shareHeader 0x1F 0xFFFF 0 0 0 0 1 ++ [status])

/-- The point of a HELLO, when it is one that R195 admits. -/
def helloKey (body : List Byte) : Option EdPoint :=
  match edDecode (helloPoint body) with
  | some p => if edEq (edMul 8 p) edZero then none else some p
  | none => none

/-- An unbound session with a fresh scalar, and its sealed job. The scalar is a 512-bit draw reduced modulo the group order,
without clamping: R197 does not say how k_D is formed (DESIGN CHOICE, log entry 100). -/
def Dev.createSession (d : Dev) (ep : Endpoint) (body : List Byte) (n : Nat) : Dev :=
  let (rnd, d) := d.drawRandom
  (d.putSession n
    { tag := BitVec.ofNat 64 (leNat (body.drop 64)), ep := ep, live := false, hello := body,
      scalar := some (leNat rnd % edL), report := [], reported := false, transcript := [], keyOut := [], keyIn := [],
      seqOut := 0, accepted := [], nextSerial := 0 }).modNickel fun x =>
        { x with sealedWork := x.sealedWork ++ [.handshake n] }

/-- SH_HELLO. A body that is not 72 bytes is no HELLO. The point is judged before the count of sessions, and a session takes
the lowest free number: R195 and R196 give neither (DESIGN CHOICE, log entry 100). -/
def Dev.helloIn (d : Dev) (ep : Endpoint) (body : List Byte) : Dev :=
  if d.phase ≠ .service then d
  else
    let d := d.consume ep 2 1
    if body.length ≠ 72 then d.shareDrop
    else if (helloKey body).isNone then d.abortHello ep stNotOnCurve
    else
      match (List.range 512).find? fun n => (d.session n).isNone with
      | none => d.abortHello ep stBounds
      | some n => d.createSession ep body n

def execShHello (ep : Endpoint) (body : List Byte) (s : State) : Host.Outcome State Fault Refusal :=
  s.onDev fun d => d.helloIn ep body

/-- SH_REPORT: once the sealed job has made it. -/
def Dev.sendReport (d : Dev) (n : Nat) : Dev :=
  match d.session n with
  | none => d
  | some s =>
    if s.live ∨ s.reported ∨ s.report = [] then d
    else ((d.putSession n { s with reported := true }).shareSend n 2 0 0 0 s.report).1

def execShReport (session : Nat) (s : State) : Host.Outcome State Fault Refusal := s.onDev fun d => d.sendReport session

/-! ### Authentication (07 R202-R204) -/

/-- The plaintext of a protected message under a session's key; the header it came under, VERSION and all, is the additional
data. -/
def plainOf (m : ShareMsg) (s : Session) : Option (List Byte) :=
  aeadOpen s.keyIn (shareNonce m.seq.toNat)
    (shareHeaderOf m.version.toNat m.kind.toNat m.session.toNat m.slot.toNat m.round.toNat m.seq.toNat m.serial.toNat
      m.bodyLen.toNat) m.body

/-- Take a message of a live session that it waits for; anything else is dropped and counted. An answer goes to where the
message came from (17 R507). One of another VERSION that authenticates is malformed: the exchange it names fails through the
key holder (R232), and where it names none it is dropped. -/
def Dev.shareTake (d : Dev) (m : ShareMsg) (awaited : Bool) (f : Dev → List Byte → Dev) : Dev :=
  if d.phase ≠ .service then d
  else
    let d := d.consume m.ep 2 m.kind
    let n := m.session.toNat
    match d.session n with
    | none => d.shareDrop
    | some s =>
      if !s.live ∨ s.accepted.contains m.seq ∨ !awaited then d.shareDrop
      else
        match plainOf m s with
        | none => d.shareDrop
        | some p =>
          let d := d.putSession n { s with ep := m.ep, accepted := m.seq :: s.accepted }
          if m.version = 1 then f d p
          else if m.kind = 0x20 then d.shareDrop
          else d.failExchange m.slot.toNat true m.kind.toNat

/-- SESSION, SLOT, SERIAL and ROUND name an exchange that waits in one of these states. -/
def Dev.awaits (d : Dev) (m : ShareMsg) (inState : ExchState → Bool) : Bool :=
  match d.exchange m.slot.toNat with
  | some e => e.session = m.session.toNat && e.serial = m.serial && inState e.state &&
      m.round.toNat = (if e.state = .inRound then e.round else 0)
  | none => false

/-! ### SH_BIND (07 R198, R199) -/

/-- The session becomes live, in place of any other of its tag, and the device binds too. -/
def Dev.bindSession (d : Dev) (n : Nat) (s : Session) (ep : Endpoint) : Dev :=
  let olds := (d.sterling.sessions.filter fun p => p.1 ≠ n && p.2.live && p.2.tag = s.tag).map (·.1)
  let d := olds.foldl (fun (d : Dev) k => d.closeSession k true 3)
    (d.putSession n { s with live := true, ep := ep, accepted := [0] })
  (d.shareSend n 3 0 0 0 s.transcript).1

/-- SH_BIND. One that fails discards the unbound session; one that no session waits for, or whose SLOT, ROUND or SERIAL is not
zero, is dropped (R204). -/
def Dev.bindIn (d : Dev) (m : ShareMsg) : Dev :=
  if d.phase ≠ .service then d
  else
    let d := d.consume m.ep 2 3
    let n := m.session.toNat
    match d.session n with
    | none => d.shareDrop
    | some s =>
      if s.live ∨ !s.reported ∨ m.slot ≠ 0 ∨ m.round ≠ 0 ∨ m.serial ≠ 0 then d.shareDrop
      else
        let gone (d : Dev) : Dev := d.modSterling fun x => { x with sessions := tdel x.sessions n }
        match (if m.kind = 3 ∧ m.version = 1 ∧ m.seq = 0 then plainOf m s else none) with
        | none => (gone d).shareDrop
        | some p => if p = s.transcript ∧ m.bodyLen = 64 then d.bindSession n s m.ep else gone d

def execShBind (m : ShareMsg) (s : State) : Host.Outcome State Fault Refusal := s.onDev fun d => d.bindIn m

/-- BIND_TIMEOUT: 100 ms after SH_REPORT. -/
def Dev.bindTimeout (d : Dev) (n : Nat) : Dev :=
  match d.session n with
  | some s => if s.live ∨ !s.reported then d else d.modSterling fun x => { x with sessions := tdel x.sessions n }
  | none => d

def execBindTimeout (session : Nat) (s : State) : Host.Outcome State Fault Refusal := s.onDev fun d => d.bindTimeout session

/-! ### Rounds (07 R221, R224-R230) -/

/-- SH_FINAL's values: output shares, or in SHARED mode reshare values. -/
def finalValues (r : ExRec) (sigma : List Byte) (z : List Nat) : List Nat :=
  if r.outMode = 1 then z
  else z.zipIdx.map fun v => ofInt64 ((v.1 : Int) + maskOf sigma (r.rounds + 1) v.2 (r.rangeOut + r.frac + 40))

/-- The program of an exchange over the replies that have arrived. -/
def Dev.runShare (d : Dev) (e : Exchange) : Except (List Byte) (List Nat) :=
  shareProgram (ExRec.parse e.record) e.sigma e.layoutIn.toNat e.logN (e.shares.map (·.toNat)) e.transcriptIn
    fun g => (Config.freeWord (d.draw + g)).toNat

/-- Send a message of an exchange, and keep it for a resend. -/
def Dev.exchangeSend (d : Dev) (slot : Nat) (e : Exchange) (kind round : Nat) (body : List Byte) : Dev :=
  let (d, msg) := d.shareSend e.session kind slot round e.serial.toNat body
  d.putExchange slot { e with lastMsg := msg, lastKind := BitVec.ofNat 8 kind, resends := 0 }

/-- The next message of an exchange: a round's openings, or SH_FINAL. `kind` is the message that brought it on. -/
def Dev.nextMessage (d : Dev) (slot kind : Nat) : Dev :=
  match d.spillCheck slot kind with
  | (d, false) => d
  | (d, true) =>
    match d.exchange slot with
    | none => d
    | some e =>
      match d.runShare e with
      | .error body => d.exchangeSend slot { e with state := .inRound, round := e.round + 1 } 0x12 (e.round + 1) body
      | .ok z =>
        let d := { d with draw := d.draw + z.length }
        d.exchangeSend slot { e with state := .awaitingIn } 0x14 0
          ((finalValues (ExRec.parse e.record) e.sigma z).flatMap (leBytes 8))

/-- SH_ACK: empty. -/
def Dev.ackIn (d : Dev) (m : ShareMsg) : Dev :=
  d.shareTake m (m.kind = 0x11 && d.awaits m fun s => s = .awaitingAck) fun d p =>
    if p ≠ [] ∨ m.bodyLen ≠ 0 then d.failExchange m.slot.toNat true 0x11 else d.nextMessage m.slot.toNat 0x11

def execShAck (m : ShareMsg) (s : State) : Host.Outcome State Fault Refusal := s.onDev fun d => d.ackIn m

/-- Length of the body that the round in progress opens. -/
def Dev.roundLength (d : Dev) (e : Exchange) : Nat :=
  match d.runShare e with
  | .error body => body.length
  | .ok _ => 0

/-- SH_REPLY: the key holder's shares of the round's openings. -/
def Dev.replyIn (d : Dev) (m : ShareMsg) : Dev :=
  d.shareTake m (m.kind = 0x13 && d.awaits m fun s => s = .inRound) fun d p =>
    match d.exchange m.slot.toNat with
    | none => d
    | some e =>
      if p.length ≠ m.bodyLen.toNat ∨ p.length ≠ d.roundLength e then d.failExchange m.slot.toNat true 0x13
      else (d.putExchange m.slot.toNat { e with transcriptIn := e.transcriptIn ++ [p] }).nextMessage m.slot.toNat 0x13

def execShReply (m : ShareMsg) (s : State) : Host.Outcome State Fault Refusal := s.onDev fun d => d.replyIn m

/-- An output part is well formed. -/
def partOk (e : Exchange) (p : List Byte) : Bool :=
  let r := ExRec.parse e.record
  p.length = 8 + 2 * r.levelOut * limbBytes e.logN && fld p 16 8 = r.levelOut && fld p 0 16 < r.outParts

/-- SH_IN: the exchange is complete when every part has arrived. -/
def Dev.partIn (d : Dev) (m : ShareMsg) : Dev :=
  d.shareTake m (m.kind = 0x15 && d.awaits m fun s => s = .awaitingIn) fun d p =>
    match d.exchange m.slot.toNat with
    | none => d
    | some e =>
      let part := fld p 0 16
      if p.length ≠ m.bodyLen.toNat ∨ !partOk e p then d.failExchange m.slot.toNat true 0x15
      else if (tfind e.arrived part).isSome then d.shareDrop
      else
        let arrived := tset e.arrived part (BitVec.ofNat 16 (fld p 32 16), p)
        if arrived.length = (ExRec.parse e.record).outParts then
          (d.putExchange m.slot.toNat { e with arrived := arrived, state := .complete }).bump 0x5800 7 1
        else d.putExchange m.slot.toNat { e with arrived := arrived, resends := 0 }

def execShIn (m : ShareMsg) (s : State) : Host.Outcome State Fault Refusal := s.onDev fun d => d.partIn m

/-! ### Aborts and closing (07 R200, R232) -/

/-- The exchange is under way. -/
def ExchState.open_ (s : ExchState) : Bool :=
  match s with
  | .sending => true
  | .awaitingAck => true
  | .inRound => true
  | .awaitingIn => true
  | _ => false

/-- SH_ABORT. One for a session that is not live has no effect that a rule gives. -/
def Dev.abortIn (d : Dev) (m : ShareMsg) : Dev :=
  if d.phase = .service ∧ ((d.session m.session.toNat).any fun s => !s.live) ∧ m.seq = 0 then d.consume m.ep 2 0x1F
  else
    d.shareTake m (m.kind = 0x1F && d.awaits m ExchState.open_) fun d _ => d.failExchange m.slot.toNat true 0x1F

def execShAbort (m : ShareMsg) (s : State) : Host.Outcome State Fault Refusal := s.onDev fun d => d.abortIn m

/-- SH_CLOSE. -/
def Dev.closeIn (d : Dev) (m : ShareMsg) : Dev :=
  d.shareTake m (m.kind = 0x20 && m.slot = 0 && m.round = 0 && m.serial = 0) fun d _ => d.closeSession m.session.toNat true 0x20

def execShClose (m : ShareMsg) (s : State) : Host.Outcome State Fault Refusal := s.onDev fun d => d.closeIn m

/-! ### Timers (07 R227, R231, R232) -/

/-- ROUND_TIMEOUT. In replay nothing was sent, so nothing is awaited (07 R236). -/
def Dev.roundTimeout (d : Dev) (slot : Nat) : Dev :=
  match d.exchange slot with
  | none => d
  | some e =>
    if d.replaying ∨ !(e.state = .awaitingAck ∨ e.state = .inRound ∨ e.state = .awaitingIn) then d
    else if e.resends < d.reg 0x5800 4 then
      match d.session e.session with
      | some s => (d.sendShare s.ep e.lastKind e.lastMsg).putExchange slot { e with resends := e.resends + 1 }
      | none => d
    else d.failExchange slot true e.lastKind.toNat

def execRoundTimeout (slot : Nat) (s : State) : Host.Outcome State Fault Refusal := s.onDev fun d => d.roundTimeout slot

/-- EXCHANGE_DEADLINE: an exchange that is not complete at its deadline tick. -/
def Dev.deadlineTick (d : Dev) (slot : Nat) : Dev :=
  match d.exchange slot with
  | none => d
  | some e =>
    if d.replaying ∨ !e.state.open_ ∨ d.tickNumber < e.deadline then d
    else d.failExchange slot true e.lastKind.toNat

def execExchangeDeadline (slot : Nat) (s : State) : Host.Outcome State Fault Refusal := s.onDev fun d => d.deadlineTick slot

/-- SLOT_RELEASE: 16 ticks after the deadline tick. -/
def Dev.slotRelease (d : Dev) (slot : Nat) : Dev :=
  match d.exchange slot with
  | none => d
  | some e => if e.deadline + 16 ≤ d.tickNumber then d.releaseSlot slot else d

def execSlotRelease (slot : Nat) (s : State) : Host.Outcome State Fault Refusal := s.onDev fun d => d.slotRelease slot

end Sys2Proof.Machine
end

