-- ==== Sys2Proof/Machine/Tin.lean ====
section
/-! DEFINITION. Tin: its instructions, its control registers and bank ownership requests (08 R251-R256, 10 R323-R325). -/

namespace Sys2Proof.Machine

/-- Write a register and go on to the next instruction. -/
def Dev.tinResult (d : Dev) (n : Nat) (rd : BitVec 5) (v : Word) : Dev :=
  (d.modCore n fun c => c.setG rd v).goOn n .tin

/-- An ALU instruction: RD becomes a function of RA and RB. -/
def Dev.tinAlu (d : Dev) (n : Nat) (rd ra rb : BitVec 5) (f : Word → Word → Word) : Dev :=
  d.issue n .tin fun c => d.tinResult n rd (f (c.getG ra) (c.getG rb))

/-- An immediate instruction: RD becomes a function of RA. -/
def Dev.tinImm (d : Dev) (n : Nat) (rd ra : BitVec 5) (f : Word → Word) : Dev :=
  d.issue n .tin fun c => d.tinResult n rd (f (c.getG ra))

def execAluAdd (core : Nat) (rd ra rb : BitVec 5) (s : State) : Host.Outcome State Fault Refusal :=
  s.onDev fun d => d.tinAlu core rd ra rb fun x y => x + y

def execAluSub (core : Nat) (rd ra rb : BitVec 5) (s : State) : Host.Outcome State Fault Refusal :=
  s.onDev fun d => d.tinAlu core rd ra rb fun x y => x - y

def execAluAnd (core : Nat) (rd ra rb : BitVec 5) (s : State) : Host.Outcome State Fault Refusal :=
  s.onDev fun d => d.tinAlu core rd ra rb fun x y => x &&& y

def execAluOr (core : Nat) (rd ra rb : BitVec 5) (s : State) : Host.Outcome State Fault Refusal :=
  s.onDev fun d => d.tinAlu core rd ra rb fun x y => x ||| y

def execAluXor (core : Nat) (rd ra rb : BitVec 5) (s : State) : Host.Outcome State Fault Refusal :=
  s.onDev fun d => d.tinAlu core rd ra rb fun x y => x ^^^ y

def execAluSll (core : Nat) (rd ra rb : BitVec 5) (s : State) : Host.Outcome State Fault Refusal :=
  s.onDev fun d => d.tinAlu core rd ra rb fun x y => x <<< (y.toNat % 64)

def execAluSrl (core : Nat) (rd ra rb : BitVec 5) (s : State) : Host.Outcome State Fault Refusal :=
  s.onDev fun d => d.tinAlu core rd ra rb fun x y => x >>> (y.toNat % 64)

def execAluSra (core : Nat) (rd ra rb : BitVec 5) (s : State) : Host.Outcome State Fault Refusal :=
  s.onDev fun d => d.tinAlu core rd ra rb fun x y => x.sshiftRight (y.toNat % 64)

def execAluSlt (core : Nat) (rd ra rb : BitVec 5) (s : State) : Host.Outcome State Fault Refusal :=
  s.onDev fun d => d.tinAlu core rd ra rb fun x y => if x.slt y then 1 else 0

def execAluSltu (core : Nat) (rd ra rb : BitVec 5) (s : State) : Host.Outcome State Fault Refusal :=
  s.onDev fun d => d.tinAlu core rd ra rb fun x y => if x.ult y then 1 else 0

def execAluMul (core : Nat) (rd ra rb : BitVec 5) (s : State) : Host.Outcome State Fault Refusal :=
  s.onDev fun d => d.tinAlu core rd ra rb fun x y => x * y

def execAluMulhu (core : Nat) (rd ra rb : BitVec 5) (s : State) : Host.Outcome State Fault Refusal :=
  s.onDev fun d => d.tinAlu core rd ra rb fun x y => BitVec.ofNat 64 (x.toNat * y.toNat / 2 ^ 64)

def execAluDivu (core : Nat) (rd ra rb : BitVec 5) (s : State) : Host.Outcome State Fault Refusal :=
  s.onDev fun d => d.tinAlu core rd ra rb fun x y => if y = 0 then BitVec.allOnes 64 else x / y

def execAluRemu (core : Nat) (rd ra rb : BitVec 5) (s : State) : Host.Outcome State Fault Refusal :=
  s.onDev fun d => d.tinAlu core rd ra rb fun x y => if y = 0 then x else x % y

def execAddi (core : Nat) (rd ra : BitVec 5) (imm : BitVec 16) (s : State) : Host.Outcome State Fault Refusal :=
  s.onDev fun d => d.tinImm core rd ra fun x => x + imm.signExtend 64

def execAndi (core : Nat) (rd ra : BitVec 5) (imm : BitVec 16) (s : State) : Host.Outcome State Fault Refusal :=
  s.onDev fun d => d.tinImm core rd ra fun x => x &&& imm.zeroExtend 64

def execOri (core : Nat) (rd ra : BitVec 5) (imm : BitVec 16) (s : State) : Host.Outcome State Fault Refusal :=
  s.onDev fun d => d.tinImm core rd ra fun x => x ||| imm.zeroExtend 64

def execXori (core : Nat) (rd ra : BitVec 5) (imm : BitVec 16) (s : State) : Host.Outcome State Fault Refusal :=
  s.onDev fun d => d.tinImm core rd ra fun x => x ^^^ imm.zeroExtend 64

def execSlti (core : Nat) (rd ra : BitVec 5) (imm : BitVec 16) (s : State) : Host.Outcome State Fault Refusal :=
  s.onDev fun d => d.tinImm core rd ra fun x => if x.slt (imm.signExtend 64) then 1 else 0

def execShiLeft (core : Nat) (rd ra : BitVec 5) (amount : BitVec 6) (s : State) : Host.Outcome State Fault Refusal :=
  s.onDev fun d => d.tinImm core rd ra fun x => x <<< amount.toNat

def execShiLogicalRight (core : Nat) (rd ra : BitVec 5) (amount : BitVec 6) (s : State) : Host.Outcome State Fault Refusal :=
  s.onDev fun d => d.tinImm core rd ra fun x => x >>> amount.toNat

def execShiArithmeticRight (core : Nat) (rd ra : BitVec 5) (amount : BitVec 6) (s : State) : Host.Outcome State Fault Refusal :=
  s.onDev fun d => d.tinImm core rd ra fun x => x.sshiftRight amount.toNat

def execLui (core : Nat) (rd : BitVec 5) (imm : BitVec 16) (s : State) : Host.Outcome State Fault Refusal :=
  s.onDev fun d => d.tinImm core rd 0 fun _ => imm.signExtend 64 <<< 16

/-! ### Loads and stores of its own data memory (08 R251) -/

/-- An access of `n` bytes at an offset is aligned and inside data memory. -/
def tinAccessOk (off n : Nat) : Bool := off % n = 0 && off + n ≤ 0x10000

/-- LDB, LDH, LDW, LDD. -/
def Dev.tinLoad (d : Dev) (core n : Nat) (rd ra : BitVec 5) (imm : BitVec 16) : Dev :=
  d.issue core .tin fun c =>
    let off := (c.getG ra + imm.signExtend 64).toNat
    if tinAccessOk off n then d.tinResult core rd (BitVec.ofNat 64 (d.rdLe (coreAddr core off) n))
    else d.faultHere core .tin 0x03

/-- STB, STH, STW, STD. -/
def Dev.tinStore (d : Dev) (core n : Nat) (rs ra : BitVec 5) (imm : BitVec 16) : Dev :=
  d.issue core .tin fun c =>
    let off := (c.getG ra + imm.signExtend 64).toNat
    if tinAccessOk off n then (d.wr (coreAddr core off) (leBytes n (c.getG rs).toNat)).goOn core .tin
    else d.faultHere core .tin 0x03

def execLdb (core : Nat) (rd ra : BitVec 5) (imm : BitVec 16) (s : State) : Host.Outcome State Fault Refusal :=
  s.onDev fun d => d.tinLoad core 1 rd ra imm

def execLdh (core : Nat) (rd ra : BitVec 5) (imm : BitVec 16) (s : State) : Host.Outcome State Fault Refusal :=
  s.onDev fun d => d.tinLoad core 2 rd ra imm

def execLdw (core : Nat) (rd ra : BitVec 5) (imm : BitVec 16) (s : State) : Host.Outcome State Fault Refusal :=
  s.onDev fun d => d.tinLoad core 4 rd ra imm

def execLdd (core : Nat) (rd ra : BitVec 5) (imm : BitVec 16) (s : State) : Host.Outcome State Fault Refusal :=
  s.onDev fun d => d.tinLoad core 8 rd ra imm

def execStb (core : Nat) (rs ra : BitVec 5) (imm : BitVec 16) (s : State) : Host.Outcome State Fault Refusal :=
  s.onDev fun d => d.tinStore core 1 rs ra imm

def execSth (core : Nat) (rs ra : BitVec 5) (imm : BitVec 16) (s : State) : Host.Outcome State Fault Refusal :=
  s.onDev fun d => d.tinStore core 2 rs ra imm

def execStw (core : Nat) (rs ra : BitVec 5) (imm : BitVec 16) (s : State) : Host.Outcome State Fault Refusal :=
  s.onDev fun d => d.tinStore core 4 rs ra imm

def execStd (core : Nat) (rs ra : BitVec 5) (imm : BitVec 16) (s : State) : Host.Outcome State Fault Refusal :=
  s.onDev fun d => d.tinStore core 8 rs ra imm

/-! ### Branches and jumps -/

/-- An offset moved by a signed number of instructions; a negative result lies outside every half. -/
def tinTarget (pc : Nat) (off : Int) : Nat :=
  let t := (pc : Int) + 4 * off
  if t < 0 then 2 ^ 64 - 4 * (-t / 4).toNat else t.toNat

/-- A conditional branch. -/
def Dev.tinBranch (d : Dev) (n : Nat) (ra rb : BitVec 5) (off : BitVec 16) (f : Word → Word → Bool) : Dev :=
  d.issue n .tin fun c =>
    if f (c.getG ra) (c.getG rb) then d.tinGo n (tinTarget c.tin.pc off.toInt) else d.goOn n .tin

def execBeq (core : Nat) (ra rb : BitVec 5) (off : BitVec 16) (s : State) : Host.Outcome State Fault Refusal :=
  s.onDev fun d => d.tinBranch core ra rb off fun x y => x == y

def execBne (core : Nat) (ra rb : BitVec 5) (off : BitVec 16) (s : State) : Host.Outcome State Fault Refusal :=
  s.onDev fun d => d.tinBranch core ra rb off fun x y => x != y

def execBlt (core : Nat) (ra rb : BitVec 5) (off : BitVec 16) (s : State) : Host.Outcome State Fault Refusal :=
  s.onDev fun d => d.tinBranch core ra rb off fun x y => x.slt y

def execBge (core : Nat) (ra rb : BitVec 5) (off : BitVec 16) (s : State) : Host.Outcome State Fault Refusal :=
  s.onDev fun d => d.tinBranch core ra rb off fun x y => !x.slt y

def execBltu (core : Nat) (ra rb : BitVec 5) (off : BitVec 16) (s : State) : Host.Outcome State Fault Refusal :=
  s.onDev fun d => d.tinBranch core ra rb off fun x y => x.ult y

def execBgeu (core : Nat) (ra rb : BitVec 5) (off : BitVec 16) (s : State) : Host.Outcome State Fault Refusal :=
  s.onDev fun d => d.tinBranch core ra rb off fun x y => !x.ult y

/-- J. -/
def Dev.tinJump (d : Dev) (n : Nat) (off : BitVec 26) : Dev :=
  d.issue n .tin fun c => d.tinGo n (tinTarget c.tin.pc off.toInt)

def execJ (core : Nat) (off : BitVec 26) (s : State) : Host.Outcome State Fault Refusal := s.onDev fun d => d.tinJump core off

/-- JAL: g31 takes the offset of the next instruction. -/
def Dev.tinLink (d : Dev) (n : Nat) (off : BitVec 26) : Dev :=
  d.issue n .tin fun c =>
    (d.setCore n (c.setG 31 (BitVec.ofNat 64 (c.tin.pc + 4)))).tinGo n (tinTarget c.tin.pc off.toInt)

def execJal (core : Nat) (off : BitVec 26) (s : State) : Host.Outcome State Fault Refusal := s.onDev fun d => d.tinLink core off

/-- JR. -/
def Dev.tinJumpReg (d : Dev) (n : Nat) (ra : BitVec 5) (imm : BitVec 16) : Dev :=
  d.issue n .tin fun c => d.tinGo n (c.getG ra + imm.signExtend 64 * 4).toNat

def execJr (core : Nat) (ra : BitVec 5) (imm : BitVec 16) (s : State) : Host.Outcome State Fault Refusal :=
  s.onDev fun d => d.tinJumpReg core ra imm

/-! ### Control registers (08 R253, R254) -/

/-- OWN_MAP of a core (10 R323): the banks it owns or shares, and whether its own handover is pending. -/
def Dev.ownMap (d : Dev) (n : Nat) : Nat :=
  (List.range 32).foldl (fun w b =>
    let o := d.bankOwner (n / 16) b
    if o = n % 16 ∨ o = 0x10 then w + 2 ^ b else w) 0 + (if d.ownPending n then 2 ^ 32 else 0)

/-- The value of a control register (08, Tin control registers). -/
def Dev.controlReg (d : Dev) (n : Nat) (c : Core) (index : Nat) : Word :=
  match index with
  | 0x00 => BitVec.ofNat 64 n
  | 0x01 => BitVec.ofNat 64 d.tickNumber
  | 0x02 => BitVec.ofNat 64 (d.clock - c.barrierAt)
  | 0x03 => BitVec.ofNat 64 (c.activeSet.getD 0xFF)
  | 0x04 => BitVec.ofNat 64 c.logN
  | 0x05 => c.lastSel.zeroExtend 64
  | 0x06 => BitVec.ofNat 64 ((List.range 16).foldl (fun w e => w + (tget c.events e 0).toNat * 16 ^ e) 0)
  | 0x07 => BitVec.ofNat 64 ((if c.acc.run = .running then 1 else 0) + (if c.exe.run = .running then 2 else 0) +
      (if c.call.isSome then 4 else 0))
  | 0x09 => BitVec.ofNat 64 (d.ownMap n)
  | _ => 0

def execCrr (core : Nat) (rd : BitVec 5) (index : BitVec 8) (s : State) : Host.Outcome State Fault Refusal :=
  s.onDev fun d => d.issue core .tin fun c => d.tinResult core rd (d.controlReg core c index.toNat)

/-- CRW of PSET (08 R254, 02 R47). -/
def Dev.selectSet (d : Dev) (n : Nat) (v : Word) : Dev :=
  d.issue n .tin fun c =>
    if d.callRuns n then d.await n .tin [.setLoad]
    else if v.toNat < 16 ∧ (d.live v.toNat).isSome then
      (d.setCore n { c with activeSet := some v.toNat, lastSel := 0 }).goOn n .tin
    else (d.setCore n { c with lastSel := stUncommitted }).goOn n .tin

/-- Banks of a mask that a core may hand over: its own and the shared ones, but for those another core's handover holds
(10 R323). -/
def Dev.handable (d : Dev) (n : Nat) (mask : BitVec 32) : BitVec 32 :=
  BitVec.ofNat 32 ((List.range 32).foldl (fun w b =>
    let o := d.bankOwner (n / 16) b
    if mask.getLsbD b ∧ (o = n % 16 ∨ o = 0x10) ∧ d.handoverOf (n / 16) b = none then w + 2 ^ b else w) 0)

/-- A defined owner code (10 R318). -/
def ownerDefined (o : Nat) : Bool := o ≤ 0x10 || o = 0x1F

/-- CRW of OWN_REQ (10 R323-R325). -/
def Dev.ownRequest (d : Dev) (n : Nat) (v : Word) : Dev :=
  d.issue n .tin fun _ =>
    let owner := bitsAt v.toNat 32 5
    let banks := d.handable n (v.truncate 32)
    if d.ownPending n then d.await n .tin [.handover]
    else if !ownerDefined owner then d.faultHere n .tin 0x0B
    else if banks = 0 then d.goOn n .tin
    else
      (d.modCluster (n / 16) fun x => { x with
        handovers := x.handovers ++ [{ writer := n, banks := banks, owner := BitVec.ofNat 8 owner }] }).goOn n .tin

/-- CRW: LOG_N; the rows of PSET and OWN_REQ act the same whichever row names them (08 R253). -/
def Dev.controlWrite (d : Dev) (n : Nat) (ra : BitVec 5) (index : Nat) : Dev :=
  let v := (d.core n).getG ra
  match index with
  | 0x03 => d.selectSet n v
  | 0x08 => d.ownRequest n v
  | 0x04 =>
    d.issue n .tin fun c =>
      if 12 ≤ v.toNat ∧ v.toNat ≤ 17 then (d.setCore n { c with logN := v.toNat }).goOn n .tin
      else d.faultHere n .tin 0x0B
  | _ => d.issue n .tin fun _ => d.faultHere n .tin 0x0B

def execCrw (core : Nat) (ra : BitVec 5) (index : BitVec 8) (s : State) : Host.Outcome State Fault Refusal :=
  s.onDev fun d => d.controlWrite core ra index.toNat

def execCrwPset (core : Nat) (ra : BitVec 5) (s : State) : Host.Outcome State Fault Refusal :=
  s.onDev fun d => d.selectSet core ((d.core core).getG ra)

def execOwnReq (core : Nat) (ra : BitVec 5) (s : State) : Host.Outcome State Fault Refusal :=
  s.onDev fun d => d.ownRequest core ((d.core core).getG ra)

/-! ### Events and END -/

def execTinSignal (core : Nat) (event : BitVec 4) (s : State) : Host.Outcome State Fault Refusal :=
  s.onDev fun d => d.signal core .tin event

def execTinWait (core : Nat) (event : BitVec 4) (s : State) : Host.Outcome State Fault Refusal :=
  s.onDev fun d => d.waitEvent core .tin event

def execTinEnd (core : Nat) (s : State) : Host.Outcome State Fault Refusal :=
  s.onDev fun d => d.issue core .tin fun _ => d.retireEnd core .tin

end Sys2Proof.Machine
end

