-- ==== Sys2Proof/Machine/Dispatch.lean ====
section
/-! DEFINITION. Each command's meaning, one arm per row of the table. -/

namespace Sys2Proof.Machine

/-- The effect of a command on everything but the queue. -/
def exec (i : Instr) (s : State) : Host.Outcome State Fault Refusal :=
  match i with
  | .powerOn => Sys2Proof.Machine.execPowerOn s
  | .resetNAssert => Sys2Proof.Machine.execResetNAssert s
  | .resetRelease bootMode masterSel => Sys2Proof.Machine.execResetRelease bootMode masterSel s
  | .helloRepeat => Sys2Proof.Machine.execHelloRepeat s
  | .bootOffer src imageId imageLen => Sys2Proof.Machine.execBootOffer src imageId imageLen s
  | .bootReadResend => Sys2Proof.Machine.execBootReadResend s
  | .bootData src imageId offset data => Sys2Proof.Machine.execBootData src imageId offset data s
  | .attemptRetry => Sys2Proof.Machine.execAttemptRetry s
  | .slabInitDone slab => Sys2Proof.Machine.execSlabInitDone slab s
  | .railOutOfTolerance rail => Sys2Proof.Machine.execRailOutOfTolerance rail s
  | .refclkLoss => Sys2Proof.Machine.execRefclkLoss s
  | .pmbusPoll readings => Sys2Proof.Machine.execPmbusPoll readings s
  | .pmbAlert readings => Sys2Proof.Machine.execPmbAlert readings s
  | .sensorSample temps => Sys2Proof.Machine.execSensorSample temps s
  | .powerEstimate energies => Sys2Proof.Machine.execPowerEstimate energies s
  | .ppsEdge timeNs => Sys2Proof.Machine.execPpsEdge timeNs s
  | .ptpMessage event timeNs => Sys2Proof.Machine.execPtpMessage event timeNs s
  | .scrub controller addr found => Sys2Proof.Machine.execScrub controller addr found s
  | .linkUp => Sys2Proof.Machine.execLinkUp s
  | .linkDown => Sys2Proof.Machine.execLinkDown s
  | .arpRequest mac target => Sys2Proof.Machine.execArpRequest mac target s
  | .neighbourSolicitation mac target => Sys2Proof.Machine.execNeighbourSolicitation mac target s
  | .pfcPause prio pause => Sys2Proof.Machine.execPfcPause prio pause s
  | .cwpFrame frame => Sys2Proof.Machine.execCwpFrame frame s
  | .ack ep prio ackTo => Sys2Proof.Machine.execAck ep prio ackTo s
  | .resendTimer ep prio => Sys2Proof.Machine.execResendTimer ep prio s
  | .transportFail ep prio => Sys2Proof.Machine.execTransportFail ep prio s
  | .reassemblyTimeout ep prio msg => Sys2Proof.Machine.execReassemblyTimeout ep prio msg s
  | .request ep prio msg => Sys2Proof.Machine.execRequest ep prio msg s
  | .memWrite ctx addr data => Sys2Proof.Machine.execMemWrite ctx addr data s
  | .memRead ctx addr len ups => Sys2Proof.Machine.execMemRead ctx addr len ups s
  | .dictRead ctx addr len => Sys2Proof.Machine.execDictRead ctx addr len s
  | .dictWrite ctx addr len value => Sys2Proof.Machine.execDictWrite ctx addr len value s
  | .createTensor ctx addr => Sys2Proof.Machine.execCreateTensor ctx addr s
  | .createCopy ctx addr => Sys2Proof.Machine.execCreateCopy ctx addr s
  | .psetCommit ctx pset => Sys2Proof.Machine.execPsetCommit ctx pset s
  | .psetWithdraw ctx pset => Sys2Proof.Machine.execPsetWithdraw ctx pset s
  | .derivationDone pset => Sys2Proof.Machine.execDerivationDone pset s
  | .spOwnSet ctx cluster value => Sys2Proof.Machine.execSpOwnSet ctx cluster value s
  | .libExtLoad ctx addr => Sys2Proof.Machine.execLibExtLoad ctx addr s
  | .libExtRemove ctx => Sys2Proof.Machine.execLibExtRemove ctx s
  | .extCopyDone => Sys2Proof.Machine.execExtCopyDone s
  | .shareCloseTag ctx tag => Sys2Proof.Machine.execShareCloseTag ctx tag s
  | .counterSet ctx value => Sys2Proof.Machine.execCounterSet ctx value s
  | .lossCmd ctx value => Sys2Proof.Machine.execLossCmd ctx value s
  | .errClear ctx value => Sys2Proof.Machine.execErrClear ctx value s
  | .force ctx source value => Sys2Proof.Machine.execForce ctx source value s
  | .ownerEnrol ctx value => Sys2Proof.Machine.execOwnerEnrol ctx value s
  | .ownerProgramDone => Sys2Proof.Machine.execOwnerProgramDone s
  | .secverRaise ctx value => Sys2Proof.Machine.execSecverRaise ctx value s
  | .secverProgramDone => Sys2Proof.Machine.execSecverProgramDone s
  | .attestRequest ctx addr => Sys2Proof.Machine.execAttestRequest ctx addr s
  | .attestReport => Sys2Proof.Machine.execAttestReport s
  | .tickRunStart ctx => Sys2Proof.Machine.execTickRunStart ctx s
  | .tickRunStop ctx => Sys2Proof.Machine.execTickRunStop ctx s
  | .portMode ctx value => Sys2Proof.Machine.execPortMode ctx value s
  | .reqAdmit ctx addr value => Sys2Proof.Machine.execReqAdmit ctx addr value s
  | .nickelSubmitShort ctx addr => Sys2Proof.Machine.execNickelSubmitShort ctx addr s
  | .nickelSubmitLong ctx addr => Sys2Proof.Machine.execNickelSubmitLong ctx addr s
  | .edgeEmit => Sys2Proof.Machine.execEdgeEmit s
  | .readinessDeadline => Sys2Proof.Machine.execReadinessDeadline s
  | .tickSymbol symbol => Sys2Proof.Machine.execTickSymbol symbol s
  | .tickLost => Sys2Proof.Machine.execTickLost s
  | .enterEdge => Sys2Proof.Machine.execEnterEdge s
  | .skipEdge => Sys2Proof.Machine.execSkipEdge s
  | .holdEdge => Sys2Proof.Machine.execHoldEdge s
  | .bankWake cluster bank => Sys2Proof.Machine.execBankWake cluster bank s
  | .frameBarrier => Sys2Proof.Machine.execFrameBarrier s
  | .deviceReady => Sys2Proof.Machine.execDeviceReady s
  | .frameComplete => Sys2Proof.Machine.execFrameComplete s
  | .portTx ups => Sys2Proof.Machine.execPortTx ups s
  | .checkpoint => Sys2Proof.Machine.execCheckpoint s
  | .checkpointStart ups => Sys2Proof.Machine.execCheckpointStart ups s
  | .collective => Sys2Proof.Machine.execCollective s
  | .replayInput => Sys2Proof.Machine.execReplayInput s
  | .ready src ep frame => Sys2Proof.Machine.execReady src ep frame s
  | .peerWrite src ep msg addr data bad => Sys2Proof.Machine.execPeerWrite src ep msg addr data bad s
  | .peerDone src ep msg status => Sys2Proof.Machine.execPeerDone src ep msg status s
  | .coll src ep collId step data => Sys2Proof.Machine.execColl src ep collId step data s
  | .ckptData src ep area seq offset data => Sys2Proof.Machine.execCkptData src ep area seq offset data s
  | .ckptEnd src ep msg area seq header => Sys2Proof.Machine.execCkptEnd src ep msg area seq header s
  | .shHello ep body => Sys2Proof.Machine.execShHello ep body s
  | .shReport session => Sys2Proof.Machine.execShReport session s
  | .shBind m => Sys2Proof.Machine.execShBind m s
  | .bindTimeout session => Sys2Proof.Machine.execBindTimeout session s
  | .shAck m => Sys2Proof.Machine.execShAck m s
  | .shReply m => Sys2Proof.Machine.execShReply m s
  | .shIn m => Sys2Proof.Machine.execShIn m s
  | .shAbort m => Sys2Proof.Machine.execShAbort m s
  | .shClose m => Sys2Proof.Machine.execShClose m s
  | .roundTimeout slot => Sys2Proof.Machine.execRoundTimeout slot s
  | .exchangeDeadline slot => Sys2Proof.Machine.execExchangeDeadline slot s
  | .slotRelease slot => Sys2Proof.Machine.execSlotRelease slot s
  | .sealedJob => Sys2Proof.Machine.execSealedJob s
  | .faultClassify => Sys2Proof.Machine.execFaultClassify s
  | .blockResetEnd block => Sys2Proof.Machine.execBlockResetEnd block s
  | .chipReset => Sys2Proof.Machine.execChipReset s
  | .chipResetEnd => Sys2Proof.Machine.execChipResetEnd s
  | .coreDeadlock core => Sys2Proof.Machine.execCoreDeadlock core s
  | .coreExit core => Sys2Proof.Machine.execCoreExit core s
  | .handoverComplete cluster writer => Sys2Proof.Machine.execHandoverComplete cluster writer s
  | .agTransferDone core queue => Sys2Proof.Machine.execAgTransferDone core queue s
  | .aluAdd core rd ra rb => Sys2Proof.Machine.execAluAdd core rd ra rb s
  | .aluSub core rd ra rb => Sys2Proof.Machine.execAluSub core rd ra rb s
  | .aluAnd core rd ra rb => Sys2Proof.Machine.execAluAnd core rd ra rb s
  | .aluOr core rd ra rb => Sys2Proof.Machine.execAluOr core rd ra rb s
  | .aluXor core rd ra rb => Sys2Proof.Machine.execAluXor core rd ra rb s
  | .aluSll core rd ra rb => Sys2Proof.Machine.execAluSll core rd ra rb s
  | .aluSrl core rd ra rb => Sys2Proof.Machine.execAluSrl core rd ra rb s
  | .aluSra core rd ra rb => Sys2Proof.Machine.execAluSra core rd ra rb s
  | .aluSlt core rd ra rb => Sys2Proof.Machine.execAluSlt core rd ra rb s
  | .aluSltu core rd ra rb => Sys2Proof.Machine.execAluSltu core rd ra rb s
  | .aluMul core rd ra rb => Sys2Proof.Machine.execAluMul core rd ra rb s
  | .aluMulhu core rd ra rb => Sys2Proof.Machine.execAluMulhu core rd ra rb s
  | .aluDivu core rd ra rb => Sys2Proof.Machine.execAluDivu core rd ra rb s
  | .aluRemu core rd ra rb => Sys2Proof.Machine.execAluRemu core rd ra rb s
  | .addi core rd ra imm => Sys2Proof.Machine.execAddi core rd ra imm s
  | .andi core rd ra imm => Sys2Proof.Machine.execAndi core rd ra imm s
  | .ori core rd ra imm => Sys2Proof.Machine.execOri core rd ra imm s
  | .xori core rd ra imm => Sys2Proof.Machine.execXori core rd ra imm s
  | .shiLeft core rd ra amount => Sys2Proof.Machine.execShiLeft core rd ra amount s
  | .shiLogicalRight core rd ra amount => Sys2Proof.Machine.execShiLogicalRight core rd ra amount s
  | .shiArithmeticRight core rd ra amount => Sys2Proof.Machine.execShiArithmeticRight core rd ra amount s
  | .lui core rd imm => Sys2Proof.Machine.execLui core rd imm s
  | .slti core rd ra imm => Sys2Proof.Machine.execSlti core rd ra imm s
  | .ldb core rd ra imm => Sys2Proof.Machine.execLdb core rd ra imm s
  | .ldh core rd ra imm => Sys2Proof.Machine.execLdh core rd ra imm s
  | .ldw core rd ra imm => Sys2Proof.Machine.execLdw core rd ra imm s
  | .ldd core rd ra imm => Sys2Proof.Machine.execLdd core rd ra imm s
  | .stb core rs ra imm => Sys2Proof.Machine.execStb core rs ra imm s
  | .sth core rs ra imm => Sys2Proof.Machine.execSth core rs ra imm s
  | .stw core rs ra imm => Sys2Proof.Machine.execStw core rs ra imm s
  | .std core rs ra imm => Sys2Proof.Machine.execStd core rs ra imm s
  | .beq core ra rb off => Sys2Proof.Machine.execBeq core ra rb off s
  | .bne core ra rb off => Sys2Proof.Machine.execBne core ra rb off s
  | .blt core ra rb off => Sys2Proof.Machine.execBlt core ra rb off s
  | .bge core ra rb off => Sys2Proof.Machine.execBge core ra rb off s
  | .bltu core ra rb off => Sys2Proof.Machine.execBltu core ra rb off s
  | .bgeu core ra rb off => Sys2Proof.Machine.execBgeu core ra rb off s
  | .j core off => Sys2Proof.Machine.execJ core off s
  | .jal core off => Sys2Proof.Machine.execJal core off s
  | .jr core ra imm => Sys2Proof.Machine.execJr core ra imm s
  | .crr core rd index => Sys2Proof.Machine.execCrr core rd index s
  | .crw core ra index => Sys2Proof.Machine.execCrw core ra index s
  | .crwPset core ra => Sys2Proof.Machine.execCrwPset core ra s
  | .ownReq core ra => Sys2Proof.Machine.execOwnReq core ra s
  | .tinSignal core event => Sys2Proof.Machine.execTinSignal core event s
  | .tinWait core event => Sys2Proof.Machine.execTinWait core event s
  | .tinEnd core => Sys2Proof.Machine.execTinEnd core s
  | .accNop core => Sys2Proof.Machine.execAccNop core s
  | .ld core ag queue ups => Sys2Proof.Machine.execLd core ag queue ups s
  | .st core ag queue => Sys2Proof.Machine.execSt core ag queue s
  | .accAgset core ag ovr greg offset => Sys2Proof.Machine.execAccAgset core ag ovr greg offset s
  | .fence core => Sys2Proof.Machine.execFence core s
  | .yield core => Sys2Proof.Machine.execYield core s
  | .accLoop core csrc greg len count => Sys2Proof.Machine.execAccLoop core csrc greg len count s
  | .accSignal core event => Sys2Proof.Machine.execAccSignal core event s
  | .accWait core event => Sys2Proof.Machine.execAccWait core event s
  | .accEnd core => Sys2Proof.Machine.execAccEnd core s
  | .exeNop core => Sys2Proof.Machine.execExeNop core s
  | .madd core f => Sys2Proof.Machine.execMadd core f s
  | .msub core f => Sys2Proof.Machine.execMsub core f s
  | .mneg core f => Sys2Proof.Machine.execMneg core f s
  | .mmul core f => Sys2Proof.Machine.execMmul core f s
  | .mmac core f => Sys2Proof.Machine.execMmac core f s
  | .mtom core f => Sys2Proof.Machine.execMtom core f s
  | .mfrom core f => Sys2Proof.Machine.execMfrom core f s
  | .bct core f => Sys2Proof.Machine.execBct core f s
  | .bgs core f => Sys2Proof.Machine.execBgs core f s
  | .permRotate core f amt => Sys2Proof.Machine.execPermRotate core f amt s
  | .permReverse core f amt => Sys2Proof.Machine.execPermReverse core f amt s
  | .permBitReverse core f amt => Sys2Proof.Machine.execPermBitReverse core f amt s
  | .permXor core f amt => Sys2Proof.Machine.execPermXor core f amt s
  | .permBroadcast core f amt => Sys2Proof.Machine.execPermBroadcast core f amt s
  | .permInterleaveLow core f amt => Sys2Proof.Machine.execPermInterleaveLow core f amt s
  | .permInterleaveHigh core f amt => Sys2Proof.Machine.execPermInterleaveHigh core f amt s
  | .permDeinterleaveEven core f amt => Sys2Proof.Machine.execPermDeinterleaveEven core f amt s
  | .permDeinterleaveOdd core f amt => Sys2Proof.Machine.execPermDeinterleaveOdd core f amt s
  | .mov core f => Sys2Proof.Machine.execMov core f s
  | .vzero core f => Sys2Proof.Machine.execVzero core f s
  | .cmac core f fmt => Sys2Proof.Machine.execCmac core f fmt s
  | .cmacBs core f fmt => Sys2Proof.Machine.execCmacBs core f fmt s
  | .cvt core f fromType toType => Sys2Proof.Machine.execCvt core f fromType toType s
  | .pacc core f agsel => Sys2Proof.Machine.execPacc core f agsel s
  | .exeAgset core ag ovr greg offset => Sys2Proof.Machine.execExeAgset core ag ovr greg offset s
  | .exeLoop core csrc greg len count => Sys2Proof.Machine.execExeLoop core csrc greg len count s
  | .exeSignal core event => Sys2Proof.Machine.execExeSignal core event s
  | .exeWait core event => Sys2Proof.Machine.execExeWait core event s
  | .exeEnd core => Sys2Proof.Machine.execExeEnd core s
  | .ntt core args link => Sys2Proof.Machine.execNtt core args link s
  | .intt core args link => Sys2Proof.Machine.execIntt core args link s
  | .add core args => Sys2Proof.Machine.execAdd core args s
  | .sub core args => Sys2Proof.Machine.execSub core args s
  | .neg core args => Sys2Proof.Machine.execNeg core args s
  | .addPlain core args => Sys2Proof.Machine.execAddPlain core args s
  | .mulPlain core args => Sys2Proof.Machine.execMulPlain core args s
  | .mul core args => Sys2Proof.Machine.execMul core args s
  | .axpy core args => Sys2Proof.Machine.execAxpy core args s
  | .drop core args => Sys2Proof.Machine.execDrop core args s
  | .rescale core args link => Sys2Proof.Machine.execRescale core args link s
  | .bconv core args link => Sys2Proof.Machine.execBconv core args link s
  | .relin core args link => Sys2Proof.Machine.execRelin core args link s
  | .rotate core args link => Sys2Proof.Machine.execRotate core args link s
  | .conj core args link => Sys2Proof.Machine.execConj core args link s
  | .kswitch core args link => Sys2Proof.Machine.execKswitch core args link s
  | .evalPoly core args link => Sys2Proof.Machine.execEvalPoly core args link s
  | .bootStepFull core args link => Sys2Proof.Machine.execBootStepFull core args link s
  | .bootStepHalfE core args link => Sys2Proof.Machine.execBootStepHalfE core args link s
  | .bootStepS2cOnly core args link => Sys2Proof.Machine.execBootStepS2cOnly core args link s
  | .elecBr core args => Sys2Proof.Machine.execElecBr core args s
  | .elecPack core args link => Sys2Proof.Machine.execElecPack core args link s
  | .ringSwitch core args link => Sys2Proof.Machine.execRingSwitch core args link s
  | .shareOut core args => Sys2Proof.Machine.execShareOut core args s
  | .shareIn core args => Sys2Proof.Machine.execShareIn core args s
  | .extensionRoutine core routine args => Sys2Proof.Machine.execExtensionRoutine core routine args s
  | .callReturn cluster => Sys2Proof.Machine.execCallReturn cluster s
  | .streamOpen channel ups => Sys2Proof.Machine.execStreamOpen channel ups s
  | .streamAttach channel => Sys2Proof.Machine.execStreamAttach channel s
  | .dataPhaseStart channel ups => Sys2Proof.Machine.execDataPhaseStart channel ups s
  | .keyStreamClose channel => Sys2Proof.Machine.execKeyStreamClose channel s
  | .streamCreate cluster index => Sys2Proof.Machine.execStreamCreate cluster index s
  | .move cluster index ups => Sys2Proof.Machine.execMove cluster index ups s
  | .copy cluster index ups => Sys2Proof.Machine.execCopy cluster index ups s
  | .window cluster index ups => Sys2Proof.Machine.execWindow cluster index ups s
  | .ctMove cluster index ups => Sys2Proof.Machine.execCtMove cluster index ups s
  | .streamDone cluster index => Sys2Proof.Machine.execStreamDone cluster index s
  | .map cluster => Sys2Proof.Machine.execMap cluster s
  | .encode cluster => Sys2Proof.Machine.execEncode cluster s
  | .decode cluster => Sys2Proof.Machine.execDecode cluster s
  | .veJobDone cluster => Sys2Proof.Machine.execVeJobDone cluster s
  | .sgdm unit ups => Sys2Proof.Machine.execSgdm unit ups s
  | .adamw unit ups => Sys2Proof.Machine.execAdamw unit ups s
  | .pstat unit ups => Sys2Proof.Machine.execPstat unit ups s
  | .proot unit ups => Sys2Proof.Machine.execProot unit ups s
  | .prootCholesky unit ups => Sys2Proof.Machine.execProotCholesky unit ups s
  | .psgdm unit ups => Sys2Proof.Machine.execPsgdm unit ups s
  | .emb unit ups => Sys2Proof.Machine.execEmb unit ups s
  | .encAxpy unit ups => Sys2Proof.Machine.execEncAxpy unit ups s
  | .updateCmdDone unit => Sys2Proof.Machine.execUpdateCmdDone unit s
  | .fill => Sys2Proof.Machine.execFill s
  | .load => Sys2Proof.Machine.execLoad s
  | .store => Sys2Proof.Machine.execStore s
  | .clear => Sys2Proof.Machine.execClear s
  | .nickelMadd => Sys2Proof.Machine.execNickelMadd s
  | .nickelMsub => Sys2Proof.Machine.execNickelMsub s
  | .nickelMmul => Sys2Proof.Machine.execNickelMmul s
  | .minv => Sys2Proof.Machine.execMinv s
  | .mexp => Sys2Proof.Machine.execMexp s
  | .edPubkey => Sys2Proof.Machine.execEdPubkey s
  | .edSign => Sys2Proof.Machine.execEdSign s
  | .edVerify => Sys2Proof.Machine.execEdVerify s
  | .edSmul => Sys2Proof.Machine.execEdSmul s
  | .edSmulBase => Sys2Proof.Machine.execEdSmulBase s
  | .edAdd => Sys2Proof.Machine.execEdAdd s
  | .sha512 => Sys2Proof.Machine.execSha512 s
  | .nickelJobDone => Sys2Proof.Machine.execNickelJobDone s
  | .bypass => Sys2Proof.Machine.execBypass s
  | .idcode => Sys2Proof.Machine.execIdcode s
  | .samplePreload preload => Sys2Proof.Machine.execSamplePreload preload s
  | .extest => Sys2Proof.Machine.execExtest s
  | .jtagPrivate => Sys2Proof.Machine.execJtagPrivate s
  | .powerDown => Sys2Proof.Machine.execPowerDown s
  | .counterSourceLost => Sys2Proof.Machine.execCounterSourceLost s
  | .fillDone => Sys2Proof.Machine.execFillDone s
  | .trapHandlerExit => Sys2Proof.Machine.execTrapHandlerExit s
  | .managementWatchdogExpiry => Sys2Proof.Machine.execManagementWatchdogExpiry s
  | .sterlingInternalError => Sys2Proof.Machine.execSterlingInternalError s
  | .undefinedOpcode core program => Sys2Proof.Machine.execUndefinedOpcode core program s

end Sys2Proof.Machine
end

