-- ==== Sys2Proof/Machine/Idle.lean ====
section
/-! DEFINITION. What passes while no command waits: one cycle of the arithmetic clock (log entry 2). -/

namespace Sys2Proof.Machine

/-- Whether this cycle takes a step of the slew. The discipline steers COUNTER by at most one count in 1,024 cycles; when
it does so is open (15 R467; log entry 46). -/
def Dev.slewNow (d : Dev) : Bool × Dev :=
  if d.tick.slew = 0 ∨ d.clock < d.tick.slewAt + 1024 then (false, d)
  else
    let (w, d) := d.drawWord
    (w.getLsbD 0, d)

/-- COUNTER counts one cycle: one more where a count is added, none where one is withheld. -/
def Dev.count (d : Dev) : Dev :=
  match d.slewNow with
  | (false, e) => e.setReg 0x2020 0x01 (d.counter + 1)
  | (true, e) =>
    if 0 < d.tick.slew then
      (e.setReg 0x2020 0x01 (d.counter + 2)).modTick fun t => { t with slew := t.slew - 1, slewAt := d.clock }
    else e.modTick fun t => { t with slew := t.slew + 1, slewAt := d.clock }

/-- The clock advances, and outside reset the global counter with it (15 R467). -/
def Dev.cycle (d : Dev) : Dev :=
  let e := { d with clock := d.clock + 1 }
  match d.phase with
  | .service => e.count
  | .boot => e.count
  | _ => e

def idle (s : State) : Host.Outcome State Fault Refusal := s.onDev Dev.cycle

end Sys2Proof.Machine
end

