-- ==== Sys2Proof/Safety.lean ====
section
/-! DEFINITION. What a safe run is, in the terms the statements use: the memory keeps its canonical form, and a fuse that
has been programmed stays programmed (20 R584). -/

namespace Sys2Proof.Machine

/-- Every fuse bit programmed in `f` is programmed in `g`. -/
def Fuses.kept (f g : Fuses) : Prop :=
  (∀ i, f.ownerKeyHash.getLsbD i = true → g.ownerKeyHash.getLsbD i = true) ∧
    ∀ i, f.secver.getLsbD i = true → g.secver.getLsbD i = true

/-- Memory in its canonical form. -/
abbrev State.memWf (s : State) : Prop := s.dev.mem.wf = true

end Sys2Proof.Machine
end

