-- ==== Sys2Proof/Certificates/Slice0/Obligations.lean ====
section
/-! DEFINITION. The statements for the provers. Each docstring says which rules of the spec it formalises, or that it is
the model's own choice. -/

namespace Sys2Proof.Terms

open Sys2Proof.Machine

/-! ### Cores: what the statements speak of -/

/-- Nothing but core `n` differs. -/
def OnlyCore (s t : State) (n : Nat) : Prop :=
  t = { s with dev := { s.dev with cores := t.dev.cores } } ∧ ∀ m, m ≠ n → t.dev.core m = s.dev.core m

/-- An offset at which an instruction of `size` bytes lies in the half (08 R283). -/
def pcIn (size pc : Nat) : Prop := pc + size ≤ 0x4000 ∧ pc % size = 0

/-- Tin at an offset, waiting for nothing. -/
def tinAt (c : Core) (pc : Nat) : Core := { c with tin := { c.tin with pc := pc, waits := [] } }

/-- A core that differs from `c` in Tin's place and in at most the register `rd`, which holds `v`. -/
def WroteG (c c' : Core) (rd : BitVec 5) (v : Word) (pc : Nat) : Prop :=
  c' = tinAt { c with g := c'.g } pc ∧ ∀ r, c'.getG r = if r = rd ∧ r ≠ 0 then v else c.getG r

/-- The register form ALU rows: core, RD, RA, RB, and the result as arithmetic on RA and RB (08, Tin instructions). -/
def aluRow (i : Instr) : Option (Nat × BitVec 5 × BitVec 5 × BitVec 5 × (Word → Word → Word)) :=
  match i with
  | .aluAdd n rd ra rb => some (n, rd, ra, rb, fun x y => .ofNat 64 (x.toNat + y.toNat))
  | .aluSub n rd ra rb => some (n, rd, ra, rb, fun x y => .ofInt 64 ((x.toNat : Int) - y.toNat))
  | .aluAnd n rd ra rb => some (n, rd, ra, rb, fun x y => .ofNat 64 (x.toNat &&& y.toNat))
  | .aluOr n rd ra rb => some (n, rd, ra, rb, fun x y => .ofNat 64 (x.toNat ||| y.toNat))
  | .aluXor n rd ra rb => some (n, rd, ra, rb, fun x y => .ofNat 64 (x.toNat ^^^ y.toNat))
  | .aluSll n rd ra rb => some (n, rd, ra, rb, fun x y => .ofNat 64 (x.toNat * 2 ^ (y.toNat % 64)))
  | .aluSrl n rd ra rb => some (n, rd, ra, rb, fun x y => .ofNat 64 (x.toNat / 2 ^ (y.toNat % 64)))
  | .aluSra n rd ra rb => some (n, rd, ra, rb, fun x y => .ofInt 64 (x.toInt / 2 ^ (y.toNat % 64)))
  | .aluSlt n rd ra rb => some (n, rd, ra, rb, fun x y => if x.toInt < y.toInt then 1 else 0)
  | .aluSltu n rd ra rb => some (n, rd, ra, rb, fun x y => if x.toNat < y.toNat then 1 else 0)
  | .aluMul n rd ra rb => some (n, rd, ra, rb, fun x y => .ofNat 64 (x.toNat * y.toNat))
  | .aluMulhu n rd ra rb => some (n, rd, ra, rb, fun x y => .ofNat 64 (x.toNat * y.toNat / 2 ^ 64))
  | .aluDivu n rd ra rb =>
    some (n, rd, ra, rb, fun x y => if y.toNat = 0 then .ofNat 64 (2 ^ 64 - 1) else .ofNat 64 (x.toNat / y.toNat))
  | .aluRemu n rd ra rb => some (n, rd, ra, rb, fun x y => if y.toNat = 0 then x else .ofNat 64 (x.toNat % y.toNat))
  | _ => none

/-- The immediate rows: core, RD, RA and the result as arithmetic on RA (08, Tin instructions). -/
def immRow (i : Instr) : Option (Nat × BitVec 5 × BitVec 5 × (Word → Word)) :=
  match i with
  | .addi n rd ra imm => some (n, rd, ra, fun x => .ofInt 64 (x.toInt + imm.toInt))
  | .andi n rd ra imm => some (n, rd, ra, fun x => .ofNat 64 (x.toNat &&& imm.toNat))
  | .ori n rd ra imm => some (n, rd, ra, fun x => .ofNat 64 (x.toNat ||| imm.toNat))
  | .xori n rd ra imm => some (n, rd, ra, fun x => .ofNat 64 (x.toNat ^^^ imm.toNat))
  | .shiLeft n rd ra k => some (n, rd, ra, fun x => .ofNat 64 (x.toNat * 2 ^ k.toNat))
  | .shiLogicalRight n rd ra k => some (n, rd, ra, fun x => .ofNat 64 (x.toNat / 2 ^ k.toNat))
  | .shiArithmeticRight n rd ra k => some (n, rd, ra, fun x => .ofInt 64 (x.toInt / 2 ^ k.toNat))
  | .lui n rd imm => some (n, rd, 0, fun _ => .ofInt 64 (imm.toInt * 2 ^ 16))
  | .slti n rd ra imm => some (n, rd, ra, fun x => if x.toInt < imm.toInt then 1 else 0)
  | _ => none

/-- The loads: core, RD, RA, IMM and width in bytes. -/
def loadRow (i : Instr) : Option (Nat × BitVec 5 × BitVec 5 × BitVec 16 × Nat) :=
  match i with
  | .ldb n rd ra imm => some (n, rd, ra, imm, 1)
  | .ldh n rd ra imm => some (n, rd, ra, imm, 2)
  | .ldw n rd ra imm => some (n, rd, ra, imm, 4)
  | .ldd n rd ra imm => some (n, rd, ra, imm, 8)
  | _ => none

/-- The stores: core, source register, RA, IMM and width in bytes. -/
def storeRow (i : Instr) : Option (Nat × BitVec 5 × BitVec 5 × BitVec 16 × Nat) :=
  match i with
  | .stb n rs ra imm => some (n, rs, ra, imm, 1)
  | .sth n rs ra imm => some (n, rs, ra, imm, 2)
  | .stw n rs ra imm => some (n, rs, ra, imm, 4)
  | .std n rs ra imm => some (n, rs, ra, imm, 8)
  | _ => none

/-- The byte offset of a load or a store: RA + IMM, sign-extended. -/
def tinOffset (c : Core) (ra : BitVec 5) (imm : BitVec 16) : Nat := (c.getG ra + imm.signExtend 64).toNat

/-- The branches: core, RA, RB, OFF and the condition. -/
def branchRow (i : Instr) : Option (Nat × BitVec 5 × BitVec 5 × BitVec 16 × (Word → Word → Prop)) :=
  match i with
  | .beq n ra rb off => some (n, ra, rb, off, fun x y => x = y)
  | .bne n ra rb off => some (n, ra, rb, off, fun x y => x ≠ y)
  | .blt n ra rb off => some (n, ra, rb, off, fun x y => x.toInt < y.toInt)
  | .bge n ra rb off => some (n, ra, rb, off, fun x y => y.toInt ≤ x.toInt)
  | .bltu n ra rb off => some (n, ra, rb, off, fun x y => x.toNat < y.toNat)
  | .bgeu n ra rb off => some (n, ra, rb, off, fun x y => y.toNat ≤ x.toNat)
  | _ => none

/-! ### Tin -/

/-- The rows that write a result computed from registers to RD: core, RD, and the result on the core's registers. -/
def resultRow (i : Instr) : Option (Nat × BitVec 5 × (Core → Word)) :=
  match aluRow i with
  | some (n, rd, ra, rb, f) => some (n, rd, fun c => f (c.getG ra) (c.getG rb))
  | none => (immRow i).map fun x => (x.1, x.2.1, fun c => x.2.2.2 (c.getG x.2.2.1))

/-- A program's core after the instruction it stands at: Tin at the next instruction, a stream at the next under its
loops (08 R278). -/
def advanced (c : Core) (p : Program) : Core :=
  match p with
  | .tin => tinAt c (c.tin.pc + 4)
  | _ => c.setProg p (c.prog p).retire

/-- The instruction that follows lies in the half. -/
def goesOn (c : Core) (p : Program) : Prop :=
  match p with
  | .tin => pcIn 4 (c.tin.pc + 4)
  | _ => pcIn 8 (c.prog p).retire.pc

/-- A program waits. -/
def waiting (c : Core) (p : Program) (ws : List Wait) : Core := c.setProg p { c.prog p with waits := ws }

/-- SIGNAL in the three programs: core, program, event. -/
def signalRow (i : Instr) : Option (Nat × Program × BitVec 4) :=
  match i with
  | .tinSignal n e => some (n, .tin, e)
  | .accSignal n e => some (n, .access, e)
  | .exeSignal n e => some (n, .execute, e)
  | _ => none

/-- WAIT in the three programs: core, program, event. -/
def waitRow (i : Instr) : Option (Nat × Program × BitVec 4) :=
  match i with
  | .tinWait n e => some (n, .tin, e)
  | .accWait n e => some (n, .access, e)
  | .exeWait n e => some (n, .execute, e)
  | _ => none

/-- Nothing of a core moves by itself: no transfer and no accumulating write is under way, and no stream waits at END. -/
def still (c : Core) : Prop :=
  c.transfers = [] ∧ c.paccs = [] ∧ c.acc.waits ≠ [.atEnd] ∧ c.exe.waits ≠ [.paccWrites]

/-- The count of an event. -/
def eventCount (c : Core) (e : Nat) : Nat := (tget c.events e 0).toNat

/-- LOOP in the two streams: core, program, CSRC, GREG, LEN, COUNT. -/
def loopRow (i : Instr) : Option (Nat × Program × Bool × BitVec 5 × BitVec 11 × BitVec 32) :=
  match i with
  | .accLoop n csrc greg len count => some (n, .access, csrc, greg, len, count)
  | .exeLoop n csrc greg len count => some (n, .execute, csrc, greg, len, count)
  | _ => none

/-- AGSET in the two streams: core, program, first and last generator, AG, OVR, GREG, descriptor offset. -/
def agsetRow (i : Instr) : Option (Nat × Program × Nat × Nat × BitVec 3 × Bool × BitVec 5 × BitVec 16) :=
  match i with
  | .accAgset n ag ovr greg off => some (n, .access, 0, 5, ag, ovr, greg, off)
  | .exeAgset n ag ovr greg off => some (n, .execute, 6, 7, ag, ovr, greg, off)
  | _ => none

/-! ### Address generators and transfers -/

/-- Lane `i` of vector register code `k` of a slice. -/
def laneOf (c : Core) (sl : Nat) (k : BitVec 4) (i : Nat) : Nat := (c.vreg sl (k.toNat - 8)).getD i 0

/-- A core whose slices in the mask `m` have written `val` to vector register code `dst`, and which went on. -/
def WroteLanes (c c' : Core) (m : BitVec 2) (dst : BitVec 4) (val : Nat → Nat → Nat) (cycles : Nat) : Prop :=
  c' = { c with vregs := c'.vregs, exe := c.exe.retire, busy := c.busy + cycles } ∧
    ∀ sl k, sl < 2 → k < 8 → c'.vreg sl k =
      if m.getLsbD sl = true ∧ k + 8 = dst.toNat then (List.range 64).map (val sl) else c.vreg sl k

/-- The residue rows: core, fields, sources and the result of a lane under q, sparse or not, from its source words (02
R32, R36). -/
def residueRow (i : Instr) : Option (Nat × RFields × List (BitVec 4) × (Nat → Bool → Nat → Nat → Nat → Nat)) :=
  match i with
  | .madd n f => some (n, f, [f.sa, f.sb], fun q _ x y _ => (x + y) % q)
  | .msub n f => some (n, f, [f.sa, f.sb], fun q _ x y _ => (((x : Int) - y) % q).toNat)
  | .mneg n f => some (n, f, [f.sa], fun q _ x _ _ => ((-(x : Int)) % q).toNat)
  | .mmul n f =>
    some (n, f, [f.sa, f.sb], fun q sp x y _ => if f.mb && !sp then x * y * radixInv q % q else x * y % q)
  | .mmac n f =>
    some (n, f, [f.sa, f.sb, f.sc],
      fun q sp x y z => if f.mb && !sp then (x * y * radixInv q + z) % q else (x * y + z) % q)
  | .mtom n f => some (n, f, [f.sa], fun q sp x _ _ => if sp then x % q else x * 2 ^ 36 % q)
  | .mfrom n f => some (n, f, [f.sa], fun q sp x _ _ => if sp then x % q else x * radixInv q % q)
  | _ => none

/-- Cycles of a residue row: two for a product of two plain words under a Montgomery modulus, else one (02 R32). -/
def residueCycles (i : Instr) (f : RFields) (sparse : Bool) : Nat :=
  match i with
  | .mmul .. => if f.mb || sparse then 1 else 2
  | .mmac .. => if f.mb || sparse then 1 else 2
  | _ => 1

/-- The rows that move words between lanes: core, fields, sources, and the result of lane i from the lanes of SA and SB
(08, permutation patterns). -/
def permRow (i : Instr) : Option (Nat × RFields × List (BitVec 4) × (Nat → (Nat → Nat) → (Nat → Nat) → Nat)) :=
  match i with
  | .permRotate n f amt => some (n, f, [f.sa], fun j a _ => a ((j + amt.toNat) % 64))
  | .permReverse n f _ => some (n, f, [f.sa], fun j a _ => a (63 - j))
  | .permBitReverse n f _ => some (n, f, [f.sa], fun j a _ => a (brv 6 j))
  | .permXor n f amt => if amt.toNat ≤ 5 then some (n, f, [f.sa], fun j a _ => a (j ^^^ 2 ^ amt.toNat)) else none
  | .permBroadcast n f amt => some (n, f, [f.sa], fun _ a _ => a amt.toNat)
  | .permInterleaveLow n f _ => some (n, f, [f.sa, f.sb], fun j a b => if j % 2 = 0 then a (j / 2) else b ((j - 1) / 2))
  | .permInterleaveHigh n f _ =>
    some (n, f, [f.sa, f.sb], fun j a b => if j % 2 = 0 then a (j / 2 + 32) else b ((j - 1) / 2 + 32))
  | .permDeinterleaveEven n f _ =>
    some (n, f, [f.sa, f.sb], fun j a b => if j < 32 then a (2 * j) else b (2 * (j - 32)))
  | .permDeinterleaveOdd n f _ =>
    some (n, f, [f.sa, f.sb], fun j a b => if j < 32 then a (2 * j + 1) else b (2 * (j - 32) + 1))
  | .mov n f => some (n, f, [f.sa], fun j a _ => a j)
  | .vzero n f => some (n, f, [], fun _ _ _ => 0)
  | _ => none

/-- The butterfly rows: core, fields, whether Cooley-Tukey. -/
def flyRow (i : Instr) : Option (Nat × BFields × Bool) :=
  match i with
  | .bct n f => some (n, f, true)
  | .bgs n f => some (n, f, false)
  | _ => none

/-- The two results of a butterfly on x and y with twiddle w (04 R109). -/
def flyOf (ct : Bool) (q x y w : Nat) : Nat × Nat :=
  if ct then ((x + w * y) % q, (((x : Int) - w * y) % q).toNat) else ((x + y) % q, (((x : Int) - y) * w % q).toNat)

/-- The twiddle exponent of the butterfly whose x sits in a lane of a slice (08 R273). -/
def flyExponent (c : Core) (f : BFields) (sl i : Nat) : Nat :=
  let n2 := 2 ^ (c.logN + 1)
  let iter := if f.lv = 0 then 0 else ((c.exe.loops[f.lv.toNat - 1]?).map (·.iter)).getD 0
  let step := if f.dcode = 0 then 0 else 2 ^ (f.dcode.toNat - 1)
  ((f.e0.toNat + iter * 2 ^ f.ls.toNat) % n2 + (64 * sl + i) * step) % n2

/-- The lane instruction of a row, as the operation that its operand fields name. -/
def laneRow (i : Instr) (c : Core) : Option (Nat × LaneOp) :=
  match i with
  | .madd n f => some (n, residueOp f [f.sa, f.sb] (fun _ => 1) fun q _ x y _ => resAdd q x y)
  | .msub n f => some (n, residueOp f [f.sa, f.sb] (fun _ => 1) fun q _ x y _ => resSub q x y)
  | .mneg n f => some (n, residueOp f [f.sa] (fun _ => 1) fun q _ x _ _ => resNeg q x)
  | .mmul n f => some (n, residueOp f [f.sa, f.sb] (mulCycles f) fun q sp x y _ => laneProduct f.mb q sp x y)
  | .mmac n f =>
    some (n, residueOp f [f.sa, f.sb, f.sc] (mulCycles f) fun q sp x y z => resAdd q (laneProduct f.mb q sp x y) z)
  | .mtom n f => some (n, residueOp f [f.sa] (fun _ => 1) fun q sp x _ _ => resToMont q sp x)
  | .mfrom n f => some (n, residueOp f [f.sa] (fun _ => 1) fun q sp x _ _ => resFromMont q sp x)
  | .bct n f => some (n, butterflyOp true c f)
  | .bgs n f => some (n, butterflyOp false c f)
  | .permRotate n f k => some (n, permOp f false false fun i a _ => a.getD ((i + k.toNat) % 64) 0)
  | .permReverse n f _ => some (n, permOp f false false fun i a _ => a.getD (63 - i) 0)
  | .permBitReverse n f _ => some (n, permOp f false false fun i a _ => a.getD (brv 6 i) 0)
  | .permXor n f k => some (n, permOp f false (decide (5 < k.toNat)) fun i a _ => a.getD (i ^^^ 2 ^ k.toNat) 0)
  | .permBroadcast n f k => some (n, permOp f false false fun _ a _ => a.getD k.toNat 0)
  | .permInterleaveLow n f _ =>
    some (n, permOp f true false fun i a b => if i % 2 = 0 then a.getD (i / 2) 0 else b.getD (i / 2) 0)
  | .permInterleaveHigh n f _ =>
    some (n, permOp f true false fun i a b => if i % 2 = 0 then a.getD (i / 2 + 32) 0 else b.getD (i / 2 + 32) 0)
  | .permDeinterleaveEven n f _ =>
    some (n, permOp f true false fun i a b => if i < 32 then a.getD (2 * i) 0 else b.getD (2 * (i - 32)) 0)
  | .permDeinterleaveOdd n f _ =>
    some (n, permOp f true false fun i a b => if i < 32 then a.getD (2 * i + 1) 0 else b.getD (2 * (i - 32) + 1) 0)
  | .mov n f => some (n, permOp f false false fun i a _ => a.getD i 0)
  | .vzero n f => some (n, zeroOp f)
  | .cmac n f fmt => some (n, cmacOp f fmt.toNat)
  | .cmacBs n f fmt => some (n, cmacBsOp f fmt.toNat)
  | .cvt n f a b => some (n, cvtOp f a.toNat b.toNat)
  | _ => none

/-- What the slices of a lane instruction take from a core, after `draw` free values. -/
def laneTaken (c : Core) (o : LaneOp) (draw : Nat) : Taken × List (Nat × List (List (List Nat))) :=
  c.gather (slicesOf o.slice) o.sources draw

/-- The core after a lane instruction has popped its sources and delivered its results, slice 0 first, and gone on. -/
def laneDone (c : Core) (o : LaneOp) (v : PSetVals) (draw : Nat) : Core :=
  let e := (laneTaken c o draw).2.foldl (fun c s =>
    (o.dests.zip (o.result v s.1 s.2)).foldl (fun c x => c.deliver s.1 x.1 o.clearOut x.2) c)
    (c.popAll (laneTaken c o draw).1)
  { e with busy := e.busy + o.cycles v, exe := e.exe.retire }

/-! ### Lane instructions -/

/-- The CALL rows of the ROM routines and the extensions: core, routine number, ARGS, what the links did (09 R292, R301). -/
def callRow (i : Instr) : Option (Nat × Nat × BitVec 16 × LinkEvent) :=
  match i with
  | .ntt n a l => some (n, 0x001, a, l)
  | .intt n a l => some (n, 0x002, a, l)
  | .add n a => some (n, 0x010, a, .clean)
  | .sub n a => some (n, 0x011, a, .clean)
  | .neg n a => some (n, 0x012, a, .clean)
  | .addPlain n a => some (n, 0x013, a, .clean)
  | .mulPlain n a => some (n, 0x014, a, .clean)
  | .mul n a => some (n, 0x015, a, .clean)
  | .axpy n a => some (n, 0x016, a, .clean)
  | .drop n a => some (n, 0x017, a, .clean)
  | .rescale n a l => some (n, 0x020, a, l)
  | .bconv n a l => some (n, 0x021, a, l)
  | .relin n a l => some (n, 0x030, a, l)
  | .rotate n a l => some (n, 0x031, a, l)
  | .conj n a l => some (n, 0x032, a, l)
  | .kswitch n a l => some (n, 0x033, a, l)
  | .evalPoly n a l => some (n, 0x040, a, l)
  | .bootStepFull n a l => some (n, 0x041, a, l)
  | .bootStepHalfE n a l => some (n, 0x041, a, l)
  | .bootStepS2cOnly n a l => some (n, 0x041, a, l)
  | .elecBr n a => some (n, 0x050, a, .clean)
  | .elecPack n a l => some (n, 0x051, a, l)
  | .ringSwitch n a l => some (n, 0x052, a, l)
  | .shareOut n a => some (n, 0x060, a, .clean)
  | .shareIn n a => some (n, 0x061, a, .clean)
  | .extensionRoutine n r a => some (n, r.toNat, a.block, a.link)
  | _ => none

/-- The PLAN word that a BOOT_STEP row stands for. -/
def bootRow (i : Instr) : Option Nat :=
  match i with
  | .bootStepFull .. => some 0
  | .bootStepHalfE .. => some 1
  | .bootStepS2cOnly .. => some 2
  | _ => none

/-- A row of BOOT_STEP is the row that the PLAN word of the gang's block names; a word above 2 names none, and any row may
stand for its refusal. -/
def planNamed (d : Dev) (i : Instr) (n : Nat) (a : BitVec 16) : Prop :=
  ∀ p, bootRow i = some p → n % 16 ≠ 0 ∨ ((d.argWords n a.toNat).getD 1 0).toNat = p ∨
    2 < ((d.argWords n a.toNat).getD 1 0).toNat

/-- The routine exists: it is in the ROM, or the extension in service declares it. -/
def routineThere (d : Dev) (r : Nat) : Prop :=
  romRoutine r = true ∨ ∃ x, d.lib.inService = some x ∧ ∃ y ∈ x.routines, y.number = r

/-- ARGS names a block of 64 bytes of data memory above the first 256. -/
def argsFit (a : BitVec 16) : Prop := a.toNat % 64 = 0 ∧ 0x100 ≤ a.toNat ∧ a.toNat ≤ 0xFFC0

/-- The core once it has issued the call, and once its call has started, from which on what it has stored can be read. -/
def callIssued (c : Core) (r : Nat) (a : BitVec 16) (l : LinkEvent) (started : Bool) : Core :=
  { c with call := some { routine := r, args := a.toNat, started := started, link := l },
           exe := { c.exe with waits := [.call] }, unfenced := if started then [] else c.unfenced }

/-- The access stream is at YIELD or has retired END, and the core's transfers and accumulating writes are complete. -/
def callMayStart (d : Dev) (n : Nat) : Prop :=
  ((d.core n).atYield = true ∨ (d.core n).acc.run ≠ .running) ∧ (d.core n).transfers = [] ∧ (d.core n).paccs = []

/-- No formed call waits for anything. -/
def noneWaits (d : Dev) : Prop := ∀ c g, (d.cluster c).call = some g → g.phase ≠ .waiting

/-- Word `i` of limb `l` of polynomial `p`. -/
def wordOf (x : Polys) (p l i : Nat) : Nat := ((x.getD p []).getD l []).getD i 0

/-- Ciphertext words of `polys` polynomials of `level` limbs of 2^n words. -/
def wordsShaped (x : Polys) (polys level n : Nat) : Prop :=
  x.length = polys ∧ ∀ p ∈ x, p.length = level ∧ ∀ l ∈ p, l.length = 2 ^ n

/-! ### How a core leaves its frame -/

/-- The rows of a stream list: cluster, index in the list, KIND, upsets that its reads meet, and what its start does. -/
def streamRow (i : Instr) : Option (Nat × Nat × Nat × List Upset × (Dev → StreamRec → Started)) :=
  match i with
  | .streamCreate c k => some (c, k, 0, [], fun d r => d.startCreate c r true)
  | .move c k ups => some (c, k, 1, ups, fun d r => d.startMove c r true false)
  | .copy c k ups => some (c, k, 2, ups, fun d r => d.startCopy c r true)
  | .window c k ups => some (c, k, 3, ups, fun d r => d.startMove c r true true)
  | .ctMove c k ups => some (c, k, 4, ups, fun d r => d.startCtMove c r true)
  | _ => none

/-- No bank makes anyone wait: none wakes, and no handover is under way. -/
def nothingWaits (d : Dev) : Prop := ∀ c, (d.cluster c).handovers = [] ∧ ∀ b, d.bankPower c b ≠ .waking

/-- No stored error waits to be met. -/
def errorFree (d : Dev) : Prop := d.mem.upsets = [] ∧ d.mem.poison = []

/-- The DMA engines may access every byte of a range for cluster `c`. -/
def dmaMay (d : Dev) (k : AccessKind) (c a n : Nat) : Prop := ∀ p ∈ pieceList a n, d.problemAt (dmaFor c p.1) k p.1 = none

/-- A byte after pieces have been laid down in order. -/
def laid (ps : List (Nat × List Byte)) (old : Nat → Byte) (x : Nat) : Byte :=
  ps.foldl (fun v p => if p.1 ≤ x ∧ x < p.1 + p.2.length then p.2.getD (x - p.1) 0 else v) (old x)

/-- The rows of a job list: cluster, KIND, and the job's run. -/
def jobRow (i : Instr) : Option (Nat × Nat × (Dev → VeJob → VeDone)) :=
  match i with
  | .map c => some (c, 0, Dev.runMap)
  | .encode c => some (c, 1, Dev.runEncode)
  | .decode c => some (c, 2, Dev.runDecode)
  | _ => none

/-- The rows of a command list: unit, upsets, whether a record is this row's, and the command's run. -/
def updateRow (i : Instr) : Option (Nat × List Upset × (UpdRec → Prop) × (Dev → UpdRec → UpdDone)) :=
  match i with
  | .sgdm m ups => some (m, ups, fun r => r.op = 1, fun d r => d.runClear m r)
  | .adamw m ups => some (m, ups, fun r => r.op = 2, fun d r => d.runClear m r)
  | .pstat m ups => some (m, ups, fun r => r.op = 3, fun d r => d.runClear m r)
  | .proot m ups => some (m, ups, fun r => r.op = 4 ∧ r.func = false, fun d r => d.runClear m r)
  | .prootCholesky m ups => some (m, ups, fun r => r.op = 4 ∧ r.func = true, fun d r => d.runClear m r)
  | .psgdm m ups => some (m, ups, fun r => r.op = 5, fun d r => d.runClear m r)
  | .emb m ups => some (m, ups, fun r => r.op = 6, fun d r => d.runClear m r)
  | .encAxpy m ups => some (m, ups, fun r => r.op = 0x10, fun d r => d.runAxpy m r)
  | _ => none

/-- The Nickel commands and their operation codes (19 R567). -/
def nickelRow (i : Instr) : Option Nat :=
  match i with
  | .load => some 0x01
  | .store => some 0x02
  | .clear => some 0x03
  | .nickelMadd => some 0x10
  | .nickelMsub => some 0x11
  | .nickelMmul => some 0x12
  | .minv => some 0x13
  | .mexp => some 0x14
  | .edPubkey => some 0x20
  | .edSign => some 0x21
  | .edVerify => some 0x22
  | .edSmul => some 0x23
  | .edSmulBase => some 0x24
  | .edAdd => some 0x25
  | .sha512 => some 0x30
  | _ => none

/-- A signal to a core reaches it: the core is in its frame and the event's count stands below 15. -/
def signalLands (d : Dev) (n : Nat) (e : BitVec 4) : Prop := (d.core n).frame = .inFrame ∧ eventCount (d.core n) e.toNat < 15

/-- START of a record is met: at once, or by an event of a core in its frame whose count is not zero. -/
def startMet (d : Dev) (start core e : Nat) : Prop :=
  start ≠ 1 ∨ (d.core core).frame = .inFrame ∧ 0 < eventCount (d.core core) e

/-- The device after a record's start has taken its event, if it starts on one. -/
def startTaken (d : Dev) (start core e : Nat) : Dev :=
  if start = 1 then d.modCore core fun k => { k with events := tset k.events e (tget k.events e 0 - 1) } else d

/-! ### Bronze key streams -/

/-- Where a call's held banks stand, nothing refuses what a key stream delivers to it. -/
def deliverable (d : Dev) (x : KeyStream) : Prop :=
  ∀ c ∈ d.callLeads x.requested,
    let gang := ((d.cluster c).call.map (·.everywhere)).getD [c]
    d.deliveryProblem (.bronze gang) (gang.flatMap fun i => ((d.cluster i).call.map (·.held)).getD []) = none

/-! ### Device events: what the statements speak of -/

/-- The link is up and no priority is paused: a message goes out when it is sent. -/
def linkOpen (d : Dev) : Prop := d.linkUp = true ∧ d.port.paused = []

/-- Between `d` and `e` exactly one message left the device: to this endpoint, with this class, kind and body. -/
def sentOne (d e : Dev) (ep : Endpoint) (cls : BitVec 4) (kind : BitVec 8) (body : List Byte) : Prop :=
  ∃ m : OutMsg, e.port.sent = d.port.sent ++ [m] ∧ m.ep = ep ∧ m.cls = cls ∧ m.kind = kind ∧ m.body = body ∧
    m.number = d.port.nextMsg

/-- A count after one more event, stopping at the largest value of its entry. -/
def counted (d : Dev) (i k n : Nat) : Nat := min (d.reg i k + n) (2 ^ dictWidth i k - 1)

/-- Nothing listed in memory, every core, cluster, update unit, fault and key at its value after a chip reset. -/
def blank (d : Dev) : Prop :=
  (∀ a, d.mem.byte a = 0) ∧ (∀ n, d.core n = .fresh) ∧ (∀ c, d.cluster c = .fresh) ∧ (∀ m, d.updUnit m = .fresh) ∧
    (∀ k, d.channel k = .fresh) ∧ d.sterling = .fresh ∧ d.exchOpen = [] ∧ d.tick = .fresh ∧ d.port = .fresh ∧
    d.shadow = [] ∧ d.owedWrites = [] ∧ ∀ n, d.slot n = 0

/-- COUNT_FATAL of a fault source, which every reset but power-on keeps (21 R618). -/
def countFatal (i k : Nat) : Prop := 0x6101 ≤ i ∧ i ≤ 0x6119 ∧ k = 5

/-- The body of BOOT_HELLO: device and revision, BOOT_MODE, the attempt, serial, identity key and certificate. -/
def helloBody (d : Dev) : List Byte :=
  beBytes 2 0x7200 ++ beBytes 1 0xA0 ++ beBytes 1 d.boot.mode.toNat ++ beBytes 4 d.boot.attempt.toNat ++
    beBytes 8 Config.serial.toNat ++ d.sterling.identityPub ++ leBytes 64 Config.identityCert.toNat

/-- Where BOOT_HELLO goes: the boot server in BOOT_MODE 0b00, else everyone. -/
def helloTo (d : Dev) : Endpoint := .mac (if d.boot.mode = 0 then Config.bootServer else 0xFFFFFFFFFFFF)

/-- The attempt has failed with a result: BOOT_DONE says so, ERR_N is asserted, and the boot ROM waits to try again. -/
def attemptFailed (d e : Dev) (result : Nat) : Prop :=
  e.boot.step = .waitRetry ∧ e.faults.bootErrn = true ∧
    sentOne d e (.mac d.boot.server) 6 5 (beBytes 8 d.boot.imageId.toNat ++ beBytes 1 result)

/-- The rows that raise a fatal fault at once: source and UNIT (21 R605, 22 R628, R644). -/
def fatalRow (i : Instr) : Option (Nat × Nat) :=
  match i with
  | .railOutOfTolerance j => some (0x16, j)
  | .refclkLoss => some (0x17, 0)
  | .managementWatchdogExpiry => some (0x19, 0)
  | .sterlingInternalError => some (0x13, 0)
  | _ => none

/-- A cluster in reset owes no record: no core was in its frame, and no stream and no job was stopped. -/
def nothingOwed (d : Dev) (c : Nat) : Prop :=
  (∀ k, k < 16 → (d.core (16 * c + k)).frame ≠ .inFrame) ∧ (∀ x ∈ (d.cluster c).streams, x.phase ≠ .owing) ∧
    (d.cluster c).veRun = none ∧ (d.cluster c).veOwed = []

/-- The two rows of a PMBus reading. -/
def railRow (i : Instr) : Option (Bool × List RailReading) :=
  match i with
  | .pmbusPoll rs => some (true, rs)
  | .pmbAlert rs => some (false, rs)
  | _ => none

/-- COUNTER as measured against a time: the rows of the discipline, the source they serve, and the error. -/
def measureRow (d : Dev) (i : Instr) : Option (Nat × Nat × Int) :=
  match i with
  | .ppsEdge ns => some (2, ns, (d.counter : Int) - counterAt ns)
  | .ptpMessage event ns =>
    if event && d.linkUp then some (1, ns, (d.counter : Int) - counterAt ns - signed (d.reg 0x8000 0x0D) 32) else none
  | _ => none

/-- An answer to a request went out: its REQ_ID and its status. -/
def answered (d e : Dev) (ep : Endpoint) (id : Nat) (status : BitVec 8) : Prop :=
  ∃ m : OutMsg, e.port.sent = d.port.sent ++ [m] ∧ m.ep = ep ∧ m.cls = 1 ∧ m.kind = 1 ∧ m.body.take 8 = beBytes 8 id ∧
    m.body.getD 10 0 = status

/-- A command of a context's request has run, with effect `e` on the device and outcome `o`: the outcome is entered in the
request, which ends when nothing is left of it, and beyond `e` nothing but the port changes. -/
def ranTo (s t : State) (k : Nat) (r : Request) (c : HostCmd) (e : Dev) (o : CmdOut) : Prop :=
  t = s.withDev ((e.putRequest k (r.took c o)).settle k r.reqId) ∧ t.dev = { e with port := t.dev.port }

/-- What writes the banks of a cluster while the host reads them. -/
def writersOf (d : Dev) (c : Nat) : List (Nat × Nat) := d.dmaWrites ++ d.callWrites c ++ d.portWrites c

/-- The rows that write one dictionary entry: context, index, subindex, value, and the effect of the accepted write; none
where it waits for the frame's work to end (18 R546). -/
def writeRow (f : Fuses) (i : Instr) : Option (Nat × Nat × Nat × Nat × (Dev → Option Dev)) :=
  match i with
  | .psetCommit x p => some (x, 0x5100 + p, 2, 1, fun d =>
      some ((d.setPset p { d.pset p with waiting := some (.commit (d.committed p) none) }).logDict (0x5100 + p) 2 1))
  | .psetWithdraw x p => some (x, 0x5100 + p, 2, 2, fun d =>
      let e := (d.setPset p { d.pset p with waiting := some .withdraw }).logDict (0x5100 + p) 2 2
      if d.tickRun then some e else if d.frameDone then some (e.applyPset p) else none)
  | .spOwnSet x c v => some (x, 0x3100 + c, 7, v.toNat, fun d =>
      let e := (d.modCluster c fun y => { y with
        ownQueue := y.ownQueue ++ [(v.setWidth 32, .ofNat 8 (v.toNat / 2 ^ 32 % 32))] }).logDict (0x3100 + c) 7 v.toNat
      if d.tickRun then some e else if d.frameDone then some (e.applyOwners c true).payWrites else none)
  | .libExtLoad x a => if a = 0 then none else some (x, 0xA300, 2, a.toNat, fun d =>
      some (((d.setReg 0xA300 1 2).modLib fun y => { y with loading := some (a.toNat, f.ownerKeyHash) }).logDict 0xA300 2
        a.toNat))
  | .libExtRemove x => some (x, 0xA300, 2, 0, fun d =>
      let e := ((d.setReg 0xA300 1 2).modLib fun y => { y with waiting := some none }).logDict 0xA300 2 0
      some (if d.tickRun then e else e.takeExt))
  | .shareCloseTag x v => some (x, 0x5800, 0x0A, v.toNat, fun d => some (d.closeTag v.toNat))
  | .counterSet x v => some (x, 0x2020, 5, v.toNat, fun d =>
      some (((d.setReg 0x2020 1 v.toNat).modTick fun t => { t with slew := 0 }).logDict 0x2020 5 v.toNat))
  | .lossCmd x v => some (x, 0x2070, 1, v.toNat, fun d => some (d.loseDevice v.toNat))
  | .errClear x v => some (x, 0x6000, 8, v.toNat, fun d => some ((d.setReg 0x6000 7 0).logDict 0x6000 8 v.toNat))
  | .force x src v => some (x, 0x6100 + src, 8, v.toNat, fun d => some (d.forceFault src v.toNat))
  | .ownerEnrol x v => some (x, 0xA110, 5, v.toNat, fun d =>
      some ((d.modBoot fun b => { b with ownerProgramming := some ((sha512 d.ownerKey).take 32) }).logDict 0xA110 5 v.toNat))
  | .secverRaise x v => some (x, 0xA110, 8, v.toNat, fun d =>
      some ((d.modBoot fun b => { b with secverProgramming := some v.toNat }).logDict 0xA110 8 v.toNat))
  | .attestRequest x a => some (x, 0xA120, 5, a.toNat, fun d =>
      if d.hostWaits a.toNat 64 then none else some (d.attestRequest a.toNat))
  | .tickRunStart x => some (x, 0x2000, 1, 1, fun d => some d.startTick)
  | .tickRunStop x => some (x, 0x2000, 1, 0, fun d => some (if d.tickRun then (d.logDict 0x2000 1 0).stopTick else d))
  | .portMode x v => some (x, 0x8000, 1, v.toNat, fun d => some (d.retrain v.toNat))
  | .reqAdmit x a v =>
    if 0x1040 ≤ a.toNat / 256 ∧ a.toNat / 256 ≤ 0x1048 ∧ ownRow (a.toNat / 256) (a.toNat % 256) v.toNat then
      some (x, a.toNat / 256, a.toNat % 256, v.toNat, fun d => some (d.applyEntry a.toNat v.toNat true))
    else none
  | .nickelSubmitShort x a => some (x, 0xA000, 1, a.toNat, fun d =>
      some ((d.modNickel fun y => { y with shortQ := y.shortQ ++ [(a.toNat, false)] }).logDict 0xA000 1 a.toNat))
  | .nickelSubmitLong x a => some (x, 0xA000, 2, a.toNat, fun d =>
      some ((d.modNickel fun y => { y with longQ := y.longQ ++ [(a.toNat, false)] }).logDict 0xA000 2 a.toNat))
  | _ => none

/-- A symbol arrives at a device that repeats none. -/
def noRepeat (d : Dev) : Prop := ¬(d.isFollower = true ∧ d.reg 0x2000 8 = 1)

/-- The rows of messages between devices: sender and its endpoint. -/
def peerRow (i : Instr) : Option (BitVec 16 × Endpoint) :=
  match i with
  | .ready src ep _ => some (src, ep)
  | .peerWrite src ep _ _ _ _ => some (src, ep)
  | .peerDone src ep _ _ => some (src, ep)
  | .coll src ep _ _ _ => some (src, ep)
  | .ckptData src ep _ _ _ _ => some (src, ep)
  | .ckptEnd src ep _ _ _ _ => some (src, ep)
  | _ => none

/-- PEER_DONE for a message, with a status. -/
def doneBody (msg : BitVec 32) (status : BitVec 8) : List Byte := leBytes 4 msg.toNat ++ [status] ++ zeroBytes 3

/-- A byte string stands in memory from `a` on, and every other byte is as it was. -/
def laidDown (d e : Dev) (a : Nat) (bs : List Byte) : Prop :=
  ∀ x, e.mem.byte x = if a ≤ x ∧ x < a + bs.length then bs.getD (x - a) 0 else d.mem.byte x

/-- No list of streams, jobs or update commands holds one that has not started. -/
def nothingListed (d : Dev) : Prop :=
  (∀ c, c < 256 → d.reg (0x3200 + c) 2 = 0 ∧ (d.cluster c).veCount ≤ (d.cluster c).veNext) ∧
    ∀ m, m < 8 → (d.updUnit m).count ≤ (d.updUnit m).next

/-- The messages of a live session: the message, its kind, and whether the exchange or the session waits for it (07 R203). -/
def shareRow (d : Dev) (i : Instr) : Option (ShareMsg × BitVec 8 × Bool) :=
  match i with
  | .shAck m => some (m, 0x11, d.awaits m fun s => s = .awaitingAck)
  | .shReply m => some (m, 0x13, d.awaits m fun s => s = .inRound)
  | .shIn m => some (m, 0x15, d.awaits m fun s => s = .awaitingIn)
  | .shAbort m => some (m, 0x1F, d.awaits m ExchState.open_)
  | .shClose m => some (m, 0x20, m.slot = 0 && m.round = 0 && m.serial = 0)
  | _ => none

/-- The device once it has taken a message of a live session: the session answers where the message came from, and will not
take its SEQ again. -/
def shareTaken (d : Dev) (m : ShareMsg) (x : Session) : Dev :=
  (d.consume m.ep 2 m.kind).putSession m.session.toNat { x with ep := m.ep, accepted := m.seq :: x.accepted }

/-! ### Share sessions and exchanges -/

/-- The step after an exchange's message of kind `kind` has been taken: where every share in the spill opens, the next round's
openings go out, or SH_FINAL; where one does not, the exchange fails (07 R212). -/
def carriesOn (s : State) (i : Instr) (g : Dev) (slot kind : Nat) (y : Exchange) : Prop :=
  let f := g.spillCheck slot kind
  (f.2 = true → ∃ t z, exec i s = .next t ∧ t.dev.exchange slot = some z ∧ z.resends = 0 ∧
    (∀ body, f.1.runShare y = .error body → z.state = .inRound ∧ z.round = y.round + 1 ∧ z.lastKind = 0x12) ∧
    (∀ vs, f.1.runShare y = .ok vs → z.state = .awaitingIn ∧ z.lastKind = 0x14)) ∧
  (f.2 = false → ∃ t z, exec i s = .next t ∧ t.dev.exchange slot = some z ∧ z.state = .failedOther ∧
    t.dev.session y.session = none)

end Sys2Proof.Terms

open Sys2Proof Sys2Proof.Machine Sys2Proof.Terms

/-! ### The machine as a whole -/

/-- A step with a command at the front of the queue is that command's effect on the state with the queue's rest. -/
def Obligations.StepRunsFront : Prop :=
  ∀ (s : State) (c : Instr), step { s with pending := c :: s.pending } = exec c s

/-- Every command answers a next state, and none touches the queue. -/
def Obligations.CommandsAnswerAndKeepQueue : Prop :=
  ∀ (i : Instr) (s : State), ∃ t, exec i s = .next t ∧ t.pending = s.pending

/-- A programmed fuse stays programmed: an invariant of every step, idle cycles among them. -/
def Obligations.FusesStayProgrammed : Prop :=
  ∀ (f : Fuses) (s t : State), f.kept s.fuses → step s = .next t → f.kept t.fuses

/-- Right after reset: no byte listed, every dictionary entry at its default, every core between frames with its registers
zero, every bank on and owned by the DMA, nothing in the sticky record, no command waiting; and no programmable fuse set, so
that whatever the fuses of any state hold keeps what they then held (the zero fuses are log entry 4). -/
def Obligations.StateAtReset : Prop :=
  State.reset.pending = [] ∧ State.reset.memWf ∧ (∀ a, State.reset.dev.mem.byte a = 0) ∧
    (∀ i k, k < 256 → State.reset.dev.reg i k = (regDefault i k).toNat) ∧
    (∀ n r, ((State.reset.dev.core n).getG r) = 0 ∧ (State.reset.dev.core n).frame = .between) ∧
    (∀ c b, State.reset.dev.bankOwner c b = 0x1F ∧ State.reset.dev.bankPower c b = .on) ∧
    State.reset.dev.faults.sticky = List.replicate 64 0 ∧
    State.reset.fuses.ownerKeyHash = 0 ∧ State.reset.fuses.secver = 0 ∧ ∀ s : State, State.reset.fuses.kept s.fuses

/-! ### Tin -/

/-- Each register-form and each immediate row of Tin writes its result to RD (nothing where RD is g0), steps to the next
instruction, and changes nothing else: no other register, no event, queue or vector of the core, no other core, no
dictionary entry, no byte of memory. -/
def Obligations.TinArithmeticResult : Prop :=
  ∀ (s : State) (i : Instr) (n : Nat) (rd : BitVec 5) (f : Core → Word),
    resultRow i = some (n, rd, f) → s.dev.mayIssue n .tin = true → pcIn 4 ((s.dev.core n).tin.pc + 4) →
    ∃ t, exec i s = .next t ∧ OnlyCore s t n ∧
      WroteG (s.dev.core n) (t.dev.core n) rd (f (s.dev.core n)) ((s.dev.core n).tin.pc + 4)

/-- A load whose offset is aligned and inside data memory writes the little-endian number at it, zero-extended, to RD, and
changes no memory. A store whose offset is aligned and inside data memory stores the low bytes of its source register, lowest
first, and changes no other byte, no register, and nothing of the core but Tin's place. An access that is not naturally
aligned, or not wholly inside data memory, is a program fault of reason 0x03 at the instruction. -/
def Obligations.TinMemoryAccess : Prop :=
  ∀ (s : State) (i : Instr) (n : Nat) (r ra : BitVec 5) (imm : BitVec 16) (w : Nat), s.dev.mayIssue n .tin = true →
    let off := tinOffset (s.dev.core n) ra imm
    let at_ := coreAddr n off
    (loadRow i = some (n, r, ra, imm, w) → pcIn 4 ((s.dev.core n).tin.pc + 4) → off % w = 0 → off + w ≤ 0x10000 →
      ∃ t, exec i s = .next t ∧ OnlyCore s t n ∧
        WroteG (s.dev.core n) (t.dev.core n) r (BitVec.ofNat 64 (leNat (s.dev.mem.read at_ w)))
          ((s.dev.core n).tin.pc + 4)) ∧
    (storeRow i = some (n, r, ra, imm, w) → pcIn 4 ((s.dev.core n).tin.pc + 4) → off % w = 0 → off + w ≤ 0x10000 →
      ∃ t, exec i s = .next t ∧
        t = { s with dev := { s.dev with cores := t.dev.cores, mem := { s.dev.mem with cells := t.dev.mem.cells } } } ∧
        t.dev.core n = tinAt (s.dev.core n) ((s.dev.core n).tin.pc + 4) ∧
        (∀ m, m ≠ n → t.dev.core m = s.dev.core m) ∧
        ∀ a, t.dev.mem.byte a = if at_ ≤ a ∧ a < at_ + w then
          BitVec.ofNat 8 (((s.dev.core n).getG r).toNat / 256 ^ (a - at_)) else s.dev.mem.byte a) ∧
    (loadRow i = some (n, r, ra, imm, w) ∨ storeRow i = some (n, r, ra, imm, w) →
      ¬(off % w = 0 ∧ off + w ≤ 0x10000) →
      exec i s = .next (s.withDev (s.dev.programFault n .tin 0x03 (s.dev.core n).tin.pc)))

/-- A branch goes to PC + 4 × OFF when its condition holds and to the next instruction when it does not; J, JAL and JR go to
their targets, and JAL also writes the offset of the next instruction to g31. Nothing else changes. -/
def Obligations.TinControlTransfer : Prop :=
  ∀ (s : State) (n pc : Nat), s.dev.mayIssue n .tin = true → pcIn 4 pc →
    (∀ (i : Instr) (ra rb : BitVec 5) (off : BitVec 16) (p : Word → Word → Prop),
      branchRow i = some (n, ra, rb, off, p) →
      (p ((s.dev.core n).getG ra) ((s.dev.core n).getG rb) ∧ (pc : Int) = (s.dev.core n).tin.pc + 4 * off.toInt ∨
        ¬p ((s.dev.core n).getG ra) ((s.dev.core n).getG rb) ∧ pc = (s.dev.core n).tin.pc + 4) →
      ∃ t, exec i s = .next t ∧ OnlyCore s t n ∧ t.dev.core n = tinAt (s.dev.core n) pc) ∧
    (∀ off : BitVec 26, (pc : Int) = (s.dev.core n).tin.pc + 4 * off.toInt →
      (∃ t, exec (.j n off) s = .next t ∧ OnlyCore s t n ∧ t.dev.core n = tinAt (s.dev.core n) pc) ∧
      ∃ t, exec (.jal n off) s = .next t ∧ OnlyCore s t n ∧
        WroteG (s.dev.core n) (t.dev.core n) 31 (BitVec.ofNat 64 ((s.dev.core n).tin.pc + 4)) pc) ∧
    ∀ (ra : BitVec 5) (imm : BitVec 16), pc = ((s.dev.core n).getG ra + imm.signExtend 64 * 4).toNat →
      ∃ t, exec (.jr n ra imm) s = .next t ∧ OnlyCore s t n ∧ t.dev.core n = tinAt (s.dev.core n) pc

/-- On an empty queue one arithmetic-clock cycle passes (log entry 2): in service, with no slew under way, COUNTER rises by
one, and nothing else changes. -/
def Obligations.IdleCycle : Prop :=
  ∀ (s : State), s.pending = [] → s.dev.phase = .service → s.dev.tick.slew = 0 →
    ∃ t, step s = .next t ∧ t.dev.counter = (s.dev.counter + 1) % 2 ^ 64 ∧ t.dev.clock = s.dev.clock + 1 ∧
      t = { s with dev := { s.dev with clock := t.dev.clock, regs := t.dev.regs } } ∧
      ∀ i k, k < 256 → ¬(i = 0x2020 ∧ k = 1) → t.dev.reg i k = s.dev.reg i k

/-! ### Control registers, events, loops and END -/

/-- CRR writes the control register's value to RD and changes nothing else: core number, tick number, cycles since the
barrier, active set or 0xFF, LOG_N, LAST_SEL, the event counts four bits each, what runs, the banks owned or shared with
bit 32 for a handover pending; every other index, OWN_REQ among them, reads zero. -/
def Obligations.ControlRegisterRead : Prop :=
  ∀ (s : State) (n : Nat) (rd : BitVec 5) (k : BitVec 8),
    s.dev.mayIssue n .tin = true → pcIn 4 ((s.dev.core n).tin.pc + 4) →
    ∃ t v, exec (.crr n rd k) s = .next t ∧ OnlyCore s t n ∧
      WroteG (s.dev.core n) (t.dev.core n) rd v ((s.dev.core n).tin.pc + 4) ∧
      (k = 0 → v = .ofNat 64 n) ∧ (k = 1 → v = .ofNat 64 s.dev.tickNumber) ∧
      (k = 2 → v = .ofNat 64 (s.dev.clock - (s.dev.core n).barrierAt)) ∧
      (k = 3 → v = .ofNat 64 ((s.dev.core n).activeSet.getD 0xFF)) ∧
      (k = 4 → v = .ofNat 64 (s.dev.core n).logN) ∧
      (k = 5 → v.toNat = (s.dev.core n).lastSel.toNat) ∧
      (k = 6 → ∀ e, e < 16 → v.toNat / 16 ^ e % 16 = eventCount (s.dev.core n) e) ∧
      (k = 7 → v.getLsbD 0 = decide ((s.dev.core n).acc.run = .running) ∧
        v.getLsbD 1 = decide ((s.dev.core n).exe.run = .running) ∧ v.getLsbD 2 = (s.dev.core n).call.isSome) ∧
      (k = 9 → (∀ b, b < 32 → v.getLsbD b =
          decide (s.dev.bankOwner (n / 16) b = n % 16 ∨ s.dev.bankOwner (n / 16) b = 0x10)) ∧
        v.getLsbD 32 = s.dev.ownPending n) ∧
      (k = 8 ∨ 9 < k.toNat → v = 0)

/-- CRW of LOG_N stores 12 to 17. CRW of PSET, under either of its rows and with no library call running, makes a live set
the active set, LAST_SEL reading 0x00; a set that is not live leaves the active set, LAST_SEL reading 0x13. Nothing but the
core changes. Any other value of LOG_N, and any read-only or reserved index, is a program fault of reason 0x0B at the
instruction. A CRR of an index not in the table, or of the write-only OWN_REQ, returns zero and is no fault. -/
def Obligations.ControlRegisterWrite : Prop :=
  ∀ (s : State) (n : Nat) (ra : BitVec 5) (k : BitVec 8), s.dev.mayIssue n .tin = true →
    let v := ((s.dev.core n).getG ra).toNat
    let pc := (s.dev.core n).tin.pc + 4
    (k = 4 → 12 ≤ v → v ≤ 17 → pcIn 4 pc →
      ∃ t, exec (.crw n ra k) s = .next t ∧ OnlyCore s t n ∧
        t.dev.core n = tinAt { s.dev.core n with logN := v } pc) ∧
    (∀ i, i = .crwPset n ra ∨ i = .crw n ra 3 → pcIn 4 pc → (s.dev.core n).call = none →
      ∃ t, exec i s = .next t ∧ OnlyCore s t n ∧
        (v < 16 ∧ (s.dev.live v).isSome = true →
          t.dev.core n = tinAt { s.dev.core n with activeSet := some v, lastSel := 0 } pc) ∧
        (¬(v < 16 ∧ (s.dev.live v).isSome = true) → t.dev.core n = tinAt { s.dev.core n with lastSel := 0x13 } pc)) ∧
    (k = 4 ∧ ¬(12 ≤ v ∧ v ≤ 17) ∨ (k ≠ 3 ∧ k ≠ 4 ∧ k ≠ 8) →
      exec (.crw n ra k) s = .next (s.withDev (s.dev.programFault n .tin 0x0B (s.dev.core n).tin.pc))) ∧
    (∀ rd, k = 8 ∨ 9 < k.toNat → pcIn 4 pc → ∃ t, exec (.crr n rd k) s = .next t ∧ OnlyCore s t n ∧
      WroteG (s.dev.core n) (t.dev.core n) rd 0 pc)

/-- CRW of OWN_REQ, under either of its rows. With no handover of this core pending and a defined owner code, the banks of
the mask that the core owns or the cores own together, and that no other handover holds, start their handover; no other
bank changes, and an empty set only lets Tin go on. A reserved code is a program fault of reason 0x0B; a pending handover
makes Tin wait. -/
def Obligations.BankOwnershipRequest : Prop :=
  ∀ (s : State) (i : Instr) (n : Nat) (ra : BitVec 5), i = .ownReq n ra ∨ i = .crw n ra 8 →
    s.dev.mayIssue n .tin = true →
    let v := (s.dev.core n).getG ra
    let code := v.toNat / 2 ^ 32 % 32
    let here := s.dev.cluster (n / 16)
    (s.dev.ownPending n = false → code ≤ 0x10 ∨ code = 0x1F → pcIn 4 ((s.dev.core n).tin.pc + 4) →
      ∃ (t : State) (banks : BitVec 32), exec i s = .next t ∧
        (∀ b, b < 32 → banks.getLsbD b = decide (v.getLsbD b = true ∧
          (s.dev.bankOwner (n / 16) b = n % 16 ∨ s.dev.bankOwner (n / 16) b = 0x10) ∧
          s.dev.handoverOf (n / 16) b = none)) ∧
        t = { s with dev := { s.dev with cores := t.dev.cores, clusters := t.dev.clusters } } ∧
        t.dev.core n = tinAt (s.dev.core n) ((s.dev.core n).tin.pc + 4) ∧
        (∀ m, m ≠ n → t.dev.core m = s.dev.core m) ∧ (∀ c, c ≠ n / 16 → t.dev.cluster c = s.dev.cluster c) ∧
        t.dev.cluster (n / 16) = if banks = 0 then here else
          { here with handovers := here.handovers ++ [{ writer := n, banks := banks, owner := .ofNat 8 code }] }) ∧
    (s.dev.ownPending n = false → ¬(code ≤ 0x10 ∨ code = 0x1F) →
      exec i s = .next (s.withDev (s.dev.programFault n .tin 0x0B (s.dev.core n).tin.pc))) ∧
    (s.dev.ownPending n = true →
      ∃ t, exec i s = .next t ∧ OnlyCore s t n ∧ t.dev.core n = waiting (s.dev.core n) .tin [.handover])

/-- SIGNAL adds one to its event and goes on, in each of the three programs; a SIGNAL that would take a count above 15 is
a program fault of reason 0x07. WAIT takes one from a non-zero event and goes on; on a zero event its program waits and
nothing else changes. -/
def Obligations.EventsCount : Prop :=
  ∀ (s : State) (i : Instr) (n : Nat) (p : Program) (e : BitVec 4), s.dev.mayIssue n p = true →
    (signalRow i = some (n, p, e) → eventCount (s.dev.core n) e.toNat < 15 → goesOn (s.dev.core n) p →
      ∃ t, exec i s = .next t ∧ OnlyCore s t n ∧
        t.dev.core n = advanced { s.dev.core n with events := (t.dev.core n).events } p ∧
        ∀ k, eventCount (t.dev.core n) k =
          if k = e.toNat then eventCount (s.dev.core n) k + 1 else eventCount (s.dev.core n) k) ∧
    (signalRow i = some (n, p, e) → eventCount (s.dev.core n) e.toNat = 15 →
      exec i s = .next (s.withDev (s.dev.programFault n p 0x07 ((s.dev.core n).prog p).pc))) ∧
    (waitRow i = some (n, p, e) → 0 < eventCount (s.dev.core n) e.toNat → goesOn (s.dev.core n) p →
      ∃ t, exec i s = .next t ∧ OnlyCore s t n ∧
        t.dev.core n = advanced { s.dev.core n with events := (t.dev.core n).events } p ∧
        ∀ k, eventCount (t.dev.core n) k =
          if k = e.toNat then eventCount (s.dev.core n) k - 1 else eventCount (s.dev.core n) k) ∧
    (waitRow i = some (n, p, e) → eventCount (s.dev.core n) e.toNat = 0 →
      ∃ t, exec i s = .next t ∧ OnlyCore s t n ∧ t.dev.core n = waiting (s.dev.core n) p [.event e.toNat])

/-- LOOP: a count other than zero opens the body that follows, as many instructions as LEN; a count of zero skips it; LEN
zero, a seventh nested loop, and a body that ends after the enclosing one are program faults of reasons 0x01 and 0x08. -/
def Obligations.LoopOpens : Prop :=
  ∀ (s : State) (i : Instr) (n : Nat) (p : Program) (csrc : Bool) (greg : BitVec 5) (len : BitVec 11)
    (count : BitVec 32), loopRow i = some (n, p, csrc, greg, len, count) → s.dev.mayIssue n p = true →
    let x := (s.dev.core n).prog p
    let last := x.pc + 8 * len.toNat
    let times := if csrc then ((s.dev.core n).getG greg).toNat else count.toNat
    let fits := x.loops.length < 6 ∧ ∀ f, x.loops.head? = some f → last ≤ f.last
    (len ≠ 0 → fits → 0 < times → pcIn 8 (x.pc + 8) →
      ∃ t, exec i s = .next t ∧ OnlyCore s t n ∧ t.dev.core n = (s.dev.core n).setProg p
        { x with pc := x.pc + 8, waits := [],
                 loops := { first := x.pc + 8, last := last, left := times - 1, iter := 0 } :: x.loops }) ∧
    (len ≠ 0 → fits → times = 0 → pcIn 8 (afterBody last 8 x.loops).1 →
      ∃ t, exec i s = .next t ∧ OnlyCore s t n ∧ t.dev.core n = (s.dev.core n).setProg p
        { x with pc := (afterBody last 8 x.loops).1, waits := [], loops := (afterBody last 8 x.loops).2 }) ∧
    (len = 0 → exec i s = .next (s.withDev (s.dev.programFault n p 0x01 x.pc))) ∧
    (len ≠ 0 → ¬fits → exec i s = .next (s.withDev (s.dev.programFault n p 0x08 x.pc)))

/-- A body opened with a count of c runs c times: over a body of m + 1 plain instructions with `left` runs to come after
this one, (m + 1) × (left + 1) instructions on, the loop is closed and the program stands after the body. -/
def Obligations.LoopBodyRunsItsCount : Prop :=
  ∀ (x : ProgState) (f : LoopFrame) (rest : List LoopFrame) (m : Nat),
    x.loops = f :: rest → x.pc = f.first → f.last = f.first + 8 * m →
    (∀ g, rest.head? = some g → f.last < g.last) →
    (∀ k, k < (m + 1) * (f.left + 1) →
      (ProgState.retire^[k] x).pc = f.first + 8 * (k % (m + 1)) ∧
      (ProgState.retire^[k] x).loops.head?.map (·.iter) = some (f.iter + k / (m + 1))) ∧
    (ProgState.retire^[(m + 1) * (f.left + 1)] x).pc = f.last + 8 ∧
    (ProgState.retire^[(m + 1) * (f.left + 1)] x).loops = rest

/-- The instructions that only let their program go on or retire it: NOP in both streams; FENCE once the core's transfers
are complete, after which all it has stored can be read, and until then it waits; END of Tin; END of the access stream once
its transfers are complete and no call waits for it, and of the execute stream once its accumulating writes are done, and
until then they wait; YIELD with no call issued yet, at which the access stream then waits. An undefined opcode fetched by
any of the three programs is a program fault of reason 0x01 at it. -/
def Obligations.PlainControl : Prop :=
  ∀ (s : State) (n : Nat),
    (s.dev.mayIssue n .access = true →
      (goesOn (s.dev.core n) .access →
        (∃ t, exec (.accNop n) s = .next t ∧ OnlyCore s t n ∧ t.dev.core n = advanced (s.dev.core n) .access) ∧
        ((s.dev.core n).transfers = [] →
          ∃ t, exec (.fence n) s = .next t ∧ OnlyCore s t n ∧
            t.dev.core n = advanced { s.dev.core n with unfenced := [] } .access)) ∧
      ((s.dev.core n).transfers ≠ [] →
        (∃ t, exec (.fence n) s = .next t ∧ OnlyCore s t n ∧
          t.dev.core n = waiting (s.dev.core n) .access [.transfers]) ∧
        ∃ t, exec (.accEnd n) s = .next t ∧ OnlyCore s t n ∧ t.dev.core n = waiting (s.dev.core n) .access [.atEnd]) ∧
      ((s.dev.core n).call = none →
        (∃ t, exec (.yield n) s = .next t ∧ OnlyCore s t n ∧
          t.dev.core n = { waiting (s.dev.core n) .access [.call] with atYield := true }) ∧
        ((s.dev.core n).transfers = [] →
          ∃ t, exec (.accEnd n) s = .next t ∧ OnlyCore s t n ∧ t.dev.core n =
            { s.dev.core n with acc := { (s.dev.core n).acc with run := .retired, waits := [], loops := [] } }))) ∧
    (s.dev.mayIssue n .execute = true →
      (goesOn (s.dev.core n) .execute →
        ∃ t, exec (.exeNop n) s = .next t ∧ OnlyCore s t n ∧ t.dev.core n = advanced (s.dev.core n) .execute) ∧
      ((s.dev.core n).paccs = [] → ∃ t, exec (.exeEnd n) s = .next t ∧ OnlyCore s t n ∧ t.dev.core n =
        { s.dev.core n with exe := { (s.dev.core n).exe with run := .retired, waits := [], loops := [] } }) ∧
      ((s.dev.core n).paccs ≠ [] → ∃ t, exec (.exeEnd n) s = .next t ∧ OnlyCore s t n ∧
        t.dev.core n = waiting (s.dev.core n) .execute [.paccWrites])) ∧
    (s.dev.mayIssue n .tin = true →
      ∃ t, exec (.tinEnd n) s = .next t ∧ OnlyCore s t n ∧ t.dev.core n =
        { s.dev.core n with tin := { (s.dev.core n).tin with run := .retired, waits := [], loops := [] } }) ∧
    ∀ p : Program, s.dev.mayIssue n p = true →
      exec (.undefinedOpcode n p) s = .next (s.withDev (s.dev.programFault n p 0x01 ((s.dev.core n).prog p).pc))

/-! ### Address generators and transfers -/

/-- AGSET loads the generator it names from the 64 bytes of its descriptor, with COUNT_5 from the named register under
OVR, and goes on: the stream's generators, an aligned descriptor, a register value below 2^24, a mode whose width fits
and a nest inside the core's reach. Step (i0, ..., i5) of a generator lies at BASE + Σ ik × STRIDE_k, and the steps run
with i0 fastest. -/
def Obligations.Generators : Prop :=
  (∀ (s : State) (i : Instr) (n : Nat) (p : Program) (lo hi : Nat) (ag : BitVec 3) (ovr : Bool) (greg : BitVec 5)
    (off : BitVec 16) (g : AddrGen), agsetRow i = some (n, p, lo, hi, ag, ovr, greg, off) →
    s.dev.mayIssue n p = true → goesOn (s.dev.core n) p → lo ≤ ag.toNat → ag.toNat ≤ hi → off.toNat % 64 = 0 →
    (g = let x := AddrGen.parse (s.dev.mem.read (coreAddr n off.toNat) 64)
      if ovr then { x with counts := x.counts.take 5 ++ [((s.dev.core n).getG greg).toNat] } else x) →
    (ovr = true → ((s.dev.core n).getG greg).toNat < 2 ^ 24) → g.modeFits = true → g.placed (n / 16) = true →
    ∃ t, exec i s = .next t ∧ OnlyCore s t n ∧
      t.dev.core n = advanced { s.dev.core n with gens := (t.dev.core n).gens } p ∧
      ∀ k, tfind (t.dev.core n).gens k = if k = ag.toNat then some g else tfind (s.dev.core n).gens k) ∧
  (∀ (g : AddrGen) (i c : Fin 6 → Nat) (stride : Fin 6 → Int),
    g.counts = List.ofFn c → g.strides = List.ofFn stride → (∀ k, i k < c k) →
    0 ≤ (g.base : Int) + ∑ k, (i k : Int) * stride k →
    (g.addr (∑ k : Fin 6, i k * ∏ l : Fin 6, if l < k then c l else 1) : Int) =
      g.base + ∑ k, (i k : Int) * stride k)

/-- LD and ST put their transfer at the end of their queue's transfers, go on, and let the core's transfers move: no transfer
waits for the instruction. The errors in stored data that come with LD are in memory first. A generator that is not set is a
program fault of reason 0x0C, a load through one of an accumulate mode one of reason 0x01, and a store under a modulus that
there is not one of reason 0x02. -/
def Obligations.TransferStarts : Prop :=
  ∀ (s : State) (i : Instr) (d : Dev) (n : Nat) (load : Bool) (ag : BitVec 3) (q : BitVec 2) (ups : List Upset),
    (load = true ∧ i = .ld n ag q ups ∧ d = s.dev.addUpsets ups ∨ load = false ∧ i = .st n ag q ∧ d = s.dev) →
    s.dev.mayIssue n .access = true →
    let pc := (s.dev.core n).acc.pc
    (∀ g, tfind (s.dev.core n).gens ag.toNat = some g →
      (goesOn (s.dev.core n) .access → (load = true → g.mode = 0) → s.dev.accModulus (s.dev.core n) g ≠ none →
        let x := (s.dev.core n).queue q.toNat
        exec i s = .next (s.withDev ((d.setCore n (advanced ((s.dev.core n).setQueue q.toNat
          { x with transfers := x.transfers ++ [{ load := load, gen := g, next := 0, pc := pc,
                                                  q := (s.dev.accModulus (s.dev.core n) g).getD 1 }] }) .access)).pump n))) ∧
      (load = true → g.mode ≠ 0 → exec i s = .next (s.withDev (d.programFault n .access 0x01 pc))) ∧
      (load = false → s.dev.accModulus (s.dev.core n) g = none →
        exec i s = .next (s.withDev (d.programFault n .access 0x02 pc)))) ∧
    (tfind (s.dev.core n).gens ag.toNat = none → exec i s = .next (s.withDev (d.programFault n .access 0x0C pc)))

/-- One step of the transfer at the head of a queue that the access stream may use, where nothing stands against the access.
A load appends the bytes at its generator's address to the queue and changes no byte of memory: bytes that the core has
stored since its last FENCE may be the old or the new ones. A plain store takes as many bytes off the front of the queue and
lays them at the address, and every other byte stays. A queue that another program uses on that side is a program fault of
reason 0x0A. AG_TRANSFER_DONE drops the transfer at the head of its queue once all its steps are made, and an access stream
that waited at END for it retires; nothing else changes on a core with no other transfer and no call. -/
def Obligations.TransferStepMoves : Prop :=
  (∀ (d : Dev) (n q : Nat) (t : Transfer) (rest : List Transfer),
    let c := d.core n
    (c.queue q).transfers = t :: rest → t.next < t.gen.steps →
    let a := t.gen.addr t.next
    (t.load = true → (c.queue q).bytes.length + t.gen.width ≤ 4096 → (c.queue q).producer.getD .access = .access →
      d.problemIn (.stream n) .read a t.gen.width = none →
      ∃ e bs, d.moveStep n q = .yes e ∧ (∀ b, e.mem.byte b = d.mem.byte b) ∧
        (e.core n).queue q = { c.queue q with
          bytes := (c.queue q).bytes ++ bs, producer := some .access, transfers := { t with next := t.next + 1 } :: rest } ∧
        bs.length = t.gen.width ∧ (c.unfenced = [] → bs = d.mem.read a t.gen.width) ∧
        ∀ k, k < bs.length → bs.getD k 0 = d.mem.byte (a + k) ∨
          ∃ u ∈ c.unfenced, u.1 ≤ a + k ∧ a + k < u.1 + u.2.length ∧ bs.getD k 0 = u.2.getD (a + k - u.1) 0) ∧
    (t.load = false → t.gen.mode = 0 → t.gen.width ≤ (c.queue q).bytes.length →
      (c.queue q).consumer.getD .access = .access → d.problemIn (.stream n) .write a t.gen.width = none →
      ∃ e, d.moveStep n q = .yes e ∧
        (∀ b, e.mem.byte b = if a ≤ b ∧ b < a + t.gen.width then (c.queue q).bytes.getD (b - a) 0 else d.mem.byte b) ∧
        (e.core n).queue q = { c.queue q with
          bytes := (c.queue q).bytes.drop t.gen.width, consumer := some .access,
          transfers := { t with next := t.next + 1 } :: rest }) ∧
    (t.load = true → (c.queue q).bytes.length + t.gen.width ≤ 4096 → (c.queue q).producer.getD .access ≠ .access →
      d.moveStep n q = .faulted (d.programFault n .access 0x0A t.pc))) ∧
  ∀ (s : State) (n : Nat) (q : BitVec 2) (x : Transfer), (s.dev.core n).transfers = [x] →
    ((s.dev.core n).queue q.toNat).transfers = [x] → x.gen.steps ≤ x.next → (s.dev.core n).call = none →
    (s.dev.core n).paccs = [] → (s.dev.core n).exe.waits ≠ [.paccWrites] →
    ∃ t, exec (.agTransferDone n q) s = .next t ∧ OnlyCore s t n ∧ (t.dev.core n).transfers = [] ∧
      t.dev.core n = { s.dev.core n with
        queues := (t.dev.core n).queues,
        acc := if (s.dev.core n).acc.waits = [.atEnd] then
            { (s.dev.core n).acc with run := .retired, waits := [], loops := [] }
          else (s.dev.core n).acc } ∧
      ∀ k, (t.dev.core n).queue k =
        if k = q.toNat then { (s.dev.core n).queue k with transfers := [] } else (s.dev.core n).queue k

/-! ### Lane instructions -/

/-- Residue operations on vector registers: in each slice of the mask, each lane of DST takes the result of the operation
on the lanes of its sources under the named modulus; the other registers, the queues and all else of the core stay, and
no other core and no memory changes. -/
def Obligations.ResidueLanes : Prop :=
  ∀ (s : State) (i : Instr) (n : Nat) (f : RFields) (src : List (BitVec 4)) (g : Nat → Bool → Nat → Nat → Nat → Nat)
    (v : PSetVals), residueRow i = some (n, f, src, g) → s.dev.mayIssue n .execute = true →
    goesOn (s.dev.core n) .execute → still (s.dev.core n) → f.slice ≠ 0 → (∀ k ∈ src, 8 ≤ k.toNat) →
    8 ≤ f.dst.toNat → s.dev.activeVals (s.dev.core n) = some v → f.modIdx.toNat < v.count → 0 < v.q f.modIdx.toNat →
    ∃ t, exec i s = .next t ∧ OnlyCore s t n ∧
      WroteLanes (s.dev.core n) (t.dev.core n) f.slice f.dst
        (fun sl j => g (v.q f.modIdx.toNat) (v.sparse f.modIdx.toNat) (laneOf (s.dev.core n) sl (src.getD 0 8) j)
          (laneOf (s.dev.core n) sl (src.getD 1 8) j) (laneOf (s.dev.core n) sl (src.getD 2 8) j))
        (residueCycles i f (v.sparse f.modIdx.toNat))

/-- The permutations, MOV and VZERO on vector registers: each lane of DST takes the source lane its pattern names, all 36
bits of it for a residue vector and 32 bits for a clear one; nothing else changes. -/
def Obligations.PermutedLanes : Prop :=
  ∀ (s : State) (i : Instr) (n : Nat) (f : RFields) (src : List (BitVec 4)) (pick : Nat → (Nat → Nat) → (Nat → Nat) → Nat),
    permRow i = some (n, f, src, pick) → s.dev.mayIssue n .execute = true → goesOn (s.dev.core n) .execute →
    still (s.dev.core n) → f.slice ≠ 0 → (∀ k ∈ src, 8 ≤ k.toNat) → 8 ≤ f.dst.toNat →
    ∃ t, exec i s = .next t ∧ OnlyCore s t n ∧
      WroteLanes (s.dev.core n) (t.dev.core n) f.slice f.dst
        (fun sl j => pick j (fun k => laneOf (s.dev.core n) sl (src.getD 0 8) k % if f.w then 2 ^ 32 else 2 ^ 36)
          (fun k => laneOf (s.dev.core n) sl (src.getD 1 8) k % if f.w then 2 ^ 32 else 2 ^ 36)) 1

/-- Butterflies on vector registers, with the generated twiddle of the lane that holds x. In intra mode lanes i and i +
2^HC of SA give the same lanes of DST; in pair mode the lanes of SA and SB give the lanes of DST and DST2. -/
def Obligations.ButterflyLanes : Prop :=
  ∀ (s : State) (i : Instr) (n : Nat) (f : BFields) (ct : Bool) (v : PSetVals), flyRow i = some (n, f, ct) →
    s.dev.mayIssue n .execute = true → goesOn (s.dev.core n) .execute → still (s.dev.core n) → f.slice ≠ 0 →
    8 ≤ f.sa.toNat → 8 ≤ f.dst.toNat → f.dcode.toNat ≤ 18 → f.ls.toNat ≤ 17 →
    f.lv.toNat ≤ (s.dev.core n).exe.loops.length →
    s.dev.activeVals (s.dev.core n) = some v → f.modIdx.toNat < v.count → 1 < v.q f.modIdx.toNat →
    let q := v.q f.modIdx.toNat
    let w := fun sl j => psiN q (s.dev.core n).logN ^ flyExponent (s.dev.core n) f sl j % q
    (f.hc.toNat ≤ 5 →
      ∃ t, exec i s = .next t ∧ OnlyCore s t n ∧
        WroteLanes (s.dev.core n) (t.dev.core n) f.slice f.dst (fun sl j =>
          let x := if j.testBit f.hc.toNat then j - 2 ^ f.hc.toNat else j
          let r := flyOf ct q (laneOf (s.dev.core n) sl f.sa x) (laneOf (s.dev.core n) sl f.sa (x + 2 ^ f.hc.toNat)) (w sl x)
          if j.testBit f.hc.toNat then r.2 else r.1) 1) ∧
    (f.hc = 6 → 8 ≤ f.sb.toNat → 8 ≤ f.dst2.toNat →
      ∃ (t : State) (c : Core), exec i s = .next t ∧ OnlyCore s t n ∧
        WroteLanes (s.dev.core n) c f.slice f.dst (fun sl j =>
          (flyOf ct q (laneOf (s.dev.core n) sl f.sa j) (laneOf (s.dev.core n) sl f.sb j) (w sl j)).1) 2 ∧
        t.dev.core n = { c with vregs := (t.dev.core n).vregs } ∧
        ∀ sl k, sl < 2 → k < 8 → (t.dev.core n).vreg sl k =
          if f.slice.getLsbD sl = true ∧ k + 8 = f.dst2.toNat then (List.range 64).map fun j =>
            (flyOf ct q (laneOf (s.dev.core n) sl f.sa j) (laneOf (s.dev.core n) sl f.sb j) (w sl j)).2
          else c.vreg sl k)

/-- On vector registers, CMAC of int8 and int4 adds the products of the packed elements of each lane to the lane of DST, as
two's complement modulo 2^32. CVT from int32 to residue words gives the value modulo q; from residue words to int32 the centred
value of the word, which saturates at the ends of int32. Nothing else changes. -/
def Obligations.IntegerLanes : Prop :=
  ∀ (s : State) (n : Nat) (f : RFields),
    s.dev.mayIssue n .execute = true → goesOn (s.dev.core n) .execute → still (s.dev.core n) → f.slice ≠ 0 →
    8 ≤ f.sa.toNat → 8 ≤ f.dst.toNat →
    (∀ (fmt : BitVec 3) (b : Nat), fmt = 4 ∧ b = 8 ∨ fmt = 5 ∧ b = 4 → 8 ≤ f.sb.toNat →
      ∃ t, exec (.cmac n f fmt) s = .next t ∧ OnlyCore s t n ∧
        WroteLanes (s.dev.core n) (t.dev.core n) f.slice f.dst (fun sl j =>
          (((laneOf (s.dev.core n) sl f.dst j : Int) + ∑ e ∈ Finset.range (32 / b),
            signed (laneOf (s.dev.core n) sl f.sa j / 2 ^ (b * e)) b *
              signed (laneOf (s.dev.core n) sl f.sb j / 2 ^ (b * e)) b) % 2 ^ 32).toNat) 1) ∧
    ∀ v : PSetVals, s.dev.activeVals (s.dev.core n) = some v → f.modIdx.toNat < v.count → 0 < v.q f.modIdx.toNat →
      let q := v.q f.modIdx.toNat
      (∃ t, exec (.cvt n f 5 8) s = .next t ∧ OnlyCore s t n ∧
        WroteLanes (s.dev.core n) (t.dev.core n) f.slice f.dst (fun sl j =>
          ((signed (laneOf (s.dev.core n) sl f.sa j) 32) % (q : Int)).toNat) 1) ∧
      ∃ t, exec (.cvt n f 8 5) s = .next t ∧ OnlyCore s t n ∧
        WroteLanes (s.dev.core n) (t.dev.core n) f.slice f.dst (fun sl j =>
          let x := laneOf (s.dev.core n) sl f.sa j % q
          let y : Int := if 2 * x < q then x else (x : Int) - q
          ((max (-2 ^ 31) (min (2 ^ 31 - 1) y)) % 2 ^ 32).toNat) 1

/-- Every form of a lane instruction, queues among its operands: when its fields are defined, its queues are its own, the
bytes it takes are present and what it pushes has room, it pops what it takes, delivers each slice's results in order
and goes on, and the core's transfers move. A register that stands for several vectors of one issue draws free values (log
entry 21). -/
def Obligations.LaneIssue : Prop :=
  ∀ (s : State) (i : Instr) (n : Nat) (o : LaneOp) (c : Core) (v : PSetVals),
    laneRow i (s.dev.core n) = some (n, o) → s.dev.mayIssue n .execute = true → goesOn (s.dev.core n) .execute →
    o.slice ≠ 0 → o.undefined = false → o.wrongKind = false → (∀ x ∈ o.dests, ¬(4 ≤ x.toNat ∧ x.toNat < 8)) →
    ((s.dev.core n).claimAll false .execute
      ((o.sources.filter fun x => x.code.toNat < 8).map fun x => x.code.toNat % 4)).bind
        (fun e => e.claimAll true .execute ((o.dests.filter fun x => x.toNat < 4).map (·.toNat))) = some c →
    (∀ x ∈ (laneTaken c o s.dev.draw).1.need, x.2 ≤ (c.queue x.1).bytes.length) →
    (∀ x ∈ o.dests, x.toNat < 4 → ((c.popAll (laneTaken c o s.dev.draw).1).queue x.toNat).bytes.length +
      (o.dests.filter fun y => y.toNat = x.toNat).length * (slicesOf o.slice).length * vecBytes o.clearOut ≤ 4096) →
    s.dev.laneVals c o.modIdx = some v →
    exec i s = .next (s.withDev ((({ s.dev with
      draw := if o.sources.any (fun x => 8 ≤ x.code.toNat && 1 < x.count) then s.dev.draw + 8192 else s.dev.draw }).setCore n
        (laneDone c o v s.dev.draw)).pump n))

/-- PACC of one slice's vector register through a plain generator, where nothing stands against the write: the packed
vector is laid at the address of the generator's next step, that step is made, and the program goes on; until the next FENCE
the core may still read what stood there; every other byte stays. -/
def Obligations.PlainVectorStore : Prop :=
  ∀ (s : State) (n : Nat) (f : RFields) (agsel : Bool) (g : AddrGen) (sl : Nat), s.dev.mayIssue n .execute = true →
    goesOn (s.dev.core n) .execute → still (s.dev.core n) → (f.slice = 1 ∧ sl = 0 ∨ f.slice = 2 ∧ sl = 1) →
    8 ≤ f.sa.toNat → tfind (s.dev.core n).gens (if agsel then 7 else 6) = some g → g.mode = 0 →
    g.width = (if f.w then 256 else 288) → g.stepsDone < g.steps →
    s.dev.problemIn (.stream n) .write (g.addr g.stepsDone) g.width = none →
    ∃ t, exec (.pacc n f agsel) s = .next t ∧
      (t.dev.core n) = { s.dev.core n with
        exe := (s.dev.core n).exe.retire, gens := tset (s.dev.core n).gens (if agsel then 7 else 6)
          { g with stepsDone := g.stepsDone + 1 },
        unfenced := (g.addr g.stepsDone, s.dev.mem.read (g.addr g.stepsDone) g.width) :: (s.dev.core n).unfenced } ∧
      (∀ m, m ≠ n → t.dev.core m = s.dev.core m) ∧ t.fuses = s.fuses ∧
      ∀ a, t.dev.mem.byte a = if g.addr g.stepsDone ≤ a ∧ a < g.addr g.stepsDone + g.width then
        (vecPacked f.w ((List.range 64).map fun j =>
          laneOf (s.dev.core n) sl f.sa j % if f.w then 2 ^ 32 else 2 ^ 36)).getD (a - g.addr g.stepsDone) 0
        else s.dev.mem.byte a

/-! ### Library calls -/

/-- A CALL that is issued before the access stream is at YIELD or END, or before the core's transfers are complete,
records itself and waits. Once they are, a queue that holds bytes is a program fault of reason 0x09; otherwise the call
starts: when all 16 cores of the cluster have started theirs, the cluster's call is formed from the block of its first
core, and every call that can go on runs. While another core of the cluster has not started, and no formed call waits,
only the core changes. An ARGS that is not a multiple of 64 from 0x0100 to 0xFFC0 is a program fault of reason 0x03, and a
routine that neither the ROM nor the extension in service has is one of reason 0x01. -/
def Obligations.CallIssues : Prop :=
  ∀ (s : State) (i : Instr) (n r : Nat) (a : BitVec 16) (l : LinkEvent), callRow i = some (n, r, a, l) →
    s.dev.mayIssue n .execute = true → planNamed s.dev i n a →
    (argsFit a → routineThere s.dev r → ¬callMayStart s.dev n →
      ∃ t, exec i s = .next t ∧ OnlyCore s t n ∧ t.dev.core n = callIssued (s.dev.core n) r a l false) ∧
    (argsFit a → routineThere s.dev r → callMayStart s.dev n → (∃ q, q < 4 ∧ ((s.dev.core n).queue q).bytes ≠ []) →
      exec i s = .next (s.withDev ((s.dev.setCore n (callIssued (s.dev.core n) r a l false)).programFault n .execute 0x09
        (s.dev.core n).exe.pc))) ∧
    (argsFit a → routineThere s.dev r → callMayStart s.dev n → (∀ q, q < 4 → ((s.dev.core n).queue q).bytes = []) →
      exec i s = .next (s.withDev
        (((s.dev.setCore n (callIssued (s.dev.core n) r a l true)).formCall (n / 16)).tryCalls)) ∧
      ((∃ k, k < 16 ∧ 16 * (n / 16) + k ≠ n ∧
          ∀ x, (s.dev.core (16 * (n / 16) + k)).call = some x → x.started = false) →
        noneWaits s.dev →
        ∃ t, exec i s = .next t ∧ OnlyCore s t n ∧ t.dev.core n = callIssued (s.dev.core n) r a l true)) ∧
    (¬argsFit a → exec i s = .next (s.withDev (s.dev.programFault n .execute 0x03 (s.dev.core n).exe.pc))) ∧
    (argsFit a → ¬routineThere s.dev r →
      exec i s = .next (s.withDev (s.dev.programFault n .execute 0x01 (s.dev.core n).exe.pc)))

/-- CALL_RETURN of a gang of one cluster that is in service and whose stream, if it takes one, is served. What the call
writes is in memory first, with the status that this leaves. Then every core's header word takes the status, the progress of
BOOT_STEP (zero for another routine) and the cycles, keeps its EVT_EN and EVENT, and has its reserved bits zero; no other byte
of memory changes. Every core's call is over, its execute stream stands after the CALL, an access stream at YIELD goes on,
and the event named by EVT_EN counts one more. -/
def Obligations.CallReturns : Prop :=
  ∀ (s : State) (c : Nat) (g : GangCall) (st : BitVec 8) (w : Bool) (k : Nat → CoreCall),
    (s.dev.cluster c).call = some g → g.phase = .ended st w → g.clusters = [c] → g.joined = [] →
    s.dev.streamServed g = true → s.dev.faults.holds (.cluster c) = false →
    (w = true → s.dev.deliveryProblem (.limb [c]) g.held = none ∧ (g.routine = 0x061 → s.dev.logState ≠ 1)) →
    (∀ i, i < 16 → (s.dev.core (16 * c + i)).call = some (k i) ∧ (s.dev.core (16 * c + i)).exe.run = .running ∧
      (k i).args % 64 = 0 ∧ (k i).args ≤ 0xFFC0 ∧ goesOn (s.dev.core (16 * c + i)) .execute ∧
      ((s.dev.core (16 * c + i)).atYield = true → goesOn (s.dev.core (16 * c + i)) .access)) →
    let e := if w then s.dev.finishEffect g.effect st else (s.dev, st)
    let hdr := fun i => coreAddr (16 * c + i) (k i).args
    let old := fun i => leNat (e.1.mem.read (hdr i) 8)
    let progress := if g.routine = 0x041 then g.progress.toNat else 0
    (∀ i, i < 16 → (old i).testBit 8 = true → eventCount (s.dev.core (16 * c + i)) (old i / 2 ^ 9 % 16) < 15) →
    ∃ t, exec (.callReturn c) s = .next t ∧ (t.dev.cluster c).call = none ∧
      (∀ i, i < 16 → (t.dev.core (16 * c + i)).call = none ∧ (t.dev.core (16 * c + i)).atYield = false ∧
        (t.dev.core (16 * c + i)).exe = (s.dev.core (16 * c + i)).exe.retire ∧
        (t.dev.core (16 * c + i)).acc = (if (s.dev.core (16 * c + i)).atYield then (s.dev.core (16 * c + i)).acc.retire
          else (s.dev.core (16 * c + i)).acc) ∧
        (t.dev.core (16 * c + i)).g = (s.dev.core (16 * c + i)).g ∧
        (∀ e, eventCount (t.dev.core (16 * c + i)) e = eventCount (s.dev.core (16 * c + i)) e +
          if (old i).testBit 8 = true ∧ e = old i / 2 ^ 9 % 16 then 1 else 0) ∧
        t.dev.mem.byte (hdr i) = e.2 ∧ t.dev.mem.byte (hdr i + 1) = .ofNat 8 (old i / 2 ^ 8 % 32) ∧
        t.dev.mem.byte (hdr i + 2) = .ofNat 8 progress ∧ t.dev.mem.byte (hdr i + 3) = .ofNat 8 (progress / 2 ^ 8) ∧
        ∀ b, b < 4 → t.dev.mem.byte (hdr i + 4 + b) =
          .ofNat 8 (min (max (s.dev.clock - g.issuedAt) g.stated) 0xFFFFFFFF / 256 ^ b)) ∧
      ∀ a, (∀ i, i < 16 → ¬(hdr i ≤ a ∧ a < hdr i + 8)) → t.dev.mem.byte a = e.1.mem.byte a

/-- Word k of the forward transform of a limb is the value of its polynomial at the (2 brv_n(k) + 1)-th power of the
2N-th root of unity. -/
def Obligations.NttEvaluates : Prop :=
  ∀ (n q : Nat) (a : List Nat), n ≤ 17 → 1 < q → psiOf q ^ 2 ^ 17 % q = q - 1 → a.length = 2 ^ n →
    ∀ k, k < 2 ^ n →
      (ntt n q a).getD k 0 = (∑ j ∈ Finset.range (2 ^ n), a.getD j 0 * psiN q n ^ ((2 * brv n k + 1) * j)) % q

/-- The inverse transform returns the coefficient-form limb exactly, with every word canonical. -/
def Obligations.InttInverts : Prop :=
  ∀ (n q : Nat) (a : List Nat), n ≤ 17 → 1 < q → q % 2 = 1 → psiOf q ^ 2 ^ 17 % q = q - 1 → a.length = 2 ^ n →
    (∀ x ∈ a, x < q) → intt n q (ntt n q a) = a

/-- Base conversion computes, for each coefficient, the sum of [a_i × q̂_i^-1]_(q_i) × [q̂_i]_p modulo p over the source
moduli, q̂_i being the product of the others, with no correction. -/
def Obligations.BaseConversion : Prop :=
  ∀ (src : List (Nat × List Nat)) (p size k : Nat) (up : Nat → Nat), 0 < p → k < size →
    (src.map (·.1)).Nodup → (∀ x ∈ src, 1 < x.1 ∧ x.2.length = size) →
    (∀ x ∈ src, up x.1 < x.1 ∧ ((src.map (·.1)).filter (· ≠ x.1)).prod * up x.1 % x.1 = 1) →
    (baseConv src p size).getD k 0 =
      (src.map fun x => x.2.getD k 0 * up x.1 % x.1 * (((src.map (·.1)).filter (· ≠ x.1)).prod % p)).sum % p

/-- The words of ADD, SUB, NEG, ADD_PLAIN, MUL_PLAIN, MUL and AXPY on operands of the same shape, limb by limb under the
limb's modulus: sums, differences, negatives, a plaintext added to c0, every polynomial times a plaintext, the tensor
product, and y + c × x. -/
def Obligations.LinearRoutineWords : Prop :=
  ∀ (d : Dev) (dest a b c : Operand) (x y z : Polys) (l n i j : Nat),
    wordsShaped x 2 l n → wordsShaped y 2 l n → wordsShaped z 1 l n → i < l → j < 2 ^ n →
    let q := (d.vals a.desc.pset).q i
    0 < q →
    (∀ p, p < 2 →
      wordOf ((d.addPlan dest a b false).run [x, y]) p i j = (wordOf x p i j + wordOf y p i j) % q ∧
      (wordOf ((d.addPlan dest a b true).run [x, y]) p i j : Int) = ((wordOf x p i j : Int) - wordOf y p i j) % q ∧
      (wordOf ((d.negPlan dest a).run [x]) p i j : Int) = (-(wordOf x p i j : Int)) % q ∧
      wordOf ((d.addPlainPlan dest a b).run [x, z]) p i j =
        (if p = 0 then (wordOf x 0 i j + wordOf z 0 i j) % q else wordOf x p i j % q) ∧
      wordOf ((d.mulPlainPlan dest a b).run [x, z]) p i j = wordOf x p i j * wordOf z 0 i j % q ∧
      wordOf ((d.axpyPlan dest a c b).run [x, z, y]) p i j =
        (wordOf x p i j + wordOf y p i j * wordOf z 0 i j) % q) ∧
    wordOf ((d.mulPlan dest a b).run [x, y]) 0 i j = wordOf x 0 i j * wordOf y 0 i j % q ∧
    wordOf ((d.mulPlan dest a b).run [x, y]) 1 i j =
      (wordOf x 0 i j * wordOf y 1 i j + wordOf x 1 i j * wordOf y 0 i j) % q ∧
    wordOf ((d.mulPlan dest a b).run [x, y]) 2 i j = wordOf x 1 i j * wordOf y 1 i j % q

/-! ### How a core leaves its frame -/

/-- A program fault of a core in its frame that takes part in no call: all three programs stop, the queued bytes are
discarded, the core's record will read STATE 0x02 with the reason, the stream and the PC, CORE_PROGRAM_FAULTS rises by
one, and one uncorrected-contained fault of the core program source is raised. No register and no memory changes. -/
def Obligations.ProgramFaultStopsCore : Prop :=
  ∀ (d : Dev) (n : Nat) (p : Program) (reason : BitVec 8) (pc : Nat), (d.core n).stop = none → (d.core n).call = none →
    let e := d.programFault n p reason pc
    (e.core n).stop = some { state := 2, reason := reason, stream := streamCode p, pc := pc } ∧
      (∀ r, ((e.core n).prog r).run = if ((d.core n).prog r).run = .retired then .retired else .stopped) ∧
      (∀ q, q < 4 → ((e.core n).queue q).bytes = []) ∧ (e.core n).g = (d.core n).g ∧
      (e.core n).events = (d.core n).events ∧ (∀ m, m ≠ n → e.core m = d.core m) ∧ e.mem = d.mem ∧
      e.reg 0x3001 2 = min (d.reg 0x3001 2 + 1) (2 ^ 32 - 1) ∧
      (d.faults.holds (.cluster (n % 2 ^ 16 / 16)) = false → n < 2 ^ 16 →
        ∃ f, e.faults.raised = d.faults.raised ++ [f] ∧ f.source = 0x02 ∧ f.cls = 1 ∧ f.unit.toNat = n ∧
          f.reason = reason)

/-- CORE_EXIT of a core whose programs have retired or stopped and whose transfers and accumulating writes are complete, while
another core of its cluster is still in the frame: the core has exited and its status record at 0x40 holds STATE, REASON, STREAM and PC
(1, 0, 3, 0 where nothing stopped it), the exit cycle, the tick, the residue of the queues and the busy cycles. No byte
outside the record changes. -/
def Obligations.CoreExitWritesRecord : Prop :=
  ∀ (s : State) (n m : Nat) (w : CoreStop), (s.dev.core n).frame = .inFrame →
    s.dev.faults.holds (.cluster (n / 16)) = false →
    (∀ p, ((s.dev.core n).prog p).run = .retired ∨ ((s.dev.core n).prog p).run = .stopped) →
    (s.dev.core n).transfers = [] → (s.dev.core n).paccs = [] → m ≠ n → m / 16 = n / 16 → (s.dev.core m).frame = .inFrame →
    w = (s.dev.core n).stop.getD { state := 1, reason := 0, stream := 3, pc := 0 } → w.pc < 2 ^ 14 →
    ∃ t, exec (.coreExit n) s = .next t ∧ (t.dev.core n).frame = .exited ∧
      (∀ k, k ≠ n → t.dev.core k = s.dev.core k) ∧
      t.dev.mem.byte (coreAddr n 0x40) = w.state ∧ t.dev.mem.byte (coreAddr n 0x41) = w.reason ∧
      t.dev.mem.byte (coreAddr n 0x42) = .ofNat 8 (w.stream.toNat + 4 * w.pc) ∧
      t.dev.mem.byte (coreAddr n 0x43) = .ofNat 8 (w.pc / 2 ^ 6) ∧
      (∀ b, b < 8 →
        t.dev.mem.byte (coreAddr n 0x48 + b) = .ofNat 8 ((s.dev.clock - (s.dev.core n).barrierAt) / 256 ^ b) ∧
        t.dev.mem.byte (coreAddr n 0x50 + b) = .ofNat 8 ((s.dev.core n).tick.toNat / 256 ^ b) ∧
        t.dev.mem.byte (coreAddr n 0x60 + b) = .ofNat 8 ((s.dev.core n).busy / 256 ^ b)) ∧
      (∀ q, q < 4 → ∀ b, b < 2 → t.dev.mem.byte (coreAddr n 0x58 + 2 * q + b) = .ofNat 8
        (min (tget (s.dev.core n).residue q 0 + ((s.dev.core n).queue q).bytes.length) 65535 / 256 ^ b)) ∧
      ∀ a, ¬(coreAddr n 0x40 ≤ a ∧ a < coreAddr n 0x80) → t.dev.mem.byte a = s.dev.mem.byte a

/-- CORE_DEADLOCK of a core whose running programs are all blocked, and that takes part in no call: the core stops with
STATE 0x03 and REASON 0x00, CORE_DEADLOCKS rises by one, and a fault of the core deadlock source is raised. -/
def Obligations.DeadlockStopsCore : Prop :=
  ∀ (s : State) (n : Nat), n < 4096 → (s.dev.core n).frame = .inFrame → (s.dev.core n).stop = none →
    (s.dev.core n).call = none → (∃ p, ((s.dev.core n).prog p).run = .running) →
    (∀ p, ((s.dev.core n).prog p).run = .running → s.dev.isBlocked n p = true) →
    s.dev.faults.holds (.cluster (n / 16)) = false →
    ∃ t f, exec (.coreDeadlock n) s = .next t ∧
      (t.dev.core n).stop = some { state := 3, reason := 0, stream := 3, pc := 0 } ∧
      (∀ p, ((t.dev.core n).prog p).run ≠ .running) ∧ (∀ m, m ≠ n → t.dev.core m = s.dev.core m) ∧
      t.dev.mem = s.dev.mem ∧ t.dev.reg 0x3001 3 = min (s.dev.reg 0x3001 3 + 1) (2 ^ 32 - 1) ∧
      t.dev.faults.raised = s.dev.faults.raised ++ [f] ∧ f.source = 0x03 ∧ f.unit.toNat = n ∧ f.cls = 1

/-- HANDOVER_COMPLETE, with no running call or job holding a bank of the handover: its banks have the new owner, no other
bank of the cluster changes hands, the handover is over, and those who waited for it go on. -/
def Obligations.HandoverChangesOwners : Prop :=
  ∀ (s : State) (c w : Nat) (h : Handover), (s.dev.cluster c).handovers.find? (fun h => h.writer = w) = some h →
    (∀ g, (s.dev.cluster c).call = some g → ∀ b ∈ g.held, b.1 = c → h.banks.getLsbD b.2 = false) →
    (∀ j, (s.dev.cluster c).veRun = some j → ∀ b ∈ j.held, b.1 = c → h.banks.getLsbD b.2 = false) →
    ∃ d : Dev, exec (.handoverComplete c w) s = .next (s.withDev (d.wake c)) ∧
      (∀ b, b < 32 → d.bankOwner c b = if h.banks.getLsbD b = true then h.owner.toNat else s.dev.bankOwner c b) ∧
      (d.cluster c).handovers = (s.dev.cluster c).handovers.filter (fun k => k.writer ≠ w) ∧
      (∀ k, k ≠ c → d.cluster k = s.dev.cluster k) ∧ d.mem = s.dev.mem ∧ d.cores = s.dev.cores ∧ d.regs = s.dev.regs

/-! ### Bronze key streams -/

/-- Of the streams waiting on a channel the one read next is a waiting one with the lowest OPEN_AT (the model's choice, log
entry 93). STREAM_OPEN reads its header at its image: the channel holds the stream with the header, or with a failure mark and
CHAN_STATE failed where the header was not delivered well or does not check. DATA_PHASE_START, once every attached cluster has
requested data and every bank takes it, reads the stored words: where they are delivered well and no internal error is met the
data phase runs, and else the stream fails. KEY_STREAM_CLOSE takes a stream off its channel once its data phase has run or every
cluster has detached, and calls that can go on do. No core, no cluster and no byte of memory changes. STREAM_ATTACH, once every
named cluster that is not in a block reset has room at its port: all of them attach in one cycle, the stream counts as
delivered, and the calls that waited for it go on. -/
def Obligations.KeyStreams : Prop :=
  ((∀ (ws : List OpenRec) (r : OpenRec), nextOpen ws = some r → r ∈ ws ∧ ∀ x ∈ ws, r.openAt.toNat ≤ x.openAt.toNat) ∧
  (∀ (s : State) (k : Nat) (r : OpenRec) (ups : List Upset), nextOpen (s.dev.channel k).waiting = some r →
    (s.dev.channel k).stream = none → s.dev.frameOpen = true → s.dev.faults.holds (.channel k) = false →
    let x := (s.dev.addUpsets ups).fetch none r.image.toNat 128
    let ok := inStack r.image.toNat 128 && !x.2.2 && x.1.headerOk (KeyHdr.parse x.2.1) r.image.toNat r.level.toNat
    ∃ t, exec (.streamOpen k ups) s = .next t ∧
      (t.dev.channel k).stream = some { record := r, header := if ok then some x.2.1 else none, delivered := false,
                                        attached := [], requested := [], dataPhase := false } ∧
      (t.dev.channel k).waiting = dropOpen r (s.dev.channel k).waiting ∧
      (ok = false → t.dev.reg (0x5400 + k) 1 = 3) ∧ (∀ j, j ≠ k → t.dev.channel j = s.dev.channel j) ∧
      t.dev.cores = s.dev.cores ∧ t.dev.clusters = s.dev.clusters ∧
      ∀ a, t.dev.mem.byte a = (s.dev.addUpsets ups).mem.byte a) ∧
  (∀ (s : State) (k : Nat) (x : KeyStream) (ups : List Upset) (internal : Bool), (s.dev.channel k).stream = some x →
    x.delivered = true → x.header ≠ none → x.dataPhase = false → x.attached ≠ [] → (∀ c ∈ x.attached, c ∈ x.requested) →
    let range := (s.dev.brRange (x.requested.foldl min 255)).getD (0, 0)
    (x.hdr.kind = 0x11 → ∀ c ∈ x.requested, s.dev.brRange c = some range) → deliverable s.dev x →
    let e := (x.body range).foldl (fun (p : Dev × Bool) r =>
      ((p.1.fetch none r.1 r.2).1, p.2 || (p.1.fetch none r.1 r.2).2.2)) (s.dev.addUpsets ups, internal)
    (e.2 = false → ∃ t, exec (.dataPhaseStart k ⟨ups, internal⟩) s = .next t ∧
      (t.dev.channel k).stream = some { x with dataPhase := true } ∧
      (∀ j, j ≠ k → t.dev.channel j = s.dev.channel j) ∧ t.dev.cores = s.dev.cores ∧ t.dev.clusters = s.dev.clusters ∧
      t.dev.mem = e.1.mem ∧ ∀ a, t.dev.mem.byte a = (s.dev.addUpsets ups).mem.byte a) ∧
    (e.2 = true → exec (.dataPhaseStart k ⟨ups, internal⟩) s = .next (s.withDev (e.1.failStream k))) ∧
    (ups = [] → errorFree s.dev → internal = false → ∃ t, exec (.dataPhaseStart k ⟨ups, internal⟩) s = .next t ∧
      (t.dev.channel k).stream = some { x with dataPhase := true })) ∧
  (∀ (s : State) (k : Nat) (x : KeyStream), (s.dev.channel k).stream = some x →
    (x.dataPhase = true ∨ x.delivered = true ∧ x.attached = []) →
    let d := s.dev.setChannel k { s.dev.channel k with stream := none }
    exec (.keyStreamClose k) s = .next (s.withDev d.tryCalls) ∧
      (noneWaits s.dev → exec (.keyStreamClose k) s = .next (s.withDev d)))) ∧
  (∀ (s : State) (k : Nat) (x : KeyStream), (s.dev.channel k).stream = some x → x.delivered = false →
    (∀ c, c < 256 → x.record.subscribers.getLsbD c = true → s.dev.faults.holds (.cluster c) = false →
      s.dev.attachedTo c < 2) →
    ∃ named, (∀ c, c ∈ named ↔
        c < 256 ∧ x.record.subscribers.getLsbD c = true ∧ s.dev.faults.holds (.cluster c) = false) ∧
      exec (.streamAttach k) s = .next (s.withDev ((s.dev.setChannel k
        { s.dev.channel k with stream := some { x with attached := named, delivered := true } }).tryCalls)))

/-! ### Streams, jobs and update commands -/

/-- A stream row of a record of its kind that the DMA engine can read starts it, where no bank waits, the frame is open, the
record is in the list and has not started in this frame, fewer than eight streams run, and its START is met: the stream stands
in the cluster's streams with its record, no other cluster changes, and no core but for the event taken. A demand stream that
passes its checks runs, with the blocks of its plan still to move, so that no byte of memory has changed; one that fails them
shows its status and moves none. A part of a block is copied whole: its destination holds the bytes of its source, and every
other byte stays. STREAM_DONE of a demand stream, with no bank waiting: every block left is moved or skipped, its status record
holds its status, the stream is finished, and the event asked for counts one more; where nothing was left to move no byte
outside the 64 of the record changes. -/
def Obligations.StreamsRun : Prop :=
  (∀ (s : State) (i : Instr) (c k kind : Nat) (ups : List Upset) (f : Dev → StreamRec → Started),
    streamRow i = some (c, k, kind, ups, f) →
    let at_ := s.dev.streamRecAt c k
    let bytes := s.dev.mem.read at_ 64
    let r := StreamRec.parse bytes
    let d := (startTaken (((Mover.fresh s.dev).fetch c at_ 64).elim s.dev fun x => x.1.dev) r.start (16 * c + r.startCore)
      r.startEvt).addUpsets ups
    let frame := (s.dev.tick.frame.map (·.number)).getD 0
    dmaMay s.dev .read c at_ 64 → errorFree s.dev → nothingWaits s.dev →
    r.kind = kind → r.start ≤ 1 → r.status % 64 = 0 → s.dev.frameOpen = true →
    k < s.dev.reg (0x3200 + c) 2 → s.dev.faults.holds (.cluster c) = false →
    s.dev.power.withholding.contains c = false →
    (∀ x ∈ (s.dev.cluster c).streams, ¬(x.index = k ∧ x.frame = frame)) → s.dev.dmaRunning c < 8 →
    startMet s.dev r.start (16 * c + r.startCore) r.startEvt →
    ∃ t x, exec i s = .next t ∧ (t.dev.cluster c).streams = (s.dev.cluster c).streams ++ [x] ∧ x.index = k ∧
      x.frame = frame ∧ x.bytes = bytes ∧ x.record = at_ ∧ (∀ j, j ≠ c → t.dev.cluster j = s.dev.cluster j) ∧
      t.dev.cores = (startTaken s.dev r.start (16 * c + r.startCore) r.startEvt).cores ∧
      ((∃ m st p, f d r = .goes m st p ∧ x.status = st ∧ x.out = p.out ∧ x.srcDesc = p.srcDesc ∧ x.dstDesc = p.dstDesc ∧
          (r.prefetch = false → x.phase = .running ∧ x.todo = p.blocks ∧ x.blocksDone = p.noop ∧ x.blocksBad = 0 ∧
            ∀ a, t.dev.mem.byte a = (s.dev.addUpsets ups).mem.byte a)) ∨
        ∃ m st, f d r = .refused m st ∧ x.status = st ∧ x.todo = [] ∧ x.blocksDone = 0 ∧ x.phase = .running ∧
          (kind ≠ 4 → ∀ a, t.dev.mem.byte a = (s.dev.addUpsets ups).mem.byte a))) ∧
  (∀ (m : Mover) (c a b n : Nat) (fill : Byte), dmaMay m.dev .read c b n → dmaMay m.dev .write c a n → errorFree m.dev →
    ∃ e, m.part c { dst := [(a, n)], src := [(b, n)], fill := fill, limb := none } = some e ∧
      ∀ x, e.dev.mem.byte x = if a ≤ x ∧ x < a + n then m.dev.mem.byte (b + (x - a)) else m.dev.mem.byte x) ∧
  (∀ (s : State) (c k : Nat) (x : StreamRun),
    (s.dev.cluster c).streams.find? (fun x => x.index = k && x.phase ≠ .finished) = some x → x.phase = .running →
    s.dev.faults.holds (.cluster c) = false → x.prefetch = false → nothingWaits s.dev →
    let r := StreamRec.parse x.bytes
    dmaMay s.dev .write c r.status 64 →
    (r.doneEn = true → signalLands s.dev (16 * c + r.doneCore) r.doneEvt) →
    ∃ t y, exec (.streamDone c k) s = .next t ∧ t.dev.mem.byte r.status = y.status ∧ y.phase = .finished ∧ y.todo = [] ∧
      y.blocksDone = x.blocksDone + x.todo.length ∧ y.index = k ∧ y.bytes = x.bytes ∧
      (t.dev.cluster c).streams = (s.dev.cluster c).streams.map (fun z => if z = x then y else z) ∧
      (∀ j, j ≠ c → t.dev.cluster j = s.dev.cluster j) ∧
      (∀ e, eventCount (t.dev.core (16 * c + r.doneCore)) e = eventCount (s.dev.core (16 * c + r.doneCore)) e +
        if r.doneEn = true ∧ e = r.doneEvt.toNat then 1 else 0) ∧
      (x.todo = [] → x.out = [] → r.kind < 4 → x.status ≠ 0 ∨ x.blocksBad = 0 → y.status = x.status ∧
        ∀ a, ¬(r.status ≤ a ∧ a < r.status + 64) → t.dev.mem.byte a = s.dev.mem.byte a))

/-- A job row of a record of its kind (MAP's also of a reserved kind, which it refuses) starts the next job of the cluster's
list where the frame is open, no job runs, no bank waits and its START is met: the cluster holds the job with its record, and
the list moves on by one. A job that passes its checks and whose banks are its own holds its status, its counts and what its
rows will be, and no byte of memory changes before it ends; one that fails a check holds that check's status, and one whose
banks are another's NOT_OWNER. VE_JOB_DONE of a job whose status record may be written and whose signal, if any, lands: the
cluster is free for the next job, JOBS_DONE counts one more where the status is OK or POISON_INPUT, the first byte of the
record is the status, the rows of a MAP or DECODE without bad inputs stand where their banks admit them, no other byte outside
the record changes, and the event counts one more. -/
def Obligations.VectorJobs : Prop :=
  (∀ (s : State) (i : Instr) (c kind : Nat) (f : Dev → VeJob → VeDone), jobRow i = some (c, kind, f) →
    let x := s.dev.cluster c
    let at_ := s.dev.veRecAt c x.veNext
    let r := VeRec.parse (s.dev.mem.read at_ 128)
    let d := startTaken s.dev r.start (16 * c + r.core) r.startEvt
    let j := d.veJob c r
    let named := d.descAccess (.vector c r.core) ((r.plain ++ r.tensorsIn ++ r.tensorsOut).filter (· ≠ 0))
    let owned := j.1.banksOwned (.vector c r.core) j.2.banks
    r.kind = kind ∨ kind = 0 ∧ 2 < r.kind → s.dev.frameOpen = true → x.veRun = none → x.veNext < x.veCount →
    s.dev.faults.holds (.cluster c) = false → s.dev.power.withholding.contains c = false →
    startMet s.dev r.start (16 * c + r.core) r.startEvt → nothingWaits s.dev →
    ∃ t y, exec i s = .next t ∧ (t.dev.cluster c).veRun = some y ∧ (t.dev.cluster c).veNext = x.veNext + 1 ∧
      y.record = at_ ∧ y.bytes = s.dev.mem.read at_ 128 ∧ y.startedAt = s.dev.clock ∧
      (∀ k, k ≠ c → t.dev.cluster k = s.dev.cluster k) ∧ t.dev.cores = d.cores ∧
      (named = some none → firstFailed (j.1.veChecks j.2) = none → owned = some true →
        y.status = (f j.1 j.2).status ∧ y.rowsDone = (f j.1 j.2).rows ∧ y.saturated = (f j.1 j.2).sat ∧
        y.nonfinite = (f j.1 j.2).nonfinite ∧ y.units = (f j.1 j.2).units ∧ y.effect = (f j.1 j.2).effect ∧
        ∀ a, t.dev.mem.byte a = s.dev.mem.byte a) ∧
      (∀ w, named = some none → firstFailed (j.1.veChecks j.2) = some w →
        y.status = w.status ∧ y.rowsDone = 0 ∧ y.units = []) ∧
      ((∃ a, named = some (some a)) ∨ named = some none ∧ firstFailed (j.1.veChecks j.2) = none ∧ owned = some false →
        y.status = 0x22 ∧ y.rowsDone = 0 ∧ y.units = [])) ∧
  (∀ (s : State) (c : Nat) (j : VeRun), (s.dev.cluster c).veRun = some j → (s.dev.cluster c).veOwed = [] →
    s.dev.faults.holds (.cluster c) = false → (∀ b ∈ j.held, s.dev.bankPower b.1 b.2 ≠ .waking) →
    let r := VeRec.parse j.bytes
    let who := Requester.vector c r.core
    s.dev.problemIn who .write r.status 64 = none →
    (r.doneEn = true → signalLands s.dev (16 * c + r.core) r.doneEvt) →
    ∃ t, exec (.veJobDone c) s = .next t ∧ (t.dev.cluster c).veRun = none ∧
      (∀ k, k ≠ c → t.dev.cluster k = s.dev.cluster k) ∧
      (j.status = 0x00 ∨ j.status = 0x40 → t.dev.reg (0x3400 + c) 3 = min (s.dev.reg (0x3400 + c) 3 + 1) (2 ^ 64 - 1)) ∧
      t.dev.mem.byte r.status = j.status ∧
      (j.status ≠ 0x40 → j.effect = .nothing →
        (∀ p ∈ j.units.flatten, s.dev.problemIn who .write p.1 p.2.length = none) →
        ∀ a, ¬(r.status ≤ a ∧ a < r.status + 64) →
          t.dev.mem.byte a = if j.status = 0 then laid j.units.flatten s.dev.mem.byte a else s.dev.mem.byte a) ∧
      ∀ e, eventCount (t.dev.core (16 * c + r.core)) e = eventCount (s.dev.core (16 * c + r.core)) e +
        if r.doneEn = true ∧ e = r.doneEvt.toNat then 1 else 0)

/-- An update row of a record of its operation starts the next command of the unit's list where the frame is open, no
command runs and no record is owed, the unit is neither halted nor in reset, no bank waits and its START is met: the unit holds
the command with its record, its status, its counts and what it will write, the list moves on by one, and memory is what the
command's reads, or the refusal of an ENC_AXPY, have left; a clear command changes no byte of it before it ends.
UPDATE_CMD_DONE of a command whose status record may be written and whose signal, if any, lands: the unit is free, the first
byte of the record is the status, the SAT_SKIP bit follows, the bytes of a clear command that marks no block stand where they
belong, no other byte outside the record changes, and the event counts one more. -/
def Obligations.UpdateCommands : Prop :=
  (∀ (s : State) (i : Instr) (m : Nat) (ups : List Upset) (p : UpdRec → Prop) (f : Dev → UpdRec → UpdDone),
    updateRow i = some (m, ups, p, f) →
    let x := s.dev.updUnit m
    let at_ := x.list + 128 * x.next
    let r := UpdRec.parse (s.dev.mem.read at_ 128)
    let w := f ((startTaken s.dev r.start r.startCore r.startEvt).addUpsets ups) r
    p r → s.dev.frameOpen = true → x.halted = false → x.run = none → x.owed = [] → x.next < x.count →
    s.dev.power.withholding.contains (264 + m) = false → s.dev.faults.holds (.update m) = false → nothingWaits s.dev →
    startMet s.dev r.start r.startCore r.startEvt →
    ∃ t y, exec i s = .next t ∧ (t.dev.updUnit m).run = some y ∧ (t.dev.updUnit m).next = x.next + 1 ∧ y.record = at_ ∧
      y.bytes = s.dev.mem.read at_ 128 ∧ y.status = w.status ∧ y.satSkip = w.satSkip ∧ y.blocksDone = w.blocks ∧
      y.rowsBad = w.rowsBad ∧ y.nonfinite = w.nonfinite ∧ y.units = w.units ∧ y.effect = w.effect ∧
      (∀ k, k ≠ m → t.dev.updUnit k = s.dev.updUnit k) ∧ t.dev.mem = w.dev.mem ∧ t.dev.clusters = s.dev.clusters ∧
      t.dev.cores = (startTaken s.dev r.start r.startCore r.startEvt).cores ∧
      (r.op ≠ 0x10 → ∀ a, t.dev.mem.byte a = (s.dev.addUpsets ups).mem.byte a)) ∧
  (∀ (s : State) (m : Nat) (j : UpdRun), (s.dev.updUnit m).run = some j → s.dev.faults.holds (.update m) = false →
    let r := UpdRec.parse j.bytes
    s.dev.problemIn .host .write r.status 64 = none → (r.doneEn = true → signalLands s.dev r.startCore r.doneEvt) →
    ∃ t, exec (.updateCmdDone m) s = .next t ∧ (t.dev.updUnit m) = { s.dev.updUnit m with run := none } ∧
      t.dev.mem.byte r.status = j.status ∧ t.dev.mem.byte (r.status + 1) = (if j.satSkip then 1 else 0) ∧
      (j.effect = .nothing → (∀ z ∈ j.outs.zip j.spoils, z.2 = []) → ∀ a, ¬(r.status ≤ a ∧ a < r.status + 64) →
        t.dev.mem.byte a = if j.status = 0 ∨ j.status = 0x40 then laid j.units.flatten s.dev.mem.byte a
          else s.dev.mem.byte a) ∧
      ∀ e, eventCount (t.dev.core r.startCore) e = eventCount (s.dev.core r.startCore) e +
        if r.doneEn = true ∧ e = r.doneEvt.toNat then 1 else 0)

/-- Every word of ENC_AXPY is [KA × A + KB × B] modulo its limb's modulus, canonical, a missing polynomial counting as
zero. -/
def Obligations.EncryptedAxpyWords : Prop :=
  ∀ (v : PSetVals) (ka kb : Int) (polys level n : Nat) (a b : Polys) (p i k : Nat), p < polys → i < level → k < n →
    0 < v.q i →
    wordOf (axpyWords v ka kb polys level n a b) p i k < v.q i ∧
      (wordOf (axpyWords v ka kb polys level n a b) p i k : Int) ≡
        ka * wordOf a p i k + kb * wordOf b p i k [ZMOD v.q i]

/-- FILL reads the next record of the fill list, where the DMA engine can read it and no bank waits, in a frame whose barrier
has passed and no fill in service. The fill stands in service with its record, and the list moves on by one; no core, no cluster
and no byte of memory changes. Where its tensor can be read and record and tensor check, the blocks of the tensor are what is
left to write; otherwise the fill is refused with status BOUNDS and writes none. FILL_DONE, where the DMA engine may write the
blocks left and the status record and the signal, if any, lands: each block holds the words of the record's generator stream,
the fill leaves service, the first byte of the record is its status, and no other byte changes. -/
def Obligations.FillsRun : Prop :=
  (∀ (s : State) (f : FrameRun), s.dev.tick.frame = some f → f.barrier = true →
    s.dev.tick.fillNext < s.dev.tick.fillCount → s.dev.tick.fill = none →
    let at_ := s.dev.tick.fillList + 64 * s.dev.tick.fillNext
    let bytes := s.dev.mem.read at_ 64
    let r := FillRec.parse bytes
    let t := Tensor.parse r.tensor (s.dev.mem.read r.tensor 128)
    dmaMay s.dev .read 0 at_ 64 → errorFree s.dev → nothingWaits s.dev →
    ∃ u x, exec .fill s = .next u ∧ u.dev.tick.fill = some x ∧ x.record = at_ ∧ x.bytes = bytes ∧ x.blocksDone = 0 ∧
      x.blocksBad = 0 ∧ x.owing = false ∧ u.dev.tick.fillNext = s.dev.tick.fillNext + 1 ∧ u.dev.cores = s.dev.cores ∧
      u.dev.clusters = s.dev.clusters ∧ (∀ a, u.dev.mem.byte a = s.dev.mem.byte a) ∧
      (descPlaced r.tensor 128 = true → dmaMay s.dev .read 0 r.tensor 128 → fillOk r t = true → r.status % 64 = 0 →
        x.status = 0x00 ∧ x.todo = List.range t.nb ∧ x.tensor = t ∧ x.seed = s.dev.jobSeed ∧ x.gen = f.genTick.toNat) ∧
      (descPlaced r.tensor 128 = false ∨ ¬dmaMay s.dev .read 0 r.tensor 128 ∨ fillOk r t = false ∨ r.status % 64 ≠ 0 →
        x.status = 0x20 ∧ x.todo = [])) ∧
  ∀ (s : State) (x : FillRun), s.dev.tick.fill = some x → x.owing = false → x.blocksBad = 0 →
    let r := FillRec.parse x.bytes
    let ps := x.todo.flatMap x.blockPieces
    (∀ p ∈ ps, dmaMay s.dev .write 0 p.1 p.2.length) → dmaMay s.dev .write 0 r.status 64 →
    (r.doneEn = true → signalLands s.dev r.doneCore r.doneEvt) →
    ∃ t, exec .fillDone s = .next t ∧ t.dev.tick.fill = none ∧ t.dev.mem.byte r.status = x.status ∧
      t.dev.clusters = s.dev.clusters ∧
      (∀ a, ¬(r.status ≤ a ∧ a < r.status + 64) → t.dev.mem.byte a = laid ps s.dev.mem.byte a) ∧
      ∀ e, eventCount (t.dev.core r.doneCore) e = eventCount (s.dev.core r.doneCore) e +
        if r.doneEn = true ∧ e = r.doneEvt.toNat then 1 else 0

/-! ### Nickel -/

/-- A Nickel command, with no bank waiting, starts the next job whose record holds its operation: the job leaves its queue and runs, a long job
that yields to a short one waits with one more yield, no slot changes before the job is done, and no byte of memory
changes. NICKEL_JOB_DONE of a job with an output and no memory write, with no yielded job and a status record that may be
written: the output is in its slot, every other slot stays, the slot's pairings end, the engine is free, and no byte
outside the status record changes. -/
def Obligations.NickelJobs : Prop :=
  (∀ (s : State) (i : Instr) (op addr : Nat) (fw short yields : Bool), nickelRow i = some op →
    nothingWaits s.dev → s.dev.nextJob = some ((addr, fw), short, yields) → leNat (s.dev.mem.read addr 1) = op →
    ∃ t, exec i s = .next t ∧ t.dev.nickel.run = some (s.dev.runJob addr fw short).2 ∧
      t.dev.nickel.shortQ = (if short then s.dev.nickel.shortQ.tail else s.dev.nickel.shortQ) ∧
      t.dev.nickel.longQ = (if short then s.dev.nickel.longQ else s.dev.nickel.longQ.tail) ∧
      t.dev.nickel.yielded = (if yields then s.dev.nickel.run.map fun j => { j with yields := j.yields + 1 }
        else s.dev.nickel.yielded) ∧
      t.dev.nickel.slots = s.dev.nickel.slots ∧ t.dev.cores = s.dev.cores ∧ t.dev.clusters = s.dev.clusters ∧
      ∀ a, t.dev.mem.byte a = s.dev.mem.byte a) ∧
  (∀ (s : State) (j : NickelJob) (k : Nat) (v : BitVec 1024) (a : Nat), s.dev.nickel.run = some j → j.out = some (k, v) →
    j.clearTo = none → j.pair = none → j.store = none → s.dev.nickel.yielded = none → j.statusAddr = some a →
    a % 64 = 0 → mapRange a 64 = true → s.dev.problemIn .host .write a 64 = none →
    ∃ t, exec .nickelJobDone s = .next t ∧ t.dev.nickel.run = none ∧
      (∀ m, t.dev.slot m = if m = k then v.toNat else s.dev.slot m) ∧
      (∀ p ∈ t.dev.nickel.pairs, p.1 ≠ k ∧ p.2 ≠ k ∧ p ∈ s.dev.nickel.pairs) ∧ t.dev.mem.byte a = j.status ∧
      (t.dev.mem.byte (a + 1)).toNat = j.flags.toNat ∧ t.dev.cores = s.dev.cores ∧
      ∀ x, ¬(a ≤ x ∧ x < a + 64) → t.dev.mem.byte x = s.dev.mem.byte x)

/-- What the modular commands of Nickel compute from operands not above an odd modulus of at least 3, an operand equal to
the modulus counting as zero: sum, difference, product and power modulo M; the inverse, or zero with DIV_ZERO where there
is none; UNREDUCED where an operand is the modulus. -/
def Obligations.NickelArithmetic : Prop :=
  ∀ (r : NickelRec) (a b m : Nat) (msg : List Byte), m % 2 = 1 → 3 ≤ m → a ≤ m → b ≤ m → b < 2 ^ r.w →
    (r.op = 0x10 → (nickelResult r a b m msg).1 = some ((a + b) % m)) ∧
    (r.op = 0x11 → (nickelResult r a b m msg).1 = some ((((a : Int) - b) % m).toNat)) ∧
    (r.op = 0x12 → (nickelResult r a b m msg).1 = some (a * b % m)) ∧
    (r.op = 0x14 → (nickelResult r a b m msg).1 = some ((if a = m then 0 else a) ^ (if b = m then 0 else b) % m)) ∧
    (r.op = 0x13 → Nat.gcd a m = 1 → ∃ x, (nickelResult r a b m msg).1 = some x ∧ x < m ∧ x * a % m = 1 ∧
      (nickelResult r a b m msg).2.testBit 1 = false) ∧
    (r.op = 0x13 → Nat.gcd a m ≠ 1 → (nickelResult r a b m msg).1 = some 0 ∧
      (nickelResult r a b m msg).2.testBit 1 = true) ∧
    (r.op = 0x10 ∨ r.op = 0x11 ∨ r.op = 0x12 ∨ r.op = 0x14 →
      (nickelResult r a b m msg).2.testBit 0 = decide (a = m ∨ b = m)) ∧
    (r.op = 0x13 → (nickelResult r a b m msg).2.testBit 0 = decide (a = m))

/-! ### Reset and boot -/

/-- POWER_ON of an unpowered device leaves it held with everything at its default. RESET_N_ASSERT of a powered one does the
same but for COUNT_FATAL, and keeps every programmed fuse; fuses that no write was programming stay as they are. RESET_RELEASE
latches the straps, clears the Sterling store, derives the identity key, starts the initialisation of all 96 slabs and the
training of the link, and asserts ERR_N for BOOT_MODE 0b11. POWER_DOWN needs RESET_N held. CHIP_RESET, once a fatal fault or
a CHIP reaction asks for it, clears the same as RESET_N but for the sticky record and RESET_CAUSE; CHIP_RESET_END, unless the
sensors are still hot, starts the reset sequence. -/
def Obligations.ResetCommands : Prop :=
  ∀ s : State,
    (s.dev.phase = .unpowered → ∃ t, exec .powerOn s = .next t ∧ t.fuses = s.fuses ∧ t.dev.phase = .held ∧ blank t.dev ∧
      t.dev.faults = .fresh ∧ ∀ i k, t.dev.reg i k = (regDefault i k).toNat) ∧
    (s.dev.phase ≠ .unpowered → ∃ t, exec .resetNAssert s = .next t ∧ s.fuses.kept t.fuses ∧
      (s.dev.boot.ownerProgramming = none → s.dev.boot.secverProgramming = none → t.fuses = s.fuses) ∧
      t.dev.phase = .held ∧ t.dev.pins.resetN = false ∧ blank t.dev ∧ t.dev.faults = .fresh ∧
      ∀ i k, k < 256 → (countFatal i k → t.dev.reg i k = s.dev.reg i k) ∧
        (¬countFatal i k → t.dev.reg i k = (regDefault i k).toNat)) ∧
    (s.dev.phase = .held → ∀ (mode : BitVec 2) (sel : Bool),
      ∃ t, exec (.resetRelease mode sel) s = .next t ∧ t.fuses = s.fuses ∧ t.dev.phase = .boot ∧ t.dev.pins.resetN = true ∧
        t.dev.boot.mode = mode ∧ t.dev.boot.masterSel = sel ∧
        t.dev.boot.step = (if mode.getLsbD 1 then .hold else .idle) ∧ t.dev.faults.bootErrn = decide (mode = 3) ∧
        t.dev.stk.initialising = List.range 96 ∧ t.dev.reg 0x8000 2 = 0 ∧ t.dev.reg 0xA100 1 = mode.toNat ∧
        t.dev.sterling.sessions = [] ∧ t.dev.sterling.identityPub = edPublic identitySeedOf ∧ t.dev.mem = s.dev.mem) ∧
    (s.dev.phase = .held → ∃ t, exec .powerDown s = .next t ∧ t.fuses = s.fuses ∧ t.dev.phase = .unpowered ∧ blank t.dev) ∧
    (s.dev.faults.resetPending = true → ∃ t, exec .chipReset s = .next t ∧ s.fuses.kept t.fuses ∧
      t.dev.phase = .chipReset ∧ blank t.dev ∧ t.dev.faults.sticky = s.dev.faults.sticky ∧
      t.dev.faults.resetPending = false ∧ t.dev.faults.resetErrn = true ∧ t.dev.faults.raised = [] ∧
      t.dev.boot.mode = s.dev.boot.mode ∧ t.dev.boot.masterSel = s.dev.boot.masterSel ∧
      t.dev.reg 0x6000 9 = s.dev.reg 0x6000 9 ∧
      (∀ k, k < 8 → t.dev.reg 0x6010 (k + 1) = leNat ((s.dev.faults.sticky.drop (8 * k)).take 8)) ∧
      ∀ i k, k < 256 → (countFatal i k → t.dev.reg i k = s.dev.reg i k) ∧
        (¬countFatal i k → ¬(i = 0x6000 ∧ k = 9) → ¬(i = 0x6010 ∧ 1 ≤ k ∧ k ≤ 8) →
          t.dev.reg i k = (regDefault i k).toNat)) ∧
    (s.dev.phase = .chipReset → s.dev.power.thermHold = false →
      ∃ t, exec .chipResetEnd s = .next t ∧ t.fuses = s.fuses ∧ t.dev.phase = .boot ∧
        t.dev.faults.sticky = s.dev.faults.sticky ∧ t.dev.stk.initialising = List.range 96 ∧
        t.dev.boot.step = (if s.dev.boot.mode.getLsbD 1 then .hold else .idle) ∧ t.dev.reg 0x8000 2 = 0 ∧
        t.dev.mem = s.dev.mem)

/-- HELLO_REPEAT sends BOOT_HELLO again and changes nothing but the port. BOOT_OFFER, from the boot server or under any
BOOT_MODE but 0b00 from anyone, starts the reading of its image with the first 384 bytes. BOOT_READ_RESEND asks again eight
times and then fails the attempt with 0x0A. BOOT_DATA that answers the outstanding read is taken: a header that does not pass
fails the attempt with its code, a read short of the image asks for the next range of at most 1 MiB, and an image whose code
has its digest starts the firmware, or else fails with 0x09. ATTEMPT_RETRY begins the next attempt. SLAB_INIT_DONE opens its
slab, and the last one, with the link up, begins the first attempt. -/
def Obligations.BootExchange : Prop :=
  ∀ s : State, s.dev.phase = .boot → linkOpen s.dev →
    let b := s.dev.boot
    (b.step = .hello → ∃ t, exec .helloRepeat s = .next t ∧ t.dev = { s.dev with port := t.dev.port } ∧
      sentOne s.dev t.dev (helloTo s.dev) 6 1 (helloBody s.dev)) ∧
    (b.step = .hello → ∀ (src : BitVec 48) (id len : BitVec 64), b.mode ≠ 0 ∨ src = Config.bootServer →
      ∃ t, exec (.bootOffer src id len) s = .next t ∧ t.dev.boot.step = .reading ∧ t.dev.boot.server = src ∧
        t.dev.boot.imageId = id ∧ t.dev.boot.imageLen = len ∧ t.dev.boot.image = [] ∧
        t.dev = { s.dev with port := t.dev.port, boot := t.dev.boot } ∧
        sentOne s.dev t.dev (.mac src) 6 3 (beBytes 8 id.toNat ++ beBytes 8 0 ++ beBytes 4 384)) ∧
    (b.step = .reading → b.readResends < 8 → ∃ t, exec .bootReadResend s = .next t ∧
      t.dev = { s.dev with port := t.dev.port, boot := { b with readResends := b.readResends + 1 } } ∧
      sentOne s.dev t.dev (.mac b.server) 6 3
        (beBytes 8 b.imageId.toNat ++ beBytes 8 b.nextRead ++ beBytes 4 b.readLen)) ∧
    (b.step = .reading → 8 ≤ b.readResends →
      ∃ t, exec .bootReadResend s = .next t ∧ attemptFailed s.dev t.dev 0x0A) ∧
    (b.step = .reading → ∀ data : List Byte, data.length = b.readLen → b.nextRead < 2 ^ 64 →
      let row := Instr.bootData b.server b.imageId (.ofNat 64 b.nextRead) data
      let image := b.image ++ data
      let good := b.nextRead ≠ 0 ∨ firmwareCheck s.fuses data b.imageLen.toNat = 0
      (¬good → ∃ t, exec row s = .next t ∧
        attemptFailed s.dev t.dev (firmwareCheck s.fuses data b.imageLen.toNat)) ∧
      (good → image.length < b.imageLen.toNat → ∃ t, exec row s = .next t ∧ t.dev.boot.step = .reading ∧
        t.dev.boot.image = image ∧ t.dev.boot.nextRead = image.length ∧ t.dev.boot.readResends = 0 ∧
        t.dev.boot.readLen = min (2 ^ 20) (b.imageLen.toNat - image.length) ∧
        sentOne s.dev t.dev (.mac b.server) 6 3 (beBytes 8 b.imageId.toNat ++ beBytes 8 image.length ++
          beBytes 4 (min (2 ^ 20) (b.imageLen.toNat - image.length)))) ∧
      (good → b.imageLen.toNat ≤ image.length → sha512 (image.drop 384) = (image.drop 32).take 64 →
        ∃ t, exec row s = .next t ∧ t.dev.phase = .service ∧ t.dev.faults.bootErrn = false ∧
          t.dev.sterling.fwMeasure = sha512 (image.take 128)) ∧
      (good → b.imageLen.toNat ≤ image.length → sha512 (image.drop 384) ≠ (image.drop 32).take 64 →
        ∃ t, exec row s = .next t ∧ attemptFailed s.dev t.dev 0x09)) ∧
    (b.step = .waitRetry → ∃ t, exec .attemptRetry s = .next t ∧ t.dev.boot.step = .hello ∧
      t.dev.boot.attempt = b.attempt + 1 ∧ sentOne s.dev t.dev (helloTo s.dev) 6 1 (helloBody t.dev)) ∧
    ∀ slab : Nat, ∃ t, exec (.slabInitDone slab) s = .next t ∧ t.dev.mem = s.dev.mem ∧
      t.dev.stk.initialising = s.dev.stk.initialising.filter (· ≠ slab) ∧
      (b.step = .idle → t.dev.stk.initialising = [] → t.dev.boot.step = .hello ∧ t.dev.boot.attempt = 1 ∧
        sentOne s.dev t.dev (helloTo s.dev) 6 1 (helloBody t.dev)) ∧
      (b.step ≠ .idle ∨ t.dev.stk.initialising ≠ [] → t.dev = { s.dev with stk := t.dev.stk })

/-! ### Faults -/

/-- A rail out of tolerance, the loss of REFCLK, the management watchdog and an error of the Sterling store each raise
one fatal fault of their source and change nothing else. TRAP_HANDLER_EXIT ends the trap, and a header
whose turn came meanwhile is read. The five JTAG instructions of a
powered device: BYPASS, IDCODE (which shifts out 0xA7200CB1), SAMPLE/PRELOAD, EXTEST and the private ones. The last two
set JTAG_OPENED, and a frame tick that runs stops; the private ones also clear the Sterling store, and every exchange under way
counts as failed. -/
def Obligations.ForeignEvents : Prop :=
  ((∀ (s : State) (i : Instr) (src unit : Nat), fatalRow i = some (src, unit) → s.dev.alive = true →
    s.dev.pins.resetN = true →
    ∃ f : RaisedFault, f.source = .ofNat 8 src ∧ f.cls = 2 ∧ f.unit = .ofNat 16 unit ∧
      exec i s = .next (s.withDev
        { s.dev with faults := { s.dev.faults with raised := s.dev.faults.raised ++ [f] } })) ∧
  ∀ s : State, let d := { s.dev with faults := { s.dev.faults with trap := false } }
    (s.dev.tick.loadHeld = false → exec .trapHandlerExit s = .next (s.withDev d)) ∧
    (s.dev.tick.loadHeld = true → exec .trapHandlerExit s =
      .next (s.withDev { d with tick := { s.dev.tick with loadHeld := false } }.loadHeader))) ∧
  (∀ s : State, s.dev.phase ≠ .unpowered →
    exec .bypass s = .next (s.withDev { s.dev with pins := { s.dev.pins with jtag := .bypass } }) ∧
    exec .idcode s = .next (s.withDev
      { s.dev with pins := { s.dev.pins with jtag := .idcode, jtagOut := 0xA7200CB1 } }) ∧
    (∀ cells : List Bool, exec (.samplePreload cells) s = .next (s.withDev
      { s.dev with pins := { s.dev.pins with jtag := .samplePreload, boundary := cells } })) ∧
    (s.dev.tickRun = false → exec .extest s = .next (s.withDev
      { s.dev with pins := { s.dev.pins with jtag := .extest }, boot := { s.dev.boot with jtagOpened := true } })) ∧
    (s.dev.shadow = [] → ∃ t, exec .extest s = .next t ∧ t.dev.pins.jtag = .extest ∧ t.dev.boot.jtagOpened = true ∧
      t.dev.tickRun = false) ∧
    ∃ t, exec .jtagPrivate s = .next t ∧ t.dev.pins.jtag = .privateTest ∧ t.dev.boot.jtagOpened = true ∧
      t.dev.sterling.sessions = [] ∧ t.dev.sterling.exchanges = [] ∧ t.dev.sterling.identitySeed = [] ∧
      (s.dev.tickRun = false → t.dev.exchOpen = s.dev.exchOpen ∧ t.dev.reg 0x5800 8 =
        counted s.dev 0x5800 8 (s.dev.exchanges.filter fun e => !e.2.state.failed).length))

/-- FAULT_CLASSIFY takes the first raised fault in order: by the cycle in which it was raised, then by source, then by unit. An
uncorrected-contained fault with no block counts in COUNT_UC and the fault sequence, leaves tick and address in its source's
entries, and carries out the reactions set for it: TRAP, ERRN, CHIP (with no ring and no log configured). A second corrected
fault of a source in a tick only counts. A fatal fault takes ERRN and CHIP alone whatever
the entries hold: it asks for the chip reset, asserts ERR_N, leaves its record as the sticky
record and clears the Sterling store. BLOCK_RESET_END releases its block, and where that owes no record nothing else changes. -/
def Obligations.FaultsClassified : Prop :=
  (∀ (fs : List RaisedFault) (f : RaisedFault), firstFault fs = some f → f ∈ fs ∧ ∀ g ∈ fs,
    f.raisedAt < g.raisedAt ∨ f.raisedAt = g.raisedAt ∧
      (f.source < g.source ∨ f.source = g.source ∧ f.unit ≤ g.unit)) ∧
  (∀ (d : Dev) (f : RaisedFault), f.cls = 2 → d.reactions f = 0x18) ∧
  (∀ (s : State) (f : RaisedFault), s.dev.faults.resetPending = false → firstFault s.dev.faults.raised = some f →
    s.dev.logState ≠ 1 → s.dev.reg 0x6000 2 = 0 →
    let i := 0x6100 + f.source.toNat
    let set := s.dev.reactions f
    (f.cls = 1 → f.block = none → ∃ t, exec .faultClassify s = .next t ∧
      t.dev.faults.raised = s.dev.faults.raised.erase f ∧ t.dev.reg 0x6000 6 = (s.dev.reg 0x6000 6 + 1) % 2 ^ 32 ∧
      t.dev.reg i 4 = counted s.dev i 4 1 ∧ t.dev.reg i 6 = s.dev.tickNumber ∧ t.dev.reg i 7 = f.addr.toNat ∧
      t.dev.faults.trap = (s.dev.faults.trap || set.testBit 1) ∧ t.dev.faults.resetPending = set.testBit 3 ∧
      (set.testBit 4 = true → t.dev.reg 0x6000 7 = 1) ∧ t.dev.mem = s.dev.mem ∧ t.dev.cores = s.dev.cores ∧
      t.dev.clusters = s.dev.clusters ∧ t.dev.sterling = s.dev.sterling) ∧
    (f.cls = 0 → f.source.toNat ∈ s.dev.faults.corrRecorded → ∃ t, exec .faultClassify s = .next t ∧
      t.dev.faults.raised = s.dev.faults.raised.erase f ∧ t.dev.reg i 3 = counted s.dev i 3 1 ∧
      t.dev = { s.dev with faults := t.dev.faults, regs := t.dev.regs } ∧
      ∀ j k, k < 256 → ¬(j = i ∧ k = 3) → t.dev.reg j k = s.dev.reg j k) ∧
    (f.cls = 2 → ∃ t, exec .faultClassify s = .next t ∧ t.dev.faults.resetPending = true ∧
      t.dev.faults.resetErrn = true ∧ t.dev.reg 0x6000 9 = 1 ∧ t.dev.faults.sticky.length = 64 ∧
      t.dev.faults.sticky.getD 0 0 = f.source ∧ t.dev.reg i 5 = counted s.dev i 5 1 ∧ t.dev.sterling.sessions = [])) ∧
  ∀ (s : State) (b : Block), s.dev.faults.inReset.contains b = true →
    (match b with
      | .cluster c => nothingOwed s.dev c
      | .electrum e => ∀ k, k < 16 → nothingOwed s.dev (16 * e + k)
      | .update m => (s.dev.updUnit m).run = none ∧ (s.dev.updUnit m).owed = []
      | .channel _ => True) →
    ∃ t, exec (.blockResetEnd b) s = .next t ∧
      t.dev.faults = { s.dev.faults with inReset := s.dev.faults.inReset.filter (· ≠ b) } ∧
      t.dev = { s.dev with faults := t.dev.faults, clusters := t.dev.clusters, upd := t.dev.upd } ∧
      (∀ c, t.dev.cluster c = s.dev.cluster c) ∧ ∀ m, t.dev.updUnit m = s.dev.updUnit m

/-! ### Management and the counter -/

/-- PMBUS_POLL reads voltage, current and status of each rail that answers into its entries, PMB_ALERT the status alone; where
all answer without a warning no fault is raised. A warning raises one contained fault of the rail source. SENSOR_SAMPLE puts
each sample that is no outlier into its sensor's entry and notes heat above the throttle threshold, and a sample at the shutdown
threshold raises a fatal fault. POWER_ESTIMATE adds each requester's energy and withholds those beyond their grants. SCRUB of a
granule that holds no error counts one granule read; a correctable one it finds is corrected, counted and raised; no byte
changes. -/
def Obligations.ManagementReadings : Prop :=
  (∀ (s : State) (i : Instr) (poll : Bool) (rs : List RailReading), railRow i = some (poll, rs) → s.dev.phase = .service →
    (∀ r ∈ rs, r.answered = true ∧ r.warning = false ∧ r.shutdown = false) →
    ∃ t, exec i s = .next t ∧ t.dev = { s.dev with regs := t.dev.regs, power := t.dev.power } ∧
      (∀ j r, j < 8 → rs[j]? = some r → t.dev.reg (0x7300 + j) 7 = r.status.toNat ∧
        (poll = true → t.dev.reg (0x7300 + j) 5 = r.vout.toNat ∧ t.dev.reg (0x7300 + j) 6 = r.iout.toNat)) ∧
      ∀ j k, k < 256 → ¬(0x7300 ≤ j ∧ j < 0x7308 ∧ (k = 7 ∨ poll = true ∧ (k = 5 ∨ k = 6))) →
        t.dev.reg j k = s.dev.reg j k) ∧
  (∀ (s : State) (i : Instr) (poll : Bool) (r : RailReading), railRow i = some (poll, [r]) → s.dev.phase = .service →
    r.answered = true → r.warning = true → r.shutdown = false → 0 ∉ s.dev.power.railWarned →
    ∃ t f, exec i s = .next t ∧ t.dev.faults.raised = s.dev.faults.raised ++ [f] ∧ f.source = 0x16 ∧ f.cls = 1 ∧
      f.unit = 0) ∧
  (∀ (s : State) (temps : List (BitVec 32)), s.dev.alive = true →
    let ts := temps.map BitVec.toInt
    (∀ k, k < 80 → isOutlier ts k = false) → (∀ k, k < 80 → ts.getD k 0 < (s.dev.thresholds k).2) →
    ∃ t, exec (.sensorSample temps) s = .next t ∧ t.dev = { s.dev with regs := t.dev.regs, power := t.dev.power } ∧
      (∀ k, k < 80 → t.dev.reg (0x7500 + k) 1 = (temps.getD k 0).toNat) ∧
      (t.dev.power.hot = true ↔ s.dev.power.hot = true ∨ ∃ k, k < 80 ∧ (s.dev.thresholds k).1 ≤ ts.getD k 0) ∧
      ∀ i k, k < 256 → ¬(0x7500 ≤ i ∧ i < 0x7550 ∧ k = 1) → t.dev.reg i k = s.dev.reg i k) ∧
  (∀ (s : State) (temps : List (BitVec 32)) (k : Nat), s.dev.alive = true → k < 80 →
    (s.dev.thresholds k).2 ≤ goodSample (temps.map BitVec.toInt) k →
    ∃ t f, exec (.sensorSample temps) s = .next t ∧ f ∈ t.dev.faults.raised ∧ f.source = 0x15 ∧ f.cls = 2 ∧
      f.unit.toNat = k) ∧
  (∀ (s : State) (es : List Nat), s.dev.alive = true →
    ∃ t, exec (.powerEstimate es) s = .next t ∧ t.dev = { s.dev with power := t.dev.power } ∧
      t.dev.power.elapsed = s.dev.power.elapsed + 1024 ∧
      ∀ i e, i < 273 → es[i]? = some e → tget t.dev.power.energy i 0 = tget s.dev.power.energy i 0 + e ∧
        (i ∈ t.dev.power.withholding ↔
          s.dev.grant i * (s.dev.power.elapsed + 1024 + 65536) < tget s.dev.power.energy i 0 + e)) ∧
  ∀ (s : State) (k addr : Nat) (found : Option UpsetKind), s.dev.alive = true → k < 8 →
    let g := addr / 256 * 256
    g < stackEnd → s.dev.correctAt g = true → s.dev.stackCause g = none → s.dev.stackOf g = k →
    g ∉ s.dev.mem.poison → (∀ u ∈ s.dev.mem.upsets, u.addr / 256 * 256 ≠ g) → found ≠ some .uncorrectable →
    ∃ t, exec (.scrub k addr found) s = .next t ∧ t.dev.mem = s.dev.mem ∧
      t.dev.reg (0x4200 + k) 6 = counted s.dev (0x4200 + k) 6 1 ∧
      (found = none → t.dev.faults = s.dev.faults) ∧
      (found = some .correctable → t.dev.reg (0x4200 + k) 1 = counted s.dev (0x4200 + k) 1 1 ∧
        ∃ f, t.dev.faults.raised = s.dev.faults.raised ++ [f] ∧ f.source = 0x0D ∧ f.cls = 0 ∧ f.unit.toNat = k ∧
          f.addr.toNat = g)

/-- A PPS edge under COUNTER_SOURCE 0x02, and a PTP event message under COUNTER_SOURCE 0x01, measure COUNTER's error against
the time they bring: COUNTER_ERROR takes it, the counter is to be steered back by as much, COUNTER_STATE reads 0x01 beyond 1,050
counts and 0x02 once the error has been at most 1 count in 16 consecutive seconds, and nothing else of the dictionary changes
(the reading of the discipline is log entry 58). COUNTER_SOURCE_LOST under either source leaves COUNTER_STATE at 0x01. -/
def Obligations.CounterDiscipline : Prop :=
  (∀ (s : State) (i : Instr) (src ns : Nat) (err : Int), measureRow s.dev i = some (src, ns, err) → s.dev.alive = true →
    s.dev.reg 0x2020 2 = src → -(2 ^ 31 : Int) ≤ err → err < 2 ^ 31 →
    let lock := if err.natAbs ≤ 1 then lockedSeconds s.dev.tick.lockSeconds s.dev.tick.lastSecond (ns / 1000000000) else 0
    ∃ t, exec i s = .next t ∧ (t.dev.reg 0x2020 4 : Int) = err % 2 ^ 32 ∧
      t.dev.reg 0x2020 3 = (if 1050 < err.natAbs then 1 else if 16 ≤ lock then 2 else s.dev.reg 0x2020 3) ∧
      t.dev.tick = { s.dev.tick with slew := -err, lockSeconds := lock, lastSecond := ns / 1000000000 } ∧
      t.dev = { s.dev with draw := t.dev.draw, regs := t.dev.regs, tick := t.dev.tick } ∧
      ∀ j k, k < 256 → ¬(j = 0x2020 ∧ (k = 3 ∨ k = 4)) → t.dev.reg j k = s.dev.reg j k) ∧
  ∀ s : State, s.dev.alive = true → s.dev.reg 0x2020 2 ≠ 0 →
    ∃ t, exec .counterSourceLost s = .next t ∧ t.dev.reg 0x2020 3 = 1 ∧ t.dev.tick.lockSeconds = 0 ∧
      ∀ j k, k < 256 → ¬(j = 0x2020 ∧ k = 3) → t.dev.reg j k = s.dev.reg j k

/-! ### The port -/

/-- LINK_UP makes LINK_STATE up; in the boot sequence, with every slab initialised, the first attempt begins. LINK_DOWN makes it
down, resets the transport state and raises a fault of the port source (with nothing under way that waits for an answer). A
query for one of the device's addresses is answered, any other counted as dropped. PFC_PAUSE pauses and releases a priority that
PFC_ENABLE names, and only such a one. -/
def Obligations.LinkEvents : Prop :=
  ∀ s : State, s.dev.alive = true →
    (s.dev.linkUp = false → s.dev.port.paused = [] → ∃ t, exec .linkUp s = .next t ∧ t.dev.reg 0x8000 2 = 2 ∧
      (s.dev.phase = .boot → s.dev.boot.step = .idle → s.dev.stk.initialising = [] → t.dev.boot.step = .hello ∧
        t.dev.boot.attempt = 1 ∧ sentOne s.dev t.dev (helloTo s.dev) 6 1 (helloBody t.dev)) ∧
      (s.dev.phase = .service → t.dev = s.dev.setReg 0x8000 2 2)) ∧
    (s.dev.linkUp = true →
      (s.dev.tick.xfers = [] → s.dev.tick.ckpts = [] → s.dev.tick.colls = [] → s.dev.port.messages = [] →
        ∃ t f, exec .linkDown s = .next t ∧ t.dev.reg 0x8000 2 = 0 ∧
          t.dev.port = { s.dev.port with transports := [], held := [], paused := [] } ∧
          t.dev.faults.raised = s.dev.faults.raised ++ [f] ∧ f.source = 0x11 ∧ f.cls = 1 ∧ t.dev.mem = s.dev.mem ∧
          t.dev.cores = s.dev.cores ∧ t.dev.tick = s.dev.tick) ∧
      (∀ (mac : BitVec 48) (x : BitVec 32),
        (x.toNat = s.dev.reg 0x8000 5 → x ≠ 0 → exec (.arpRequest mac x) s = .next (s.withDev { s.dev with
          port := { s.dev.port with arpReplies := s.dev.port.arpReplies ++ [(mac, x.zeroExtend 128)] } })) ∧
        (x.toNat ≠ s.dev.reg 0x8000 5 → exec (.arpRequest mac x) s = .next (s.withDev (s.dev.bump 0x8000 0x12 1)))) ∧
      (∀ (mac : BitVec 48) (x : BitVec 128),
        let own := s.dev.reg 0x8000 6 * 2 ^ 64 + s.dev.reg 0x8000 7
        (x.toNat = own → x ≠ 0 → exec (.neighbourSolicitation mac x) s = .next (s.withDev { s.dev with
          port := { s.dev.port with arpReplies := s.dev.port.arpReplies ++ [(mac, x)] } })) ∧
        (x.toNat ≠ own → exec (.neighbourSolicitation mac x) s = .next (s.withDev (s.dev.bump 0x8000 0x12 1)))) ∧
      ∀ p : BitVec 3,
        ((s.dev.reg 0x8000 0x0C).testBit p.toNat = false → ∀ on, exec (.pfcPause p on) s = .next s) ∧
        ((s.dev.reg 0x8000 0x0C).testBit p.toNat = true →
          (∃ t, exec (.pfcPause p true) s = .next t ∧
            t.dev = { s.dev with port := { s.dev.port with paused := t.dev.port.paused } } ∧
            ∀ q, q ∈ t.dev.port.paused ↔ q = p ∨ q ∈ s.dev.port.paused) ∧
          ((∀ m ∈ s.dev.port.held, m.prio ≠ p) → ∃ t, exec (.pfcPause p false) s = .next t ∧
            t.dev = { s.dev with port := { s.dev.port with paused := t.dev.port.paused } } ∧
            ∀ q, q ∈ t.dev.port.paused ↔ q ≠ p ∧ q ∈ s.dev.port.paused)))

/-- A frame that the port does not accept is counted and dropped. An accepted one with the expected sequence number, or with
SYNC, is acknowledged and moves the expectation on; a first segment opens its message, a later one is placed in it. A repeated
frame is acknowledged again, one out of order is not taken. An acknowledgement, as a frame of its class or as its row, takes the
frames before it off the list of unacknowledged ones. RESEND_TIMER sends them again, three times at most. TRANSPORT_FAIL gives
them up: a fault of the port source, and SYNC on the next frame. REASSEMBLY_TIMEOUT discards a message that is not whole. -/
def Obligations.FramesAndAcknowledgements : Prop :=
  ∀ s : State, s.dev.alive = true → s.dev.linkUp = true →
    (∀ w : WireFrame,
      let x := s.dev.transport w.ep w.prio
      (s.dev.frameOk w = false → exec (.cwpFrame w) s = .next (s.withDev (s.dev.bump 0x8000 0x12 1))) ∧
      (s.dev.frameOk w = true → w.hdr.cls ≠ 4 → w.ep ∈ s.dev.endpoints ∨ s.dev.endpoints.length < 4096 →
        (w.hdr.sync = true ∨ x.expect = some w.hdr.tseq → w.hdr.ackv = false →
          ¬(w.hdr.cls = 3 ∧ w.hdr.src.toNat ∈ s.dev.tick.lost) → ∀ seg, seg = (w.hdr.offset.toNat, w.data.take w.hdr.segLen.toNat) →
          (w.hdr.first = true → s.dev.findMsg w.ep w.prio w.hdr.msg = none →
            ∃ t, exec (.cwpFrame w) s = .next t ∧ t.dev = { s.dev with port := t.dev.port } ∧
              t.dev.port.acksSent = s.dev.port.acksSent ++ [(w.ep, w.prio, w.hdr.tseq + 1)] ∧
              t.dev.transport w.ep w.prio = { x with expect := some (w.hdr.tseq + 1) } ∧
              t.dev.port.messages = s.dev.port.messages ++
                [{ ep := w.ep, prio := w.prio, number := w.hdr.msg, cls := w.hdr.cls, kind := w.hdr.kind,
                   version := w.hdr.version, src := w.hdr.src, segs := [seg], last := w.hdr.last,
                   startedAt := s.dev.clock, judged := false }]) ∧
          (∀ m, w.hdr.first = false → s.dev.findMsg w.ep w.prio w.hdr.msg = some m → m.cls = w.hdr.cls →
            ¬(m.cls = 0 ∧ m.judged = true) → ∃ t, exec (.cwpFrame w) s = .next t ∧
              t.dev = { s.dev with port := t.dev.port } ∧
              t.dev.port.acksSent = s.dev.port.acksSent ++ [(w.ep, w.prio, w.hdr.tseq + 1)] ∧
              t.dev.port.messages = s.dev.port.messages.map fun y =>
                if y = m then { m with segs := m.segs ++ [seg], last := m.last || w.hdr.last } else y)) ∧
        (∀ e, w.hdr.sync = false → x.expect = some e → e ≠ w.hdr.tseq →
          exec (.cwpFrame w) s = .next (if 0 < (e - w.hdr.tseq).toNat ∧ (e - w.hdr.tseq).toNat < 2 ^ 31 then
            s.withDev { s.dev with
              port := { s.dev.port with acksSent := s.dev.port.acksSent ++ [(w.ep, w.prio, e)] } } else s)) ∧
        (w.hdr.sync = false → x.expect = none → exec (.cwpFrame w) s = .next s)) ∧
      (s.dev.frameOk w = true → w.hdr.cls = 4 → w.hdr.ackv = true →
        exec (.cwpFrame w) s = exec (.ack w.ep w.prio w.hdr.ack) s)) ∧
    ∀ (ep : Endpoint) (p : BitVec 3),
      let x := s.dev.transport ep p
      (∀ n : BitVec 32, ∃ t, exec (.ack ep p n) s = .next t ∧ t.dev = { s.dev with port := t.dev.port } ∧
        (t.dev.transport ep p).unacked = x.unacked.filter (fun f => !seqBefore f.hdr.tseq n) ∧
        (t.dev.transport ep p).expect = x.expect ∧
        ∀ e q, ¬(e = ep ∧ q = p) → t.dev.transport e q = s.dev.transport e q) ∧
      (∀ f rest, x.unacked = f :: rest → p ∉ s.dev.port.paused →
        (f.resends < 3 → ∃ t, exec (.resendTimer ep p) s = .next t ∧
          (t.dev.transport ep p).unacked = x.unacked.map (fun g => { g with resends := g.resends + 1 }) ∧
          t.dev.reg 0x8000 0x0F = counted s.dev 0x8000 0x0F x.unacked.length ∧ t.dev.mem = s.dev.mem) ∧
        (3 ≤ f.resends → exec (.resendTimer ep p) s = .next s)) ∧
      (x.unacked ≠ [] → s.dev.tick.xfers = [] → s.dev.tick.ckpts = [] → s.dev.tick.colls = [] → s.dev.port.messages = [] →
        ∃ t f, exec (.transportFail ep p) s = .next t ∧
          t.dev.transport ep p = { x with unacked := [], syncNext := true } ∧
          t.dev.reg 0x8000 0x0E = counted s.dev 0x8000 0x0E 1 ∧
          t.dev.faults.raised = s.dev.faults.raised ++ [f] ∧ f.source = 0x11 ∧ f.cls = 1 ∧ t.dev.mem = s.dev.mem) ∧
      ∀ (n : BitVec 32) (m : Msg), s.dev.findMsg ep p n = some m → m.whole = false → ¬(m.cls = 0 ∧ m.judged = true) →
        exec (.reassemblyTimeout ep p n) s = .next (s.withDev
          { s.dev with port := { s.dev.port with messages := s.dev.port.messages.filter (· ≠ m) } })

/-! ### Requests -/

/-- REQUEST judges a request message by its header. From an endpoint that is not admitted it is discarded and counted, unanswered.
While the boot ROM runs it is answered BUSY. A header that R516 to R519 do not admit is answered BOUNDS. A request that its
stream's window holds is answered with DUPLICATE and counted, one in hand is dropped and counted, one below the highest accepted
is answered BOUNDS and counted. A whole control request that passes, with no tick running, is assigned: it stands in its
context with all its commands, none run. -/
def Obligations.RequestsJudged : Prop :=
  ∀ (s : State) (ep : Endpoint) (p : BitVec 3) (n : BitVec 32) (m : Msg), s.dev.findMsg ep p n = some m → m.cls = 0 →
    m.judged = false → s.dev.alive = true →
    let body := m.body.take m.reach
    let h := ReqHdr.parse body
    let id := BitVec.ofNat 64 h.id
    let c := s.dev.ctx h.stream
    let ops := opsIn h.format h.count (body.drop 32)
    let formed := 32 ≤ body.length ∧ h.id ≠ 0 ∧ h.stream ≤ 8191 ∧ (h.format = 1 ∨ h.format = 2) ∧ h.count ≠ 0 ∧
      h.count ≤ 4096 ∧ breaksBulk h ops = false
    (s.dev.admitted m.ep = false → exec (.request ep p n) s = .next (s.withDev ((s.dev.dropMsg m).bump 0x1040 2 1))) ∧
    (s.dev.admitted m.ep = true → linkOpen s.dev →
      (s.dev.phase = .boot ∨ s.dev.phase = .service ∧ ¬formed →
        ∃ t, exec (.request ep p n) s = .next t ∧
          answered s.dev t.dev m.ep h.id (if s.dev.phase = .boot then stBusy else stBounds) ∧
          t.dev.port.messages = s.dev.port.messages.filter (· ≠ m) ∧ t.dev.port.contexts = s.dev.port.contexts ∧
          t.dev.mem = s.dev.mem ∧ t.dev.regs = s.dev.regs) ∧
      (s.dev.phase = .service → formed → s.dev.replaying = false →
        (∀ x, c.window.find? (fun w => w.1 = id) = some x →
          ∃ t, exec (.request ep p n) s = .next t ∧ answered s.dev t.dev m.ep h.id stDuplicate ∧
            t.dev.port.contexts = s.dev.port.contexts ∧ t.dev.reg 0x8010 6 = counted s.dev 0x8010 6 1) ∧
        (c.window.find? (fun w => w.1 = id) = none → (∃ r ∈ c.requests, r.reqId = id) →
          exec (.request ep p n) s = .next (s.withDev ((s.dev.dropMsg m).bump 0x8010 7 1))) ∧
        (c.window.find? (fun w => w.1 = id) = none → (∀ r ∈ c.requests, r.reqId ≠ id) →
          (h.id ≤ c.highest.toNat → ∃ t, exec (.request ep p n) s = .next t ∧ answered s.dev t.dev m.ep h.id stBounds ∧
            t.dev.port.contexts = s.dev.port.contexts ∧ t.dev.reg 0x8010 8 = counted s.dev 0x8010 8 1) ∧
          (c.highest.toNat < h.id → m.whole = true → body.length = h.length → (∀ o ∈ ops, o ≠ 1) → s.dev.logState ≠ 1 →
            s.dev.reg 0x2000 3 ≠ 1 → ∀ x rest, parseCmds h.format h.count (body.drop 32) = x :: rest → x.malformed = false →
            (x :: rest).length = h.count →
            ∃ t r, exec (.request ep p n) s = .next t ∧ t.dev.request h.stream id = some r ∧ r.assigned = true ∧
              r.complete = true ∧ r.cmds = x :: rest ∧ r.ran = 0 ∧ r.ep = m.ep ∧
              t.dev.reg 0x8010 5 = counted s.dev 0x8010 5 1 ∧ t.dev.mem = s.dev.mem ∧
              ∀ y ∈ t.dev.port.messages, y ∈ s.dev.port.messages ∧ y ≠ m))))

/-- The commands of requests that read or write memory, read an entry or create a descriptor, each when it is its context's next:
MEM_READ of a range in the map that nothing stands against returns the range and changes no byte, or, where something writes
what it reads, may be answered BUSY with no data; MEM_WRITE of such a range lays
its data down and changes no other byte; DICT_READ returns the value of an entry that exists and counts, and of any other is
ABORTED with its code; CREATE reads the descriptor and what
it names, judges it, and writes it back, or is answered POISON_INPUT where the descriptor is delivered bad. Beyond that nothing but the port changes. -/
def Obligations.RequestCommands : Prop :=
  ∀ (s : State) (k : Nat) (r : Request) (c : HostCmd),
    (s.dev.nextCmd k = some (r, c) → c.op = 2 → inMap c.addr.toNat c.len.toNat = true →
      s.dev.problemIn .host .read c.addr.toNat c.len.toNat = none → ∀ ups : List Upset,
      let x := (s.dev.addUpsets ups).meetWrites c.addr.toNat c.len.toNat (writersOf s.dev)
      ((∀ j, writersOf s.dev j = []) → x = (0, s.dev.addUpsets ups)) ∧
      (x.1 ≠ 0 → ∃ t, exec (.memRead k c.addr.toNat c.len.toNat ups) s = .next t ∧ x.2.mem = (s.dev.addUpsets ups).mem ∧
        ranTo s t k r c x.2 ⟨stBusy, 0, []⟩) ∧
      (x.1 = 0 → ∃ t e bs bad, exec (.memRead k c.addr.toNat c.len.toNat ups) s = .next t ∧
        x.2.hostRead c.addr.toNat c.len.toNat = (e, bs, bad) ∧
        (∀ a, e.mem.byte a = (s.dev.addUpsets ups).mem.byte a) ∧
        bs = (s.dev.addUpsets ups).mem.read c.addr.toNat c.len.toNat ∧
        (ups = [] → s.dev.mem.upsets = [] → s.dev.mem.poison = [] → bad = false) ∧
        ranTo s t k r c e ⟨if bad then stPoison else stOk, 0, bs⟩)) ∧
    (s.dev.nextBulk k = some (r, c) → c.op = 1 → inMap c.addr.toNat c.data.length = true →
      s.dev.problemIn .host .write c.addr.toNat c.data.length = none →
      ∃ t e, exec (.memWrite k c.addr.toNat c.data) s = .next t ∧ laidDown s.dev e c.addr.toNat c.data ∧
        e.cores = s.dev.cores ∧ e.clusters = s.dev.clusters ∧ ranTo s t k r c e ⟨stOk, 0, []⟩) ∧
    (s.dev.nextCmd k = some (r, c) → c.op = 3 →
      (entryAbort (c.len.toNat ≠ 0) c.addr.toNat = 0 →
        let e := s.dev.bump 0x1020 1 1
        ∃ t, exec (.dictRead k c.addr c.len) s = .next t ∧
          ranTo s t k r c e
            ⟨stOk, 0, beBytes 8 (e.entryValue s.fuses (c.addr.toNat / 256) (c.addr.toNat % 256))⟩) ∧
      (entryAbort (c.len.toNat ≠ 0) c.addr.toNat ≠ 0 →
        ∃ t e, exec (.dictRead k c.addr c.len) s = .next t ∧ e.reg 0x1020 3 = counted s.dev 0x1020 3 1 ∧
          e.reg 0x1020 4 = entryAbort (c.len.toNat ≠ 0) c.addr.toNat ∧ e.mem = s.dev.mem ∧
          ranTo s t k r c e ⟨stAborted, entryAbort (c.len.toNat ≠ 0) c.addr.toNat, []⟩)) ∧
    (s.dev.nextCmd k = some (r, c) → c.op = 5 → s.dev.replaying = false →
      ∀ (i : Instr) (n : Nat) (f : Dev → List Byte → Option (Dev × List Byte × BitVec 8)),
      i = .createTensor k c.addr.toNat ∧ c.len = 0 ∧ n = 128 ∧ (f = fun d b => d.hostTensor c.addr.toNat b) ∨
        i = .createCopy k c.addr.toNat ∧ c.len = 1 ∧ n = 64 ∧ (f = fun d b => d.hostCopy b) →
      descPlaced c.addr.toNat n = true → s.dev.problemIn .host .write c.addr.toNat n = none →
      let x := s.dev.hostRead c.addr.toNat n
      (x.2.2 = true → ∃ t, exec i s = .next t ∧ ranTo s t k r c x.1 ⟨stPoison, 0, []⟩) ∧
      (x.2.2 = false → nothingWaits s.dev → ∃ t e out st, exec i s = .next t ∧ f x.1 x.2.1 = some (e, out, st) ∧
        ranTo s t k r c (e.hostWrite c.addr.toNat out) ⟨st, 0, []⟩))

/-- A write of a dictionary entry, in the row that the entry has of its own or in DICT_WRITE, when it is its context's next
command: accepted, it has its row's effect and counts in DICT_WRITES; one that must wait for the frame's work leaves everything
as it was; refused, it is counted, its abort code and address are noted, and it is ABORTED with the code. Beyond that nothing
but the port changes. A removal, or a load, of the library, enrolment, a raised security version, a submitted Nickel job and
the other commands of the dictionary are such writes. -/
def Obligations.DictionaryWrites : Prop :=
  ∀ (s : State) (k : Nat) (r : Request) (c : HostCmd), s.dev.nextCmd k = some (r, c) → c.op = 4 → r.replayed = false →
    (∀ (i : Instr) (idx sub v : Nat) (f : Dev → Option Dev), writeRow s.fuses i = some (k, idx, sub, v, f) →
      c.addr.toNat = idx * 256 + sub → c.len = 8 → beNat c.data = v →
      (s.dev.writeAbort s.fuses r.ep (idx * 256 + sub) 8 v = 0 →
        (∀ e, f s.dev = some e → ∃ t, exec i s = .next t ∧ ranTo s t k r c (e.bump 0x1020 2 1) ⟨stOk, 0, []⟩) ∧
        (f s.dev = none → exec i s = .next s)) ∧
      (∀ code, s.dev.writeAbort s.fuses r.ep (idx * 256 + sub) 8 v = code → code ≠ 0 →
        ∃ t, exec i s = .next t ∧ ranTo s t k r c (((s.dev.bump 0x1020 3 1).setReg 0x1020 4 code).setReg 0x1020 5
          ((idx * 256 + sub) % 2 ^ 24)) ⟨stAborted, code, []⟩)) ∧
    ∀ v : BitVec 64, beNat (c.data.take 8) = v.toNat →
      let idx := c.addr.toNat / 256
      let sub := c.addr.toNat % 256
      ¬(c.len = 8 ∧ ownRow idx sub v.toNat = true) →
      (s.dev.writeAbort s.fuses r.ep c.addr.toNat c.len.toNat v.toNat = 0 →
        (∀ e, s.dev.writeEntry idx sub v.toNat = some e →
          ∃ t, exec (.dictWrite k c.addr c.len v) s = .next t ∧ ranTo s t k r c (e.bump 0x1020 2 1) ⟨stOk, 0, []⟩) ∧
        (s.dev.writeEntry idx sub v.toNat = none → exec (.dictWrite k c.addr c.len v) s = .next s)) ∧
      (∀ code, s.dev.writeAbort s.fuses r.ep c.addr.toNat c.len.toNat v.toNat = code → code ≠ 0 →
        ∃ t, exec (.dictWrite k c.addr c.len v) s = .next t ∧
          ranTo s t k r c (((s.dev.bump 0x1020 3 1).setReg 0x1020 4 code).setReg 0x1020 5
            (c.addr.toNat % 2 ^ 24)) ⟨stAborted, code, []⟩)

/-- What ends later than the write that asked for it. DERIVATION_DONE: a set that passes its checks goes live at once while the
tick stands, else waits for its boundary; one that fails shows its code and stays as it was. OWNER_PROGRAM_DONE sets the hash in
the fuses, SECVER_PROGRAM_DONE brings the security version to the value asked for, and neither clears a fuse. ATTEST_REPORT
writes the signed report behind its request. SEALED_JOB signs a host report over the fields of R598, or derives the identity key,
with no job running. EXT_COPY_DONE of an image that lies outside the stacks, is too long, is delivered bad or does not check leaves LIB_STATE
failed; of one that passes, the
extension is in service at once while the tick stands, else waits. -/
def Obligations.DeferredWork : Prop :=
  ∀ s : State,
    (∀ (p : Nat) (v : PSetVals), (s.dev.pset p).waiting = some (.commit v none) →
      (s.dev.immediate = false → ∃ t out, exec (.derivationDone p) s = .next t ∧
        t.dev.pset p = { s.dev.pset p with waiting := some (.commit v (some out)) } ∧
        (v.fault = none → out = (0, 0xFF)) ∧ (∀ j, j ≠ p → t.dev.pset j = s.dev.pset j) ∧
        t.dev = { s.dev with psets := t.dev.psets }) ∧
      (s.dev.immediate = true → v.fault = none → ∃ t, exec (.derivationDone p) s = .next t ∧
        t.dev.pset p = { live := some v, waiting := none } ∧ t.dev.reg (0x5100 + p) 3 = 0 ∧
        ∀ j, j ≠ p → t.dev.pset j = s.dev.pset j) ∧
      (∀ code at_, s.dev.immediate = true → v.fault = some (code, at_) → code % 256 ≠ 0 →
        ∃ t, exec (.derivationDone p) s = .next t ∧ t.dev.pset p = { s.dev.pset p with waiting := none } ∧
          t.dev.reg (0x5100 + p) 3 = code % 256 ∧ ∀ j, j ≠ p → t.dev.pset j = s.dev.pset j)) ∧
    (∀ h, s.dev.boot.ownerProgramming = some h → ∃ t, exec .ownerProgramDone s = .next t ∧ s.fuses.kept t.fuses ∧
      (s.fuses.ownerKeyHash = 0 → t.fuses.ownerKeyHash.toNat = leNat h % 2 ^ 256) ∧ t.fuses.secver = s.fuses.secver ∧
      t.dev = { s.dev with boot := { s.dev.boot with ownerProgramming := none } }) ∧
    (∀ v, s.dev.boot.secverProgramming = some v → v ≤ 63 → ∃ t, exec .secverProgramDone s = .next t ∧
      s.fuses.kept t.fuses ∧ secverCount t.fuses = max v (secverCount s.fuses) ∧
      t.fuses.ownerKeyHash = s.fuses.ownerKeyHash ∧
      t.dev = { s.dev with boot := { s.dev.boot with secverProgramming := none } }) ∧
    (∀ a, s.dev.boot.attestAt = some a → s.dev.boot.attestReport ≠ [] →
      s.dev.problemIn .host .write (a + 64) s.dev.boot.attestReport.length = none →
      mapRange (a + 64) s.dev.boot.attestReport.length = true →
      ∃ t, exec .attestReport s = .next t ∧ laidDown s.dev t.dev (a + 64) s.dev.boot.attestReport ∧
        t.dev.boot.attestAt = none ∧ t.dev.reg 0xA120 6 = counted s.dev 0xA120 6 1) ∧
    (s.dev.nickel.run = none →
      (s.dev.nickel.sealedWork = [.hostReport] → ∃ t, exec .sealedJob s = .next t ∧
        t.dev.boot.attestReport = s.dev.reportFields s.fuses s.dev.boot.attestData ++
          edSignMsg s.dev.sterling.identitySeed s.dev.sterling.identityPub
            (ascii "CREUC-AT1" ++ s.dev.reportFields s.fuses s.dev.boot.attestData) ∧
        t.dev.nickel.sealedWork = [] ∧ t.dev.mem = s.dev.mem) ∧
      (s.dev.nickel.sealedWork = [.identity] → ∃ t, exec .sealedJob s = .next t ∧
        t.dev.sterling.identityPub = edPublic identitySeedOf ∧ t.dev.nickel.sealedWork = [])) ∧
    ∀ (a : Nat) (h : BitVec 256), s.dev.lib.loading = some (a, h) →
      let x := s.dev.hostRead a 256
      let y := x.1.hostRead (a + 256) (codeLen x.2.1)
      let fits := inStack a 256 && !x.2.2 && decide (256 + codeLen x.2.1 ≤ 2 ^ 18) && inStack a (256 + codeLen x.2.1) && !y.2.2
      (fits = false ∨ extCheck h (x.2.1 ++ y.2.1) = none → ∃ t, exec .extCopyDone s = .next t ∧
        t.dev.lib = { s.dev.lib with loading := none } ∧ t.dev.reg 0xA300 1 = 3) ∧
      ∀ e : ExtImage, fits = true → extCheck h (x.2.1 ++ y.2.1) = some e →
        ∃ t, exec .extCopyDone s = .next t ∧ t.dev.lib.loading = none ∧
          (s.dev.tickRun = true → t.dev.lib.waiting = some (some e) ∧ t.dev.lib.inService = s.dev.lib.inService) ∧
          (s.dev.tickRun = false → t.dev.lib.inService = some e ∧ t.dev.reg 0xA300 1 = 1)

/-! ### The tick -/

/-- A tick symbol reads back as the tick and the kind it was made of. A running device that hears the symbol of the next tick
accepts its edge; another tick's symbol takes it out of frame entry, with a fault of reason 0x03. The first symbol that a
follower hears sets its numbering. EDGE_EMIT sends the symbol of the chosen kind, and a master whose TICK_RUN was cleared sends
HOLD. At the READINESS_DEADLINE a running master chooses HOLD while a checkpoint holds edges, ENTER when every READY is in, and
else SKIP. DEVICE_READY sends READY for the next frame to the master. TICK_LOST stops a follower with reason 0x04. BANK_WAKE
turns a waking bank on, and what waited for it goes on. -/
def Obligations.TickSymbols : Prop :=
  (∀ (n : Nat) (k : EdgeKind), readSymbol (tickSymbol n k) = some (n % 2 ^ 64, some k)) ∧
  (∀ (s : State) (n : Nat) (k : EdgeKind), s.dev.tickRun = true → s.dev.tick.accepted = none → noRepeat s.dev →
    s.dev.port.waiting = [] →
    (s.dev.reg 0x2000 3 = 1 → s.dev.tick.adopted = true →
      (n % 2 ^ 64 = (s.dev.tickNumber + 1) % 2 ^ 64 → ∃ t, exec (.tickSymbol (tickSymbol n k)) s = .next t ∧
        t.dev.tick = { s.dev.tick with accepted := some k } ∧ t.dev.reg 0x2000 3 = 1 ∧
        t.dev.tickNumber = s.dev.tickNumber ∧ t.dev.reg 0x2000 0x0C = s.dev.counter ∧ t.dev.faults = s.dev.faults) ∧
      (n % 2 ^ 64 ≠ (s.dev.tickNumber + 1) % 2 ^ 64 → ∃ t f, exec (.tickSymbol (tickSymbol n k)) s = .next t ∧
        t.dev.reg 0x2000 3 = 2 ∧ t.dev.tick.accepted = none ∧ t.dev.tickNumber = s.dev.tickNumber ∧
        t.dev.faults.raised = s.dev.faults.raised ++ [f] ∧ f.source = 0x0F ∧ f.reason = 3)) ∧
    (s.dev.reg 0x2000 3 = 5 → s.dev.tick.adopted = false → s.dev.isFollower = true →
      ∃ t, exec (.tickSymbol (tickSymbol n k)) s = .next t ∧ t.dev.tick.accepted = some k ∧ t.dev.tick.adopted = true ∧
        t.dev.reg 0x2000 3 = 1 ∧ (t.dev.tickNumber + 1) % 2 ^ 64 = n % 2 ^ 64)) ∧
  (∀ (s : State) (k : EdgeKind),
    s.dev.tick.holdOnly = true ∧ k = .hold ∨ s.dev.tick.holdOnly = false ∧ s.dev.tickRun = true ∧
      s.dev.reg 0x2000 3 = 1 ∧ s.dev.isMaster = true ∧ s.dev.tick.chosen = some k →
    exec .edgeEmit s = .next (s.withDev { s.dev with
      pins := { s.dev.pins with tickOut := s.dev.pins.tickOut ++ [tickSymbol (s.dev.tickNumber + 1) k] },
      tick := { s.dev.tick with chosen := none } })) ∧
  (∀ s : State, s.dev.tickRun = true → s.dev.reg 0x2000 3 = 1 → s.dev.isMaster = true →
    ∃ t, exec .readinessDeadline s = .next t ∧
      t.dev.tick.chosen = some (if s.dev.tick.holdLeft ≠ 0 then .hold else if s.dev.missingReady = [] then .enter else .skip) ∧
      t.dev.tick.missing = s.dev.missingReady ∧ t.dev.tick.holdLeft = s.dev.tick.holdLeft - 1 ∧
      t.dev.mem = s.dev.mem ∧ t.dev.cores = s.dev.cores) ∧
  (∀ s : State, s.dev.tickRun = true → s.dev.reg 0x2000 3 = 1 ∨ s.dev.reg 0x2000 3 = 5 → s.dev.tick.readySent = false →
    s.dev.ready = true → ∃ t, exec .deviceReady s = .next t ∧ t.dev.tick = { s.dev.tick with readySent := true } ∧
      (s.dev.isMaster = true → t.dev.port = s.dev.port) ∧
      ∀ ep, s.dev.isMaster = false → linkOpen s.dev → s.dev.peerEndpoint (0x8400 + s.dev.reg 0x8010 1) = some ep →
        sentOne s.dev t.dev ep 3 1 (leBytes 8 s.dev.nextFrame)) ∧
  (∀ s : State, s.dev.tickRun = true → s.dev.isFollower = true → s.dev.reg 0x2000 3 = 1 ∨ s.dev.reg 0x2000 3 = 5 →
    s.dev.port.waiting = [] → ∃ t f, exec .tickLost s = .next t ∧ t.dev.reg 0x2000 3 = 3 ∧ t.dev.tick.accepted = none ∧
      t.dev.faults.raised = s.dev.faults.raised ++ [f] ∧ f.source = 0x0F ∧ f.reason = 4) ∧
  ∀ (s : State) (c b : Nat), s.dev.bankPower c b = .waking →
    ∃ d : Dev, exec (.bankWake c b) s = .next (s.withDev (d.wake c)) ∧ d = { s.dev with clusters := d.clusters } ∧
      (∀ y, d.bankPower c y = if y = b then .on else s.dev.bankPower c y) ∧
      ∀ x, x ≠ c → d.cluster x = s.dev.cluster x

/-- HOLD and SKIP edges advance TICK_NUMBER by one and leave FRAME_NUMBER and the running frame; SKIP counts. An ENTER edge, with
no fault to classify, no pending value, no update item and no replay, advances TICK_NUMBER, enters the next frame with its
header's GEN_TICK and fill list, and closes every key stream. The FRAME_BARRIER starts every core that its entry record enables
with a good LOG_N and good program counters, and, with no list left to drop, leaves one that it does not enable out of the frame;
with no header ring it writes that core's record, STATE 0 at stream 3 after 8 cycles. FRAME_COMPLETE of a frame whose work is done
and whose faults are classified leaves its record in the completion ring, or counts it as lost where the stacks refuse it. -/
def Obligations.TickEdges : Prop :=
  (∀ s : State, s.dev.tick.accepted = some .hold →
    ∃ t, exec .holdEdge s = .next t ∧ t.dev.tickNumber = (s.dev.tickNumber + 1) % 2 ^ 64 ∧
      t.dev.frameNumber = s.dev.frameNumber ∧ t.dev.tick.frame = s.dev.tick.frame ∧ t.dev.tick.accepted = none ∧
      t.dev.cores = s.dev.cores) ∧
  (∀ s : State, s.dev.tick.accepted = some .skip →
    ∃ t, exec .skipEdge s = .next t ∧ t.dev.tickNumber = (s.dev.tickNumber + 1) % 2 ^ 64 ∧
      t.dev.frameNumber = s.dev.frameNumber ∧ t.dev.tick.frame = s.dev.tick.frame ∧ t.dev.tick.accepted = none ∧
      t.dev.cores = s.dev.cores ∧ t.dev.reg 0x2000 0x0E = counted s.dev 0x2000 0x0E 1) ∧
  (∀ s : State, s.dev.tick.accepted = some .enter → s.dev.reg 0x2000 3 = 1 → s.dev.tickRun = true → s.dev.shadow = [] →
    s.dev.faults.raised = [] → s.dev.tick.replayInputs = [] → (∀ h, s.dev.tick.next = some h → h.updates = []) →
    ∃ t f, exec .enterEdge s = .next t ∧ t.dev.tickNumber = (s.dev.tickNumber + 1) % 2 ^ 64 ∧
      t.dev.frameNumber = s.dev.nextFrame % 2 ^ 64 ∧ t.dev.tick.frame = some f ∧
      f.number = .ofNat 64 s.dev.nextFrame ∧ f.tick = .ofNat 64 (s.dev.tickNumber + 1) ∧ f.barrier = false ∧
      f.complete = false ∧ t.dev.tick.next = none ∧ t.dev.tick.accepted = none ∧
      (∀ h, s.dev.tick.next = some h → f.genTick = h.genTick ∧ t.dev.tick.fillList = h.fills ∧
        t.dev.tick.fillCount = h.fillCount) ∧
      ∀ k, k < 8 → (t.dev.channel k).stream = none) ∧
  (∀ (s : State) (f : FrameRun), s.dev.tick.frame = some f → f.barrier = false →
    ∃ t g, exec .frameBarrier s = .next t ∧ t.dev.tick.frame = some g ∧ g.barrier = true ∧ g.barrierAt = s.dev.clock ∧
      g.number = f.number ∧ ∀ n, n < 4096 → (s.dev.core n).frame ≠ .inFrame →
        s.dev.faults.holds (.cluster (n / 16)) = false →
        let r := s.dev.mem.read (coreAddr n 0) 64
        ((leNat r).testBit 0 = false → nothingListed s.dev →
          t.dev.core n = { Core.fresh with frame := .disabled, heldSignals := (s.dev.core n).heldSignals } ∧
          (s.dev.reg 0x2010 2 = 0 → t.dev.mem.byte (coreAddr n 0x40) = 0 ∧ t.dev.mem.byte (coreAddr n 0x42) = 3 ∧
            t.dev.mem.byte (coreAddr n 0x48) = 8)) ∧
        ((leNat r).testBit 0 = true → 12 ≤ leNat r / 2 ^ 16 % 32 → leNat r / 2 ^ 16 % 32 ≤ 17 →
          leNat r / 2 ^ 32 % 4 = 0 → leNat r / 2 ^ 48 % 8 = 0 → leNat r / 2 ^ 64 % 8 = 0 →
          (s.dev.core n).heldSignals = [] → t.dev.core n = s.dev.enteredCore n r)) ∧
  ∀ (s : State) (f : FrameRun), s.dev.tick.frame = some f → f.complete = false → s.dev.frameDone = true →
    s.dev.faults.raised = [] → s.dev.tickRun = true → (∀ p ∈ s.dev.exchanges, p.2.state ≠ .sending) →
    let count := s.dev.reg 0x8010 4
    let at_ := s.dev.reg 0x8010 3 + f.number.toNat % count * 64
    ∃ t, exec .frameComplete s = .next t ∧ t.dev.tick.frame = some { f with complete := true } ∧
      t.dev.tickNumber = s.dev.tickNumber ∧ t.dev.cores = s.dev.cores ∧
      (count ≠ 0 → s.dev.problemIn .host .write at_ 64 = none → laidDown s.dev t.dev at_ (s.dev.compRecord f)) ∧
      (∀ a cause, count ≠ 0 → s.dev.problemIn .host .write at_ 64 = some (.stack a cause) →
        t.dev.mem = s.dev.mem ∧ t.dev.reg 0x8010 9 = counted s.dev 0x8010 9 1) ∧
      (count = 0 → t.dev.mem = s.dev.mem)

/-! ### Launches -/

/-- Each launch row fires the earliest due launch when it is of its kind, with no bank waiting. PORT_TX with a descriptor that
checks sends one PEER_WRITE of its source, and the transfer waits for its answer; one that does not check ends with BOUNDS, and
one whose descriptor is delivered bad is over. CHECKPOINT in frame entry takes every checkpoint launch of the cycle, holds the
edges it asks for, and shows CKPT_STATE waiting, or sending where one is. CHECKPOINT_START, once the device's part of the frame is
complete, ends with CKPT_STATE failed, where no other waits, if a descriptor does not check; with nothing to send it ends
complete; the image of one descriptor goes out in two messages, and the checkpoint waits for the answer. COLLECTIVE starts a run
over the members and sends its digest to each other one. REPLAY_INPUT queues its record. -/
def Obligations.LaunchesFire : Prop :=
  (∀ (s : State) (l : Launch), s.dev.dueLaunch = some l →
    let fired : Dev := { s.dev with tick := { s.dev.tick with launches := s.dev.tick.launches.erase l } }
    let x := fired.hostRead l.arg 64
    let b := x.2.1
    (l.kind = 1 → nothingWaits s.dev → ∀ ups : List Upset,
      (x.2.2 = true → exec (.portTx ups) s = .next (s.withDev x.1)) ∧
      (x.2.2 = false → x.1.xferOk b = false →
        exec (.portTx ups) s = .next (s.withDev (x.1.endTransfer b stBounds 0 0 0xFFFFFFFF 0))) ∧
      (∀ ep, x.2.2 = false → x.1.xferOk b = true → linkOpen s.dev → s.dev.peerEndpoint (0x8400 + fld b 112 10) = some ep →
        let y := (x.1.addUpsets ups).readMarked (fld b 0 48) (fld b 128 48)
        ∃ t, exec (.portTx ups) s = .next t ∧
          sentOne s.dev t.dev ep 3 2 (leBytes 8 (fld b 64 48) ++ leBytes 8 (fld b 128 48) ++ y.2.1) ∧
          t.dev.tick = { fired.tick with xfers := s.dev.tick.xfers ++
            [{ msg := s.dev.port.nextMsg, dev := fld b 112 10, desc := b,
               status := if y.2.2 = [] then stOk else stPoison, granules := fld b 128 48 / 256 }] } ∧
          t.dev.mem = y.1.mem)) ∧
    (l.kind = 2 → s.dev.reg 0x2000 3 = 1 →
      let mine := s.dev.tick.launches.filter fun x => x.kind = 2 && x.fire = l.fire
      ∃ t c, exec .checkpoint s = .next t ∧
        t.dev.reg 0x2070 6 = (if s.dev.tick.ckpts.any (fun x => x.sending) then 2 else 1) ∧ t.dev.tick.ckpts = s.dev.tick.ckpts ++ [c] ∧
        c.descs = mine.map (·.arg) ∧ c.sending = false ∧ s.dev.tick.holdLeft ≤ t.dev.tick.holdLeft ∧
        (∀ x ∈ mine, (s.dev.ckptDesc x.arg).holdEdges ≤ t.dev.tick.holdLeft) ∧
        (∀ x, x ∈ t.dev.tick.launches ↔ x ∈ s.dev.tick.launches ∧ ¬(x.kind = 2 ∧ x.fire = l.fire)) ∧
        t.dev.mem = s.dev.mem) ∧
    (l.kind = 3 → ∀ r, l.input = some r → logKind r ≠ 7 → exec .replayInput s = .next (s.withDev
      { fired with tick := { fired.tick with replayInputs := s.dev.tick.replayInputs ++ [r] } })) ∧
    (l.kind = 4 → nothingWaits s.dev →
      let members := (List.range 1024).filter s.dev.isMember
      (x.2.2 = true → exec .collective s = .next (s.withDev x.1)) ∧
      (x.2.2 = false → s.dev.systemDevice ∉ members →
        exec .collective s = .next (s.withDev (x.1.endTransfer b stBounds 0 0 0xFFFFFFFF 0))) ∧
      (x.2.2 = false → s.dev.systemDevice ∈ members → 2 ≤ members.length → linkOpen s.dev →
        (∀ n ∈ members, (s.dev.peerEndpoint (0x8400 + n)).isSome = true) →
        (∀ x ∈ s.dev.tick.collEarly, x.collId ≠ l.at_) →
        let y := if descPlaced (collTensor b) 128 then x.1.hostRead (collTensor b) 128 else (x.1, zeroBytes 128, true)
        let digest := if y.2.2 then zeroBytes 64 else (y.1.collDigest b (Tensor.parse (collTensor b) y.2.1)).2
        ∃ t r ms, exec .collective s = .next t ∧ t.dev.tick.colls = s.dev.tick.colls ++ [r] ∧ r.collId = l.at_ ∧
          r.members = members ∧ r.nextStep = 0 ∧ r.desc = b ∧ r.tensorDesc = y.2.1 ∧ r.digest = digest ∧
          r.digests = [(s.dev.systemDevice, digest)] ∧ t.dev.port.sent = s.dev.port.sent ++ ms ∧
          ms.map (fun m => m.dst.toNat) = members.filter (· ≠ s.dev.systemDevice) ∧
          ∀ m ∈ ms, m.cls = 3 ∧ m.kind = 4 ∧
            m.body = leBytes 8 l.at_.toNat ++ leBytes 2 0 ++ zeroBytes 6 ++ digest))) ∧
  ∀ (s : State) (c : CkptRun) (rest : List CkptRun) (ups : List Upset), s.dev.tick.ckpts = c :: rest → c.sending = false →
    s.dev.frameDone = true → s.dev.ckptWaits c.descs = false →
    let x := (s.dev.addUpsets ups).ckptChecks c.descs
    (x.2.2 ≠ none →
      let left := s.dev.tick.ckpts.filter (· ≠ c)
      ∃ t, exec (.checkpointStart ups) s = .next t ∧ t.dev.tick.ckpts = left ∧
        t.dev.reg 0x2070 6 = (if left.any (fun x => x.sending) then 2 else if left = [] then 3 else 1)) ∧
    (x.2.2 = none → (∀ p ∈ x.2.1, p.2 = []) → c.awaiting = [] →
      ∃ t, exec (.checkpointStart ups) s = .next t ∧ (rest = [] → t.dev.tick.ckpts = [] ∧ t.dev.reg 0x2070 6 = 0) ∧
        t.dev.reg 0x2070 7 = c.seq.toNat) ∧
    ∀ a es, x.2.2 = none → x.2.1 = [(a, es)] → es ≠ [] → rest = [] → linkOpen s.dev →
      let n := { c with sending := true, startedAt := s.dev.clock }
      let d := ((x.1.stopPrefetch).setReg 0x2070 6 2).setCkpt c n
      let k := d.ckptDesc a
      let list := d.hostRead k.list (16 * k.count)
      d.reachable k = true → list.2.2 = false → (list.1.readExtents es).2.2 = false →
      ∃ t m w, exec (.checkpointStart ups) s = .next t ∧ t.dev.port.sent = s.dev.port.sent ++ [m, w] ∧
        m.cls = 3 ∧ m.kind = 5 ∧ w.cls = 3 ∧ w.kind = 6 ∧ t.dev.reg 0x2070 6 = 2 ∧
        t.dev.tick.ckpts = [{ n with awaiting := c.awaiting ++ [(w.number, a)],
                                     sizes := c.sizes ++ [(a, es.length, total (es.map fun e => e.2 / 256))] }]

/-! ### Messages between devices -/

/-- A message of a device that is not heard is counted and otherwise without effect. READY is kept by the master. PEER_WRITE into
the stacks lays its data down and is answered OK; one that reaches beyond them changes no byte and is answered BOUNDS. PEER_DONE
ends the transfer that waits for it. A COLL step whose launch has not fired is kept. CKPT_DATA of an image under way goes to
its place in the slot. CKPT_END with a valid header completes the image: the header stands in the slot, the area shows the
image's sequence number, and the answer is OK. -/
def Obligations.PeerMessages : Prop :=
  ∀ s : State, s.dev.phase = .service →
    (∀ (i : Instr) (src : BitVec 16) (ep : Endpoint), peerRow i = some (src, ep) → src ≠ 0xFFFF →
      s.dev.hears src ep = false → exec i s = .next (s.withDev
        (if src.toNat ∈ s.dev.tick.lost then s.dev.bump 0x2070 5 1 else s.dev.bump 0x8000 0x12 1))) ∧
    ∀ (src : BitVec 16) (ep : Endpoint), s.dev.hears src ep = true →
      (∀ frame : BitVec 64, s.dev.isMaster = true → ∃ t, exec (.ready src ep frame) s = .next t ∧
        (∀ p, p ∈ t.dev.tick.readyFrom ↔ p = (src.toNat, frame.toNat) ∨ p ∈ s.dev.tick.readyFrom) ∧
        t.dev.mem = s.dev.mem ∧ t.dev.regs = s.dev.regs) ∧
      (∀ (msg : BitVec 32) (a : Nat) (data : List Byte), linkOpen s.dev →
        (inStack a data.length = true → s.dev.problemIn .host .write a data.length = none →
          ∃ t, exec (.peerWrite src ep msg a data []) s = .next t ∧ laidDown s.dev t.dev a data ∧
            t.dev.cores = s.dev.cores ∧ sentOne s.dev t.dev ep 3 3 (doneBody msg stOk)) ∧
        (inStack a data.length = false → ∀ bad, ∃ t, exec (.peerWrite src ep msg a data bad) s = .next t ∧
          t.dev.mem = s.dev.mem ∧ sentOne s.dev t.dev ep 3 3 (doneBody msg stBounds))) ∧
      (∀ (msg : BitVec 32) (st : BitVec 8) (x : PortXfer), src ≠ 0xFFFF →
        s.dev.tick.xfers.find? (fun x => x.msg = msg && some x.dev = some src.toNat) = some x →
        exec (.peerDone src ep msg st) s = .next (s.withDev ((s.dev.consume ep 3 3).endXfer x st)) ∧
        ((s.dev.consume ep 3 3).endXfer x st).tick.xfers = s.dev.tick.xfers.filter (· ≠ x)) ∧
      (∀ (id : BitVec 64) (step : BitVec 16) (data : List Byte), (∀ r ∈ s.dev.tick.colls, r.collId ≠ id) →
        ∃ t, exec (.coll src ep id step data) s = .next t ∧ t.dev.mem = s.dev.mem ∧ t.dev.regs = s.dev.regs ∧
          t.dev.tick = { s.dev.tick with collEarly := s.dev.tick.collEarly ++
            [{ src := src.toNat, collId := id, step := step.toNat, data := data }] }) ∧
      ∀ (area : Nat) (seq : BitVec 64), s.dev.areaTakes area src = true →
        tfind s.dev.tick.replicas area = some { seq := seq, refused := false } →
        let slot := s.dev.slotOf area seq
        (∀ (off : Nat) (data : List Byte), 256 ≤ off → off + data.length ≤ slot.2 →
          inStack (slot.1 + off) data.length = true → s.dev.problemIn .host .write (slot.1 + off) data.length = none →
          ∃ t, exec (.ckptData src ep area seq off data) s = .next t ∧ laidDown s.dev t.dev (slot.1 + off) data ∧
            t.dev.tick = s.dev.tick) ∧
        ∀ (msg : BitVec 32) (hdr : List Byte), hdr.length = 256 → imageValid hdr = true → inStack slot.1 256 = true →
          s.dev.problemIn .host .write slot.1 256 = none → linkOpen s.dev →
          ∃ t, exec (.ckptEnd src ep msg area seq hdr) s = .next t ∧ laidDown s.dev t.dev slot.1 hdr ∧
            t.dev.reg (0x2080 + area) (4 + seq.toNat % 2) = seq.toNat ∧ tfind t.dev.tick.replicas area = none ∧
            sentOne s.dev t.dev ep 3 3 (doneBody msg stOk)

/-! ### Share sessions and exchanges -/

/-- SH_HELLO with a good point opens the lowest free session, unbound, and its handshake waits as a sealed job; a bad point is
answered with SH_ABORT and a body of another length is dropped and counted. SH_REPORT sends the report once it is made. SH_BIND
that opens under the session's key on its transcript makes the session live, and the device binds too; one that does not
discards the session, and so does BIND_TIMEOUT; one whose SLOT, ROUND or SERIAL is not zero is dropped and counted. -/
def Obligations.ShareSessions : Prop :=
  ∀ s : State, s.dev.phase = .service → linkOpen s.dev →
    (∀ (ep : Endpoint) (body : List Byte),
      (body.length ≠ 72 → exec (.shHello ep body) s = .next (s.withDev ((s.dev.consume ep 2 1).bump 0x5800 9 1))) ∧
      (body.length = 72 → helloKey body = none → ∃ t, exec (.shHello ep body) s = .next t ∧
        t.dev.sterling = s.dev.sterling ∧
        sentOne s.dev t.dev ep 2 0x1F (shareHeader 0x1F 0xFFFF 0 0 0 0 1 ++ [stNotOnCurve])) ∧
      (∀ n, body.length = 72 → (helloKey body).isSome = true → n < 512 → s.dev.session n = none →
        (∀ j, j < n → s.dev.session j ≠ none) → ∃ t x, exec (.shHello ep body) s = .next t ∧ t.dev.session n = some x ∧
          x.live = false ∧ x.ep = ep ∧ x.hello = body ∧ x.reported = false ∧ x.tag.toNat = leNat (body.drop 64) ∧
          t.dev.nickel.sealedWork = s.dev.nickel.sealedWork ++ [.handshake n] ∧
          ∀ j, j ≠ n → t.dev.session j = s.dev.session j)) ∧
    (∀ (n : Nat) (x : Session), s.dev.session n = some x → x.live = false →
      (x.reported = false → x.report ≠ [] → ∃ t, exec (.shReport n) s = .next t ∧
        t.dev.session n = some { x with reported := true } ∧
        sentOne s.dev t.dev x.ep 2 2 (shareHeader 2 n 0 0 0 0 x.report.length ++ x.report)) ∧
      (x.reported = true → ∃ t, exec (.bindTimeout n) s = .next t ∧ t.dev.session n = none ∧
        (∀ j, j ≠ n → t.dev.session j = s.dev.session j) ∧
        t.dev = { s.dev with sterling := { s.dev.sterling with sessions := t.dev.sterling.sessions } })) ∧
    ∀ (m : ShareMsg) (x : Session), s.dev.session m.session.toNat = some x → x.live = false → x.reported = true →
      (m.slot ≠ 0 ∨ m.round ≠ 0 ∨ m.serial ≠ 0 →
        exec (.shBind m) s = .next (s.withDev ((s.dev.consume m.ep 2 3).bump 0x5800 9 1))) ∧
      (m.slot = 0 → m.round = 0 → m.serial = 0 →
        (m.kind = 3 → m.version = 1 → m.seq = 0 → m.bodyLen = 64 → plainOf m x = some x.transcript →
          (∀ j y, s.dev.session j = some y → j ≠ m.session.toNat → ¬(y.live = true ∧ y.tag = x.tag)) →
          (s.dev.sterling.sessions.map (·.1)).Nodup →
          ∃ t, exec (.shBind m) s = .next t ∧ t.dev.session m.session.toNat =
              some { x with live := true, ep := m.ep, accepted := [0], seqOut := x.seqOut + 1 } ∧
            let hdr := shareHeader 3 m.session.toNat 0 0 x.seqOut.toNat 0 x.transcript.length
            sentOne s.dev t.dev m.ep 2 3 (hdr ++ aeadSeal x.keyOut (shareNonce x.seqOut.toNat) hdr x.transcript)) ∧
        (¬(m.kind = 3 ∧ m.version = 1 ∧ m.seq = 0) ∨ plainOf m x = none → ∃ t, exec (.shBind m) s = .next t ∧
          t.dev.session m.session.toNat = none ∧ t.dev.reg 0x5800 9 = counted s.dev 0x5800 9 1) ∧
        (∀ p, m.kind = 3 → m.version = 1 → m.seq = 0 → plainOf m x = some p → p ≠ x.transcript ∨ m.bodyLen ≠ 64 →
          ∃ t, exec (.shBind m) s = .next t ∧ t.dev.session m.session.toNat = none))

/-- A message of a live session that is not awaited, was taken before, or does not open is dropped and counted; one of another
VERSION that opens fails its exchange. Taken, SH_ACK and SH_REPLY bring the exchange to its next round or to SH_FINAL, SH_IN adds
its part and completes the exchange with the last, SH_ABORT fails the exchange, and SH_CLOSE ends the session. ROUND_TIMEOUT sends
the last message again until the resends are used up and then fails the exchange, EXCHANGE_DEADLINE fails it, and SLOT_RELEASE
frees its slot 16 ticks after the deadline. -/
def Obligations.ShareExchanges : Prop :=
  (∀ (s : State) (i : Instr) (m : ShareMsg) (kind : BitVec 8) (awaited : Bool) (x : Session), s.dev.phase = .service →
    shareRow s.dev i = some (m, kind, awaited) → s.dev.session m.session.toNat = some x →
    x.live = true →
    (¬(m.kind = kind ∧ m.seq ∉ x.accepted ∧ awaited = true) ∨ plainOf m x = none →
      exec i s = .next (s.withDev ((s.dev.consume m.ep 2 m.kind).bump 0x5800 9 1))) ∧
    ∀ p, m.kind = kind → m.seq ∉ x.accepted → awaited = true → plainOf m x = some p →
      let d := shareTaken s.dev m x
      let slot := m.slot.toNat
      (m.version ≠ 1 → i = .shClose m → exec i s = .next (s.withDev (d.bump 0x5800 9 1))) ∧
      (m.version ≠ 1 → i ≠ .shClose m → ∀ e, s.dev.exchange slot = some e → ∃ t, exec i s = .next t ∧
        t.dev.exchange slot = some { e with state := .failedPeer } ∧ t.dev.reg 0x5800 8 = counted s.dev 0x5800 8 1) ∧
      (m.version = 1 →
        (i = .shClose m → ∃ t, exec i s = .next t ∧ t.dev.session m.session.toNat = none ∧ t.dev.mem = s.dev.mem) ∧
        ∀ e, s.dev.exchange slot = some e →
          (i = .shAbort m → ∃ t, exec i s = .next t ∧ t.dev.exchange slot = some { e with state := .failedPeer } ∧
            t.dev.reg 0x5800 8 = counted s.dev 0x5800 8 1) ∧
          (i = .shIn m → p.length = m.bodyLen.toNat → partOk e p = true → tfind e.arrived (fld p 0 16) = none →
            let arrived := tset e.arrived (fld p 0 16) (BitVec.ofNat 16 (fld p 32 16), p)
            ∃ t y, exec i s = .next t ∧ t.dev.exchange slot = some y ∧ y.arrived = arrived ∧
              (y.state = .complete ↔ arrived.length = (ExRec.parse e.record).outParts)) ∧
          (i = .shAck m → (p ≠ [] ∨ m.bodyLen ≠ 0) → ∃ t, exec i s = .next t ∧
            t.dev.exchange slot = some { e with state := .failedPeer }) ∧
          (i = .shAck m → p = [] → m.bodyLen = 0 → carriesOn s i d slot 0x11 e) ∧
          (i = .shReply m → p.length = m.bodyLen.toNat → p.length = d.roundLength e →
            let y := { e with transcriptIn := e.transcriptIn ++ [p] }
            carriesOn s i (d.putExchange slot y) slot 0x13 y))) ∧
  ∀ (s : State) (slot : Nat) (e : Exchange), s.dev.exchange slot = some e →
    (∀ x, s.dev.replaying = false → e.state = .awaitingAck ∨ e.state = .inRound ∨ e.state = .awaitingIn →
      (e.resends < s.dev.reg 0x5800 4 → s.dev.session e.session = some x → linkOpen s.dev →
        ∃ t, exec (.roundTimeout slot) s = .next t ∧ t.dev.exchange slot = some { e with resends := e.resends + 1 } ∧
          sentOne s.dev t.dev x.ep 2 e.lastKind e.lastMsg) ∧
      (s.dev.reg 0x5800 4 ≤ e.resends → ∃ t, exec (.roundTimeout slot) s = .next t ∧
        t.dev.exchange slot = some { e with state := .failedPeer })) ∧
    (s.dev.replaying = false → e.state.open_ = true → e.deadline ≤ s.dev.tickNumber →
      ∃ t, exec (.exchangeDeadline slot) s = .next t ∧ t.dev.exchange slot = some { e with state := .failedPeer } ∧
        t.dev.reg 0x5800 8 = counted s.dev 0x5800 8 1) ∧
    (e.deadline + 16 ≤ s.dev.tickNumber → ∃ t, exec (.slotRelease slot) s = .next t ∧
      t.dev.exchange slot = none ∧ (∀ j, j ≠ slot → t.dev.exchange j = s.dev.exchange j) ∧
      t.dev = { s.dev with sterling := t.dev.sterling, exchOpen := t.dev.exchOpen })
end

