-- ==== Sys2Proof/Laws/Tables.lean ====
section
/-! SUPPORT. Sparse tables and memory: what a read answers after a write, and that memory keeps its canonical form. -/

namespace Sys2Proof.Machine

variable {α : Type}

@[simp] theorem tget_nil (k : Nat) (e : α) : tget [] k e = e := rfl

@[simp] theorem tget_tset_same (t : Tbl α) (k : Nat) (v e : α) : tget (tset t k v) k e = v := by
  induction t with
  | nil => simp [tset, tget]
  | cons p r ih =>
    obtain ⟨j, w⟩ := p
    unfold tset
    split
    · simp [tget]
    · split
      · simp [tget]
      · rename_i _ h
        simp [tget, Ne.symm h, ih]

theorem tget_tset_other (t : Tbl α) {k m : Nat} (v e : α) (h : m ≠ k) : tget (tset t k v) m e = tget t m e := by
  induction t with
  | nil => simp [tset, tget, Ne.symm h]
  | cons p r ih =>
    obtain ⟨j, w⟩ := p
    unfold tset
    split
    · simp [tget, Ne.symm h]
    · split
      · rename_i _ hk
        subst hk
        simp [tget, Ne.symm h]
      · simp [tget, ih]

theorem tget_tset (t : Tbl α) (k m : Nat) (v e : α) : tget (tset t k v) m e = if m = k then v else tget t m e := by
  split
  · subst_vars; simp
  · exact tget_tset_other t v e ‹_›

theorem tfind_eq_tget (t : Tbl α) (k : Nat) (e : α) : (tfind t k).getD e = tget t k e := by
  induction t with
  | nil => rfl
  | cons p r ih => unfold tfind tget; split <;> simp_all

theorem tfind_tset (t : Tbl α) (k m : Nat) (v : α) : tfind (tset t k v) m = if m = k then some v else tfind t m := by
  induction t with
  | nil => simp only [tset, tfind, eq_comm]
  | cons p r ih =>
    obtain ⟨j, w⟩ := p
    unfold tset
    split
    · by_cases h : m = k
      · simp [tfind, h]
      · simp [tfind, h, Ne.symm h]
    · split
      · rename_i _ hk
        subst hk
        by_cases h : m = k
        · simp [tfind, h]
        · simp [tfind, h, Ne.symm h]
      · rename_i _ hk
        by_cases h : m = k
        · subst h; simp [tfind, ih, Ne.symm hk]
        · by_cases h' : j = m <;> simp [tfind, ih, h, h']

/-! ### Byte strings -/

@[simp] theorem leBytes_length (n v : Nat) : (leBytes n v).length = n := by
  induction n generalizing v with
  | zero => rfl
  | succ n ih => simp [leBytes, ih]

theorem leNat_leBytes (n v : Nat) : leNat (leBytes n v) = v % 256 ^ n := by
  induction n generalizing v with
  | zero => simp [leBytes, leNat, Nat.mod_one]
  | succ n ih =>
    have h : v % 256 ^ (n + 1) = v % 256 + 256 * (v / 256 % 256 ^ n) := by
      rw [Nat.pow_succ, Nat.mul_comm (256 ^ n) 256, Nat.mod_mul]
    rw [h]
    simp [leBytes, leNat, ih]

/-- Byte `k` of a little-endian number. -/
theorem leBytes_getD (n v k : Nat) (h : k < n) : (leBytes n v).getD k 0 = BitVec.ofNat 8 (v / 256 ^ k) := by
  induction n generalizing v k with
  | zero => omega
  | succ n ih =>
    cases k with
    | zero => simp [leBytes]
    | succ k =>
      simp only [leBytes, List.getD_cons_succ]
      rw [ih _ _ (by omega), Nat.div_div_eq_div_mul, Nat.pow_succ, Nat.mul_comm 256]

/-! ### Memory -/

theorem find_cellsOf (a x : Nat) (bs : List Byte) :
    ((cellsOf a bs).find? (fun c => c.1 == x)).map (·.2) =
      if a ≤ x ∧ x < a + bs.length ∧ bs.getD (x - a) 0 ≠ 0 then some (bs.getD (x - a) 0) else none := by
  induction bs generalizing a with
  | nil => simp [cellsOf]
  | cons b r ih =>
    unfold cellsOf
    by_cases hx : x = a
    · subst hx
      split
      · rename_i hb
        rw [ih]; subst hb; simp
      · rename_i hb
        simpa using hb
    · have hstep : (r.getD (x - (a + 1)) 0 : Byte) = if a < x then (b :: r).getD (x - a) 0 else r.getD 0 0 := by
        split
        · rw [show x - a = (x - (a + 1)) + 1 by omega]; simp
        · rw [show x - (a + 1) = 0 by omega]
      have hlen : (b :: r).length = r.length + 1 := rfl
      by_cases hlt : a < x
      · simp only [hlt, if_true] at hstep
        have e : (a + 1 ≤ x ∧ x < a + 1 + r.length ∧ r.getD (x - (a + 1)) 0 ≠ 0) ↔
            (a ≤ x ∧ x < a + (b :: r).length ∧ (b :: r).getD (x - a) 0 ≠ 0) := by
          rw [hstep, hlen]; constructor <;> (rintro ⟨_, _, h⟩; exact ⟨by omega, by omega, h⟩)
        split
        · rw [ih]; simp only [e]; rw [hstep]
        · rw [List.find?_cons_of_neg (by simpa using Ne.symm hx), ih]; simp only [e]; rw [hstep]
      · have n1 : ¬(a + 1 ≤ x ∧ x < a + 1 + r.length ∧ r.getD (x - (a + 1)) 0 ≠ 0) := by rintro ⟨_, _⟩; omega
        have n2 : ¬(a ≤ x ∧ x < a + (b :: r).length ∧ (b :: r).getD (x - a) 0 ≠ 0) := by rintro ⟨_, _⟩; omega
        split
        · rw [ih, if_neg n1]
        · rw [List.find?_cons_of_neg (by simpa using Ne.symm hx), ih, if_neg n1]

theorem byte_eq (m : Memory) (x : Nat) :
    m.byte x = ((m.cells.find? (fun c => c.1 == x)).map (·.2)).getD 0 := by
  unfold Memory.byte; cases m.cells.find? (fun c => c.1 == x) <;> rfl

theorem find_filter_key (l : List Host.Cell) (x : Nat) (p : Host.Cell → Bool) (q : Nat → Bool)
    (hp : ∀ c : Host.Cell, p c = q c.1) :
    (l.filter p).find? (fun c => c.1 == x) = if q x then l.find? (fun c => c.1 == x) else none := by
  induction l with
  | nil => simp
  | cons c r ih =>
    by_cases hc : p c
    · rw [List.filter_cons_of_pos hc]
      by_cases hx : c.1 = x
      · have : q x = true := by rw [← hx, ← hp]; exact hc
        rw [List.find?_cons_of_pos (by simpa using hx), List.find?_cons_of_pos (by simpa using hx), this]; simp
      · rw [List.find?_cons_of_neg (by simpa using hx), List.find?_cons_of_neg (by simpa using hx), ih]
    · rw [List.filter_cons_of_neg hc, ih]
      by_cases hx : c.1 = x
      · have : q x = false := by rw [← hx, ← hp]; simpa using hc
        simp [this]
      · rw [List.find?_cons_of_neg (by simpa using hx)]

/-- A byte after a write: the written byte inside the range, else what stood there. -/
theorem Memory.byte_write (m : Memory) (a : Nat) (bs : List Byte) (x : Nat) :
    (m.write a bs).byte x = if a ≤ x ∧ x < a + bs.length then bs.getD (x - a) 0 else m.byte x := by
  have f1 := find_filter_key m.cells x (fun c => decide (c.1 < a)) (fun k => decide (k < a)) (fun _ => rfl)
  have f2 := find_filter_key m.cells x (fun c => decide (a + bs.length ≤ c.1)) (fun k => decide (a + bs.length ≤ k))
    (fun _ => rfl)
  have f3 := find_cellsOf a x bs
  rw [byte_eq, byte_eq]
  unfold Memory.write
  simp only [List.find?_append, f1, f2, decide_eq_true_eq]
  by_cases h1 : x < a
  · have n : ¬(a ≤ x ∧ x < a + bs.length) := by omega
    have n' : ¬(a + bs.length ≤ x) := by omega
    have n3 : (cellsOf a bs).find? (fun c => c.1 == x) = none := by
      rw [if_neg (by rintro ⟨_, _⟩; omega)] at f3
      exact Option.map_eq_none_iff.1 f3
    simp [h1, n, n', n3]
  · by_cases h2 : a + bs.length ≤ x
    · have n3 : (cellsOf a bs).find? (fun c => c.1 == x) = none := by
        rw [if_neg (by rintro ⟨_, _⟩; omega)] at f3
        exact Option.map_eq_none_iff.1 f3
      have n : ¬(a ≤ x ∧ x < a + bs.length) := by omega
      simp [h1, h2, n, n3]
    · have y : a ≤ x ∧ x < a + bs.length := by omega
      simp only [h1, h2, if_false, Option.none_or, Option.or_none, f3, y, if_true, true_and]
      by_cases hz : bs.getD (x - a) 0 = 0
      · rw [if_neg (fun h => h hz), hz]; rfl
      · rw [if_pos (by simpa using hz)]; rfl

/-! ### The canonical form -/

theorem cellsWf_weaken {l l' : Option Nat} {cs : List Host.Cell} (h : cellsWf l cs = true)
    (hl : ∀ k, l' = some k → ∃ j, l = some j ∧ k ≤ j) : cellsWf l' cs = true := by
  cases cs with
  | nil => rfl
  | cons c r =>
    simp only [cellsWf, Bool.and_eq_true] at h ⊢
    refine ⟨⟨?_, h.1.2⟩, h.2⟩
    cases l' with
    | none => rfl
    | some k =>
      obtain ⟨j, rfl, hj⟩ := hl k rfl
      simp only [decide_eq_true_eq] at h ⊢
      omega

theorem cellsWf_filter (p : Host.Cell → Bool) : ∀ (l : Option Nat) (cs : List Host.Cell), cellsWf l cs = true →
    cellsWf l (cs.filter p) = true := by
  intro l cs
  induction cs generalizing l with
  | nil => simp [cellsWf]
  | cons c r ih =>
    intro h
    have hr : cellsWf (some c.1) r = true := by simp only [cellsWf, Bool.and_eq_true] at h; exact h.2
    by_cases hc : p c
    · rw [List.filter_cons_of_pos hc]
      simp only [cellsWf, Bool.and_eq_true] at h ⊢
      exact ⟨h.1, ih _ hr⟩
    · rw [List.filter_cons_of_neg hc]
      refine ih l (cellsWf_weaken hr ?_)
      intro k hk
      subst hk
      refine ⟨c.1, rfl, ?_⟩
      simp only [cellsWf, Bool.and_eq_true, decide_eq_true_eq] at h
      omega

theorem cellsWf_append {l : Option Nat} {b : Nat} {xs ys : List Host.Cell} (hx : cellsWf l xs = true)
    (hxb : ∀ c ∈ xs, c.1 < b) (hl : ∀ k, l = some k → k < b) (hy : cellsWf none ys = true)
    (hyb : ∀ c ∈ ys, b ≤ c.1) : cellsWf l (xs ++ ys) = true := by
  induction xs generalizing l with
  | nil =>
    cases ys with
    | nil => rfl
    | cons c r =>
      simp only [List.nil_append, cellsWf, Bool.and_eq_true] at hy ⊢
      refine ⟨⟨?_, hy.1.2⟩, hy.2⟩
      cases l with
      | none => rfl
      | some k =>
        simp only [decide_eq_true_eq]
        exact lt_of_lt_of_le (hl k rfl) (hyb c (by simp))
  | cons c r ih =>
    simp only [List.cons_append, cellsWf, Bool.and_eq_true] at hx ⊢
    refine ⟨hx.1, ih hx.2 (fun d hd => hxb d (by simp [hd])) ?_⟩
    intro k hk
    cases hk
    exact hxb c (by simp)

theorem cellsOf_bounds (a : Nat) (bs : List Byte) : ∀ c ∈ cellsOf a bs, a ≤ c.1 ∧ c.1 < a + bs.length := by
  induction bs generalizing a with
  | nil => simp [cellsOf]
  | cons b r ih =>
    intro c hc
    unfold cellsOf at hc
    have hlen : (b :: r).length = r.length + 1 := rfl
    split at hc
    · have := ih (a + 1) c hc; omega
    · rcases List.mem_cons.1 hc with rfl | h
      · simp
      · have := ih (a + 1) c h; omega

theorem cellsOf_wf (a : Nat) (bs : List Byte) (l : Option Nat) (hl : ∀ k, l = some k → k < a) :
    cellsWf l (cellsOf a bs) = true := by
  induction bs generalizing a l with
  | nil => rfl
  | cons b r ih =>
    unfold cellsOf
    split
    · exact ih (a + 1) l (fun k hk => by have := hl k hk; omega)
    · rename_i hb
      simp only [cellsWf, Bool.and_eq_true]
      refine ⟨⟨?_, by simpa using hb⟩, ih (a + 1) _ (fun k hk => by cases hk; simp)⟩
      cases l with
      | none => rfl
      | some k => simpa using hl k rfl

/-- A write keeps the canonical form. -/
theorem Memory.write_wf (m : Memory) (a : Nat) (bs : List Byte) (h : m.wf = true) : (m.write a bs).wf = true := by
  unfold Memory.wf Memory.write at *
  refine cellsWf_append (b := a + bs.length) (cellsWf_append (b := a) ?_ ?_ (by simp) ?_ ?_) ?_ (by simp) ?_ ?_
  · exact cellsWf_filter _ _ _ h
  · intro c hc; simpa using (List.mem_filter.1 hc).2
  · exact cellsOf_wf _ _ _ (by simp)
  · exact fun c hc => (cellsOf_bounds _ _ c hc).1
  · intro c hc
    rcases List.mem_append.1 hc with h' | h'
    · have := (List.mem_filter.1 h').2; simp at this; omega
    · exact (cellsOf_bounds _ _ c h').2
  · exact cellsWf_filter _ _ _ h
  · intro c hc; simpa using (List.mem_filter.1 hc).2

/-- Clearing keeps the canonical form. -/
theorem Memory.clear_wf (m : Memory) (a n : Nat) (h : m.wf = true) : (m.clear a n).wf = true :=
  cellsWf_filter _ _ _ h

/-- A byte after a clear. -/
theorem Memory.byte_clear (m : Memory) (a n x : Nat) :
    (m.clear a n).byte x = if a ≤ x ∧ x < a + n then 0 else m.byte x := by
  have f := find_filter_key m.cells x (fun c => decide (c.1 < a) || decide (a + n ≤ c.1))
    (fun k => decide (k < a) || decide (a + n ≤ k)) (fun _ => rfl)
  rw [byte_eq, byte_eq]
  unfold Memory.clear
  rw [f]
  by_cases h : a ≤ x ∧ x < a + n
  · have : (decide (x < a) || decide (a + n ≤ x)) = false := by simp; omega
    simp [this, h]
  · have : (decide (x < a) || decide (a + n ≤ x)) = true := by simp; omega
    simp [this, h]

theorem readRun_length (n a : Nat) (cs : List Host.Cell) : (readRun n a cs).length = n := by
  induction n generalizing a cs with
  | zero => rfl
  | succ n ih => unfold readRun; split <;> [simp [ih]; (split <;> simp [ih])]

theorem Memory.read_length (m : Memory) (a n : Nat) : (m.read a n).length = n := readRun_length _ _ _

theorem readRun_eq (n : Nat) : ∀ (a : Nat) (cs : List Host.Cell), cellsWf none cs = true → (∀ c ∈ cs, a ≤ c.1) →
    readRun n a cs = (List.range n).map fun i => ((cs.find? (fun c => c.1 == a + i)).map (·.2)).getD 0 := by
  induction n with
  | zero => intros; rfl
  | succ n ih =>
    intro a cs h hb
    rw [List.range_succ_eq_map, List.map_cons, List.map_map]
    cases cs with
    | nil =>
      simp only [readRun]
      rw [ih (a + 1) [] rfl (by simp)]
      rfl
    | cons c r =>
      have hw : cellsWf (some c.1) r = true := by simp only [cellsWf, Bool.and_eq_true] at h; exact h.2
      have gt : ∀ d ∈ r, c.1 < d.1 := by
        clear ih h hb
        intro d hd
        induction r generalizing c with
        | nil => simp at hd
        | cons e t iht =>
          simp only [cellsWf, Bool.and_eq_true, decide_eq_true_eq] at hw
          rcases List.mem_cons.1 hd with rfl | hd'
          · exact hw.1.1
          · have := iht e hw.2 hd'; omega
      simp only [readRun]
      split
      · rename_i hc
        rw [ih (a + 1) r (cellsWf_weaken hw (by simp)) (fun d hd => by have := gt d hd; omega)]
        congr 1
        · simp [hc]
        · refine List.map_congr_left fun i _ => ?_
          simp only [Function.comp]
          rw [List.find?_cons_of_neg (by simp [hc])]
          congr 3; funext d; simp; omega
      · rename_i hc
        have hca : a < c.1 := by have := hb c (by simp); omega
        rw [ih (a + 1) (c :: r) h (fun d hd => by
          rcases List.mem_cons.1 hd with rfl | hd'
          · omega
          · have := gt d hd'; omega)]
        congr 1
        · have : (c :: r).find? (fun d => d.1 == a + 0) = none := by
            apply List.find?_eq_none.2
            intro d hd
            rcases List.mem_cons.1 hd with rfl | hd'
            · simp; omega
            · have := gt d hd'; simp; omega
          rw [this]; rfl
        · refine List.map_congr_left fun i _ => ?_
          simp only [Function.comp]
          congr 3; funext d; simp; omega

/-- In canonical memory a read answers the bytes one by one. -/
theorem Memory.read_eq (m : Memory) (a n : Nat) (h : m.wf = true) :
    m.read a n = (List.range n).map fun i => m.byte (a + i) := by
  unfold Memory.read
  rw [readRun_eq n a _ (cellsWf_filter _ _ _ h) (fun c hc => by have := (List.mem_filter.1 hc).2; simp at this; exact this.1)]
  refine List.map_congr_left fun i hi => ?_
  have hi := List.mem_range.1 hi
  rw [byte_eq, find_filter_key m.cells (a + i) (fun c => decide (a ≤ c.1) && decide (c.1 < a + n))
    (fun k => decide (a ≤ k) && decide (k < a + n)) (fun _ => rfl)]
  have : (decide (a ≤ a + i) && decide (a + i < a + n)) = true := by simp; omega
  rw [this, if_pos rfl]

/-! ### The device's byte accesses -/

theorem Dev.byte_wr (d : Dev) (a : Nat) (bs : List Byte) (x : Nat) :
    (d.wr a bs).mem.byte x = if a ≤ x ∧ x < a + bs.length then bs.getD (x - a) 0 else d.mem.byte x :=
  Memory.byte_write d.mem a bs x

theorem Dev.wr_wf (d : Dev) (a : Nat) (bs : List Byte) (h : d.mem.wf = true) : (d.wr a bs).mem.wf = true :=
  Memory.write_wf d.mem a bs h

end Sys2Proof.Machine
end

