-- ==== Sys2Proof/Laws/State.lean ====
section
/-! SUPPORT. What each named update leaves in each field of the device, so that no proof unfolds a record update. -/

namespace Sys2Proof.Machine

variable (d : Dev)

@[simp] theorem Dev.wr_phase (a : Nat) (bs : List Byte) : (d.wr a bs).phase = d.phase := rfl
@[simp] theorem Dev.wr_draw (a : Nat) (bs : List Byte) : (d.wr a bs).draw = d.draw := rfl
@[simp] theorem Dev.wr_clock (a : Nat) (bs : List Byte) : (d.wr a bs).clock = d.clock := rfl
@[simp] theorem Dev.wr_mem (a : Nat) (bs : List Byte) : (d.wr a bs).mem = d.mem.write a bs := rfl
@[simp] theorem Dev.wr_regs (a : Nat) (bs : List Byte) : (d.wr a bs).regs = d.regs := rfl
@[simp] theorem Dev.wr_shadow (a : Nat) (bs : List Byte) : (d.wr a bs).shadow = d.shadow := rfl
@[simp] theorem Dev.wr_psets (a : Nat) (bs : List Byte) : (d.wr a bs).psets = d.psets := rfl
@[simp] theorem Dev.wr_channels (a : Nat) (bs : List Byte) : (d.wr a bs).channels = d.channels := rfl
@[simp] theorem Dev.wr_cores (a : Nat) (bs : List Byte) : (d.wr a bs).cores = d.cores := rfl
@[simp] theorem Dev.wr_clusters (a : Nat) (bs : List Byte) : (d.wr a bs).clusters = d.clusters := rfl
@[simp] theorem Dev.wr_stk (a : Nat) (bs : List Byte) : (d.wr a bs).stk = d.stk := rfl
@[simp] theorem Dev.wr_upd (a : Nat) (bs : List Byte) : (d.wr a bs).upd = d.upd := rfl
@[simp] theorem Dev.wr_tick (a : Nat) (bs : List Byte) : (d.wr a bs).tick = d.tick := rfl
@[simp] theorem Dev.wr_faults (a : Nat) (bs : List Byte) : (d.wr a bs).faults = d.faults := rfl
@[simp] theorem Dev.wr_port (a : Nat) (bs : List Byte) : (d.wr a bs).port = d.port := rfl
@[simp] theorem Dev.wr_sterling (a : Nat) (bs : List Byte) : (d.wr a bs).sterling = d.sterling := rfl
@[simp] theorem Dev.wr_nickel (a : Nat) (bs : List Byte) : (d.wr a bs).nickel = d.nickel := rfl
@[simp] theorem Dev.wr_boot (a : Nat) (bs : List Byte) : (d.wr a bs).boot = d.boot := rfl
@[simp] theorem Dev.wr_lib (a : Nat) (bs : List Byte) : (d.wr a bs).lib = d.lib := rfl
@[simp] theorem Dev.wr_power (a : Nat) (bs : List Byte) : (d.wr a bs).power = d.power := rfl
@[simp] theorem Dev.wr_pins (a : Nat) (bs : List Byte) : (d.wr a bs).pins = d.pins := rfl
@[simp] theorem Dev.wr_exchOpen (a : Nat) (bs : List Byte) : (d.wr a bs).exchOpen = d.exchOpen := rfl
@[simp] theorem Dev.wr_owedWrites (a : Nat) (bs : List Byte) : (d.wr a bs).owedWrites = d.owedWrites := rfl

@[simp] theorem Dev.setReg_phase (i k v : Nat) : (d.setReg i k v).phase = d.phase := rfl
@[simp] theorem Dev.setReg_draw (i k v : Nat) : (d.setReg i k v).draw = d.draw := rfl
@[simp] theorem Dev.setReg_clock (i k v : Nat) : (d.setReg i k v).clock = d.clock := rfl
@[simp] theorem Dev.setReg_mem (i k v : Nat) : (d.setReg i k v).mem = d.mem := rfl
@[simp] theorem Dev.setReg_regs (i k v : Nat) : (d.setReg i k v).regs = tset d.regs (i * 256 + k) (BitVec.ofNat 64 v) := rfl
@[simp] theorem Dev.setReg_shadow (i k v : Nat) : (d.setReg i k v).shadow = d.shadow := rfl
@[simp] theorem Dev.setReg_psets (i k v : Nat) : (d.setReg i k v).psets = d.psets := rfl
@[simp] theorem Dev.setReg_channels (i k v : Nat) : (d.setReg i k v).channels = d.channels := rfl
@[simp] theorem Dev.setReg_cores (i k v : Nat) : (d.setReg i k v).cores = d.cores := rfl
@[simp] theorem Dev.setReg_clusters (i k v : Nat) : (d.setReg i k v).clusters = d.clusters := rfl
@[simp] theorem Dev.setReg_stk (i k v : Nat) : (d.setReg i k v).stk = d.stk := rfl
@[simp] theorem Dev.setReg_upd (i k v : Nat) : (d.setReg i k v).upd = d.upd := rfl
@[simp] theorem Dev.setReg_tick (i k v : Nat) : (d.setReg i k v).tick = d.tick := rfl
@[simp] theorem Dev.setReg_faults (i k v : Nat) : (d.setReg i k v).faults = d.faults := rfl
@[simp] theorem Dev.setReg_port (i k v : Nat) : (d.setReg i k v).port = d.port := rfl
@[simp] theorem Dev.setReg_sterling (i k v : Nat) : (d.setReg i k v).sterling = d.sterling := rfl
@[simp] theorem Dev.setReg_nickel (i k v : Nat) : (d.setReg i k v).nickel = d.nickel := rfl
@[simp] theorem Dev.setReg_boot (i k v : Nat) : (d.setReg i k v).boot = d.boot := rfl
@[simp] theorem Dev.setReg_lib (i k v : Nat) : (d.setReg i k v).lib = d.lib := rfl
@[simp] theorem Dev.setReg_power (i k v : Nat) : (d.setReg i k v).power = d.power := rfl
@[simp] theorem Dev.setReg_pins (i k v : Nat) : (d.setReg i k v).pins = d.pins := rfl
@[simp] theorem Dev.setReg_exchOpen (i k v : Nat) : (d.setReg i k v).exchOpen = d.exchOpen := rfl
@[simp] theorem Dev.setReg_owedWrites (i k v : Nat) : (d.setReg i k v).owedWrites = d.owedWrites := rfl

@[simp] theorem Dev.bump_phase (i k v : Nat) : (d.bump i k v).phase = d.phase := rfl
@[simp] theorem Dev.bump_draw (i k v : Nat) : (d.bump i k v).draw = d.draw := rfl
@[simp] theorem Dev.bump_clock (i k v : Nat) : (d.bump i k v).clock = d.clock := rfl
@[simp] theorem Dev.bump_mem (i k v : Nat) : (d.bump i k v).mem = d.mem := rfl
@[simp] theorem Dev.bump_shadow (i k v : Nat) : (d.bump i k v).shadow = d.shadow := rfl
@[simp] theorem Dev.bump_psets (i k v : Nat) : (d.bump i k v).psets = d.psets := rfl
@[simp] theorem Dev.bump_channels (i k v : Nat) : (d.bump i k v).channels = d.channels := rfl
@[simp] theorem Dev.bump_cores (i k v : Nat) : (d.bump i k v).cores = d.cores := rfl
@[simp] theorem Dev.bump_clusters (i k v : Nat) : (d.bump i k v).clusters = d.clusters := rfl
@[simp] theorem Dev.bump_stk (i k v : Nat) : (d.bump i k v).stk = d.stk := rfl
@[simp] theorem Dev.bump_upd (i k v : Nat) : (d.bump i k v).upd = d.upd := rfl
@[simp] theorem Dev.bump_tick (i k v : Nat) : (d.bump i k v).tick = d.tick := rfl
@[simp] theorem Dev.bump_faults (i k v : Nat) : (d.bump i k v).faults = d.faults := rfl
@[simp] theorem Dev.bump_port (i k v : Nat) : (d.bump i k v).port = d.port := rfl
@[simp] theorem Dev.bump_sterling (i k v : Nat) : (d.bump i k v).sterling = d.sterling := rfl
@[simp] theorem Dev.bump_nickel (i k v : Nat) : (d.bump i k v).nickel = d.nickel := rfl
@[simp] theorem Dev.bump_boot (i k v : Nat) : (d.bump i k v).boot = d.boot := rfl
@[simp] theorem Dev.bump_lib (i k v : Nat) : (d.bump i k v).lib = d.lib := rfl
@[simp] theorem Dev.bump_power (i k v : Nat) : (d.bump i k v).power = d.power := rfl
@[simp] theorem Dev.bump_pins (i k v : Nat) : (d.bump i k v).pins = d.pins := rfl
@[simp] theorem Dev.bump_exchOpen (i k v : Nat) : (d.bump i k v).exchOpen = d.exchOpen := rfl
@[simp] theorem Dev.bump_owedWrites (i k v : Nat) : (d.bump i k v).owedWrites = d.owedWrites := rfl

@[simp] theorem Dev.setCore_phase (n : Nat) (c : Core) : (d.setCore n c).phase = d.phase := rfl
@[simp] theorem Dev.setCore_draw (n : Nat) (c : Core) : (d.setCore n c).draw = d.draw := rfl
@[simp] theorem Dev.setCore_clock (n : Nat) (c : Core) : (d.setCore n c).clock = d.clock := rfl
@[simp] theorem Dev.setCore_mem (n : Nat) (c : Core) : (d.setCore n c).mem = d.mem := rfl
@[simp] theorem Dev.setCore_regs (n : Nat) (c : Core) : (d.setCore n c).regs = d.regs := rfl
@[simp] theorem Dev.setCore_shadow (n : Nat) (c : Core) : (d.setCore n c).shadow = d.shadow := rfl
@[simp] theorem Dev.setCore_psets (n : Nat) (c : Core) : (d.setCore n c).psets = d.psets := rfl
@[simp] theorem Dev.setCore_channels (n : Nat) (c : Core) : (d.setCore n c).channels = d.channels := rfl
@[simp] theorem Dev.setCore_cores (n : Nat) (c : Core) : (d.setCore n c).cores = tset d.cores n c := rfl
@[simp] theorem Dev.setCore_clusters (n : Nat) (c : Core) : (d.setCore n c).clusters = d.clusters := rfl
@[simp] theorem Dev.setCore_stk (n : Nat) (c : Core) : (d.setCore n c).stk = d.stk := rfl
@[simp] theorem Dev.setCore_upd (n : Nat) (c : Core) : (d.setCore n c).upd = d.upd := rfl
@[simp] theorem Dev.setCore_tick (n : Nat) (c : Core) : (d.setCore n c).tick = d.tick := rfl
@[simp] theorem Dev.setCore_faults (n : Nat) (c : Core) : (d.setCore n c).faults = d.faults := rfl
@[simp] theorem Dev.setCore_port (n : Nat) (c : Core) : (d.setCore n c).port = d.port := rfl
@[simp] theorem Dev.setCore_sterling (n : Nat) (c : Core) : (d.setCore n c).sterling = d.sterling := rfl
@[simp] theorem Dev.setCore_nickel (n : Nat) (c : Core) : (d.setCore n c).nickel = d.nickel := rfl
@[simp] theorem Dev.setCore_boot (n : Nat) (c : Core) : (d.setCore n c).boot = d.boot := rfl
@[simp] theorem Dev.setCore_lib (n : Nat) (c : Core) : (d.setCore n c).lib = d.lib := rfl
@[simp] theorem Dev.setCore_power (n : Nat) (c : Core) : (d.setCore n c).power = d.power := rfl
@[simp] theorem Dev.setCore_pins (n : Nat) (c : Core) : (d.setCore n c).pins = d.pins := rfl
@[simp] theorem Dev.setCore_exchOpen (n : Nat) (c : Core) : (d.setCore n c).exchOpen = d.exchOpen := rfl
@[simp] theorem Dev.setCore_owedWrites (n : Nat) (c : Core) : (d.setCore n c).owedWrites = d.owedWrites := rfl

@[simp] theorem Dev.modCore_phase (n : Nat) (f : Core → Core) : (d.modCore n f).phase = d.phase := rfl
@[simp] theorem Dev.modCore_draw (n : Nat) (f : Core → Core) : (d.modCore n f).draw = d.draw := rfl
@[simp] theorem Dev.modCore_clock (n : Nat) (f : Core → Core) : (d.modCore n f).clock = d.clock := rfl
@[simp] theorem Dev.modCore_mem (n : Nat) (f : Core → Core) : (d.modCore n f).mem = d.mem := rfl
@[simp] theorem Dev.modCore_regs (n : Nat) (f : Core → Core) : (d.modCore n f).regs = d.regs := rfl
@[simp] theorem Dev.modCore_shadow (n : Nat) (f : Core → Core) : (d.modCore n f).shadow = d.shadow := rfl
@[simp] theorem Dev.modCore_psets (n : Nat) (f : Core → Core) : (d.modCore n f).psets = d.psets := rfl
@[simp] theorem Dev.modCore_channels (n : Nat) (f : Core → Core) : (d.modCore n f).channels = d.channels := rfl
@[simp] theorem Dev.modCore_cores (n : Nat) (f : Core → Core) : (d.modCore n f).cores = tset d.cores n (f (d.core n)) := rfl
@[simp] theorem Dev.modCore_clusters (n : Nat) (f : Core → Core) : (d.modCore n f).clusters = d.clusters := rfl
@[simp] theorem Dev.modCore_stk (n : Nat) (f : Core → Core) : (d.modCore n f).stk = d.stk := rfl
@[simp] theorem Dev.modCore_upd (n : Nat) (f : Core → Core) : (d.modCore n f).upd = d.upd := rfl
@[simp] theorem Dev.modCore_tick (n : Nat) (f : Core → Core) : (d.modCore n f).tick = d.tick := rfl
@[simp] theorem Dev.modCore_faults (n : Nat) (f : Core → Core) : (d.modCore n f).faults = d.faults := rfl
@[simp] theorem Dev.modCore_port (n : Nat) (f : Core → Core) : (d.modCore n f).port = d.port := rfl
@[simp] theorem Dev.modCore_sterling (n : Nat) (f : Core → Core) : (d.modCore n f).sterling = d.sterling := rfl
@[simp] theorem Dev.modCore_nickel (n : Nat) (f : Core → Core) : (d.modCore n f).nickel = d.nickel := rfl
@[simp] theorem Dev.modCore_boot (n : Nat) (f : Core → Core) : (d.modCore n f).boot = d.boot := rfl
@[simp] theorem Dev.modCore_lib (n : Nat) (f : Core → Core) : (d.modCore n f).lib = d.lib := rfl
@[simp] theorem Dev.modCore_power (n : Nat) (f : Core → Core) : (d.modCore n f).power = d.power := rfl
@[simp] theorem Dev.modCore_pins (n : Nat) (f : Core → Core) : (d.modCore n f).pins = d.pins := rfl
@[simp] theorem Dev.modCore_exchOpen (n : Nat) (f : Core → Core) : (d.modCore n f).exchOpen = d.exchOpen := rfl
@[simp] theorem Dev.modCore_owedWrites (n : Nat) (f : Core → Core) : (d.modCore n f).owedWrites = d.owedWrites := rfl

@[simp] theorem Dev.setCluster_phase (c : Nat) (x : Cluster) : (d.setCluster c x).phase = d.phase := rfl
@[simp] theorem Dev.setCluster_draw (c : Nat) (x : Cluster) : (d.setCluster c x).draw = d.draw := rfl
@[simp] theorem Dev.setCluster_clock (c : Nat) (x : Cluster) : (d.setCluster c x).clock = d.clock := rfl
@[simp] theorem Dev.setCluster_mem (c : Nat) (x : Cluster) : (d.setCluster c x).mem = d.mem := rfl
@[simp] theorem Dev.setCluster_regs (c : Nat) (x : Cluster) : (d.setCluster c x).regs = d.regs := rfl
@[simp] theorem Dev.setCluster_shadow (c : Nat) (x : Cluster) : (d.setCluster c x).shadow = d.shadow := rfl
@[simp] theorem Dev.setCluster_psets (c : Nat) (x : Cluster) : (d.setCluster c x).psets = d.psets := rfl
@[simp] theorem Dev.setCluster_channels (c : Nat) (x : Cluster) : (d.setCluster c x).channels = d.channels := rfl
@[simp] theorem Dev.setCluster_cores (c : Nat) (x : Cluster) : (d.setCluster c x).cores = d.cores := rfl
@[simp] theorem Dev.setCluster_clusters (c : Nat) (x : Cluster) : (d.setCluster c x).clusters = tset d.clusters c x := rfl
@[simp] theorem Dev.setCluster_stk (c : Nat) (x : Cluster) : (d.setCluster c x).stk = d.stk := rfl
@[simp] theorem Dev.setCluster_upd (c : Nat) (x : Cluster) : (d.setCluster c x).upd = d.upd := rfl
@[simp] theorem Dev.setCluster_tick (c : Nat) (x : Cluster) : (d.setCluster c x).tick = d.tick := rfl
@[simp] theorem Dev.setCluster_faults (c : Nat) (x : Cluster) : (d.setCluster c x).faults = d.faults := rfl
@[simp] theorem Dev.setCluster_port (c : Nat) (x : Cluster) : (d.setCluster c x).port = d.port := rfl
@[simp] theorem Dev.setCluster_sterling (c : Nat) (x : Cluster) : (d.setCluster c x).sterling = d.sterling := rfl
@[simp] theorem Dev.setCluster_nickel (c : Nat) (x : Cluster) : (d.setCluster c x).nickel = d.nickel := rfl
@[simp] theorem Dev.setCluster_boot (c : Nat) (x : Cluster) : (d.setCluster c x).boot = d.boot := rfl
@[simp] theorem Dev.setCluster_lib (c : Nat) (x : Cluster) : (d.setCluster c x).lib = d.lib := rfl
@[simp] theorem Dev.setCluster_power (c : Nat) (x : Cluster) : (d.setCluster c x).power = d.power := rfl
@[simp] theorem Dev.setCluster_pins (c : Nat) (x : Cluster) : (d.setCluster c x).pins = d.pins := rfl
@[simp] theorem Dev.setCluster_exchOpen (c : Nat) (x : Cluster) : (d.setCluster c x).exchOpen = d.exchOpen := rfl
@[simp] theorem Dev.setCluster_owedWrites (c : Nat) (x : Cluster) : (d.setCluster c x).owedWrites = d.owedWrites := rfl

@[simp] theorem Dev.modCluster_phase (c : Nat) (f : Cluster → Cluster) : (d.modCluster c f).phase = d.phase := rfl
@[simp] theorem Dev.modCluster_draw (c : Nat) (f : Cluster → Cluster) : (d.modCluster c f).draw = d.draw := rfl
@[simp] theorem Dev.modCluster_clock (c : Nat) (f : Cluster → Cluster) : (d.modCluster c f).clock = d.clock := rfl
@[simp] theorem Dev.modCluster_mem (c : Nat) (f : Cluster → Cluster) : (d.modCluster c f).mem = d.mem := rfl
@[simp] theorem Dev.modCluster_regs (c : Nat) (f : Cluster → Cluster) : (d.modCluster c f).regs = d.regs := rfl
@[simp] theorem Dev.modCluster_shadow (c : Nat) (f : Cluster → Cluster) : (d.modCluster c f).shadow = d.shadow := rfl
@[simp] theorem Dev.modCluster_psets (c : Nat) (f : Cluster → Cluster) : (d.modCluster c f).psets = d.psets := rfl
@[simp] theorem Dev.modCluster_channels (c : Nat) (f : Cluster → Cluster) : (d.modCluster c f).channels = d.channels := rfl
@[simp] theorem Dev.modCluster_cores (c : Nat) (f : Cluster → Cluster) : (d.modCluster c f).cores = d.cores := rfl
@[simp] theorem Dev.modCluster_clusters (c : Nat) (f : Cluster → Cluster) : (d.modCluster c f).clusters = tset d.clusters c (f (d.cluster c)) := rfl
@[simp] theorem Dev.modCluster_stk (c : Nat) (f : Cluster → Cluster) : (d.modCluster c f).stk = d.stk := rfl
@[simp] theorem Dev.modCluster_upd (c : Nat) (f : Cluster → Cluster) : (d.modCluster c f).upd = d.upd := rfl
@[simp] theorem Dev.modCluster_tick (c : Nat) (f : Cluster → Cluster) : (d.modCluster c f).tick = d.tick := rfl
@[simp] theorem Dev.modCluster_faults (c : Nat) (f : Cluster → Cluster) : (d.modCluster c f).faults = d.faults := rfl
@[simp] theorem Dev.modCluster_port (c : Nat) (f : Cluster → Cluster) : (d.modCluster c f).port = d.port := rfl
@[simp] theorem Dev.modCluster_sterling (c : Nat) (f : Cluster → Cluster) : (d.modCluster c f).sterling = d.sterling := rfl
@[simp] theorem Dev.modCluster_nickel (c : Nat) (f : Cluster → Cluster) : (d.modCluster c f).nickel = d.nickel := rfl
@[simp] theorem Dev.modCluster_boot (c : Nat) (f : Cluster → Cluster) : (d.modCluster c f).boot = d.boot := rfl
@[simp] theorem Dev.modCluster_lib (c : Nat) (f : Cluster → Cluster) : (d.modCluster c f).lib = d.lib := rfl
@[simp] theorem Dev.modCluster_power (c : Nat) (f : Cluster → Cluster) : (d.modCluster c f).power = d.power := rfl
@[simp] theorem Dev.modCluster_pins (c : Nat) (f : Cluster → Cluster) : (d.modCluster c f).pins = d.pins := rfl
@[simp] theorem Dev.modCluster_exchOpen (c : Nat) (f : Cluster → Cluster) : (d.modCluster c f).exchOpen = d.exchOpen := rfl
@[simp] theorem Dev.modCluster_owedWrites (c : Nat) (f : Cluster → Cluster) : (d.modCluster c f).owedWrites = d.owedWrites := rfl

@[simp] theorem Dev.setChannel_phase (k : Nat) (x : Channel) : (d.setChannel k x).phase = d.phase := rfl
@[simp] theorem Dev.setChannel_draw (k : Nat) (x : Channel) : (d.setChannel k x).draw = d.draw := rfl
@[simp] theorem Dev.setChannel_clock (k : Nat) (x : Channel) : (d.setChannel k x).clock = d.clock := rfl
@[simp] theorem Dev.setChannel_mem (k : Nat) (x : Channel) : (d.setChannel k x).mem = d.mem := rfl
@[simp] theorem Dev.setChannel_regs (k : Nat) (x : Channel) : (d.setChannel k x).regs = d.regs := rfl
@[simp] theorem Dev.setChannel_shadow (k : Nat) (x : Channel) : (d.setChannel k x).shadow = d.shadow := rfl
@[simp] theorem Dev.setChannel_psets (k : Nat) (x : Channel) : (d.setChannel k x).psets = d.psets := rfl
@[simp] theorem Dev.setChannel_channels (k : Nat) (x : Channel) : (d.setChannel k x).channels = tset d.channels k x := rfl
@[simp] theorem Dev.setChannel_cores (k : Nat) (x : Channel) : (d.setChannel k x).cores = d.cores := rfl
@[simp] theorem Dev.setChannel_clusters (k : Nat) (x : Channel) : (d.setChannel k x).clusters = d.clusters := rfl
@[simp] theorem Dev.setChannel_stk (k : Nat) (x : Channel) : (d.setChannel k x).stk = d.stk := rfl
@[simp] theorem Dev.setChannel_upd (k : Nat) (x : Channel) : (d.setChannel k x).upd = d.upd := rfl
@[simp] theorem Dev.setChannel_tick (k : Nat) (x : Channel) : (d.setChannel k x).tick = d.tick := rfl
@[simp] theorem Dev.setChannel_faults (k : Nat) (x : Channel) : (d.setChannel k x).faults = d.faults := rfl
@[simp] theorem Dev.setChannel_port (k : Nat) (x : Channel) : (d.setChannel k x).port = d.port := rfl
@[simp] theorem Dev.setChannel_sterling (k : Nat) (x : Channel) : (d.setChannel k x).sterling = d.sterling := rfl
@[simp] theorem Dev.setChannel_nickel (k : Nat) (x : Channel) : (d.setChannel k x).nickel = d.nickel := rfl
@[simp] theorem Dev.setChannel_boot (k : Nat) (x : Channel) : (d.setChannel k x).boot = d.boot := rfl
@[simp] theorem Dev.setChannel_lib (k : Nat) (x : Channel) : (d.setChannel k x).lib = d.lib := rfl
@[simp] theorem Dev.setChannel_power (k : Nat) (x : Channel) : (d.setChannel k x).power = d.power := rfl
@[simp] theorem Dev.setChannel_pins (k : Nat) (x : Channel) : (d.setChannel k x).pins = d.pins := rfl
@[simp] theorem Dev.setChannel_exchOpen (k : Nat) (x : Channel) : (d.setChannel k x).exchOpen = d.exchOpen := rfl
@[simp] theorem Dev.setChannel_owedWrites (k : Nat) (x : Channel) : (d.setChannel k x).owedWrites = d.owedWrites := rfl

@[simp] theorem Dev.setUpdUnit_phase (m : Nat) (x : UpdUnit) : (d.setUpdUnit m x).phase = d.phase := rfl
@[simp] theorem Dev.setUpdUnit_draw (m : Nat) (x : UpdUnit) : (d.setUpdUnit m x).draw = d.draw := rfl
@[simp] theorem Dev.setUpdUnit_clock (m : Nat) (x : UpdUnit) : (d.setUpdUnit m x).clock = d.clock := rfl
@[simp] theorem Dev.setUpdUnit_mem (m : Nat) (x : UpdUnit) : (d.setUpdUnit m x).mem = d.mem := rfl
@[simp] theorem Dev.setUpdUnit_regs (m : Nat) (x : UpdUnit) : (d.setUpdUnit m x).regs = d.regs := rfl
@[simp] theorem Dev.setUpdUnit_shadow (m : Nat) (x : UpdUnit) : (d.setUpdUnit m x).shadow = d.shadow := rfl
@[simp] theorem Dev.setUpdUnit_psets (m : Nat) (x : UpdUnit) : (d.setUpdUnit m x).psets = d.psets := rfl
@[simp] theorem Dev.setUpdUnit_channels (m : Nat) (x : UpdUnit) : (d.setUpdUnit m x).channels = d.channels := rfl
@[simp] theorem Dev.setUpdUnit_cores (m : Nat) (x : UpdUnit) : (d.setUpdUnit m x).cores = d.cores := rfl
@[simp] theorem Dev.setUpdUnit_clusters (m : Nat) (x : UpdUnit) : (d.setUpdUnit m x).clusters = d.clusters := rfl
@[simp] theorem Dev.setUpdUnit_stk (m : Nat) (x : UpdUnit) : (d.setUpdUnit m x).stk = d.stk := rfl
@[simp] theorem Dev.setUpdUnit_upd (m : Nat) (x : UpdUnit) : (d.setUpdUnit m x).upd = tset d.upd m x := rfl
@[simp] theorem Dev.setUpdUnit_tick (m : Nat) (x : UpdUnit) : (d.setUpdUnit m x).tick = d.tick := rfl
@[simp] theorem Dev.setUpdUnit_faults (m : Nat) (x : UpdUnit) : (d.setUpdUnit m x).faults = d.faults := rfl
@[simp] theorem Dev.setUpdUnit_port (m : Nat) (x : UpdUnit) : (d.setUpdUnit m x).port = d.port := rfl
@[simp] theorem Dev.setUpdUnit_sterling (m : Nat) (x : UpdUnit) : (d.setUpdUnit m x).sterling = d.sterling := rfl
@[simp] theorem Dev.setUpdUnit_nickel (m : Nat) (x : UpdUnit) : (d.setUpdUnit m x).nickel = d.nickel := rfl
@[simp] theorem Dev.setUpdUnit_boot (m : Nat) (x : UpdUnit) : (d.setUpdUnit m x).boot = d.boot := rfl
@[simp] theorem Dev.setUpdUnit_lib (m : Nat) (x : UpdUnit) : (d.setUpdUnit m x).lib = d.lib := rfl
@[simp] theorem Dev.setUpdUnit_power (m : Nat) (x : UpdUnit) : (d.setUpdUnit m x).power = d.power := rfl
@[simp] theorem Dev.setUpdUnit_pins (m : Nat) (x : UpdUnit) : (d.setUpdUnit m x).pins = d.pins := rfl
@[simp] theorem Dev.setUpdUnit_exchOpen (m : Nat) (x : UpdUnit) : (d.setUpdUnit m x).exchOpen = d.exchOpen := rfl
@[simp] theorem Dev.setUpdUnit_owedWrites (m : Nat) (x : UpdUnit) : (d.setUpdUnit m x).owedWrites = d.owedWrites := rfl

@[simp] theorem Dev.setPset_phase (k : Nat) (x : PSet) : (d.setPset k x).phase = d.phase := rfl
@[simp] theorem Dev.setPset_draw (k : Nat) (x : PSet) : (d.setPset k x).draw = d.draw := rfl
@[simp] theorem Dev.setPset_clock (k : Nat) (x : PSet) : (d.setPset k x).clock = d.clock := rfl
@[simp] theorem Dev.setPset_mem (k : Nat) (x : PSet) : (d.setPset k x).mem = d.mem := rfl
@[simp] theorem Dev.setPset_regs (k : Nat) (x : PSet) : (d.setPset k x).regs = d.regs := rfl
@[simp] theorem Dev.setPset_shadow (k : Nat) (x : PSet) : (d.setPset k x).shadow = d.shadow := rfl
@[simp] theorem Dev.setPset_psets (k : Nat) (x : PSet) : (d.setPset k x).psets = tset d.psets k x := rfl
@[simp] theorem Dev.setPset_channels (k : Nat) (x : PSet) : (d.setPset k x).channels = d.channels := rfl
@[simp] theorem Dev.setPset_cores (k : Nat) (x : PSet) : (d.setPset k x).cores = d.cores := rfl
@[simp] theorem Dev.setPset_clusters (k : Nat) (x : PSet) : (d.setPset k x).clusters = d.clusters := rfl
@[simp] theorem Dev.setPset_stk (k : Nat) (x : PSet) : (d.setPset k x).stk = d.stk := rfl
@[simp] theorem Dev.setPset_upd (k : Nat) (x : PSet) : (d.setPset k x).upd = d.upd := rfl
@[simp] theorem Dev.setPset_tick (k : Nat) (x : PSet) : (d.setPset k x).tick = d.tick := rfl
@[simp] theorem Dev.setPset_faults (k : Nat) (x : PSet) : (d.setPset k x).faults = d.faults := rfl
@[simp] theorem Dev.setPset_port (k : Nat) (x : PSet) : (d.setPset k x).port = d.port := rfl
@[simp] theorem Dev.setPset_sterling (k : Nat) (x : PSet) : (d.setPset k x).sterling = d.sterling := rfl
@[simp] theorem Dev.setPset_nickel (k : Nat) (x : PSet) : (d.setPset k x).nickel = d.nickel := rfl
@[simp] theorem Dev.setPset_boot (k : Nat) (x : PSet) : (d.setPset k x).boot = d.boot := rfl
@[simp] theorem Dev.setPset_lib (k : Nat) (x : PSet) : (d.setPset k x).lib = d.lib := rfl
@[simp] theorem Dev.setPset_power (k : Nat) (x : PSet) : (d.setPset k x).power = d.power := rfl
@[simp] theorem Dev.setPset_pins (k : Nat) (x : PSet) : (d.setPset k x).pins = d.pins := rfl
@[simp] theorem Dev.setPset_exchOpen (k : Nat) (x : PSet) : (d.setPset k x).exchOpen = d.exchOpen := rfl
@[simp] theorem Dev.setPset_owedWrites (k : Nat) (x : PSet) : (d.setPset k x).owedWrites = d.owedWrites := rfl

@[simp] theorem Dev.modTick_phase (f : Tick → Tick) : (d.modTick f).phase = d.phase := rfl
@[simp] theorem Dev.modTick_draw (f : Tick → Tick) : (d.modTick f).draw = d.draw := rfl
@[simp] theorem Dev.modTick_clock (f : Tick → Tick) : (d.modTick f).clock = d.clock := rfl
@[simp] theorem Dev.modTick_mem (f : Tick → Tick) : (d.modTick f).mem = d.mem := rfl
@[simp] theorem Dev.modTick_regs (f : Tick → Tick) : (d.modTick f).regs = d.regs := rfl
@[simp] theorem Dev.modTick_shadow (f : Tick → Tick) : (d.modTick f).shadow = d.shadow := rfl
@[simp] theorem Dev.modTick_psets (f : Tick → Tick) : (d.modTick f).psets = d.psets := rfl
@[simp] theorem Dev.modTick_channels (f : Tick → Tick) : (d.modTick f).channels = d.channels := rfl
@[simp] theorem Dev.modTick_cores (f : Tick → Tick) : (d.modTick f).cores = d.cores := rfl
@[simp] theorem Dev.modTick_clusters (f : Tick → Tick) : (d.modTick f).clusters = d.clusters := rfl
@[simp] theorem Dev.modTick_stk (f : Tick → Tick) : (d.modTick f).stk = d.stk := rfl
@[simp] theorem Dev.modTick_upd (f : Tick → Tick) : (d.modTick f).upd = d.upd := rfl
@[simp] theorem Dev.modTick_tick (f : Tick → Tick) : (d.modTick f).tick = f d.tick := rfl
@[simp] theorem Dev.modTick_faults (f : Tick → Tick) : (d.modTick f).faults = d.faults := rfl
@[simp] theorem Dev.modTick_port (f : Tick → Tick) : (d.modTick f).port = d.port := rfl
@[simp] theorem Dev.modTick_sterling (f : Tick → Tick) : (d.modTick f).sterling = d.sterling := rfl
@[simp] theorem Dev.modTick_nickel (f : Tick → Tick) : (d.modTick f).nickel = d.nickel := rfl
@[simp] theorem Dev.modTick_boot (f : Tick → Tick) : (d.modTick f).boot = d.boot := rfl
@[simp] theorem Dev.modTick_lib (f : Tick → Tick) : (d.modTick f).lib = d.lib := rfl
@[simp] theorem Dev.modTick_power (f : Tick → Tick) : (d.modTick f).power = d.power := rfl
@[simp] theorem Dev.modTick_pins (f : Tick → Tick) : (d.modTick f).pins = d.pins := rfl
@[simp] theorem Dev.modTick_exchOpen (f : Tick → Tick) : (d.modTick f).exchOpen = d.exchOpen := rfl
@[simp] theorem Dev.modTick_owedWrites (f : Tick → Tick) : (d.modTick f).owedWrites = d.owedWrites := rfl

@[simp] theorem Dev.modFrame_phase (f : FrameRun → FrameRun) : (d.modFrame f).phase = d.phase := rfl
@[simp] theorem Dev.modFrame_draw (f : FrameRun → FrameRun) : (d.modFrame f).draw = d.draw := rfl
@[simp] theorem Dev.modFrame_clock (f : FrameRun → FrameRun) : (d.modFrame f).clock = d.clock := rfl
@[simp] theorem Dev.modFrame_mem (f : FrameRun → FrameRun) : (d.modFrame f).mem = d.mem := rfl
@[simp] theorem Dev.modFrame_regs (f : FrameRun → FrameRun) : (d.modFrame f).regs = d.regs := rfl
@[simp] theorem Dev.modFrame_shadow (f : FrameRun → FrameRun) : (d.modFrame f).shadow = d.shadow := rfl
@[simp] theorem Dev.modFrame_psets (f : FrameRun → FrameRun) : (d.modFrame f).psets = d.psets := rfl
@[simp] theorem Dev.modFrame_channels (f : FrameRun → FrameRun) : (d.modFrame f).channels = d.channels := rfl
@[simp] theorem Dev.modFrame_cores (f : FrameRun → FrameRun) : (d.modFrame f).cores = d.cores := rfl
@[simp] theorem Dev.modFrame_clusters (f : FrameRun → FrameRun) : (d.modFrame f).clusters = d.clusters := rfl
@[simp] theorem Dev.modFrame_stk (f : FrameRun → FrameRun) : (d.modFrame f).stk = d.stk := rfl
@[simp] theorem Dev.modFrame_upd (f : FrameRun → FrameRun) : (d.modFrame f).upd = d.upd := rfl
@[simp] theorem Dev.modFrame_faults (f : FrameRun → FrameRun) : (d.modFrame f).faults = d.faults := rfl
@[simp] theorem Dev.modFrame_port (f : FrameRun → FrameRun) : (d.modFrame f).port = d.port := rfl
@[simp] theorem Dev.modFrame_sterling (f : FrameRun → FrameRun) : (d.modFrame f).sterling = d.sterling := rfl
@[simp] theorem Dev.modFrame_nickel (f : FrameRun → FrameRun) : (d.modFrame f).nickel = d.nickel := rfl
@[simp] theorem Dev.modFrame_boot (f : FrameRun → FrameRun) : (d.modFrame f).boot = d.boot := rfl
@[simp] theorem Dev.modFrame_lib (f : FrameRun → FrameRun) : (d.modFrame f).lib = d.lib := rfl
@[simp] theorem Dev.modFrame_power (f : FrameRun → FrameRun) : (d.modFrame f).power = d.power := rfl
@[simp] theorem Dev.modFrame_pins (f : FrameRun → FrameRun) : (d.modFrame f).pins = d.pins := rfl
@[simp] theorem Dev.modFrame_exchOpen (f : FrameRun → FrameRun) : (d.modFrame f).exchOpen = d.exchOpen := rfl
@[simp] theorem Dev.modFrame_owedWrites (f : FrameRun → FrameRun) : (d.modFrame f).owedWrites = d.owedWrites := rfl

@[simp] theorem Dev.modFaults_phase (f : Faults → Faults) : (d.modFaults f).phase = d.phase := rfl
@[simp] theorem Dev.modFaults_draw (f : Faults → Faults) : (d.modFaults f).draw = d.draw := rfl
@[simp] theorem Dev.modFaults_clock (f : Faults → Faults) : (d.modFaults f).clock = d.clock := rfl
@[simp] theorem Dev.modFaults_mem (f : Faults → Faults) : (d.modFaults f).mem = d.mem := rfl
@[simp] theorem Dev.modFaults_regs (f : Faults → Faults) : (d.modFaults f).regs = d.regs := rfl
@[simp] theorem Dev.modFaults_shadow (f : Faults → Faults) : (d.modFaults f).shadow = d.shadow := rfl
@[simp] theorem Dev.modFaults_psets (f : Faults → Faults) : (d.modFaults f).psets = d.psets := rfl
@[simp] theorem Dev.modFaults_channels (f : Faults → Faults) : (d.modFaults f).channels = d.channels := rfl
@[simp] theorem Dev.modFaults_cores (f : Faults → Faults) : (d.modFaults f).cores = d.cores := rfl
@[simp] theorem Dev.modFaults_clusters (f : Faults → Faults) : (d.modFaults f).clusters = d.clusters := rfl
@[simp] theorem Dev.modFaults_stk (f : Faults → Faults) : (d.modFaults f).stk = d.stk := rfl
@[simp] theorem Dev.modFaults_upd (f : Faults → Faults) : (d.modFaults f).upd = d.upd := rfl
@[simp] theorem Dev.modFaults_tick (f : Faults → Faults) : (d.modFaults f).tick = d.tick := rfl
@[simp] theorem Dev.modFaults_faults (f : Faults → Faults) : (d.modFaults f).faults = f d.faults := rfl
@[simp] theorem Dev.modFaults_port (f : Faults → Faults) : (d.modFaults f).port = d.port := rfl
@[simp] theorem Dev.modFaults_sterling (f : Faults → Faults) : (d.modFaults f).sterling = d.sterling := rfl
@[simp] theorem Dev.modFaults_nickel (f : Faults → Faults) : (d.modFaults f).nickel = d.nickel := rfl
@[simp] theorem Dev.modFaults_boot (f : Faults → Faults) : (d.modFaults f).boot = d.boot := rfl
@[simp] theorem Dev.modFaults_lib (f : Faults → Faults) : (d.modFaults f).lib = d.lib := rfl
@[simp] theorem Dev.modFaults_power (f : Faults → Faults) : (d.modFaults f).power = d.power := rfl
@[simp] theorem Dev.modFaults_pins (f : Faults → Faults) : (d.modFaults f).pins = d.pins := rfl
@[simp] theorem Dev.modFaults_exchOpen (f : Faults → Faults) : (d.modFaults f).exchOpen = d.exchOpen := rfl
@[simp] theorem Dev.modFaults_owedWrites (f : Faults → Faults) : (d.modFaults f).owedWrites = d.owedWrites := rfl

@[simp] theorem Dev.modPort_phase (f : Port → Port) : (d.modPort f).phase = d.phase := rfl
@[simp] theorem Dev.modPort_draw (f : Port → Port) : (d.modPort f).draw = d.draw := rfl
@[simp] theorem Dev.modPort_clock (f : Port → Port) : (d.modPort f).clock = d.clock := rfl
@[simp] theorem Dev.modPort_mem (f : Port → Port) : (d.modPort f).mem = d.mem := rfl
@[simp] theorem Dev.modPort_regs (f : Port → Port) : (d.modPort f).regs = d.regs := rfl
@[simp] theorem Dev.modPort_shadow (f : Port → Port) : (d.modPort f).shadow = d.shadow := rfl
@[simp] theorem Dev.modPort_psets (f : Port → Port) : (d.modPort f).psets = d.psets := rfl
@[simp] theorem Dev.modPort_channels (f : Port → Port) : (d.modPort f).channels = d.channels := rfl
@[simp] theorem Dev.modPort_cores (f : Port → Port) : (d.modPort f).cores = d.cores := rfl
@[simp] theorem Dev.modPort_clusters (f : Port → Port) : (d.modPort f).clusters = d.clusters := rfl
@[simp] theorem Dev.modPort_stk (f : Port → Port) : (d.modPort f).stk = d.stk := rfl
@[simp] theorem Dev.modPort_upd (f : Port → Port) : (d.modPort f).upd = d.upd := rfl
@[simp] theorem Dev.modPort_tick (f : Port → Port) : (d.modPort f).tick = d.tick := rfl
@[simp] theorem Dev.modPort_faults (f : Port → Port) : (d.modPort f).faults = d.faults := rfl
@[simp] theorem Dev.modPort_port (f : Port → Port) : (d.modPort f).port = f d.port := rfl
@[simp] theorem Dev.modPort_sterling (f : Port → Port) : (d.modPort f).sterling = d.sterling := rfl
@[simp] theorem Dev.modPort_nickel (f : Port → Port) : (d.modPort f).nickel = d.nickel := rfl
@[simp] theorem Dev.modPort_boot (f : Port → Port) : (d.modPort f).boot = d.boot := rfl
@[simp] theorem Dev.modPort_lib (f : Port → Port) : (d.modPort f).lib = d.lib := rfl
@[simp] theorem Dev.modPort_power (f : Port → Port) : (d.modPort f).power = d.power := rfl
@[simp] theorem Dev.modPort_pins (f : Port → Port) : (d.modPort f).pins = d.pins := rfl
@[simp] theorem Dev.modPort_exchOpen (f : Port → Port) : (d.modPort f).exchOpen = d.exchOpen := rfl
@[simp] theorem Dev.modPort_owedWrites (f : Port → Port) : (d.modPort f).owedWrites = d.owedWrites := rfl

@[simp] theorem Dev.modSterling_phase (f : Sterling → Sterling) : (d.modSterling f).phase = d.phase := rfl
@[simp] theorem Dev.modSterling_draw (f : Sterling → Sterling) : (d.modSterling f).draw = d.draw := rfl
@[simp] theorem Dev.modSterling_clock (f : Sterling → Sterling) : (d.modSterling f).clock = d.clock := rfl
@[simp] theorem Dev.modSterling_mem (f : Sterling → Sterling) : (d.modSterling f).mem = d.mem := rfl
@[simp] theorem Dev.modSterling_regs (f : Sterling → Sterling) : (d.modSterling f).regs = d.regs := rfl
@[simp] theorem Dev.modSterling_shadow (f : Sterling → Sterling) : (d.modSterling f).shadow = d.shadow := rfl
@[simp] theorem Dev.modSterling_psets (f : Sterling → Sterling) : (d.modSterling f).psets = d.psets := rfl
@[simp] theorem Dev.modSterling_channels (f : Sterling → Sterling) : (d.modSterling f).channels = d.channels := rfl
@[simp] theorem Dev.modSterling_cores (f : Sterling → Sterling) : (d.modSterling f).cores = d.cores := rfl
@[simp] theorem Dev.modSterling_clusters (f : Sterling → Sterling) : (d.modSterling f).clusters = d.clusters := rfl
@[simp] theorem Dev.modSterling_stk (f : Sterling → Sterling) : (d.modSterling f).stk = d.stk := rfl
@[simp] theorem Dev.modSterling_upd (f : Sterling → Sterling) : (d.modSterling f).upd = d.upd := rfl
@[simp] theorem Dev.modSterling_tick (f : Sterling → Sterling) : (d.modSterling f).tick = d.tick := rfl
@[simp] theorem Dev.modSterling_faults (f : Sterling → Sterling) : (d.modSterling f).faults = d.faults := rfl
@[simp] theorem Dev.modSterling_port (f : Sterling → Sterling) : (d.modSterling f).port = d.port := rfl
@[simp] theorem Dev.modSterling_sterling (f : Sterling → Sterling) : (d.modSterling f).sterling = f d.sterling := rfl
@[simp] theorem Dev.modSterling_nickel (f : Sterling → Sterling) : (d.modSterling f).nickel = d.nickel := rfl
@[simp] theorem Dev.modSterling_boot (f : Sterling → Sterling) : (d.modSterling f).boot = d.boot := rfl
@[simp] theorem Dev.modSterling_lib (f : Sterling → Sterling) : (d.modSterling f).lib = d.lib := rfl
@[simp] theorem Dev.modSterling_power (f : Sterling → Sterling) : (d.modSterling f).power = d.power := rfl
@[simp] theorem Dev.modSterling_pins (f : Sterling → Sterling) : (d.modSterling f).pins = d.pins := rfl
@[simp] theorem Dev.modSterling_exchOpen (f : Sterling → Sterling) : (d.modSterling f).exchOpen = d.exchOpen := rfl
@[simp] theorem Dev.modSterling_owedWrites (f : Sterling → Sterling) : (d.modSterling f).owedWrites = d.owedWrites := rfl

@[simp] theorem Dev.modNickel_phase (f : Nickel → Nickel) : (d.modNickel f).phase = d.phase := rfl
@[simp] theorem Dev.modNickel_draw (f : Nickel → Nickel) : (d.modNickel f).draw = d.draw := rfl
@[simp] theorem Dev.modNickel_clock (f : Nickel → Nickel) : (d.modNickel f).clock = d.clock := rfl
@[simp] theorem Dev.modNickel_mem (f : Nickel → Nickel) : (d.modNickel f).mem = d.mem := rfl
@[simp] theorem Dev.modNickel_regs (f : Nickel → Nickel) : (d.modNickel f).regs = d.regs := rfl
@[simp] theorem Dev.modNickel_shadow (f : Nickel → Nickel) : (d.modNickel f).shadow = d.shadow := rfl
@[simp] theorem Dev.modNickel_psets (f : Nickel → Nickel) : (d.modNickel f).psets = d.psets := rfl
@[simp] theorem Dev.modNickel_channels (f : Nickel → Nickel) : (d.modNickel f).channels = d.channels := rfl
@[simp] theorem Dev.modNickel_cores (f : Nickel → Nickel) : (d.modNickel f).cores = d.cores := rfl
@[simp] theorem Dev.modNickel_clusters (f : Nickel → Nickel) : (d.modNickel f).clusters = d.clusters := rfl
@[simp] theorem Dev.modNickel_stk (f : Nickel → Nickel) : (d.modNickel f).stk = d.stk := rfl
@[simp] theorem Dev.modNickel_upd (f : Nickel → Nickel) : (d.modNickel f).upd = d.upd := rfl
@[simp] theorem Dev.modNickel_tick (f : Nickel → Nickel) : (d.modNickel f).tick = d.tick := rfl
@[simp] theorem Dev.modNickel_faults (f : Nickel → Nickel) : (d.modNickel f).faults = d.faults := rfl
@[simp] theorem Dev.modNickel_port (f : Nickel → Nickel) : (d.modNickel f).port = d.port := rfl
@[simp] theorem Dev.modNickel_sterling (f : Nickel → Nickel) : (d.modNickel f).sterling = d.sterling := rfl
@[simp] theorem Dev.modNickel_nickel (f : Nickel → Nickel) : (d.modNickel f).nickel = f d.nickel := rfl
@[simp] theorem Dev.modNickel_boot (f : Nickel → Nickel) : (d.modNickel f).boot = d.boot := rfl
@[simp] theorem Dev.modNickel_lib (f : Nickel → Nickel) : (d.modNickel f).lib = d.lib := rfl
@[simp] theorem Dev.modNickel_power (f : Nickel → Nickel) : (d.modNickel f).power = d.power := rfl
@[simp] theorem Dev.modNickel_pins (f : Nickel → Nickel) : (d.modNickel f).pins = d.pins := rfl
@[simp] theorem Dev.modNickel_exchOpen (f : Nickel → Nickel) : (d.modNickel f).exchOpen = d.exchOpen := rfl
@[simp] theorem Dev.modNickel_owedWrites (f : Nickel → Nickel) : (d.modNickel f).owedWrites = d.owedWrites := rfl

@[simp] theorem Dev.modBoot_phase (f : Boot → Boot) : (d.modBoot f).phase = d.phase := rfl
@[simp] theorem Dev.modBoot_draw (f : Boot → Boot) : (d.modBoot f).draw = d.draw := rfl
@[simp] theorem Dev.modBoot_clock (f : Boot → Boot) : (d.modBoot f).clock = d.clock := rfl
@[simp] theorem Dev.modBoot_mem (f : Boot → Boot) : (d.modBoot f).mem = d.mem := rfl
@[simp] theorem Dev.modBoot_regs (f : Boot → Boot) : (d.modBoot f).regs = d.regs := rfl
@[simp] theorem Dev.modBoot_shadow (f : Boot → Boot) : (d.modBoot f).shadow = d.shadow := rfl
@[simp] theorem Dev.modBoot_psets (f : Boot → Boot) : (d.modBoot f).psets = d.psets := rfl
@[simp] theorem Dev.modBoot_channels (f : Boot → Boot) : (d.modBoot f).channels = d.channels := rfl
@[simp] theorem Dev.modBoot_cores (f : Boot → Boot) : (d.modBoot f).cores = d.cores := rfl
@[simp] theorem Dev.modBoot_clusters (f : Boot → Boot) : (d.modBoot f).clusters = d.clusters := rfl
@[simp] theorem Dev.modBoot_stk (f : Boot → Boot) : (d.modBoot f).stk = d.stk := rfl
@[simp] theorem Dev.modBoot_upd (f : Boot → Boot) : (d.modBoot f).upd = d.upd := rfl
@[simp] theorem Dev.modBoot_tick (f : Boot → Boot) : (d.modBoot f).tick = d.tick := rfl
@[simp] theorem Dev.modBoot_faults (f : Boot → Boot) : (d.modBoot f).faults = d.faults := rfl
@[simp] theorem Dev.modBoot_port (f : Boot → Boot) : (d.modBoot f).port = d.port := rfl
@[simp] theorem Dev.modBoot_sterling (f : Boot → Boot) : (d.modBoot f).sterling = d.sterling := rfl
@[simp] theorem Dev.modBoot_nickel (f : Boot → Boot) : (d.modBoot f).nickel = d.nickel := rfl
@[simp] theorem Dev.modBoot_boot (f : Boot → Boot) : (d.modBoot f).boot = f d.boot := rfl
@[simp] theorem Dev.modBoot_lib (f : Boot → Boot) : (d.modBoot f).lib = d.lib := rfl
@[simp] theorem Dev.modBoot_power (f : Boot → Boot) : (d.modBoot f).power = d.power := rfl
@[simp] theorem Dev.modBoot_pins (f : Boot → Boot) : (d.modBoot f).pins = d.pins := rfl
@[simp] theorem Dev.modBoot_exchOpen (f : Boot → Boot) : (d.modBoot f).exchOpen = d.exchOpen := rfl
@[simp] theorem Dev.modBoot_owedWrites (f : Boot → Boot) : (d.modBoot f).owedWrites = d.owedWrites := rfl

@[simp] theorem Dev.modLib_phase (f : Library → Library) : (d.modLib f).phase = d.phase := rfl
@[simp] theorem Dev.modLib_draw (f : Library → Library) : (d.modLib f).draw = d.draw := rfl
@[simp] theorem Dev.modLib_clock (f : Library → Library) : (d.modLib f).clock = d.clock := rfl
@[simp] theorem Dev.modLib_mem (f : Library → Library) : (d.modLib f).mem = d.mem := rfl
@[simp] theorem Dev.modLib_regs (f : Library → Library) : (d.modLib f).regs = d.regs := rfl
@[simp] theorem Dev.modLib_shadow (f : Library → Library) : (d.modLib f).shadow = d.shadow := rfl
@[simp] theorem Dev.modLib_psets (f : Library → Library) : (d.modLib f).psets = d.psets := rfl
@[simp] theorem Dev.modLib_channels (f : Library → Library) : (d.modLib f).channels = d.channels := rfl
@[simp] theorem Dev.modLib_cores (f : Library → Library) : (d.modLib f).cores = d.cores := rfl
@[simp] theorem Dev.modLib_clusters (f : Library → Library) : (d.modLib f).clusters = d.clusters := rfl
@[simp] theorem Dev.modLib_stk (f : Library → Library) : (d.modLib f).stk = d.stk := rfl
@[simp] theorem Dev.modLib_upd (f : Library → Library) : (d.modLib f).upd = d.upd := rfl
@[simp] theorem Dev.modLib_tick (f : Library → Library) : (d.modLib f).tick = d.tick := rfl
@[simp] theorem Dev.modLib_faults (f : Library → Library) : (d.modLib f).faults = d.faults := rfl
@[simp] theorem Dev.modLib_port (f : Library → Library) : (d.modLib f).port = d.port := rfl
@[simp] theorem Dev.modLib_sterling (f : Library → Library) : (d.modLib f).sterling = d.sterling := rfl
@[simp] theorem Dev.modLib_nickel (f : Library → Library) : (d.modLib f).nickel = d.nickel := rfl
@[simp] theorem Dev.modLib_boot (f : Library → Library) : (d.modLib f).boot = d.boot := rfl
@[simp] theorem Dev.modLib_lib (f : Library → Library) : (d.modLib f).lib = f d.lib := rfl
@[simp] theorem Dev.modLib_power (f : Library → Library) : (d.modLib f).power = d.power := rfl
@[simp] theorem Dev.modLib_pins (f : Library → Library) : (d.modLib f).pins = d.pins := rfl
@[simp] theorem Dev.modLib_exchOpen (f : Library → Library) : (d.modLib f).exchOpen = d.exchOpen := rfl
@[simp] theorem Dev.modLib_owedWrites (f : Library → Library) : (d.modLib f).owedWrites = d.owedWrites := rfl

@[simp] theorem Dev.modPower_phase (f : Power → Power) : (d.modPower f).phase = d.phase := rfl
@[simp] theorem Dev.modPower_draw (f : Power → Power) : (d.modPower f).draw = d.draw := rfl
@[simp] theorem Dev.modPower_clock (f : Power → Power) : (d.modPower f).clock = d.clock := rfl
@[simp] theorem Dev.modPower_mem (f : Power → Power) : (d.modPower f).mem = d.mem := rfl
@[simp] theorem Dev.modPower_regs (f : Power → Power) : (d.modPower f).regs = d.regs := rfl
@[simp] theorem Dev.modPower_shadow (f : Power → Power) : (d.modPower f).shadow = d.shadow := rfl
@[simp] theorem Dev.modPower_psets (f : Power → Power) : (d.modPower f).psets = d.psets := rfl
@[simp] theorem Dev.modPower_channels (f : Power → Power) : (d.modPower f).channels = d.channels := rfl
@[simp] theorem Dev.modPower_cores (f : Power → Power) : (d.modPower f).cores = d.cores := rfl
@[simp] theorem Dev.modPower_clusters (f : Power → Power) : (d.modPower f).clusters = d.clusters := rfl
@[simp] theorem Dev.modPower_stk (f : Power → Power) : (d.modPower f).stk = d.stk := rfl
@[simp] theorem Dev.modPower_upd (f : Power → Power) : (d.modPower f).upd = d.upd := rfl
@[simp] theorem Dev.modPower_tick (f : Power → Power) : (d.modPower f).tick = d.tick := rfl
@[simp] theorem Dev.modPower_faults (f : Power → Power) : (d.modPower f).faults = d.faults := rfl
@[simp] theorem Dev.modPower_port (f : Power → Power) : (d.modPower f).port = d.port := rfl
@[simp] theorem Dev.modPower_sterling (f : Power → Power) : (d.modPower f).sterling = d.sterling := rfl
@[simp] theorem Dev.modPower_nickel (f : Power → Power) : (d.modPower f).nickel = d.nickel := rfl
@[simp] theorem Dev.modPower_boot (f : Power → Power) : (d.modPower f).boot = d.boot := rfl
@[simp] theorem Dev.modPower_lib (f : Power → Power) : (d.modPower f).lib = d.lib := rfl
@[simp] theorem Dev.modPower_power (f : Power → Power) : (d.modPower f).power = f d.power := rfl
@[simp] theorem Dev.modPower_pins (f : Power → Power) : (d.modPower f).pins = d.pins := rfl
@[simp] theorem Dev.modPower_exchOpen (f : Power → Power) : (d.modPower f).exchOpen = d.exchOpen := rfl
@[simp] theorem Dev.modPower_owedWrites (f : Power → Power) : (d.modPower f).owedWrites = d.owedWrites := rfl

@[simp] theorem Dev.modPins_phase (f : Pins → Pins) : (d.modPins f).phase = d.phase := rfl
@[simp] theorem Dev.modPins_draw (f : Pins → Pins) : (d.modPins f).draw = d.draw := rfl
@[simp] theorem Dev.modPins_clock (f : Pins → Pins) : (d.modPins f).clock = d.clock := rfl
@[simp] theorem Dev.modPins_mem (f : Pins → Pins) : (d.modPins f).mem = d.mem := rfl
@[simp] theorem Dev.modPins_regs (f : Pins → Pins) : (d.modPins f).regs = d.regs := rfl
@[simp] theorem Dev.modPins_shadow (f : Pins → Pins) : (d.modPins f).shadow = d.shadow := rfl
@[simp] theorem Dev.modPins_psets (f : Pins → Pins) : (d.modPins f).psets = d.psets := rfl
@[simp] theorem Dev.modPins_channels (f : Pins → Pins) : (d.modPins f).channels = d.channels := rfl
@[simp] theorem Dev.modPins_cores (f : Pins → Pins) : (d.modPins f).cores = d.cores := rfl
@[simp] theorem Dev.modPins_clusters (f : Pins → Pins) : (d.modPins f).clusters = d.clusters := rfl
@[simp] theorem Dev.modPins_stk (f : Pins → Pins) : (d.modPins f).stk = d.stk := rfl
@[simp] theorem Dev.modPins_upd (f : Pins → Pins) : (d.modPins f).upd = d.upd := rfl
@[simp] theorem Dev.modPins_tick (f : Pins → Pins) : (d.modPins f).tick = d.tick := rfl
@[simp] theorem Dev.modPins_faults (f : Pins → Pins) : (d.modPins f).faults = d.faults := rfl
@[simp] theorem Dev.modPins_port (f : Pins → Pins) : (d.modPins f).port = d.port := rfl
@[simp] theorem Dev.modPins_sterling (f : Pins → Pins) : (d.modPins f).sterling = d.sterling := rfl
@[simp] theorem Dev.modPins_nickel (f : Pins → Pins) : (d.modPins f).nickel = d.nickel := rfl
@[simp] theorem Dev.modPins_boot (f : Pins → Pins) : (d.modPins f).boot = d.boot := rfl
@[simp] theorem Dev.modPins_lib (f : Pins → Pins) : (d.modPins f).lib = d.lib := rfl
@[simp] theorem Dev.modPins_power (f : Pins → Pins) : (d.modPins f).power = d.power := rfl
@[simp] theorem Dev.modPins_pins (f : Pins → Pins) : (d.modPins f).pins = f d.pins := rfl
@[simp] theorem Dev.modPins_exchOpen (f : Pins → Pins) : (d.modPins f).exchOpen = d.exchOpen := rfl
@[simp] theorem Dev.modPins_owedWrites (f : Pins → Pins) : (d.modPins f).owedWrites = d.owedWrites := rfl

/-! ### The state around the device -/

@[simp] theorem State.withDev_dev (s : State) (e : Dev) : (s.withDev e).dev = e := rfl
@[simp] theorem State.withDev_fuses (s : State) (e : Dev) : (s.withDev e).fuses = s.fuses := rfl
@[simp] theorem State.withDev_pending (s : State) (e : Dev) : (s.withDev e).pending = s.pending := rfl
theorem State.onDev_eq (s : State) (f : Dev → Dev) : s.onDev f = .next (s.withDev (f s.dev)) := rfl

/-! ### Tables of the device -/

theorem Dev.core_setCore (n m : Nat) (c : Core) : (d.setCore n c).core m = if m = n then c else d.core m :=
  tget_tset d.cores n m c .fresh

@[simp] theorem Dev.core_setCore_same (n : Nat) (c : Core) : (d.setCore n c).core n = c := tget_tset_same _ _ _ _

theorem Dev.core_setCore_other {n m : Nat} (c : Core) (h : m ≠ n) : (d.setCore n c).core m = d.core m :=
  tget_tset_other _ _ _ h

theorem Dev.core_modCore (n m : Nat) (f : Core → Core) :
    (d.modCore n f).core m = if m = n then f (d.core n) else d.core m := Dev.core_setCore d n m _

@[simp] theorem Dev.core_modCore_same (n : Nat) (f : Core → Core) : (d.modCore n f).core n = f (d.core n) :=
  tget_tset_same _ _ _ _

theorem Dev.cluster_setCluster (c k : Nat) (x : Cluster) :
    (d.setCluster c x).cluster k = if k = c then x else d.cluster k := tget_tset d.clusters c k x .fresh

@[simp] theorem Dev.cluster_setCluster_same (c : Nat) (x : Cluster) : (d.setCluster c x).cluster c = x :=
  tget_tset_same _ _ _ _

@[simp] theorem Dev.cluster_modCluster_same (c : Nat) (f : Cluster → Cluster) :
    (d.modCluster c f).cluster c = f (d.cluster c) := tget_tset_same _ _ _ _

theorem Dev.channel_setChannel (c k : Nat) (x : Channel) :
    (d.setChannel c x).channel k = if k = c then x else d.channel k := tget_tset d.channels c k x .fresh

@[simp] theorem Dev.channel_setChannel_same (c : Nat) (x : Channel) : (d.setChannel c x).channel c = x :=
  tget_tset_same _ _ _ _

theorem Dev.updUnit_setUpdUnit (c k : Nat) (x : UpdUnit) :
    (d.setUpdUnit c x).updUnit k = if k = c then x else d.updUnit k := tget_tset d.upd c k x .fresh

theorem Dev.pset_setPset (c k : Nat) (x : PSet) : (d.setPset c x).pset k = if k = c then x else d.pset k :=
  tget_tset d.psets c k x .fresh

/-- A dictionary entry after another is set: subindexes run below 256. -/
theorem Dev.reg_setReg (i k v j m : Nat) (hk : k < 256) (hm : m < 256) :
    (d.setReg i k v).reg j m = if j = i ∧ m = k then v % 2 ^ 64 else d.reg j m := by
  unfold Dev.reg Dev.setReg
  rw [tget_tset]
  by_cases h : j = i ∧ m = k
  · obtain ⟨rfl, rfl⟩ := h; simp
  · rw [if_neg (by omega), if_neg h]

@[simp] theorem Dev.reg_setReg_same (i k v : Nat) : (d.setReg i k v).reg i k = v % 2 ^ 64 := by
  unfold Dev.reg Dev.setReg; rw [tget_tset_same]; simp

/-! ### A core's registers, queues and programs -/

theorem Core.getG_setG (c : Core) (r q : BitVec 5) (v : Word) :
    (c.setG r v).getG q = if q = r ∧ r ≠ 0 then v else c.getG q := by
  unfold Core.getG Core.setG
  by_cases hq : q = 0
  · subst hq
    by_cases hr : r = 0
    · simp [hr]
    · rw [if_pos rfl, if_neg (fun h => hr h.1.symm), if_pos rfl]
  · by_cases hr : r = 0
    · simp [hr]
    · simp only [hr, hq, if_false, ne_eq, not_false_eq_true, and_true]
      rw [tget_tset]
      by_cases h : q = r
      · simp [h]
      · rw [if_neg (fun e => h (BitVec.eq_of_toNat_eq e)), if_neg h]

@[simp] theorem Core.prog_setProg (c : Core) (p : Program) (x : ProgState) : (c.setProg p x).prog p = x := by
  cases p <;> rfl

theorem Core.prog_setProg_other (c : Core) {p q : Program} (x : ProgState) (h : q ≠ p) :
    (c.setProg p x).prog q = c.prog q := by
  cases p <;> cases q <;> first | rfl | exact absurd rfl h

theorem Core.queue_setQueue (c : Core) (q k : Nat) (x : DQueue) :
    (c.setQueue q x).queue k = if k = q then x else c.queue k := tget_tset c.queues q k x .empty

end Sys2Proof.Machine
end

