-- ==== Sys2Proof/Laws/Access.lean ====
section
/-! SUPPORT. What the shared operations on memory can do: a read changes no byte, a write changes the bytes it names and no
other, each keeps the canonical form, and a unit's write waits, is refused or is made. -/

namespace Sys2Proof.Machine

variable (d : Dev)

/-! ### Cells: all that a byte depends on -/

theorem Memory.byte_congr {m k : Memory} (h : m.cells = k.cells) (x : Nat) : m.byte x = k.byte x := by
  unfold Memory.byte; rw [h]

theorem Memory.wf_congr {m k : Memory} (h : m.cells = k.cells) : m.wf = k.wf := by
  unfold Memory.wf; rw [h]

@[simp] theorem Dev.raise_mem (f : RaisedFault) : (d.raise f).mem = d.mem := by
  unfold Dev.raise
  cases f.block with
  | none => rfl
  | some b => simp only; split <;> rfl

@[simp] theorem Dev.faultUc_mem (src unit addr : Nat) (reason status : BitVec 8) (detail : Nat) :
    (d.faultUc src unit addr reason status detail).mem = d.mem := by unfold Dev.faultUc; simp

@[simp] theorem Dev.faultCorr_mem (src unit addr detail : Nat) : (d.faultCorr src unit addr detail).mem = d.mem := by
  unfold Dev.faultCorr; simp

@[simp] theorem Dev.countGranules_mem (sub : Nat) (gs : List Nat) : (d.countGranules sub gs).mem = d.mem := by
  unfold Dev.countGranules
  suffices h : ∀ (ks : List Nat) (d : Dev), (ks.foldl (fun d k =>
      let n := (gs.filter fun g => d.stackOf g = k).length
      if n = 0 then d else d.bump (0x4200 + k) sub n) d).mem = d.mem from h _ d
  intro ks
  induction ks with
  | nil => intro d; rfl
  | cons k ks ih =>
    intro d
    rw [List.foldl_cons, ih]
    simp only
    split <;> simp

/-- Recording a refusal changes no memory. -/
@[simp] theorem Dev.noteProblem_mem (r : Requester) (k : AccessKind) (p : Problem) : (d.noteProblem r k p).mem = d.mem := by
  cases p <;> simp [Dev.noteProblem]

theorem Dev.meetGranule_cells (blk : Option Block) (g : Nat) : (d.meetGranule blk g).1.mem.cells = d.mem.cells := by
  unfold Dev.meetGranule
  split
  · rfl
  · split
    · rfl
    · simp only
      split <;> simp

theorem Dev.meetWord_cells (c : Nat) (u : Upset) : (d.meetWord c u).mem.cells = d.mem.cells := by
  unfold Dev.meetWord
  cases u.kind <;> simp

/-! ### Reads and writes of a range in one region -/

/-- A performed read changes no byte. -/
theorem Dev.fetch_cells (blk : Option Block) (a n : Nat) : (d.fetch blk a n).1.mem.cells = d.mem.cells := by
  have gran : ∀ (gs : List Nat) (p : Dev × Bool), (gs.foldl (fun (p : Dev × Bool) g =>
      let (d, b) := p.1.meetGranule blk g
      (d, p.2 || b)) p).1.mem.cells = p.1.mem.cells := by
    intro gs
    induction gs with
    | nil => intro p; rfl
    | cons g gs ih => intro p; rw [List.foldl_cons, ih]; exact Dev.meetGranule_cells _ _ _
  have word : ∀ (c : Nat) (us : List Upset) (d : Dev), (us.foldl (fun d u => d.meetWord c u) d).mem.cells = d.mem.cells := by
    intro c us
    induction us with
    | nil => intro d; rfl
    | cons u us ih => intro d; rw [List.foldl_cons, ih]; exact Dev.meetWord_cells _ _ _
  unfold Dev.fetch
  cases regionOf a with
  | stack => simp only [Dev.countGranules_mem]; exact gran _ _
  | bank c off => exact word _ _ _
  | core n off => rfl
  | nowhere => rfl

/-- A performed write puts its bytes in place of what stood there. -/
theorem Dev.store_cells (blk : Option Block) (a : Nat) (bs : List Byte) :
    (d.store blk a bs).mem.cells = (d.mem.write a bs).cells := by
  have part : ∀ (gs : List Nat) (d : Dev), (gs.foldl (fun d g => (d.meetGranule blk g).1) d).mem.cells = d.mem.cells := by
    intro gs
    induction gs with
    | nil => intro d; rfl
    | cons g gs ih => intro d; rw [List.foldl_cons, ih]; exact Dev.meetGranule_cells _ _ _
  unfold Dev.store
  cases regionOf a with
  | stack => simp only [Dev.wr_mem, Dev.countGranules_mem, Memory.write, part]
  | bank c off => rfl
  | core n off => rfl
  | nowhere => rfl

/-- Each byte after a performed write. -/
theorem Dev.byte_store (blk : Option Block) (a : Nat) (bs : List Byte) (x : Nat) :
    (d.store blk a bs).mem.byte x = if a ≤ x ∧ x < a + bs.length then bs.getD (x - a) 0 else d.mem.byte x := by
  rw [Memory.byte_congr (d.store_cells blk a bs), Memory.byte_write]

theorem Dev.store_wf (blk : Option Block) (a : Nat) (bs : List Byte) (h : d.mem.wf = true) :
    (d.store blk a bs).mem.wf = true := by
  rw [Memory.wf_congr (d.store_cells blk a bs)]; exact Memory.write_wf _ _ _ h

theorem Dev.fetch_wf (blk : Option Block) (a n : Nat) (h : d.mem.wf = true) : (d.fetch blk a n).1.mem.wf = true := by
  rw [Memory.wf_congr (d.fetch_cells blk a n)]; exact h

/-! ### A unit's write (10 R320, R324, R332) -/

/-- A unit's write is kept until its bank takes it, is refused and recorded, or is made. -/
theorem Dev.writeAs_cases (r : Requester) (a : Nat) (bs : List Byte) :
    (d.problemIn r .write a bs.length = some .wait ∧
      d.writeAs r a bs = { d with owedWrites := d.owedWrites ++ [(r, a, bs)] }) ∨
    (∃ p, p ≠ .wait ∧ d.problemIn r .write a bs.length = some p ∧ d.writeAs r a bs = d.noteProblem r .write p) ∨
    (d.problemIn r .write a bs.length = none ∧
      d.writeAs r a bs = (pieces a bs.length).foldl (fun d p =>
        d.store none p ((bs.drop (p - a)).take (p / 256 * 256 + 256 - p))) d) := by
  unfold Dev.writeAs
  cases h : d.problemIn r .write a bs.length with
  | none => exact .inr (.inr ⟨rfl, rfl⟩)
  | some p =>
    by_cases hp : p = .wait
    · subst hp; exact .inl ⟨rfl, rfl⟩
    · exact .inr (.inl ⟨p, hp, rfl, by cases p <;> first | rfl | exact absurd rfl hp⟩)

/-- A unit's write keeps the canonical form of memory. -/
theorem Dev.writeAs_wf (r : Requester) (a : Nat) (bs : List Byte) (h : d.mem.wf = true) :
    (d.writeAs r a bs).mem.wf = true := by
  obtain ⟨-, e⟩ | ⟨p, -, -, e⟩ | ⟨-, e⟩ := d.writeAs_cases r a bs
  · rw [e]; exact h
  · rw [e, Dev.noteProblem_mem]; exact h
  · rw [e]
    suffices g : ∀ (ps : List Nat) (d : Dev), d.mem.wf = true → (ps.foldl (fun d p =>
        d.store none p ((bs.drop (p - a)).take (p / 256 * 256 + 256 - p))) d).mem.wf = true from g _ _ h
    intro ps
    induction ps with
    | nil => intro d h; exact h
    | cons p ps ih => intro d h; exact ih _ (Dev.store_wf _ _ _ _ h)

/-- So do the writes that have waited. -/
theorem Dev.payWrites_wf (h : d.mem.wf = true) : d.payWrites.mem.wf = true := by
  unfold Dev.payWrites
  suffices g : ∀ (ws : List (Requester × Nat × List Byte)) (d : Dev), d.mem.wf = true →
      (ws.foldl (fun d w => d.writeAs w.1 w.2.1 w.2.2) d).mem.wf = true from g _ _ h
  intro ws
  induction ws with
  | nil => intro d h; exact h
  | cons w ws ih => intro d h; exact ih _ (Dev.writeAs_wf _ _ _ _ h)

/-- Which reads meet a write changes no memory. -/
theorem Dev.meetWrites_mem (a n : Nat) (writes : Nat → List (Nat × Nat)) : (d.meetWrites a n writes).2.mem = d.mem := by
  unfold Dev.meetWrites
  suffices g : ∀ (ps : List Nat) (x : Nat × Dev), (ps.foldl (fun (x : Nat × Dev) p =>
      match regionOf p with
      | .bank c _ =>
        if (writes c).any fun w => rangesMeet w.1 w.2 (p / 256 * 256) 256 then
          let (w, d) := x.2.drawWord
          if w.getLsbD 0 then (x.1 + 1, d.bump (0x3100 + c) 0x0E 1) else (x.1, d)
        else x
      | _ => x) x).2.mem = x.2.mem from g _ _
  intro ps
  induction ps with
  | nil => intro x; rfl
  | cons p ps ih =>
    intro x
    rw [List.foldl_cons, ih]
    split
    · split
      · have h : x.2.drawWord.2.mem = x.2.mem := rfl
        revert h
        generalize x.2.drawWord = w
        intro h
        simp only
        split <;> simp [h]
      · rfl
    · rfl

end Sys2Proof.Machine
end

