-- ==== Sys2Proof/Laws/Issue.lean ====
section
/-! SUPPORT. Issue in a core: what a program that may issue does, and how it goes on where the next instruction lies in the
half. -/

namespace Sys2Proof.Machine

variable (d : Dev)

theorem Dev.issue_may {n : Nat} {p : Program} (h : d.mayIssue n p = true) (f : Core → Dev) :
    d.issue n p f = f (d.core n) := by simp [Dev.issue, h]

theorem Dev.issue_not {n : Nat} {p : Program} (h : d.mayIssue n p = false) (f : Core → Dev) : d.issue n p f = d := by
  simp [Dev.issue, h]

theorem Dev.checkPc_tin {n : Nat} (h : (d.core n).tin.pc + 4 ≤ 0x4000) (h' : (d.core n).tin.pc % 4 = 0) :
    d.checkPc n .tin = d := by
  unfold Dev.checkPc
  rw [if_neg]
  simp only [Core.prog]
  omega

theorem Dev.checkPc_stream {n : Nat} {p : Program} (hp : p ≠ .tin) (h : ((d.core n).prog p).pc + 8 ≤ 0x4000)
    (h' : ((d.core n).prog p).pc % 8 = 0) : d.checkPc n p = d := by
  unfold Dev.checkPc
  cases p with
  | tin => exact absurd rfl hp
  | access => rw [if_neg]; simp only; omega
  | execute => rw [if_neg]; simp only; omega

/-- Tin goes on inside the half. -/
theorem Dev.tinGo_eq {n pc : Nat} (h : pc + 4 ≤ 0x4000) (h' : pc % 4 = 0) :
    d.tinGo n pc = d.modCore n fun c => { c with tin := { c.tin with pc := pc, waits := [] } } := by
  unfold Dev.tinGo
  apply Dev.checkPc_tin <;> (rw [Dev.core_modCore_same]; assumption)

/-- A stream program goes on inside the half. -/
theorem Dev.streamGo_eq {n : Nat} {p : Program} (hp : p ≠ .tin) (h : (((d.core n).prog p).retire).pc + 8 ≤ 0x4000)
    (h' : (((d.core n).prog p).retire).pc % 8 = 0) :
    d.streamGo n p = d.modCore n fun c => c.setProg p (c.prog p).retire := by
  unfold Dev.streamGo
  apply Dev.checkPc_stream _ hp <;> (rw [Dev.core_modCore_same, Core.prog_setProg]; assumption)

theorem Dev.modCore_modCore (n : Nat) (f g : Core → Core) : (d.modCore n f).modCore n g = d.modCore n (g ∘ f) := by
  have e : ∀ (t : Tbl Core) (x y : Core), tset (tset t n x) n y = tset t n y := by
    intro t x y
    induction t with
    | nil => simp [tset]
    | cons p r ih =>
      obtain ⟨j, w⟩ := p
      by_cases h1 : n < j
      · simp [tset, h1]
      · by_cases h2 : n = j
        · simp [tset, h2]
        · simp [tset, h1, h2, ih]
  unfold Dev.modCore Dev.setCore Dev.core
  simp only [tget_tset_same, e, Function.comp]

end Sys2Proof.Machine
end

