-- ==== Sys2Proof/WellFormed.lean ====
section
/-! DEFINITION. What a well-formed command is: every unit, core, slot or set it names exists, and a list that a timer
delivers has one entry for each rail, sensor or requester. -/

namespace Sys2Proof

/-- Cores 0 to 4,095 (08). -/
def coreOk (n : Nat) : Bool := n < 4096
/-- Clusters 0 to 255 (10). -/
def clusterOk (n : Nat) : Bool := n < 256
/-- Bronze channels 0 to 7 (05). -/
def channelOk (n : Nat) : Bool := n < 8
/-- Controllers and update units 0 to 7 (13, 14). -/
def unitOk (n : Nat) : Bool := n < 8
/-- Exchange slots 0 to 4,095 (07 R206). -/
def slotOk (n : Nat) : Bool := n < 4096
/-- Rails 0 to 7 (22 R624). -/
def railOk (n : Nat) : Bool := n < 8
/-- Slabs 0 to 95 (13). -/
def slabOk (n : Nat) : Bool := n < 96
/-- Banks 0 to 31 (10 R304). -/
def bankOk (n : Nat) : Bool := n < 32
/-- Stream contexts 0 to 8,191 (17 R521). -/
def ctxOk (n : Nat) : Bool := n < 8192
/-- Parameter sets 0 to 15 (02 R38). -/
def psetOk (n : Nat) : Bool := n < 16
/-- Fault sources 0x01 to 0x19 (21 R605). -/
def sourceOk (n : Nat) : Bool := 1 ≤ n && n ≤ 0x19
/-- Sessions 0 to 511 (07 R206). -/
def sessionOk (n : Nat) : Bool := n < 512
/-- Replica areas 0 to 3 (16 R504). -/
def areaOk (n : Nat) : Bool := n < 4
/-- Records of a stream list, 0 to 1,023 (11 R377). -/
def indexOk (n : Nat) : Bool := n < 1024
/-- Routines 0x200 to 0x3FF (09 R301). -/
def extensionOk (r : BitVec 10) : Bool := 0x200 ≤ r.toNat
/-- A block that can be reset (21 R605). -/
def blockOk (b : Block) : Bool :=
  match b with
  | .cluster c => c < 256
  | .channel k => k < 8
  | .electrum e => e < 16
  | .update m => m < 8

def Instr.wellFormed (i : Instr) : Bool :=
  match i with
  | .powerOn => true
  | .resetNAssert => true
  | .resetRelease _ _ => true
  | .helloRepeat => true
  | .bootOffer _ _ _ => true
  | .bootReadResend => true
  | .bootData _ _ _ _ => true
  | .attemptRetry => true
  | .slabInitDone slab => slabOk slab
  | .railOutOfTolerance rail => railOk rail
  | .refclkLoss => true
  | .pmbusPoll readings => readings.length == 8
  | .pmbAlert readings => readings.length == 8
  | .sensorSample temps => temps.length == 80
  | .powerEstimate energies => energies.length == 273
  | .ppsEdge _ => true
  | .ptpMessage _ _ => true
  | .scrub controller _ _ => unitOk controller
  | .linkUp => true
  | .linkDown => true
  | .arpRequest _ _ => true
  | .neighbourSolicitation _ _ => true
  | .pfcPause _ _ => true
  | .cwpFrame _ => true
  | .ack _ _ _ => true
  | .resendTimer _ _ => true
  | .transportFail _ _ => true
  | .reassemblyTimeout _ _ _ => true
  | .request _ _ _ => true
  | .memWrite ctx _ _ => ctxOk ctx
  | .memRead ctx _ _ _ => ctxOk ctx
  | .dictRead ctx _ _ => ctxOk ctx
  | .dictWrite ctx _ _ _ => ctxOk ctx
  | .createTensor ctx _ => ctxOk ctx
  | .createCopy ctx _ => ctxOk ctx
  | .psetCommit ctx pset => ctxOk ctx && psetOk pset
  | .psetWithdraw ctx pset => ctxOk ctx && psetOk pset
  | .derivationDone pset => psetOk pset
  | .spOwnSet ctx cluster _ => ctxOk ctx && clusterOk cluster
  | .libExtLoad ctx _ => ctxOk ctx
  | .libExtRemove ctx => ctxOk ctx
  | .extCopyDone => true
  | .shareCloseTag ctx _ => ctxOk ctx
  | .counterSet ctx _ => ctxOk ctx
  | .lossCmd ctx _ => ctxOk ctx
  | .errClear ctx _ => ctxOk ctx
  | .force ctx source _ => ctxOk ctx && sourceOk source
  | .ownerEnrol ctx _ => ctxOk ctx
  | .ownerProgramDone => true
  | .secverRaise ctx _ => ctxOk ctx
  | .secverProgramDone => true
  | .attestRequest ctx _ => ctxOk ctx
  | .attestReport => true
  | .tickRunStart ctx => ctxOk ctx
  | .tickRunStop ctx => ctxOk ctx
  | .portMode ctx _ => ctxOk ctx
  | .reqAdmit ctx _ _ => ctxOk ctx
  | .nickelSubmitShort ctx _ => ctxOk ctx
  | .nickelSubmitLong ctx _ => ctxOk ctx
  | .edgeEmit => true
  | .readinessDeadline => true
  | .tickSymbol _ => true
  | .tickLost => true
  | .enterEdge => true
  | .skipEdge => true
  | .holdEdge => true
  | .bankWake cluster bank => clusterOk cluster && bankOk bank
  | .frameBarrier => true
  | .deviceReady => true
  | .frameComplete => true
  | .portTx _ => true
  | .checkpoint => true
  | .checkpointStart _ => true
  | .collective => true
  | .replayInput => true
  | .ready _ _ _ => true
  | .peerWrite _ _ _ _ _ _ => true
  | .peerDone _ _ _ _ => true
  | .coll _ _ _ _ _ => true
  | .ckptData _ _ area _ _ _ => areaOk area
  | .ckptEnd _ _ _ area _ _ => areaOk area
  | .shHello _ _ => true
  | .shReport session => sessionOk session
  | .shBind _ => true
  | .bindTimeout session => sessionOk session
  | .shAck _ => true
  | .shReply _ => true
  | .shIn _ => true
  | .shAbort _ => true
  | .shClose _ => true
  | .roundTimeout slot => slotOk slot
  | .exchangeDeadline slot => slotOk slot
  | .slotRelease slot => slotOk slot
  | .sealedJob => true
  | .faultClassify => true
  | .blockResetEnd block => blockOk block
  | .chipReset => true
  | .chipResetEnd => true
  | .coreDeadlock core => coreOk core
  | .coreExit core => coreOk core
  | .handoverComplete cluster writer => clusterOk cluster && coreOk writer
  | .agTransferDone core _ => coreOk core
  | .aluAdd core _ _ _ => coreOk core
  | .aluSub core _ _ _ => coreOk core
  | .aluAnd core _ _ _ => coreOk core
  | .aluOr core _ _ _ => coreOk core
  | .aluXor core _ _ _ => coreOk core
  | .aluSll core _ _ _ => coreOk core
  | .aluSrl core _ _ _ => coreOk core
  | .aluSra core _ _ _ => coreOk core
  | .aluSlt core _ _ _ => coreOk core
  | .aluSltu core _ _ _ => coreOk core
  | .aluMul core _ _ _ => coreOk core
  | .aluMulhu core _ _ _ => coreOk core
  | .aluDivu core _ _ _ => coreOk core
  | .aluRemu core _ _ _ => coreOk core
  | .addi core _ _ _ => coreOk core
  | .andi core _ _ _ => coreOk core
  | .ori core _ _ _ => coreOk core
  | .xori core _ _ _ => coreOk core
  | .shiLeft core _ _ _ => coreOk core
  | .shiLogicalRight core _ _ _ => coreOk core
  | .shiArithmeticRight core _ _ _ => coreOk core
  | .lui core _ _ => coreOk core
  | .slti core _ _ _ => coreOk core
  | .ldb core _ _ _ => coreOk core
  | .ldh core _ _ _ => coreOk core
  | .ldw core _ _ _ => coreOk core
  | .ldd core _ _ _ => coreOk core
  | .stb core _ _ _ => coreOk core
  | .sth core _ _ _ => coreOk core
  | .stw core _ _ _ => coreOk core
  | .std core _ _ _ => coreOk core
  | .beq core _ _ _ => coreOk core
  | .bne core _ _ _ => coreOk core
  | .blt core _ _ _ => coreOk core
  | .bge core _ _ _ => coreOk core
  | .bltu core _ _ _ => coreOk core
  | .bgeu core _ _ _ => coreOk core
  | .j core _ => coreOk core
  | .jal core _ => coreOk core
  | .jr core _ _ => coreOk core
  | .crr core _ _ => coreOk core
  | .crw core _ _ => coreOk core
  | .crwPset core _ => coreOk core
  | .ownReq core _ => coreOk core
  | .tinSignal core _ => coreOk core
  | .tinWait core _ => coreOk core
  | .tinEnd core => coreOk core
  | .accNop core => coreOk core
  | .ld core _ _ _ => coreOk core
  | .st core _ _ => coreOk core
  | .accAgset core _ _ _ _ => coreOk core
  | .fence core => coreOk core
  | .yield core => coreOk core
  | .accLoop core _ _ _ _ => coreOk core
  | .accSignal core _ => coreOk core
  | .accWait core _ => coreOk core
  | .accEnd core => coreOk core
  | .exeNop core => coreOk core
  | .madd core _ => coreOk core
  | .msub core _ => coreOk core
  | .mneg core _ => coreOk core
  | .mmul core _ => coreOk core
  | .mmac core _ => coreOk core
  | .mtom core _ => coreOk core
  | .mfrom core _ => coreOk core
  | .bct core _ => coreOk core
  | .bgs core _ => coreOk core
  | .permRotate core _ _ => coreOk core
  | .permReverse core _ _ => coreOk core
  | .permBitReverse core _ _ => coreOk core
  | .permXor core _ _ => coreOk core
  | .permBroadcast core _ _ => coreOk core
  | .permInterleaveLow core _ _ => coreOk core
  | .permInterleaveHigh core _ _ => coreOk core
  | .permDeinterleaveEven core _ _ => coreOk core
  | .permDeinterleaveOdd core _ _ => coreOk core
  | .mov core _ => coreOk core
  | .vzero core _ => coreOk core
  | .cmac core _ _ => coreOk core
  | .cmacBs core _ _ => coreOk core
  | .cvt core _ _ _ => coreOk core
  | .pacc core _ _ => coreOk core
  | .exeAgset core _ _ _ _ => coreOk core
  | .exeLoop core _ _ _ _ => coreOk core
  | .exeSignal core _ => coreOk core
  | .exeWait core _ => coreOk core
  | .exeEnd core => coreOk core
  | .ntt core _ _ => coreOk core
  | .intt core _ _ => coreOk core
  | .add core _ => coreOk core
  | .sub core _ => coreOk core
  | .neg core _ => coreOk core
  | .addPlain core _ => coreOk core
  | .mulPlain core _ => coreOk core
  | .mul core _ => coreOk core
  | .axpy core _ => coreOk core
  | .drop core _ => coreOk core
  | .rescale core _ _ => coreOk core
  | .bconv core _ _ => coreOk core
  | .relin core _ _ => coreOk core
  | .rotate core _ _ => coreOk core
  | .conj core _ _ => coreOk core
  | .kswitch core _ _ => coreOk core
  | .evalPoly core _ _ => coreOk core
  | .bootStepFull core _ _ => coreOk core
  | .bootStepHalfE core _ _ => coreOk core
  | .bootStepS2cOnly core _ _ => coreOk core
  | .elecBr core _ => coreOk core
  | .elecPack core _ _ => coreOk core
  | .ringSwitch core _ _ => coreOk core
  | .shareOut core _ => coreOk core
  | .shareIn core _ => coreOk core
  | .extensionRoutine core routine _ => coreOk core && extensionOk routine
  | .callReturn cluster => clusterOk cluster
  | .streamOpen channel _ => channelOk channel
  | .streamAttach channel => channelOk channel
  | .dataPhaseStart channel _ => channelOk channel
  | .keyStreamClose channel => channelOk channel
  | .streamCreate cluster index => clusterOk cluster && indexOk index
  | .move cluster index _ => clusterOk cluster && indexOk index
  | .copy cluster index _ => clusterOk cluster && indexOk index
  | .window cluster index _ => clusterOk cluster && indexOk index
  | .ctMove cluster index _ => clusterOk cluster && indexOk index
  | .streamDone cluster index => clusterOk cluster && indexOk index
  | .map cluster => clusterOk cluster
  | .encode cluster => clusterOk cluster
  | .decode cluster => clusterOk cluster
  | .veJobDone cluster => clusterOk cluster
  | .sgdm unit _ => unitOk unit
  | .adamw unit _ => unitOk unit
  | .pstat unit _ => unitOk unit
  | .proot unit _ => unitOk unit
  | .prootCholesky unit _ => unitOk unit
  | .psgdm unit _ => unitOk unit
  | .emb unit _ => unitOk unit
  | .encAxpy unit _ => unitOk unit
  | .updateCmdDone unit => unitOk unit
  | .fill => true
  | .load => true
  | .store => true
  | .clear => true
  | .nickelMadd => true
  | .nickelMsub => true
  | .nickelMmul => true
  | .minv => true
  | .mexp => true
  | .edPubkey => true
  | .edSign => true
  | .edVerify => true
  | .edSmul => true
  | .edSmulBase => true
  | .edAdd => true
  | .sha512 => true
  | .nickelJobDone => true
  | .bypass => true
  | .idcode => true
  | .samplePreload _ => true
  | .extest => true
  | .jtagPrivate => true
  | .powerDown => true
  | .counterSourceLost => true
  | .fillDone => true
  | .trapHandlerExit => true
  | .managementWatchdogExpiry => true
  | .sterlingInternalError => true
  | .undefinedOpcode core _ => coreOk core

end Sys2Proof
end

