-- ==== Sys2Proof/Tests/Slice0.lean ====
section
/-! SUPPORT. The author's own tests: an ill-formed term for each check of WellFormed, a state that meets the hypotheses of
each statement (`witness_…`, clause by clause), and single steps against values of the spec (`test_…`). -/

namespace Sys2Proof.Tests

open Sys2Proof Sys2Proof.Machine Sys2Proof.Terms

set_option maxRecDepth 20000
set_option Elab.async false

/-! ### A small device -/

/-- Values of a small parameter set: two chain moduli and one special one. -/
def vals : PSetVals :=
  { scheme := 0, logNMax := 17, chain := 2, special := 1, dnum := 1, plainMod := 0,
    moduli := [68718428161, 68712923137, 68711350273] }

def aQueue (bytes : List Byte) (ts : List Transfer) : DQueue :=
  { bytes := bytes, producer := none, consumer := none, transfers := ts }

/-- A generator over `n` steps of `w` bytes from an address. -/
def aGen (base w n : Nat) : AddrGen :=
  { base := base, width := w, counts := [n, 1, 1, 1, 1, 1], strides := [(w : Int), 0, 0, 0, 0, 0], mode := 0, accMod := 0,
    stepsDone := 0 }

/-- Core 0 in its frame: all three programs at offset 8, event 1 full, event 2 at one. -/
def aCore : Core :=
  { Core.fresh with
    frame := .inFrame, tin := .start 8, acc := .start 8, exe := .start 8, activeSet := some 0, logN := 12,
    events := [(1, 15), (2, 1)],
    g := [(1, 5), (2, 0xFFF8), (3, 0x10000), (4, 17), (5, 12), (6, 11), (7, 0x1000000001), (8, 0x1F00000001),
      (9, 0x1100000001), (10, 0xFFFFFFFFFFFFFFFF), (11, 16)] }

/-- A device in service whose core 0 is `c`; the cores of cluster 0 own its bank 0 together, core 0 owns bank 1. -/
def withCore (c : Core) : State :=
  { State.reset with dev := { Dev.fresh with
    phase := .service, cores := [(0, c)], psets := [(0, { live := some vals, waiting := none })],
    clusters := [(0, { Cluster.fresh with owners := [(0, 0x10), (1, 0)] })] } }

def st0 : State := withCore aCore

/-- The device after a command. -/
def next (i : Instr) (s : State) : Dev :=
  match exec i s with
  | .next t => t.dev
  | _ => s.dev

/-! ### Every check of WellFormed refuses something -/

theorem test_wf_core : (Instr.beq 4096 0 0 0).wellFormed = false ∧ (Instr.beq 4095 0 0 0).wellFormed = true := by decide
theorem test_wf_cluster : (Instr.callReturn 256).wellFormed = false ∧ (Instr.callReturn 255).wellFormed = true := by decide
theorem test_wf_channel : (Instr.streamAttach 8).wellFormed = false ∧ (Instr.streamAttach 7).wellFormed = true := by decide
theorem test_wf_unit : (Instr.scrub 8 0 none).wellFormed = false ∧ (Instr.updateCmdDone 7).wellFormed = true := by decide
theorem test_wf_slot : (Instr.slotRelease 4096).wellFormed = false ∧ (Instr.slotRelease 4095).wellFormed = true := by decide
theorem test_wf_rail : (Instr.railOutOfTolerance 8).wellFormed = false ∧ (Instr.railOutOfTolerance 7).wellFormed = true := by
  decide
theorem test_wf_slab : (Instr.slabInitDone 96).wellFormed = false ∧ (Instr.slabInitDone 95).wellFormed = true := by decide
theorem test_wf_bank : (Instr.bankWake 0 32).wellFormed = false ∧ (Instr.bankWake 255 31).wellFormed = true := by decide
theorem test_wf_ctx : (Instr.memWrite 8192 0 []).wellFormed = false ∧ (Instr.memWrite 8191 0 []).wellFormed = true := by
  decide
theorem test_wf_pset : (Instr.psetCommit 0 16).wellFormed = false ∧ (Instr.psetCommit 0 15).wellFormed = true := by decide
theorem test_wf_source : (Instr.force 0 0 0).wellFormed = false ∧ (Instr.force 0 0x1A 0).wellFormed = false ∧
    (Instr.force 0 0x19 0).wellFormed = true := by decide
theorem test_wf_session : (Instr.shReport 512).wellFormed = false ∧ (Instr.shReport 511).wellFormed = true := by decide
theorem test_wf_area : (Instr.ckptData 0 (.mac 0) 4 0 0 []).wellFormed = false ∧
    (Instr.ckptData 0 (.mac 0) 3 0 0 []).wellFormed = true := by decide
theorem test_wf_index : (Instr.streamDone 0 1024).wellFormed = false ∧ (Instr.streamDone 0 1023).wellFormed = true := by
  decide
theorem test_wf_extension : (Instr.extensionRoutine 0 0x1FF ⟨0, .clean⟩).wellFormed = false ∧
    (Instr.extensionRoutine 0 0x200 ⟨0, .clean⟩).wellFormed = true := by decide
theorem test_wf_block : (Instr.blockResetEnd (.cluster 256)).wellFormed = false ∧
    (Instr.blockResetEnd (.channel 8)).wellFormed = false ∧ (Instr.blockResetEnd (.electrum 16)).wellFormed = false ∧
    (Instr.blockResetEnd (.update 8)).wellFormed = false ∧ (Instr.blockResetEnd (.update 7)).wellFormed = true := by decide
theorem test_wf_rails : (Instr.pmbusPoll []).wellFormed = false := by decide
theorem test_wf_sensors : (Instr.sensorSample []).wellFormed = false := by decide
theorem test_wf_requesters : (Instr.powerEstimate []).wellFormed = false := by decide

/-- The table gives no row any bits. -/
theorem test_no_word_decodes : decodeTableWord 32 0xFC000000 = none := rfl

/-! ### Statements about Tin: states that meet their hypotheses -/

theorem witness_FusesStayProgrammed : ∃ t, Fuses.kept State.reset.fuses st0.fuses ∧ step st0 = .next t :=
  ⟨_, ⟨fun _ h => h, fun _ h => h⟩, rfl⟩

theorem witness_TinArithmeticResult : ∃ f, resultRow (.aluAdd 0 3 1 2) = some (0, 3, f) ∧
    st0.dev.mayIssue 0 .tin = true ∧ pcIn 4 ((st0.dev.core 0).tin.pc + 4) :=
  ⟨_, rfl, by decide +kernel, by unfold pcIn; decide +kernel⟩

theorem witness_TinArithmeticResult_g0 : ∃ f, resultRow (.addi 0 0 1 5) = some (0, 0, f) ∧
    st0.dev.mayIssue 0 .tin = true ∧ pcIn 4 ((st0.dev.core 0).tin.pc + 4) :=
  ⟨_, rfl, by decide +kernel, by unfold pcIn; decide +kernel⟩

/-- The last aligned doubleword of data memory. -/
theorem witness_TinMemoryAccess_load : st0.dev.mayIssue 0 .tin = true ∧ loadRow (.ldd 0 3 2 0) = some (0, 3, 2, 0, 8) ∧
    pcIn 4 ((st0.dev.core 0).tin.pc + 4) ∧ tinOffset (st0.dev.core 0) 2 0 = 0xFFF8 := by
  unfold pcIn; decide +kernel

theorem witness_TinMemoryAccess_store : st0.dev.mayIssue 0 .tin = true ∧ storeRow (.stb 0 3 0 0) = some (0, 3, 0, 0, 1) ∧
    pcIn 4 ((st0.dev.core 0).tin.pc + 4) ∧ tinOffset (st0.dev.core 0) 0 0 = 0 := by
  unfold pcIn; decide +kernel

/-- One byte above data memory, and an odd halfword. -/
theorem witness_TinMemoryAccess_fault : st0.dev.mayIssue 0 .tin = true ∧ loadRow (.ldb 0 1 3 0) = some (0, 1, 3, 0, 1) ∧
    tinOffset (st0.dev.core 0) 3 0 = 0x10000 ∧ storeRow (.sth 0 1 1 0) = some (0, 1, 1, 0, 2) ∧
    tinOffset (st0.dev.core 0) 1 0 % 2 = 1 := by
  decide +kernel

/-- A branch taken back to 0, and one not taken. -/
theorem witness_TinControlTransfer : st0.dev.mayIssue 0 .tin = true ∧ pcIn 4 0 ∧ pcIn 4 12 ∧
    (∃ p, branchRow (.bne 0 1 2 0xFFFE) = some (0, 1, 2, 0xFFFE, p) ∧
      p ((st0.dev.core 0).getG 1) ((st0.dev.core 0).getG 2) ∧
      ((0 : Nat) : Int) = (st0.dev.core 0).tin.pc + 4 * (0xFFFE : BitVec 16).toInt) ∧
    ∃ p, branchRow (.beq 0 1 2 0xFFFE) = some (0, 1, 2, 0xFFFE, p) ∧
      ¬p ((st0.dev.core 0).getG 1) ((st0.dev.core 0).getG 2) ∧ 12 = (st0.dev.core 0).tin.pc + 4 := by
  refine ⟨by decide +kernel, by unfold pcIn; decide, by unfold pcIn; decide, ⟨_, rfl, ?_, by decide +kernel⟩,
    ⟨_, rfl, ?_, by decide +kernel⟩⟩
  · show (st0.dev.core 0).getG 1 ≠ (st0.dev.core 0).getG 2
    decide +kernel
  · show ¬(st0.dev.core 0).getG 1 = (st0.dev.core 0).getG 2
    decide +kernel

theorem witness_TinControlTransfer_jumps : pcIn 4 0 ∧ ((0 : Nat) : Int) = (st0.dev.core 0).tin.pc + 4 * (0x3FFFFFE : BitVec 26).toInt ∧
    20 = ((st0.dev.core 0).getG 5 + (2 : BitVec 16).signExtend 64 * 4).toNat ∧ pcIn 4 20 := by
  unfold pcIn; decide +kernel

theorem witness_IdleCycle : st0.pending = [] ∧ st0.dev.phase = .service ∧ st0.dev.tick.slew = 0 := by decide +kernel

/-! ### Control registers, events, loops -/

theorem witness_ControlRegisterRead : st0.dev.mayIssue 0 .tin = true ∧ pcIn 4 ((st0.dev.core 0).tin.pc + 4) := by
  unfold pcIn; decide +kernel

/-- LOG_N at both ends of its range and just outside it; a live set and one that is not; a read-only index. -/
theorem witness_ControlRegisterWrite : st0.dev.mayIssue 0 .tin = true ∧ pcIn 4 ((st0.dev.core 0).tin.pc + 4) ∧
    ((st0.dev.core 0).getG 5).toNat = 12 ∧ ((st0.dev.core 0).getG 4).toNat = 17 ∧ ((st0.dev.core 0).getG 6).toNat = 11 ∧
    (st0.dev.core 0).call = none ∧ ((st0.dev.core 0).getG 0).toNat = 0 ∧ (st0.dev.live 0).isSome = true ∧
    ((st0.dev.core 0).getG 11).toNat = 16 ∧ (st0.dev.live 1).isSome = false ∧ (0 : BitVec 8) ≠ 3 := by
  unfold pcIn; decide +kernel

/-- Owner codes 0x10 (defined) and 0x11 (reserved), and a handover of the core already pending. -/
def handing : State :=
  { st0 with dev := st0.dev.modCluster 0 fun x => { x with handovers := [{ writer := 0, banks := 1, owner := 0x1F }] } }

theorem witness_BankOwnershipRequest : st0.dev.mayIssue 0 .tin = true ∧ st0.dev.ownPending 0 = false ∧
    ((st0.dev.core 0).getG 7).toNat / 2 ^ 32 % 32 = 0x10 ∧ ((st0.dev.core 0).getG 8).toNat / 2 ^ 32 % 32 = 0x1F ∧
    ((st0.dev.core 0).getG 9).toNat / 2 ^ 32 % 32 = 0x11 ∧ pcIn 4 ((st0.dev.core 0).tin.pc + 4) ∧
    handing.dev.mayIssue 0 .tin = true ∧ handing.dev.ownPending 0 = true := by
  unfold pcIn; decide +kernel

theorem witness_EventsCount : st0.dev.mayIssue 0 .access = true ∧
    signalRow (.accSignal 0 2) = some (0, .access, 2) ∧ eventCount (st0.dev.core 0) 2 < 15 ∧
    goesOn (st0.dev.core 0) .access ∧ signalRow (.accSignal 0 1) = some (0, .access, 1) ∧
    eventCount (st0.dev.core 0) 1 = 15 ∧ waitRow (.accWait 0 2) = some (0, .access, 2) ∧
    0 < eventCount (st0.dev.core 0) 2 ∧ waitRow (.accWait 0 0) = some (0, .access, 0) ∧
    eventCount (st0.dev.core 0) 0 = 0 := by
  unfold goesOn pcIn; decide +kernel

/-- A loop frame around the whole half, six deep, and a stream inside one that ends at the next instruction. -/
def deep : State :=
  withCore { aCore with exe := { aCore.exe with loops := List.replicate 6 { first := 8, last := 800, left := 0, iter := 0 } } }
def tight : State :=
  withCore { aCore with exe := { aCore.exe with loops := [{ first := 8, last := 16, left := 0, iter := 0 }] } }

theorem witness_LoopOpens : st0.dev.mayIssue 0 .execute = true ∧
    loopRow (.exeLoop 0 true 1 1 0) = some (0, .execute, true, 1, 1, 0) ∧ ((st0.dev.core 0).prog .execute).loops.length < 6 ∧
    (∀ f, ((st0.dev.core 0).prog .execute).loops.head? = some f → 16 ≤ f.last) ∧
    0 < ((st0.dev.core 0).getG 1).toNat ∧ pcIn 8 (8 + 8) ∧ pcIn 8 (afterBody 16 8 []).1 := by
  refine ⟨by decide +kernel, rfl, by decide +kernel, ?_, by decide +kernel, by unfold pcIn; decide, by unfold pcIn; decide +kernel⟩
  intro f h
  exact absurd h (by simp [show ((st0.dev.core 0).prog .execute).loops = [] by decide +kernel])

theorem witness_LoopOpens_faults : deep.dev.mayIssue 0 .execute = true ∧
    ((deep.dev.core 0).prog .execute).loops.length = 6 ∧ tight.dev.mayIssue 0 .execute = true ∧
    (((tight.dev.core 0).prog .execute).loops.head?.map (·.last)) = some 16 ∧
    ((tight.dev.core 0).prog .execute).pc + 8 * (2 : BitVec 11).toNat = 24 := by decide +kernel

theorem witness_LoopBodyRunsItsCount :
    let x : ProgState := { pc := 16, run := .running, waits := [], loops :=
      [{ first := 16, last := 24, left := 2, iter := 0 }, { first := 8, last := 32, left := 0, iter := 0 }] }
    x.loops = { first := 16, last := 24, left := 2, iter := 0 } :: [{ first := 8, last := 32, left := 0, iter := 0 }] ∧
      x.pc = 16 ∧ 24 = 16 + 8 * 1 ∧ (x.loops.drop 1).head?.map (·.last) = some 32 := by decide

/-- Core 0 with a load under way on queue 0. -/
def loading : State :=
  withCore { aCore with queues := [(0, aQueue [] [{ load := true, gen := aGen clusterBase 8 4, next := 0, pc := 0, q := 1 }])] }

/-- Core 0 with an accumulating write that has not reached its bank. -/
def adding : State :=
  withCore { aCore with paccs := [{ gen := 6, mode := 2, q := 1, addr := clusterBase, data := zeroBytes 256, pc := 0 }] }

theorem witness_PlainControl_paccs : adding.dev.mayIssue 0 .execute = true ∧ (adding.dev.core 0).paccs ≠ [] := by
  decide +kernel

theorem witness_PlainControl : st0.dev.mayIssue 0 .access = true ∧ goesOn (st0.dev.core 0) .access ∧
    (st0.dev.core 0).transfers = [] ∧ (st0.dev.core 0).call = none ∧ st0.dev.mayIssue 0 .execute = true ∧
    (st0.dev.core 0).paccs = [] ∧ goesOn (st0.dev.core 0) .execute ∧ st0.dev.mayIssue 0 .tin = true ∧ loading.dev.mayIssue 0 .access = true ∧
    (loading.dev.core 0).transfers ≠ [] := by
  unfold goesOn pcIn; decide +kernel

/-! ### Generators and transfers -/

/-- A descriptor at 0x40 of core 0: 8-byte steps, 3 × 1 × 1 × 1 × 1 × 1, from the start of cluster 0's scratchpad. -/
def described : State :=
  { st0 with dev := st0.dev.wr (coreAddr 0 0x40) (mkRecord 64 [(0, 48, clusterBase), (56, 8, 7), (64, 24, 3), (88, 40, 8),
    (128, 24, 1), (192, 24, 1), (256, 24, 1), (320, 24, 1), (384, 24, 1)]) }

def readGen : AddrGen := AddrGen.parse (described.dev.mem.read (coreAddr 0 0x40) 64)
def readGenOvr : AddrGen := { readGen with counts := readGen.counts.take 5 ++ [5] }

theorem witness_Generators : agsetRow (.accAgset 0 5 true 1 0x40) = some (0, .access, 0, 5, 5, true, 1, 0x40) ∧
    described.dev.mayIssue 0 .access = true ∧ goesOn (described.dev.core 0) .access ∧
    ((described.dev.core 0).getG 1).toNat < 2 ^ 24 ∧
    readGenOvr.modeFits = true ∧
    readGenOvr.placed 0 = true ∧
    readGen.modeFits = true ∧ readGen.placed 0 = true ∧
    agsetRow (.exeAgset 0 7 false 0 0x40) = some (0, .execute, 6, 7, 7, false, 0, 0x40) ∧
    described.dev.mayIssue 0 .execute = true ∧ goesOn (described.dev.core 0) .execute := by
  refine ⟨rfl, ?_, ?_, ?_, ?_, ?_, ?_, ?_, rfl, ?_, ?_⟩
  all_goals first | decide +kernel | (unfold goesOn pcIn; decide +kernel)

theorem witness_Generators_steps :
    readGen.counts = List.ofFn ![3, 1, 1, 1, 1, 1] ∧ readGen.strides = List.ofFn ![8, 0, 0, 0, 0, 0] ∧
      (∀ k : Fin 6, ![2, 0, 0, 0, 0, 0] k < ![3, 1, 1, 1, 1, 1] k) := by decide +kernel

def ready : State :=
  withCore { aCore with gens := [(0, aGen clusterBase 8 4)], queues := [(0, aQueue (leBytes 8 0x0102030405060708) [])] }

theorem witness_TransferStarts : ready.dev.mayIssue 0 .access = true ∧ goesOn (ready.dev.core 0) .access ∧
    tfind (ready.dev.core 0).gens (0 : BitVec 3).toNat = some (aGen clusterBase 8 4) ∧ (aGen clusterBase 8 4).mode = 0 ∧
    ready.dev.accModulus (ready.dev.core 0) (aGen clusterBase 8 4) ≠ none ∧
    tfind (ready.dev.core 0).gens (7 : BitVec 3).toNat = none := by
  unfold goesOn pcIn; decide +kernel

/-- A generator of an accumulate mode whose modulus the active set does not have. -/
def summing : AddrGen := { aGen clusterBase 8 4 with mode := 1, accMod := 9 }
def readySum : State := withCore { aCore with gens := [(5, summing)] }

theorem witness_TransferStarts_faults : readySum.dev.mayIssue 0 .access = true ∧
    tfind (readySum.dev.core 0).gens (5 : BitVec 3).toNat = some summing ∧ summing.mode ≠ 0 ∧
    readySum.dev.accModulus (readySum.dev.core 0) summing = none := by decide +kernel

def moving (load : Bool) : Transfer := { load := load, gen := aGen clusterBase 8 4, next := 3, pc := 0, q := 1 }

/-- Core 0 with one transfer on queue 0, which `owner` uses on both sides. -/
def movingDev (load : Bool) (owner : Option Program) : Dev :=
  (withCore { aCore with queues := [(0, { aQueue (leBytes 8 0x0102030405060708) [moving load] with
    producer := owner, consumer := owner })] }).dev

theorem witness_TransferStepMoves (load : Bool) (first : Bool) :
    let d := movingDev load (if first then none else some .access)
    ((d.core 0).queue 0).transfers = [moving load] ∧ (moving load).next < (moving load).gen.steps ∧
      ((d.core 0).queue 0).bytes.length = 8 ∧ (moving load).gen.width = 8 ∧ (moving load).gen.mode = 0 ∧
      ((d.core 0).queue 0).producer.getD .access = .access ∧ ((d.core 0).queue 0).consumer.getD .access = .access ∧
      (d.core 0).unfenced = [] ∧ d.problemIn (.stream 0) .read ((moving load).gen.addr 3) 8 = none ∧
      d.problemIn (.stream 0) .write ((moving load).gen.addr 3) 8 = none := by
  revert load first; decide +kernel

theorem witness_TransferStepMoves_claimed :
    (((movingDev true (some .execute)).core 0).queue 0).producer.getD .access ≠ .access := by decide +kernel

def moved : Transfer := { moving true with next := 4 }
def movedSt : State := withCore { aCore with queues := [(2, aQueue [] [moved])] }

theorem witness_TransferStepMoves_done : (movedSt.dev.core 0).transfers = [moved] ∧
    ((movedSt.dev.core 0).queue (2 : BitVec 2).toNat).transfers = [moved] ∧ moved.gen.steps ≤ moved.next ∧
    (movedSt.dev.core 0).call = none ∧ (movedSt.dev.core 0).paccs = [] ∧ (movedSt.dev.core 0).exe.waits ≠ [.paccWrites] := by
  decide +kernel

/-! ### Lane instructions -/

/-- All operands vector registers, both slices, the last modulus of the set. -/
def regF : RFields := { modIdx := 2, dst := 15, sa := 8, sb := 9, sc := 10, slice := 3, mb := true, w := true }

theorem witness_ResidueLanes : ∃ g, residueRow (.mmac 0 regF) = some (0, regF, [8, 9, 10], g) ∧
    st0.dev.mayIssue 0 .execute = true ∧ goesOn (st0.dev.core 0) .execute ∧ still (st0.dev.core 0) ∧
    regF.slice ≠ 0 ∧ (∀ k ∈ ([8, 9, 10] : List (BitVec 4)), 8 ≤ k.toNat) ∧ 8 ≤ regF.dst.toNat ∧
    st0.dev.activeVals (st0.dev.core 0) = some vals ∧ regF.modIdx.toNat < vals.count ∧ 0 < vals.q regF.modIdx.toNat :=
  ⟨_, rfl, by unfold goesOn pcIn still; decide +kernel⟩

theorem witness_PermutedLanes : ∃ pick, permRow (.permXor 0 regF 5) = some (0, regF, [8], pick) :=
  ⟨_, rfl⟩

def flyF (hc : BitVec 3) : BFields :=
  { modIdx := 2, dst := 15, sa := 8, sb := 9, dst2 := 14, slice := 2, hc := hc, e0 := 1, dcode := 18, lv := 1, ls := 17 }

/-- The execute stream inside one loop. -/
def looped : State :=
  withCore { aCore with exe := { aCore.exe with loops := [{ first := 8, last := 80, left := 3, iter := 5 }] } }

theorem witness_ButterflyLanes (hc : BitVec 3) : flyRow (.bct 0 (flyF hc)) = some (0, flyF hc, true) ∧
    looped.dev.mayIssue 0 .execute = true ∧ goesOn (looped.dev.core 0) .execute ∧ still (looped.dev.core 0) ∧
    (flyF hc).slice ≠ 0 ∧ 8 ≤ (flyF hc).sa.toNat ∧ 8 ≤ (flyF hc).dst.toNat ∧ (flyF hc).dcode.toNat ≤ 18 ∧
    (flyF hc).ls.toNat ≤ 17 ∧ (flyF hc).lv.toNat ≤ (looped.dev.core 0).exe.loops.length ∧
    looped.dev.activeVals (looped.dev.core 0) = some vals ∧ (flyF hc).modIdx.toNat < vals.count ∧
    1 < vals.q (flyF hc).modIdx.toNat ∧ (flyF 5).hc.toNat ≤ 5 ∧ (flyF 6).hc = 6 ∧ 8 ≤ (flyF hc).sb.toNat ∧
    8 ≤ (flyF hc).dst2.toNat := by
  revert hc; unfold goesOn pcIn still; decide +kernel

theorem witness_IntegerLanes : st0.dev.mayIssue 0 .execute = true ∧ goesOn (st0.dev.core 0) .execute ∧
    still (st0.dev.core 0) ∧ regF.slice ≠ 0 ∧ 8 ≤ regF.sa.toNat ∧ 8 ≤ regF.dst.toNat ∧ 8 ≤ regF.sb.toNat := by
  unfold goesOn pcIn still; decide +kernel

/-- SA popped from queue 0, SB peeked, DST pushed to queue 1: two vectors present in queue 0, slice 1 only. -/
def queueF : RFields := { modIdx := 0, dst := 1, sa := 0, sb := 4, sc := 8, slice := 2, mb := false, w := false }
def queued : State := withCore { aCore with queues := [(0, aQueue (zeroBytes 576) [])] }
def queueOp : LaneOp := residueOp queueF [0, 4] (fun _ => 1) fun q _ x y _ => resAdd q x y
def claimed : Core :=
  ((((queued.dev.core 0).claimAll false .execute
      ((queueOp.sources.filter fun x => x.code.toNat < 8).map fun x => x.code.toNat % 4)).bind
        (fun e => e.claimAll true .execute ((queueOp.dests.filter fun x => x.toNat < 4).map (·.toNat))))).getD .fresh

theorem witness_LaneIssue : laneRow (.madd 0 queueF) (queued.dev.core 0) = some (0, queueOp) ∧
    queued.dev.mayIssue 0 .execute = true ∧ goesOn (queued.dev.core 0) .execute ∧ queueOp.slice ≠ 0 ∧
    queueOp.undefined = false ∧ queueOp.wrongKind = false ∧ (∀ x ∈ queueOp.dests, ¬(4 ≤ x.toNat ∧ x.toNat < 8)) ∧
    ((queued.dev.core 0).claimAll false .execute
      ((queueOp.sources.filter fun x => x.code.toNat < 8).map fun x => x.code.toNat % 4)).bind
        (fun e => e.claimAll true .execute ((queueOp.dests.filter fun x => x.toNat < 4).map (·.toNat))) = some claimed ∧
    (∀ x ∈ (laneTaken claimed queueOp queued.dev.draw).1.need, x.2 ≤ (claimed.queue x.1).bytes.length) ∧
    (∀ x ∈ queueOp.dests, x.toNat < 4 →
      ((claimed.popAll (laneTaken claimed queueOp queued.dev.draw).1).queue x.toNat).bytes.length +
      (queueOp.dests.filter fun y => y.toNat = x.toNat).length * (slicesOf queueOp.slice).length *
        vecBytes queueOp.clearOut ≤ 4096) ∧
    queued.dev.laneVals claimed queueOp.modIdx = some vals := by
  refine ⟨rfl, ?_⟩
  unfold goesOn pcIn
  decide +kernel

def storing : State := withCore { aCore with gens := [(6, aGen clusterBase 256 4), (7, { aGen clusterBase 288 1 with stepsDone := 0 })] }

theorem witness_PlainVectorStore : storing.dev.mayIssue 0 .execute = true ∧ goesOn (storing.dev.core 0) .execute ∧
    still (storing.dev.core 0) ∧ tfind (storing.dev.core 0).gens 6 = some (aGen clusterBase 256 4) ∧
    (aGen clusterBase 256 4).width = 256 ∧ (aGen clusterBase 256 4).stepsDone < (aGen clusterBase 256 4).steps ∧
    storing.dev.problemIn (.stream 0) .write ((aGen clusterBase 256 4).addr 0) 256 = none := by
  unfold goesOn pcIn still; decide +kernel

/-! ### Library calls -/

/-- Core 0 with its access stream retired, alone in its cluster; and one with bytes in queue 3. -/
def atEnd : State := withCore { aCore with acc := { aCore.acc with run := .retired } }
def bytesLeft : State :=
  withCore { aCore with acc := { aCore.acc with run := .retired }, queues := [(3, aQueue [0] [])] }

theorem witness_CallIssues : callRow (.add 0 0xFFC0) = some (0, 0x010, 0xFFC0, .clean) ∧
    st0.dev.mayIssue 0 .execute = true ∧ planNamed st0.dev (.add 0 0xFFC0) 0 0xFFC0 ∧ argsFit 0xFFC0 ∧ argsFit 0x100 ∧
    ¬argsFit 0xC0 ∧ routineThere st0.dev 0x010 ∧ ¬callMayStart st0.dev 0 ∧ ¬routineThere st0.dev 0x200 ∧
    callRow (.extensionRoutine 0 0x200 ⟨0x100, .clean⟩) = some (0, 0x200, 0x100, .clean) := by
  refine ⟨rfl, by decide +kernel, fun p h => by simp [bootRow] at h, by unfold argsFit; decide, by unfold argsFit; decide,
    by unfold argsFit; decide, .inl (by decide +kernel), by unfold callMayStart; decide +kernel, ?_, rfl⟩
  rintro (h | ⟨x, h, -⟩)
  · exact absurd h (by decide +kernel)
  · cases h

theorem witness_CallIssues_starts : atEnd.dev.mayIssue 0 .execute = true ∧ callMayStart atEnd.dev 0 ∧
    (∀ q, q < 4 → ((atEnd.dev.core 0).queue q).bytes = []) ∧
    (∃ k, k < 16 ∧ 16 * (0 / 16) + k ≠ 0 ∧
      ∀ x, (atEnd.dev.core (16 * (0 / 16) + k)).call = some x → x.started = false) ∧
    bytesLeft.dev.mayIssue 0 .execute = true ∧ callMayStart bytesLeft.dev 0 ∧
    (∃ q, q < 4 ∧ ((bytesLeft.dev.core 0).queue q).bytes ≠ []) := by
  refine ⟨by decide +kernel, by unfold callMayStart; decide +kernel, by decide +kernel, ⟨15, by decide, by decide, ?_⟩,
    by decide +kernel, by unfold callMayStart; decide +kernel, ⟨3, by decide +kernel⟩⟩
  intro x h
  rw [show (atEnd.dev.core (16 * (0 / 16) + 15)).call = none by decide +kernel] at h
  exact absurd h (by simp)

theorem witness_CallIssues_alone : noneWaits atEnd.dev := by
  intro c g h
  rw [show (atEnd.dev.cluster c).call = none by rcases c with _ | c <;> rfl] at h
  exact absurd h (by simp)

/-- A BOOT_STEP call whose block names the plan of its row. -/
theorem witness_CallIssues_plan : planNamed st0.dev (.bootStepFull 0 0x100 .clean) 0 0x100 := by
  intro p h
  simp only [bootRow, Option.some.injEq] at h
  subst h
  exact .inr (.inl (by decide +kernel))

def inCall : Core :=
  { aCore with call := some { routine := 0x010, args := 0xFFC0, started := true, link := .clean }, atYield := true }
def endedCall : GangCall :=
  { GangCall.fresh with routine := 0x010, phase := .ended 0 true, clusters := [0], gathered := true, stated := 100 }
def gang : State :=
  { State.reset with dev := { Dev.fresh with
    phase := .service, cores := (List.range 16).map fun k => (k, inCall),
    clusters := [(0, { Cluster.fresh with call := some endedCall })] } }

theorem witness_CallReturns : (gang.dev.cluster 0).call = some endedCall ∧ endedCall.phase = .ended 0 true ∧
    endedCall.clusters = [0] ∧ endedCall.joined = [] ∧ gang.dev.streamServed endedCall = true ∧
    gang.dev.faults.holds (.cluster 0) = false ∧ gang.dev.deliveryProblem (.limb [0]) endedCall.held = none ∧
    endedCall.routine ≠ 0x061 ∧ 0xFFC0 % 64 = 0 ∧
    (∀ i, i < 16 → (gang.dev.core (16 * 0 + i)).call =
        some { routine := 0x010, args := 0xFFC0, started := true, link := .clean } ∧
      (gang.dev.core (16 * 0 + i)).exe.run = .running) ∧
    (∀ i, i < 16 → (leNat ((gang.dev.finishEffect endedCall.effect 0).1.mem.read (coreAddr (16 * 0 + i) 0xFFC0) 8)).testBit 8 =
      false) := by decide +kernel

theorem witness_CallReturns_goesOn : ∀ i, i < 16 → goesOn (gang.dev.core (16 * 0 + i)) .execute ∧
    goesOn (gang.dev.core (16 * 0 + i)) .access := by
  unfold goesOn pcIn; decide +kernel

theorem witness_NttEvaluates : (17 : Nat) ≤ 17 ∧ 1 < 786433 ∧ 786433 % 2 = 1 ∧ psiOf 786433 ^ 2 ^ 17 % 786433 = 786433 - 1 ∧
    (List.replicate (2 ^ 0) 786432).length = 2 ^ 0 ∧ ∀ x ∈ List.replicate (2 ^ 0) 786432, x < 786433 := by
  refine ⟨le_refl _, by decide, by decide, ?_, rfl, by decide⟩
  rw [show psiOf 786433 = 125 by decide +kernel]
  decide +kernel

/-- Base conversion from {3, 5} to 7: 5 × 2 = 1 mod 3 and 3 × 2 = 1 mod 5. -/
theorem witness_BaseConversion : let src : List (Nat × List Nat) := [(3, [2, 1]), (5, [4, 0])]
    0 < 7 ∧ 1 < 2 ∧ (src.map (·.1)).Nodup ∧ (∀ x ∈ src, 1 < x.1 ∧ x.2.length = 2) ∧
      ∀ x ∈ src, 2 < x.1 ∧ ((src.map (·.1)).filter (· ≠ x.1)).prod * 2 % x.1 = 1 := by
  decide

theorem witness_LinearRoutineWords : wordsShaped [[[1, 2]], [[3, 4]]] 2 1 1 ∧ wordsShaped [[[5, 6]]] 1 1 1 ∧
    0 < (st0.dev.vals 0).q 0 := by
  unfold wordsShaped; decide +kernel

/-! ### How a core leaves its frame -/

theorem witness_ProgramFaultStopsCore : (st0.dev.core 0).stop = none ∧ (st0.dev.core 0).call = none ∧
    st0.dev.faults.holds (.cluster (0 % 2 ^ 16 / 16)) = false ∧ (0 : Nat) < 2 ^ 16 := by decide +kernel

/-- Core 0 has retired all its programs; core 15 of its cluster still runs. -/
def retired : State :=
  let done : ProgState := { ProgState.fresh with run := .retired }
  { st0 with dev := { st0.dev with cores := [(0, { aCore with tin := done, acc := done, exe := done }), (15, aCore)] } }

theorem witness_CoreExitWritesRecord : (retired.dev.core 0).frame = .inFrame ∧
    retired.dev.faults.holds (.cluster (0 / 16)) = false ∧ (retired.dev.core 0).paccs = [] ∧
    (∀ p, ((retired.dev.core 0).prog p).run = .retired) ∧ (retired.dev.core 0).transfers = [] ∧
    15 / 16 = 0 / 16 ∧ (retired.dev.core 15).frame = .inFrame ∧ (retired.dev.core 0).stop = none := by
  have all : ∀ p, ((retired.dev.core 0).prog p).run = .retired := fun p => by cases p <;> rfl
  simp only [all, implies_true, true_and]
  decide +kernel

def stuck : State :=
  let at_ (e : Nat) : ProgState := { ProgState.start 8 with waits := [.event e] }
  withCore { aCore with tin := at_ 0, acc := at_ 3, exe := at_ 4 }

theorem witness_DeadlockStopsCore : (stuck.dev.core 0).frame = .inFrame ∧ (stuck.dev.core 0).stop = none ∧
    (stuck.dev.core 0).call = none ∧ ((stuck.dev.core 0).prog .tin).run = .running ∧
    (∀ p, ((stuck.dev.core 0).prog p).run = .running → stuck.dev.isBlocked 0 p = true) ∧
    stuck.dev.faults.holds (.cluster (0 / 16)) = false := by
  have all : ∀ p, stuck.dev.isBlocked 0 p = true := fun p => by cases p <;> decide +kernel
  simp only [all, implies_true, true_and]
  decide +kernel

/-- A call of the cluster that holds another bank than the one handed over. -/
def handingBusy : State :=
  { handing with dev := handing.dev.modCluster 0 fun x => { x with
    call := some { GangCall.fresh with clusters := [0], held := [(0, 1)] } } }

theorem witness_HandoverChangesOwners_held :
    (handingBusy.dev.cluster 0).call = some { GangCall.fresh with clusters := [0], held := [(0, 1)] } ∧
    ∀ b ∈ [(0, 1)], b.1 = 0 → (1 : BitVec 32).getLsbD b.2 = false := by decide +kernel

theorem witness_HandoverChangesOwners : (handing.dev.cluster 0).handovers.find? (fun h => h.writer = 0) =
    some { writer := 0, banks := 1, owner := 0x1F } ∧ (handing.dev.cluster 0).call = none ∧
    (handing.dev.cluster 0).veRun = none := by decide +kernel

/-! ### Devices in which no bank waits -/

theorem tget_mem {α : Type} (t : Tbl α) (k : Nat) (v : α) : tget t k v = v ∨ (k, tget t k v) ∈ t := by
  induction t with
  | nil => exact .inl rfl
  | cons p r ih =>
    obtain ⟨j, w⟩ := p
    by_cases h : j = k
    · exact .inr (by simp [tget, h])
    · have e : tget ((j, w) :: r) k v = tget r k v := by simp [tget, h]
      rw [e]
      exact ih.imp id fun m => List.mem_cons_of_mem _ m

/-- Where no listed cluster has a handover or a bank that is not on, no bank makes anyone wait. -/
theorem quiet {d : Dev} (h : ∀ p ∈ d.clusters, p.2.handovers = [] ∧ p.2.power = []) : nothingWaits d := by
  intro c
  have hc : (d.cluster c).handovers = [] ∧ (d.cluster c).power = [] := by
    unfold Dev.cluster
    rcases tget_mem d.clusters c .fresh with e | m
    · rw [e]; exact ⟨rfl, rfl⟩
    · exact h _ m
  refine ⟨hc.1, fun b => ?_⟩
  unfold Dev.bankPower
  rw [hc.2]
  exact fun e => nomatch e

/-! ### Bronze key streams -/

def aFrame : FrameRun :=
  { number := 1, tick := 1, genTick := 7, barrier := true, barrierAt := 0, complete := false, overrun := false, esSat := false,
    poison := false, satSkip := false, coresStopped := 0, poisonWrites := 0, refusals := 0, faultsUc := 0 }

/-- The small device in a frame whose barrier has passed. -/
def framed : Dev := { st0.dev with tick := { Tick.fresh with frame := some aFrame } }
def inFrame (f : Dev → Dev) : State := { st0 with dev := f framed }

def anOpen (at_ : BitVec 32) : OpenRec := { image := 0x1000, channel := 7, level := 1, openAt := at_, subscribers := 3 }
def aStream : KeyStream :=
  { record := anOpen 0, header := some (mkRecord 256 [(120, 8, 0x12), (256, 64, 256)]), delivered := true, attached := [0, 1],
    requested := [1, 0], dataPhase := false }
def waitingCh : State := inFrame fun d => d.setChannel 7 { waiting := [anOpen 9, anOpen 3, anOpen 3], stream := none, failed := [] }
def carrying (x : KeyStream) : State := inFrame fun d => d.setChannel 7 { waiting := [], stream := some x, failed := [] }

theorem witness_KeyStreams_order : nextOpen [anOpen 9, anOpen 3] = some (anOpen 3) := by decide

theorem witness_KeyStreams_open : nextOpen (waitingCh.dev.channel 7).waiting = some (anOpen 3) ∧
    (waitingCh.dev.channel 7).stream = none ∧ waitingCh.dev.frameOpen = true ∧
    waitingCh.dev.faults.holds (.channel 7) = false ∧ inStack (anOpen 3).image.toNat 128 = true ∧
    (((waitingCh.dev.addUpsets []).fetch none 0x1000 128).2.2 = false) ∧
    (waitingCh.dev.fetch none 0x1000 128).1.headerOk (KeyHdr.parse (waitingCh.dev.fetch none 0x1000 128).2.1) 0x1000 1 =
      false := by decide +kernel

theorem witness_KeyStreams_data : ((carrying aStream).dev.channel 7).stream = some aStream ∧ aStream.delivered = true ∧
    aStream.header ≠ none ∧ aStream.dataPhase = false ∧ aStream.attached ≠ [] ∧
    (∀ c ∈ aStream.attached, c ∈ aStream.requested) ∧ aStream.hdr.kind ≠ 0x11 ∧ deliverable (carrying aStream).dev aStream ∧
    errorFree (carrying aStream).dev ∧ ((aStream.body (0, 0)).foldl (fun (p : Dev × Bool) r =>
      ((p.1.fetch none r.1 r.2).1, p.2 || (p.1.fetch none r.1 r.2).2.2)) ((carrying aStream).dev.addUpsets [], false)).2 =
        false := by
  unfold deliverable errorFree; decide +kernel

/-- A stream of ELEC_BR keys: both clusters of its unit ask for the same range. -/
def brStream : KeyStream := { aStream with header := some (mkRecord 256 [(120, 8, 0x11)]) }

def brCalls : Dev :=
  let g := { GangCall.fresh with routine := 0x050, args := [0, 0, 0, 0, 0, 0, 0, 0], clusters := [0, 1] }
  ((carrying brStream).dev.modCluster 0 fun x => { x with call := some g }).modCluster 1 fun x => { x with call := some g }

theorem witness_KeyStreams_ranges : (brCalls.channel 7).stream = some brStream ∧ brStream.hdr.kind = 0x11 ∧
    (brCalls.brRange 0).isSome = true ∧ ∀ c ∈ brStream.requested, brCalls.brRange c = brCalls.brRange 0 := by decide +kernel

def gone : KeyStream := { aStream with attached := [] }
def open_ : KeyStream := { aStream with delivered := false, attached := [] }

theorem witness_KeyStreams_ends : ((carrying gone).dev.channel 7).stream = some gone ∧ gone.delivered = true ∧
    gone.attached = [] ∧ ((carrying open_).dev.channel 7).stream = some open_ ∧ open_.delivered = false ∧
    noneWaits (carrying gone).dev ∧
    (∀ c, c < 2 → (carrying open_).dev.faults.holds (.cluster c) = false ∧ (carrying open_).dev.attachedTo c < 2) ∧
    ∀ c, c < 256 → open_.record.subscribers.getLsbD c = true → c < 2 := by
  have none_ : noneWaits (carrying gone).dev := fun c g h => by
    rw [show ((carrying gone).dev.cluster c).call = none by rcases c with _ | c <;> rfl] at h
    exact absurd h (by simp)
  simp only [none_, true_and]
  decide +kernel

/-! ### Streams, jobs and update commands -/

/-- A tensor descriptor that passes its checks: fp32, or int32, of `n` elements in one dimension. -/
def tensorBytes (etype base n : Nat) : List Byte :=
  let f := [(0, 48, base), (48, 4, etype), (53, 3, 1), (56, 2, 1), (64, 48, base), (128, 48, 4 * n), (256, 32, n),
    (320, 32, n), (352, 32, 1), (384, 32, 1), (416, 32, 1), (448, 32, 1), (480, 32, 1), (952, 8, 1)]
  mkRecord 128 (f ++ [(992, 32, crc32c ((mkRecord 128 f).take 119))])

/-- A CREATE record at index 1 of cluster 0's list at 0x1000, its descriptor an empty copy descriptor in bank 2, its status
record in bank 3; it starts on event 2 of core 0. -/
def createRec : List Byte :=
  mkRecord 64 [(6, 2, 1), (8, 4, 2), (64, 48, clusterAddr 0 0x40040), (288, 48, clusterAddr 0 0x60000)]
def streaming : State :=
  inFrame fun d => ((d.setReg 0x3200 1 0x1000).setReg 0x3200 2 2).wr 0x1040 createRec

theorem streaming_quiet : nothingWaits streaming.dev := quiet (by decide +kernel)

theorem witness_StreamsRun : (∃ f, streamRow (.streamCreate 0 1) = some (0, 1, 0, [], f)) ∧
    let r := StreamRec.parse (streaming.dev.mem.read (streaming.dev.streamRecAt 0 1) 64)
    dmaMay streaming.dev .read 0 (streaming.dev.streamRecAt 0 1) 64 ∧ errorFree streaming.dev ∧
    r.kind = 0 ∧ r.start = 1 ∧ r.status % 64 = 0 ∧ r.prefetch = false ∧ streaming.dev.frameOpen = true ∧
    1 < streaming.dev.reg (0x3200 + 0) 2 ∧ streaming.dev.faults.holds (.cluster 0) = false ∧
    streaming.dev.power.withholding.contains 0 = false ∧ (streaming.dev.cluster 0).streams = [] ∧
    streaming.dev.dmaRunning 0 < 8 ∧ startMet streaming.dev r.start (16 * 0 + r.startCore) r.startEvt := by
  refine ⟨⟨_, rfl⟩, ?_⟩
  unfold dmaMay errorFree startMet
  decide +kernel

/-- A part of a block in bank 2, copied within it. -/
theorem witness_StreamsRun_part : dmaMay (Mover.fresh streaming.dev).dev .read 0 (clusterAddr 0 0x40040) 64 ∧
    dmaMay (Mover.fresh streaming.dev).dev .write 0 (clusterAddr 0 0x40100) 64 ∧
    errorFree (Mover.fresh streaming.dev).dev := by
  unfold dmaMay errorFree; decide +kernel

/-- The stream of the record, refused and with nothing to move. -/
def running : StreamRun := { StreamRun.of 0x1040 createRec 1 1 0 with status := 0x20 }
def streamingNow : State := { streaming with dev := streaming.dev.modCluster 0 fun x => { x with streams := [running] } }

theorem witness_StreamsRun_done :
    (streamingNow.dev.cluster 0).streams.find? (fun x => x.index = 1 && x.phase ≠ .finished) = some running ∧
    running.phase = .running ∧ running.prefetch = false ∧ streamingNow.dev.faults.holds (.cluster 0) = false ∧
    (StreamRec.parse running.bytes).doneEn = false ∧ (StreamRec.parse running.bytes).kind < 4 ∧ running.status ≠ 0 ∧
    dmaMay streamingNow.dev .write 0 (StreamRec.parse running.bytes).status 64 := by
  unfold dmaMay; decide +kernel

theorem streamingNow_quiet : nothingWaits streamingNow.dev := quiet (by decide +kernel)

/-- A MAP job of core 0 at 0x1000: f14 = f0 × f0 over four fp32 elements, all in bank 1; its done event is 2. -/
def mapRec (status : Nat) : List Byte :=
  mkRecord 128 [(14, 4, 2), (18, 1, 1), (64, 16, 0x100), (128, 48, clusterAddr 0 0x20000), (384, 48, clusterAddr 0 0x20080),
    (640, 48, status)]
def mapping (status : Nat) : State :=
  inFrame fun d =>
    let d := d.modCluster 0 fun x => { x with veList := 0x1000, veCount := 1 }
    let d := (d.wr 0x1000 (mapRec status)).wr (coreAddr 0 0x100) (leBytes 4 ((3 <<< 26) + (14 <<< 22)))
    let d := (d.wr (clusterAddr 0 0x20000) (tensorBytes 0 (clusterAddr 0 0x20400) 4)).wr (clusterAddr 0 0x20080)
      (tensorBytes 0 (clusterAddr 0 0x20500) 4)
    d.wr (clusterAddr 0 0x20400) (leBytes 4 0x40400000)

def mapJob (status : Nat) : Dev × VeJob :=
  (mapping status).dev.veJob 0 (VeRec.parse ((mapping status).dev.mem.read ((mapping status).dev.veRecAt 0 0) 128))

theorem mapping_quiet : nothingWaits (mapping 0).dev := quiet (by decide +kernel)

theorem witness_VectorJobs : (VeRec.parse ((mapping 0).dev.mem.read ((mapping 0).dev.veRecAt 0 0) 128)).kind = 0 ∧
    (VeRec.parse ((mapping 0).dev.mem.read ((mapping 0).dev.veRecAt 0 0) 128)).start = 0 ∧
    (mapping 0).dev.frameOpen = true ∧ ((mapping 0).dev.cluster 0).veRun = none ∧
    ((mapping 0).dev.cluster 0).veNext < ((mapping 0).dev.cluster 0).veCount ∧
    (mapping 0).dev.faults.holds (.cluster 0) = false ∧ (mapping 0).dev.power.withholding.contains 0 = false ∧
    (mapping 0).dev.descAccess (.vector 0 0) (((mapJob 0).2.r.plain ++ (mapJob 0).2.r.tensorsIn ++
      (mapJob 0).2.r.tensorsOut).filter (· ≠ 0)) = some none ∧
    firstFailed ((mapJob 0).1.veChecks (mapJob 0).2) = none ∧
    (mapJob 0).1.banksOwned (.vector 0 0) (mapJob 0).2.banks = some true := by decide +kernel

/-- A status record that is not aligned fails the job's first check. -/
theorem witness_VectorJobs_fails :
    (firstFailed ((mapJob 1).1.veChecks (mapJob 1).2)).isSome = true := by decide +kernel

/-- The same job where core 1 owns the bank. -/
def foreign : Dev := (mapJob 0).1.modCluster 0 fun x => { x with owners := [(1, 1)] }

theorem witness_VectorJobs_notOwned : firstFailed (foreign.veChecks (mapJob 0).2) = none ∧
    foreign.banksOwned (.vector 0 0) (mapJob 0).2.banks = some false := by decide +kernel

def veRunning : VeRun :=
  { VeRun.of 0x1000 (mapRec (clusterAddr 0 0x20800)) 0 with
    units := [[(clusterAddr 0 0x20500, zeroBytes 16)]], held := [(0, 1)], rowsDone := 1, stated := 10 }
def mappingNow : State :=
  let s := mapping (clusterAddr 0 0x20800)
  { s with dev := s.dev.modCluster 0 fun x => { x with veRun := some veRunning } }

theorem witness_VectorJobs_done : (mappingNow.dev.cluster 0).veRun = some veRunning ∧ (mappingNow.dev.cluster 0).veOwed = [] ∧
    mappingNow.dev.faults.holds (.cluster 0) = false ∧ (∀ b ∈ veRunning.held, mappingNow.dev.bankPower b.1 b.2 ≠ .waking) ∧
    veRunning.status = 0 ∧ veRunning.effect = .nothing ∧
    let r := VeRec.parse veRunning.bytes
    (∀ p ∈ veRunning.units.flatten, mappingNow.dev.problemIn (.vector 0 r.core) .write p.1 p.2.length = none) ∧
    mappingNow.dev.problemIn (.vector 0 r.core) .write r.status 64 = none ∧ r.doneEn = true ∧
      signalLands mappingNow.dev (16 * 0 + r.core) r.doneEvt := by
  unfold signalLands; decide +kernel

/-- An SGDM command at 0x1000 that starts on event 2 of core 0 and signals event 3. -/
def updBytes : List Byte := mkRecord 128 [(0, 8, 1), (8, 2, 1), (10, 4, 2), (26, 4, 3), (30, 1, 1), (512, 48, 0x2000)]
def updating : State :=
  inFrame fun d => (d.setUpdUnit 7 { UpdUnit.fresh with list := 0x1000, count := 1 }).wr 0x1000
    updBytes
def updRunning : UpdRun := { UpdRun.of 0x1000 updBytes 0 with units := [[(0x3000, [5])]], satSkip := true }
def updatingNow : State :=
  { updating with dev := updating.dev.setUpdUnit 7 { UpdUnit.fresh with run := some updRunning } }

theorem updating_quiet : nothingWaits updating.dev := quiet (by decide +kernel)

theorem witness_UpdateCommands : (∃ p f, updateRow (.sgdm 7 []) = some (7, [], p, f) ∧
      p (UpdRec.parse (updating.dev.mem.read ((updating.dev.updUnit 7).list + 128 * (updating.dev.updUnit 7).next) 128))) ∧
    updating.dev.frameOpen = true ∧ (updating.dev.updUnit 7).halted = false ∧ (updating.dev.updUnit 7).run = none ∧
    (updating.dev.updUnit 7).owed = [] ∧ (updating.dev.updUnit 7).next < (updating.dev.updUnit 7).count ∧
    updating.dev.power.withholding.contains (264 + 7) = false ∧
    updating.dev.faults.holds (.update 7) = false ∧
    let r := UpdRec.parse (updating.dev.mem.read 0x1000 128)
    r.start = 1 ∧ startMet updating.dev r.start r.startCore r.startEvt := by
  refine ⟨⟨_, _, rfl, ?_⟩, ?_⟩
  · show (UpdRec.parse _).op = 1
    decide +kernel
  · unfold startMet
    decide +kernel

theorem witness_UpdateCommands_done : (updatingNow.dev.updUnit 7).run = some updRunning ∧
    updatingNow.dev.faults.holds (.update 7) = false ∧ updRunning.effect = .nothing ∧
    (∀ z ∈ updRunning.outs.zip updRunning.spoils, z.2 = []) ∧
    let r := UpdRec.parse updRunning.bytes
    updatingNow.dev.problemIn .host .write r.status 64 = none ∧ r.doneEn = true ∧
      signalLands updatingNow.dev r.startCore r.doneEvt := by
  unfold signalLands; decide +kernel

theorem witness_EncryptedAxpyWords : 1 < 2 ∧ 0 < 1 ∧ 0 < vals.q 0 := by decide +kernel

/-- A fill record at 0x1000: raw words into four int32 elements of bank 2, status in bank 3. -/
def filling (etype : Nat) : State :=
  inFrame fun d => ((d.modTick fun t => { t with fillList := 0x1000, fillCount := 1 }).wr 0x1000
    (mkRecord 64 [(0, 48, clusterAddr 0 0x40000), (256, 48, clusterAddr 0 0x60000)])).wr (clusterAddr 0 0x40000)
      (tensorBytes etype (clusterAddr 0 0x40400) 4)
def fillTensor (etype : Nat) : Tensor :=
  Tensor.parse (clusterAddr 0 0x40000) ((filling etype).dev.mem.read (clusterAddr 0 0x40000) 128)
def fillRec (etype : Nat) : FillRec := FillRec.parse ((filling etype).dev.mem.read 0x1000 64)

theorem filling_quiet : nothingWaits (filling 5).dev := quiet (by decide +kernel)

theorem witness_FillsRun : (filling 5).dev.tick.frame = some aFrame ∧ aFrame.barrier = true ∧
    (filling 5).dev.tick.fillNext < (filling 5).dev.tick.fillCount ∧ (filling 5).dev.tick.fill = none ∧
    dmaMay (filling 5).dev .read 0 0x1000 64 ∧ errorFree (filling 5).dev ∧
    descPlaced (fillRec 5).tensor 128 = true ∧ dmaMay (filling 5).dev .read 0 (fillRec 5).tensor 128 ∧
    fillOk (fillRec 5) (fillTensor 5) = true ∧ (fillRec 5).status % 64 = 0 := by
  unfold dmaMay errorFree; decide +kernel

/-- Raw words into an fp32 tensor: refused. -/
theorem witness_FillsRun_refused : fillOk (fillRec 0) (fillTensor 0) = false := by decide +kernel

/-- The fill in service, with its one block still to write. -/
def aFill : FillRun :=
  { record := 0x1000, bytes := (filling 5).dev.mem.read 0x1000 64, status := 0,
    desc := (filling 5).dev.mem.read (clusterAddr 0 0x40000) 128, seed := (filling 5).dev.jobSeed, gen := 7, reaches := [0],
    todo := [0], owing := false, noted := false, blocksDone := 0, blocksBad := 0, firstBad := 0xFFFFFFFF, granules := 0 }

theorem witness_FillsRun_done :
    let d := (filling 5).dev.modTick fun t => { t with fill := some aFill }
    d.tick.fill = some aFill ∧ aFill.owing = false ∧ aFill.blocksBad = 0 ∧
      (∀ p ∈ aFill.todo.flatMap aFill.blockPieces, dmaMay d .write 0 p.1 p.2.length) ∧
      dmaMay d .write 0 (FillRec.parse aFill.bytes).status 64 ∧ (FillRec.parse aFill.bytes).doneEn = false := by
  unfold dmaMay; decide +kernel

/-! ### Nickel -/

def longJob : NickelJob :=
  { record := 0x2000, short := false, op := 0x14, status := 0, flags := 1, out := some (5, 9), clearTo := none, pair := none,
    store := none, statusAddr := some 0x2040, stated := 10, yields := 0, startedAt := 0, refused := false, points := 1 }

/-- A short MADD record at 0x1000, waiting beside a long job that runs and may yield. -/
def nickelling : State :=
  let d := st0.dev.modNickel fun x => { x with run := some longJob, shortQ := [(0x1000, false)] }
  { st0 with dev := d.wr 0x1000 (mkRecord 64 [(0, 8, 0x10)]) }

theorem nickelling_quiet : nothingWaits nickelling.dev := quiet (by decide +kernel)

theorem witness_NickelJobs : nickelRow .nickelMadd = some 0x10 ∧
    nickelling.dev.nextJob = some ((0x1000, false), true, true) ∧ leNat (nickelling.dev.mem.read 0x1000 1) = 0x10 := by
  decide +kernel

theorem witness_NickelJobs_done : nickelling.dev.nickel.run = some longJob ∧ longJob.out = some (5, 9) ∧
    longJob.clearTo = none ∧ longJob.pair = none ∧ longJob.store = none ∧ nickelling.dev.nickel.yielded = none ∧
    longJob.statusAddr = some 0x2040 ∧ 0x2040 % 64 = 0 ∧ mapRange 0x2040 64 = true ∧
    nickelling.dev.problemIn .host .write 0x2040 64 = none := by decide +kernel

/-- An operand equal to the modulus, one with an inverse and one without. -/
theorem witness_NickelArithmetic : 15 % 2 = 1 ∧ 3 ≤ 15 ∧ 15 ≤ 15 ∧ 15 < 2 ^ (NickelRec.parse []).w ∧
    Nat.gcd 7 15 = 1 ∧ Nat.gcd 6 15 ≠ 1 ∧ Nat.gcd 15 15 ≠ 1 := by decide +kernel

/-! ### Reset and boot -/

/-- The device in a phase, with a change. -/
def inPhase (p : Phase) (f : Dev → Dev) : State := { State.reset with dev := f { Dev.fresh with phase := p } }

theorem witness_ResetCommands : (inPhase .unpowered id).dev.phase = .unpowered ∧ (inPhase .held id).dev.phase = .held ∧
    st0.dev.phase ≠ .unpowered ∧ st0.dev.boot.ownerProgramming = none ∧ st0.dev.boot.secverProgramming = none ∧
    (inPhase .service fun d => d.modFaults fun x => { x with resetPending := true }).dev.faults.resetPending = true ∧
    (inPhase .chipReset id).dev.phase = .chipReset ∧ (inPhase .chipReset id).dev.power.thermHold = false := by
  decide +kernel

/-- A boot ROM with the link up, at a step. -/
def booting (f : Boot → Boot) : State :=
  inPhase .boot fun d => (d.setReg 0x8000 2 2).modBoot fun b => f { b with mode := 1 }
def fetched (code : List Byte) (resends : Nat) : State :=
  booting fun b => { b with step := .reading, readResends := resends, imageLen := 385, nextRead := 384, readLen := 1,
                            image := zeroBytes 32 ++ sha512 code ++ zeroBytes 288 }

theorem witness_BootExchange : (booting fun b => { b with step := .hello }).dev.phase = .boot ∧
    linkOpen (booting fun b => { b with step := .hello }).dev ∧
    (booting fun b => { b with step := .hello }).dev.boot.mode ≠ 0 ∧ linkOpen (fetched [7] 7).dev ∧
    (fetched [7] 7).dev.boot.step = .reading ∧ (fetched [7] 7).dev.boot.readResends < 8 ∧
    8 ≤ (fetched [7] 8).dev.boot.readResends ∧
    linkOpen (booting fun b => { b with step := .waitRetry }).dev ∧
    (booting fun b => { b with step := .waitRetry }).dev.boot.step = .waitRetry := by
  unfold linkOpen; decide +kernel

/-- The last byte of an image whose digest is right, and of one whose digest is not. -/
theorem witness_BootExchange_data : ([7] : List Byte).length = (fetched [7] 0).dev.boot.readLen ∧
    (fetched [7] 0).dev.boot.nextRead ≠ 0 ∧ (fetched [7] 0).dev.boot.nextRead < 2 ^ 64 ∧
    (fetched [7] 0).dev.boot.imageLen.toNat ≤ ((fetched [7] 0).dev.boot.image ++ [7]).length ∧
    sha512 (((fetched [7] 0).dev.boot.image ++ [7]).drop 384) =
      (((fetched [7] 0).dev.boot.image ++ [7]).drop 32).take 64 ∧
    sha512 (((fetched [7] 0).dev.boot.image ++ [8]).drop 384) ≠
      (((fetched [7] 0).dev.boot.image ++ [8]).drop 32).take 64 := by
  decide +kernel

/-- A header of zeros fails its first check; an image with more to come. -/
theorem witness_BootExchange_header : ¬((0 : Nat) ≠ 0 ∨ firmwareCheck State.reset.fuses (zeroBytes 384) 384 = 0) ∧
    (fetched [7] 0).dev.boot.image.length < 385 := by
  refine ⟨?_, by decide +kernel⟩
  rintro (h | h)
  · exact h rfl
  · revert h
    rw [show firmwareCheck State.reset.fuses (zeroBytes 384) 384 = 2 by rfl]
    decide

theorem witness_BootExchange_slab :
    (booting fun b => { b with step := .idle }).dev.boot.step = .idle ∧
    ((booting fun b => { b with step := .idle }).dev.stk.initialising.filter (· ≠ 95)) = [] := by decide +kernel

/-! ### Faults -/

theorem witness_ForeignEvents : fatalRow (.railOutOfTolerance 7) = some (0x16, 7) ∧
    (inPhase .service fun d => d.modPins fun p => { p with resetN := true }).dev.alive = true ∧
    (inPhase .service fun d => d.modPins fun p => { p with resetN := true }).dev.pins.resetN = true ∧
    st0.dev.phase ≠ .unpowered ∧ st0.dev.tickRun = false ∧ st0.dev.shadow = [] ∧
    st0.dev.tick.loadHeld = false := by decide +kernel
theorem witness_ForeignEvents_held : (st0.withDev { st0.dev with tick := { st0.dev.tick with loadHeld := true } }).dev.tick.loadHeld =
    true := by decide +kernel

def aFault (src : BitVec 8) (cls : BitVec 2) : RaisedFault :=
  { source := src, cls := cls, unit := 0, addr := 0, reason := 0, status := 0, detail := 0, block := none, forced := false }
def faulty (src : BitVec 8) (cls : BitVec 2) : State :=
  inPhase .service fun d =>
    d.modFaults fun x => { x with raised := [aFault 0x19 2, aFault src cls], corrRecorded := [0x0D], inReset := [.cluster 255, .update 7, .electrum 3, .channel 1] }

theorem witness_FaultsClassified : firstFault (faulty 0x11 1).dev.faults.raised = some (aFault 0x11 1) ∧
    firstFault (faulty 0x0D 0).dev.faults.raised = some (aFault 0x0D 0) ∧
    firstFault (faulty 0x01 2).dev.faults.raised = some (aFault 0x01 2) ∧ (faulty 0x11 1).dev.faults.resetPending = false ∧
    (faulty 0x11 1).dev.logState ≠ 1 ∧ (faulty 0x11 1).dev.reg 0x6000 2 = 0 ∧
    (aFault 0x0D 0).source.toNat ∈ (faulty 0x0D 0).dev.faults.corrRecorded ∧
    (∀ b ∈ [Block.cluster 255, .update 7, .electrum 3, .channel 1], (faulty 0x11 1).dev.faults.inReset.contains b = true) ∧
    nothingOwed (faulty 0x11 1).dev 255 ∧ (∀ k, k < 16 → nothingOwed (faulty 0x11 1).dev (16 * 3 + k)) ∧
    ((faulty 0x11 1).dev.updUnit 7).run = none ∧ ((faulty 0x11 1).dev.updUnit 7).owed = [] := by
  unfold nothingOwed; decide +kernel

/-! ### Management and the counter -/

def goodRail : RailReading := { answered := true, vout := 700, iout := 5, status := 0, warning := false, shutdown := false }
def coolSamples : List (BitVec 32) := List.replicate 80 640

theorem witness_ManagementReadings : railRow (.pmbusPoll (List.replicate 8 goodRail)) = some (true, List.replicate 8 goodRail) ∧
    (∀ r ∈ List.replicate 8 goodRail, r.answered = true ∧ r.warning = false ∧ r.shutdown = false) ∧
    railRow (.pmbAlert [{ goodRail with warning := true }]) = some (false, [{ goodRail with warning := true }]) ∧
    0 ∉ st0.dev.power.railWarned ∧ st0.dev.alive = true ∧
    (∀ k, k < 80 → isOutlier (coolSamples.map BitVec.toInt) k = false) ∧
    (∀ k, k < 80 → (coolSamples.map BitVec.toInt).getD k 0 < (st0.dev.thresholds k).2) ∧
    (∀ k, k < 80 → (st0.dev.thresholds k).2 ≤
      goodSample ((List.replicate 80 (2000 : BitVec 32)).map BitVec.toInt) k) := by decide +kernel

theorem witness_ManagementReadings_scrub : (0x2000 : Nat) < stackEnd ∧ st0.dev.correctAt 0x2000 = true ∧
    st0.dev.stackCause 0x2000 = none ∧ st0.dev.stackOf 0x2000 = 2 ∧ 0x2000 ∉ st0.dev.mem.poison ∧
    (∀ u ∈ st0.dev.mem.upsets, u.addr / 256 * 256 ≠ 0x2000) ∧
    (some UpsetKind.correctable) ≠ some .uncorrectable := by decide +kernel

def disciplined (src ns : Nat) : State :=
  inPhase .service fun d => (((d.setReg 0x2020 2 src).setReg 0x2020 1 (counterAt ns + 1)).setReg 0x8000 2 2).modTick
    fun t => { t with lockSeconds := 15, lastSecond := 4 }

theorem witness_CounterDiscipline :
    measureRow (disciplined 2 5000000000).dev (.ppsEdge 5000000000) = some (2, 5000000000, 1) ∧
    measureRow (disciplined 1 5000000000).dev (.ptpMessage true 5000000000) = some (1, 5000000000, 1) ∧
    (disciplined 2 5000000000).dev.alive = true ∧ (disciplined 2 5000000000).dev.reg 0x2020 2 = 2 ∧
    (disciplined 1 5000000000).dev.reg 0x2020 2 = 1 := by decide +kernel

/-! ### The port -/

def linked (f : Dev → Dev) : State := inPhase .service fun d => f (d.setReg 0x8000 2 2)

theorem witness_LinkEvents : st0.dev.alive = true ∧ st0.dev.linkUp = false ∧ st0.dev.port.paused = [] ∧
    (inPhase .boot id).dev.alive = true ∧ (inPhase .boot id).dev.linkUp = false ∧ (inPhase .boot id).dev.boot.step = .idle ∧
    (inPhase .boot id).dev.stk.initialising = [] ∧ (linked id).dev.linkUp = true ∧ (linked id).dev.tick.xfers = [] ∧
    (linked id).dev.tick.ckpts = [] ∧ (linked id).dev.tick.colls = [] ∧ (linked id).dev.port.messages = [] ∧
    (linked fun d => d.setReg 0x8000 5 7).dev.reg 0x8000 5 = 7 ∧ (linked fun d => d.setReg 0x8000 6 1).dev.reg 0x8000 6 = 1 ∧
    ((linked fun d => d.setReg 0x8000 0x0C 8).dev.reg 0x8000 0x0C).testBit 3 = true ∧
    ((linked fun d => d.setReg 0x8000 0x0C 8).dev.reg 0x8000 0x0C).testBit 2 = false ∧
    (∀ m ∈ (linked id).dev.port.held, m.prio ≠ 3) := by decide +kernel

def aHdr (cls : BitVec 4) (first : Bool) : CwpHeader :=
  { version := 2, cls := cls, kind := if cls = 4 then 0 else 1, sync := false, first := first, last := true, ackv := cls = 4, bad := false,
    src := 0xFFFF, dst := 0xFFFF, tseq := 9, ack := 3, msg := 5, offset := if first then 0 else 4, segLen := 4 }
def wire (cls : BitVec 4) (first : Bool) : WireFrame :=
  { ep := .mac 2, length := 128, vlan := none, prio := 1, wellAddressed := true, header := (aHdr cls first).bytes, data := zeroBytes 4 }
def aSent (resends : Nat) : SentFrame :=
  { header := CwpHeader.bytes { aHdr 0 true with tseq := 2 }, data := [], resends := resends }
def aTransport (expect : Option (BitVec 32)) (resends : Nat) : Transport :=
  { ep := .mac 2, prio := 1, expect := expect, next := 3, syncNext := false, unacked := [aSent resends] }
def part : Msg :=
  { ep := .mac 2, prio := 1, number := 5, cls := 0, kind := 1, version := 2, src := 0xFFFF, segs := [(0, zeroBytes 4)],
    last := false, startedAt := 0, judged := false }
def talking (expect : Option (BitVec 32)) (resends : Nat) (ms : List Msg) : State :=
  linked fun d => d.modPort fun x => { x with transports := [aTransport expect resends], messages := ms }

theorem witness_FramesAndAcknowledgements : (talking (some 9) 2 []).dev.alive = true ∧
    (talking (some 9) 2 []).dev.linkUp = true ∧ (talking (some 9) 2 []).dev.frameOk (wire 0 true) = true ∧
    (wire 0 true).hdr.cls ≠ 4 ∧ (wire 0 true).ep ∈ (talking (some 9) 2 []).dev.endpoints ∧
    ((talking (some 9) 2 []).dev.transport (.mac 2) 1).expect = some (wire 0 true).hdr.tseq ∧
    (wire 0 true).hdr.ackv = false ∧ (talking (some 9) 2 []).dev.findMsg (.mac 2) 1 5 = none ∧
    (talking (some 9) 2 [part]).dev.findMsg (.mac 2) 1 5 = some part ∧ (wire 0 false).hdr.first = false ∧
    part.cls = (wire 0 false).hdr.cls ∧ part.judged = false ∧
    ((talking (some 10) 2 []).dev.transport (.mac 2) 1).expect = some 10 ∧ (10 : BitVec 32) ≠ (wire 0 true).hdr.tseq ∧
    ((talking none 2 []).dev.transport (.mac 2) 1).expect = none ∧
    (talking none 2 []).dev.frameOk (wire 4 true) = true ∧ (wire 4 true).hdr.ackv = true ∧
    (talking none 2 []).dev.frameOk { wire 0 true with wellAddressed := false } = false := by decide +kernel

theorem witness_FramesAndAcknowledgements_timers : ((talking none 2 []).dev.transport (.mac 2) 1).unacked = [aSent 2] ∧
    ((talking none 3 []).dev.transport (.mac 2) 1).unacked = [aSent 3] ∧ (aSent 2).resends < 3 ∧ 3 ≤ (aSent 3).resends ∧
    (1 : BitVec 3) ∉ (talking none 2 []).dev.port.paused ∧ (talking none 2 []).dev.tick.xfers = [] ∧
    (talking none 2 []).dev.tick.ckpts = [] ∧ (talking none 2 []).dev.tick.colls = [] ∧
    (talking none 2 []).dev.port.messages = [] ∧ part.whole = false ∧ ¬(part.cls = 0 ∧ part.judged = true) := by
  decide +kernel

/-! ### Requests -/

/-- A request of format 1 that reads entry 0x2000.09. -/
def reqBody (id : Nat) : List Byte :=
  (mkRecord 32 [(192, 64, id), (176, 16, 8191), (168, 8, 1), (144, 16, 1), (64, 64, 48)]).reverse ++
    (mkRecord 16 [(120, 8, 3), (0, 48, 0x200009)]).reverse
def reqMsg (body : List Byte) : Msg := { part with segs := [(0, body)], last := true }
def heldReq : Request :=
  { ep := .mac 2, prio := 1, version := 2, msg := 1, reqId := 6, count := 1, bulk := false, complete := true, assigned := true,
    cmds := [], done := 0, ran := 0, failIndex := none, failStatus := 0, abortCode := 0, execFrame := 0, execTick := 0,
    reads := [], raw := [], replayed := false }
def asked (body : List Byte) : State :=
  linked fun d => d.modPort fun x => { x with messages := [reqMsg body], contexts := [(8191,
    { requests := [heldReq], window := [(7, [])], highest := 8 })] }

def hdrOf (body : List Byte) : ReqHdr := ReqHdr.parse ((reqMsg body).body.take (reqMsg body).reach)

theorem witness_RequestsJudged : (asked (reqBody 9)).dev.findMsg (.mac 2) 1 5 = some (reqMsg (reqBody 9)) ∧
    (asked (reqBody 9)).dev.alive = true ∧ (asked (reqBody 9)).dev.admitted (.mac 2) = true ∧
    (asked (reqBody 9)).dev.phase = .service ∧ (asked (reqBody 9)).dev.port.paused = [] ∧
    ((reqMsg (reqBody 9)).body.take (reqMsg (reqBody 9)).reach).length = 48 ∧ (hdrOf (reqBody 9)).id = 9 ∧
    (hdrOf (reqBody 9)).stream = 8191 ∧ (hdrOf (reqBody 9)).format = 1 ∧ (hdrOf (reqBody 9)).count = 1 ∧
    (hdrOf (reqBody 9)).length = 48 ∧ opsIn 1 1 ((reqBody 9).drop 32) = [3] ∧
    breaksBulk (hdrOf (reqBody 9)) [3] = false ∧ (asked (reqBody 9)).dev.replaying = false ∧
    ((asked (reqBody 9)).dev.ctx 8191).highest = 8 ∧ (reqMsg (reqBody 9)).whole = true ∧
    (asked (reqBody 9)).dev.logState ≠ 1 ∧ (asked (reqBody 9)).dev.reg 0x2000 3 ≠ 1 ∧
    (parseCmds 1 1 ((reqBody 9).drop 32)).length = 1 ∧
    ((parseCmds 1 1 ((reqBody 9).drop 32)).all fun c => !c.malformed) = true := by decide +kernel

/-- In the window; in hand; below the highest accepted; without an id; not admitted; and while the boot ROM runs. -/
theorem witness_RequestsJudged_others :
    (((asked (reqBody 7)).dev.ctx 8191).window.find? (fun w => w.1 = BitVec.ofNat 64 (hdrOf (reqBody 7)).id)).isSome = true ∧
    (∃ r ∈ ((asked (reqBody 6)).dev.ctx 8191).requests, r.reqId = BitVec.ofNat 64 (hdrOf (reqBody 6)).id) ∧
    (∀ r ∈ ((asked (reqBody 5)).dev.ctx 8191).requests, r.reqId ≠ BitVec.ofNat 64 (hdrOf (reqBody 5)).id) ∧
    (hdrOf (reqBody 5)).id ≤ ((asked (reqBody 5)).dev.ctx 8191).highest.toNat ∧ (hdrOf (reqBody 0)).id = 0 ∧
    ((asked (reqBody 9)).dev.setReg 0x1040 1 1).admitted (.mac 2) = false ∧
    { (asked (reqBody 9)).dev with phase := .boot }.alive = true := by decide +kernel

/-- A context whose one request has one command left. -/
def aReq (c : HostCmd) (bulk : Bool) : Request := { heldReq with cmds := [c], bulk := bulk }
def serving (c : HostCmd) (bulk : Bool) (f : Dev → Dev) : State :=
  linked fun d => f (d.modPort fun x => { x with contexts := [(8191, { requests := [aReq c bulk], window := [], highest := 6 })] })
def aCmd (op : BitVec 8) (len : BitVec 64) (addr : BitVec 48) (data : List Byte) : HostCmd :=
  { op := op, cont := false, len := len, addr := addr, data := data }

/-- A read of 300 bytes over a granule boundary, and a write that ends with the stack range. -/
theorem witness_RequestCommands_memory :
    (serving (aCmd 2 300 0x1FF0 []) false id).dev.nextCmd 8191 =
      some (aReq (aCmd 2 300 0x1FF0 []) false, aCmd 2 300 0x1FF0 []) ∧
    (∀ j, writersOf (serving (aCmd 2 300 0x1FF0 []) false id).dev j = []) ∧ inMap 0x1FF0 300 = true ∧ (serving (aCmd 2 300 0x1FF0 []) false id).dev.problemIn .host .read 0x1FF0 300 = none ∧
    (serving (aCmd 2 300 0x1FF0 []) false id).dev.mem.upsets = [] ∧
    (serving (aCmd 2 300 0x1FF0 []) false id).dev.mem.poison = [] ∧
    (serving (aCmd 1 2 0x1DFFFFFFE [1, 2]) true id).dev.nextBulk 8191 =
      some (aReq (aCmd 1 2 0x1DFFFFFFE [1, 2]) true, aCmd 1 2 0x1DFFFFFFE [1, 2]) ∧
    inMap 0x1DFFFFFFE 2 = true ∧
    (serving (aCmd 1 2 0x1DFFFFFFE [1, 2]) true id).dev.problemIn .host .write 0x1DFFFFFFE 2 = none := by
  exact ⟨by decide +kernel, fun _ => rfl, by decide +kernel⟩

/-- A host read of a bank that a running stream has still to write. -/
def filling1 : MoveBlock :=
  { block := 0, bad := false, skip := false, srcs := [], parts := [{ dst := [(clusterBase, 64)], src := [], fill := 0, limb := none }] }
def colliding : State :=
  serving (aCmd 2 8 (.ofNat 48 clusterBase) []) false fun d =>
    d.modCluster 0 fun x => { x with owners := [(0, 0x1F)], streams := [{ running with todo := [filling1] }] }

theorem witness_RequestCommands_busy : inMap clusterBase 8 = true ∧
    colliding.dev.problemIn .host .read clusterBase 8 = none ∧ writersOf colliding.dev 0 = [(clusterBase, 64)] := by
  decide +kernel

theorem witness_RequestCommands_entry :
    ((serving (aCmd 3 0 0x200009 []) false id).dev.nextCmd 8191).isSome = true ∧ entryAbort false 0x200009 = 0 ∧
    entryAbort true 0x200009 ≠ 0 ∧ entryAbort false 0x1FFF00 ≠ 0 := by decide +kernel

theorem witness_RequestCommands_create :
    ((serving (aCmd 5 0 0x1080 []) false id).dev.nextCmd 8191).isSome = true ∧ descPlaced 0x1080 128 = true ∧
    (serving (aCmd 5 0 0x1080 []) false id).dev.replaying = false ∧ (serving (aCmd 5 0 0x1080 []) false id).dev.clusters = [] ∧
    (serving (aCmd 5 0 0x1080 []) false id).dev.problemIn .host .write 0x1080 128 = none ∧
    ((serving (aCmd 5 0 0x1080 []) false id).dev.hostRead 0x1080 128).2.2 = false ∧ descPlaced 0x1040 64 = true ∧
    (serving (aCmd 5 1 0x1040 []) false id).dev.problemIn .host .write 0x1040 64 = none ∧
    ((serving (aCmd 5 1 0x1040 []) false id).dev.hostRead 0x1040 64).2.2 = false := by decide +kernel

def writes (idx sub v : Nat) (f : Dev → Dev) : State :=
  serving (aCmd 4 8 (.ofNat 48 (idx * 256 + sub)) (beBytes 8 v)) false f

/-- A write of COUNTER_SET: accepted, and refused while the tick runs; a withdrawal that waits for the frame. -/
theorem witness_DictionaryWrites : (∃ f, writeRow State.reset.fuses (.counterSet 8191 5) = some (8191, 0x2020, 5, 5, f) ∧
      (f (writes 0x2020 5 5 id).dev).isSome = true) ∧
    ((writes 0x2020 5 5 id).dev.nextCmd 8191).isSome = true ∧ beNat (beBytes 8 5) = 5 ∧
    (aReq (aCmd 4 8 0x202005 (beBytes 8 5)) false).replayed = false ∧
    (writes 0x2020 5 5 id).dev.writeAbort State.reset.fuses (.mac 2) (0x2020 * 256 + 5) 8 5 = 0 ∧
    (writes 0x2020 5 5 fun d => d.setReg 0x2000 1 1).dev.writeAbort State.reset.fuses (.mac 2) (0x2020 * 256 + 5) 8 5 ≠ 0 := by
  refine ⟨⟨_, rfl, ?_⟩, ?_⟩ <;> decide +kernel

def busyFrame (d : Dev) : Dev :=
  { d with tick := { d.tick with frame := some aFrame }, cores := [(0, aCore)], psets := [(0, { live := some vals, waiting := none })] }

theorem witness_DictionaryWrites_waits :
    (∃ f, writeRow State.reset.fuses (.psetWithdraw 8191 0) = some (8191, 0x5100, 2, 2, f) ∧
      (f (writes 0x5100 2 2 busyFrame).dev).isNone = true) ∧
    ((writes 0x5100 2 2 busyFrame).dev.nextCmd 8191).isSome = true ∧
    (writes 0x5100 2 2 busyFrame).dev.writeAbort State.reset.fuses (.mac 2) (0x5100 * 256 + 2) 8 2 = 0 := by
  refine ⟨⟨_, rfl, by decide +kernel⟩, by decide +kernel, by decide +kernel⟩

/-- The same of an entry without a row of its own: CORE_DEADLOCK_WINDOW. -/
theorem witness_DictionaryWrites_plain : ¬((8 : BitVec 64) = 8 ∧ ownRow 0x3001 1 8192 = true) ∧
    (writes 0x3001 1 8192 id).dev.writeAbort State.reset.fuses (.mac 2) (0x3001 * 256 + 1) 8 8192 = 0 ∧
    ((writes 0x3001 1 8192 id).dev.writeEntry 0x3001 1 8192).isSome = true ∧
    ((writes 0x3001 1 8192 busyFrame).dev.writeEntry 0x3001 1 8192).isNone = true ∧
    (writes 0x3001 1 4095 id).dev.writeAbort State.reset.fuses (.mac 2) (0x3001 * 256 + 1) 8 4095 ≠ 0 := by decide +kernel

def committing (v : PSetVals) (f : Dev → Dev) : State :=
  inPhase .service fun d => f (d.setPset 15 { live := none, waiting := some (.commit v none) })

theorem witness_DeferredWork_sets : ((committing vals id).dev.pset 15).waiting = some (.commit vals none) ∧
    (committing vals id).dev.immediate = true ∧ vals.fault = none ∧
    (committing vals fun d => d.setReg 0x2000 1 1).dev.immediate = false ∧
    ({ vals with logNMax := 11 } : PSetVals).fault = some (2, 0xFF) ∧ 2 % 256 ≠ 0 := by decide +kernel

def programming : State :=
  inPhase .service fun d => d.modBoot fun b => { b with
    ownerProgramming := some (leBytes 32 5), secverProgramming := some 63, attestAt := some 0x1000, attestReport := zeroBytes 512 }

theorem witness_DeferredWork_fuses : programming.dev.boot.ownerProgramming = some (leBytes 32 5) ∧
    programming.fuses.ownerKeyHash = 0 ∧ programming.dev.boot.secverProgramming = some 63 ∧
    programming.dev.boot.attestAt = some 0x1000 ∧ programming.dev.boot.attestReport ≠ [] ∧
    programming.dev.problemIn .host .write (0x1000 + 64) programming.dev.boot.attestReport.length = none ∧
    mapRange (0x1000 + 64) programming.dev.boot.attestReport.length = true := by decide +kernel

/-- An extension image of one routine, signed by a key of the test's own. -/
def extCode : List Byte := leBytes 4 1 ++ mkRecord 64 [(0, 16, 0x3FF)]
def ownerSeed : List Byte := zeroBytes 32
def extHdr : List Byte :=
  let pub := edPublic ownerSeed
  let head := mkRecord 32 [(0, 32, 0x494D4731), (32, 8, 2), (128, 64, 68), (192, 16, 0x7200), (208, 8, 0xA0)] ++ sha512 extCode ++ pub
  head ++ zeroBytes 64 ++ edSignMsg ownerSeed pub head
def extHash : BitVec 256 := .ofNat 256 (leNat ((sha512 (edPublic ownerSeed)).take 32))
def copying (a : Nat) (mem : Dev → Dev) : State :=
  inPhase .service fun d => mem (d.modLib fun x => { x with loading := some (a, extHash) })

theorem witness_DeferredWork_extension : (copying stackEnd id).dev.lib.loading = some (stackEnd, extHash) ∧
    inStack stackEnd 256 = false ∧ inStack 0x1000 256 = true ∧
    ((copying 0x1000 fun d => d.wr 0x1000 (extHdr ++ extCode)).dev.hostRead 0x1000 256).2 = (extHdr, false) ∧
    256 + codeLen extHdr ≤ 2 ^ 18 ∧ inStack 0x1000 (256 + codeLen extHdr) = true ∧
    (((copying 0x1000 fun d => d.wr 0x1000 (extHdr ++ extCode)).dev.hostRead 0x1000 256).1.hostRead (0x1000 + 256)
      (codeLen extHdr)).2 = (extCode, false) := by decide +kernel

theorem witness_DeferredWork_image : (extCheck extHash (extHdr ++ extCode)).isSome = true := by decide +kernel

theorem witness_DeferredWork_sealed : st0.dev.nickel.run = none ∧
    (inPhase .service fun d => d.modNickel fun x => { x with sealedWork := [.hostReport] }).dev.nickel.sealedWork =
      [.hostReport] ∧
    (inPhase .service fun d => d.modNickel fun x => { x with sealedWork := [.identity] }).dev.nickel.sealedWork =
      [.identity] := by decide +kernel

/-! ### The tick -/

def ticking (state : Nat) (master : Bool) (f : Tick → Tick) : State :=
  linked fun d => (((((d.setReg 0x8400 5 0).setReg 0x2000 1 1).setReg 0x2000 3 state).setReg 0x2000 2 (if master then 1 else 0)).modTick f).modBoot
    fun b => { b with masterSel := master }

def aHeader : LoadedHeader :=
  { addr := 0x1000, frame := 1, genTick := 7, updates := [], opens := [], fills := 0x2000, fillCount := 3, launches := [], power := [] }

theorem witness_TickSymbols : (ticking 1 false fun t => { t with adopted := true }).dev.tickRun = true ∧
    (ticking 1 false fun t => { t with adopted := true }).dev.tick.accepted = none ∧
    noRepeat (ticking 1 false fun t => { t with adopted := true }).dev ∧
    (ticking 1 false fun t => { t with adopted := true }).dev.port.waiting = [] ∧
    (ticking 1 false fun t => { t with adopted := true }).dev.reg 0x2000 3 = 1 ∧
    1 % 2 ^ 64 = ((ticking 1 false fun t => { t with adopted := true }).dev.tickNumber + 1) % 2 ^ 64 ∧
    2 % 2 ^ 64 ≠ ((ticking 1 false fun t => { t with adopted := true }).dev.tickNumber + 1) % 2 ^ 64 ∧
    (ticking 5 false id).dev.reg 0x2000 3 = 5 ∧ (ticking 5 false id).dev.tick.adopted = false ∧
    (ticking 5 false id).dev.isFollower = true := by
  unfold noRepeat; decide +kernel

theorem witness_TickSymbols_master : (ticking 1 true fun t => { t with chosen := some .skip }).dev.tick.holdOnly = false ∧
    (ticking 1 true fun t => { t with chosen := some .skip }).dev.reg 0x2000 3 = 1 ∧
    (ticking 1 true fun t => { t with chosen := some .skip }).dev.tickRun = true ∧
    (ticking 1 true fun t => { t with chosen := some .skip }).dev.isMaster = true ∧
    (ticking 1 true fun t => { t with chosen := some .skip }).dev.tick.chosen = some .skip ∧
    (ticking 1 true fun t => { t with holdOnly := true }).dev.tick.holdOnly = true := by decide +kernel

theorem witness_TickSymbols_ready : (ticking 5 false fun t => { t with next := some aHeader }).dev.tickRun = true ∧
    (ticking 5 false fun t => { t with next := some aHeader }).dev.reg 0x2000 3 = 5 ∧
    (ticking 5 false fun t => { t with next := some aHeader }).dev.tick.readySent = false ∧
    (ticking 5 false fun t => { t with next := some aHeader }).dev.ready = true ∧
    (ticking 5 false fun t => { t with next := some aHeader }).dev.isMaster = false ∧
    linkOpen (ticking 5 false fun t => { t with next := some aHeader }).dev ∧
    ((ticking 5 false fun t => { t with next := some aHeader }).dev.peerEndpoint
      (0x8400 + (ticking 5 false fun t => { t with next := some aHeader }).dev.reg 0x8010 1)).isSome = true ∧
    (ticking 5 false fun t => { t with next := some aHeader }).dev.isFollower = true ∧
    (ticking 5 false fun t => { t with next := some aHeader }).dev.port.waiting = [] := by
  unfold linkOpen; decide +kernel

theorem serving_quiet : nothingWaits (serving (aCmd 5 0 0x1080 []) false id).dev := quiet (by decide +kernel)

theorem witness_TickSymbols_wake :
    (inPhase .service fun d => d.modCluster 255 fun x => { x with power := [(31, .waking)] }).dev.bankPower 255 31 = .waking := by
  decide +kernel

theorem witness_TickEdges : (ticking 1 false fun t => { t with accepted := some .hold }).dev.tick.accepted = some .hold ∧
    (ticking 1 false fun t => { t with accepted := some .skip }).dev.tick.accepted = some .skip ∧
    (ticking 1 false fun t => { t with accepted := some .enter, next := some aHeader }).dev.tick.accepted = some .enter ∧
    (ticking 1 false fun t => { t with accepted := some .enter, next := some aHeader }).dev.reg 0x2000 3 = 1 ∧
    (ticking 1 false fun t => { t with accepted := some .enter, next := some aHeader }).dev.tickRun = true ∧
    (ticking 1 false fun t => { t with accepted := some .enter, next := some aHeader }).dev.shadow = [] ∧
    (ticking 1 false fun t => { t with accepted := some .enter, next := some aHeader }).dev.faults.raised = [] ∧
    (ticking 1 false fun t => { t with accepted := some .enter, next := some aHeader }).dev.tick.replayInputs = [] ∧
    (ticking 1 false fun t => { t with accepted := some .enter, next := some aHeader }).dev.tick.next = some aHeader ∧
    aHeader.updates = [] := by decide +kernel

/-- Frame 1 before its barrier: core 0 enabled at LOG_N 12, core 1 at 17, core 4,095 not. -/
def entering : State :=
  inPhase .service fun d => ((d.modTick fun t => { t with frame := some { aFrame with barrier := false } }).wr (coreAddr 0 0)
    (mkRecord 64 [(0, 1, 1), (16, 5, 12)])).wr (coreAddr 1 0) (mkRecord 64 [(0, 1, 1), (16, 5, 17)])

theorem witness_TickEdges_barrier : entering.dev.tick.frame = some { aFrame with barrier := false } ∧
    (entering.dev.core 0).frame ≠ .inFrame ∧ entering.dev.faults.holds (.cluster (0 / 16)) = false ∧
    (leNat (entering.dev.mem.read (coreAddr 0 0) 64)).testBit 0 = true ∧
    leNat (entering.dev.mem.read (coreAddr 0 0) 64) / 2 ^ 16 % 32 = 12 ∧
    leNat (entering.dev.mem.read (coreAddr 1 0) 64) / 2 ^ 16 % 32 = 17 ∧
    leNat (entering.dev.mem.read (coreAddr 0 0) 64) / 2 ^ 32 % 4 = 0 ∧
    leNat (entering.dev.mem.read (coreAddr 0 0) 64) / 2 ^ 48 % 8 = 0 ∧
    leNat (entering.dev.mem.read (coreAddr 0 0) 64) / 2 ^ 64 % 8 = 0 ∧ (entering.dev.core 0).heldSignals = [] ∧
    (leNat (entering.dev.mem.read (coreAddr 4095 0) 64)).testBit 0 = false ∧
    entering.dev.faults.holds (.cluster (4095 / 16)) = false ∧ entering.dev.reg 0x2010 2 = 0 := by decide +kernel

theorem witness_TickEdges_lists : nothingListed entering.dev := by unfold nothingListed; decide +kernel

def finished (at_ count : Nat) : State :=
  ticking 1 false (fun t => { t with frame := some aFrame }) |> fun s =>
    { s with dev := (s.dev.setReg 0x8010 3 at_).setReg 0x8010 4 count }

theorem witness_TickEdges_complete : (finished 0x4000 4).dev.tick.frame = some aFrame ∧ aFrame.complete = false ∧
    (finished 0x4000 4).dev.frameDone = true ∧ (finished 0x4000 4).dev.faults.raised = [] ∧
    (finished 0x4000 4).dev.tickRun = true ∧ (finished 0x4000 4).dev.exchanges = [] ∧ (finished 0x4000 4).dev.reg 0x8010 4 ≠ 0 ∧
    (finished 0x4000 4).dev.problemIn .host .write ((finished 0x4000 4).dev.reg 0x8010 3 + aFrame.number.toNat % 4 * 64) 64 =
      none ∧
    (finished 0x4000 0).dev.reg 0x8010 4 = 0 := by decide +kernel

/-- A ring above the usable bytes of its slab. -/
theorem witness_TickEdges_lost : (finished 0x1E0000000 4).dev.reg 0x8010 3 = 0x1E0000000 ∧
    (finished 0x1E0000000 4).dev.problemIn .host .write (0x1E0000000 + 1 % 4 * 64) 64 = some (.stack 0x1E0000040 1) := by
  decide +kernel

/-! ### Launches -/

def aLaunch (kind : BitVec 8) : Launch := { kind := kind, at_ := 3, arg := 0x1000, fire := 3, input := some [1] }
/-- A launch due; devices 0 and 1 are members. -/
def due (kind : BitVec 8) (f : Dev → Dev) : State :=
  let s := ticking 1 true fun t => { t with launches := [{ aLaunch kind with fire := 9 }, aLaunch kind] }
  { s with dev := f (((s.dev.setReg 0x2020 1 9).setReg 0x2040 1 3).setReg 0x8401 1 2 |>.setReg 0x8401 5 0) }
/-- A transfer of one granule to device 1. -/
def aXfer : List Byte := mkRecord 64 [(0, 48, 0x2000), (64, 48, 0x3000), (112, 10, 1), (128, 48, 256)]

theorem witness_LaunchesFire_port : (due 1 fun d => d.wr 0x1000 aXfer).dev.dueLaunch = some (aLaunch 1) ∧
    (((due 1 fun d => d.wr 0x1000 aXfer).dev.hostRead 0x1000 64).2 = (aXfer, false)) ∧
    (due 1 fun d => d.wr 0x1000 aXfer).dev.xferOk aXfer = true ∧ linkOpen (due 1 fun d => d.wr 0x1000 aXfer).dev ∧
    ((due 1 fun d => d.wr 0x1000 aXfer).dev.peerEndpoint (0x8400 + fld aXfer 112 10)).isSome = true ∧
    (due 1 id).dev.xferOk (zeroBytes 64) = false ∧ ((due 1 id).dev.hostRead 0x1000 64).2 = (zeroBytes 64, false) := by
  unfold linkOpen; decide +kernel

theorem due_quiet : nothingWaits (due 1 fun d => d.wr 0x1000 aXfer).dev ∧ nothingWaits (due 4 id).dev :=
  ⟨quiet (by decide +kernel), quiet (by decide +kernel)⟩

/-- A launch whose descriptor is delivered bad. -/
theorem witness_LaunchesFire_bad :
    ((due 1 fun d => { d with mem := { d.mem with poison := [0x1000] } }).dev.hostRead 0x1000 64).2.2 = true := by decide +kernel

theorem witness_LaunchesFire_others : (due 2 id).dev.dueLaunch = some (aLaunch 2) ∧ (due 2 id).dev.reg 0x2000 3 = 1 ∧
    (due 3 id).dev.dueLaunch = some (aLaunch 3) ∧ (aLaunch 3).input = some [1] ∧ logKind [1] ≠ 7 ∧
    (due 4 id).dev.dueLaunch = some (aLaunch 4) ∧ ((due 4 id).dev.hostRead 0x1000 64).2.2 = false ∧
    (due 4 id).dev.systemDevice ∈ (List.range 1024).filter (due 4 id).dev.isMember ∧
    ((List.range 1024).filter (due 4 id).dev.isMember).length = 2 ∧
    (∀ n ∈ (List.range 1024).filter (due 4 id).dev.isMember, ((due 4 id).dev.peerEndpoint (0x8400 + n)).isSome = true) ∧
    (due 4 id).dev.tick.collEarly = [] ∧
    (due 4 fun d => d.setReg 0x2040 1 2).dev.systemDevice ∉
      (List.range 1024).filter (due 4 fun d => d.setReg 0x2040 1 2).dev.isMember := by decide +kernel

def aCkpt (desc : Nat) : CkptRun := { descs := [desc], sending := false, awaiting := [], sizes := [], seq := 1, startedAt := 0 }
def saving (desc : Nat) : State :=
  let s := ticking 1 true fun t => { t with ckpts := [aCkpt desc] }
  { s with dev := s.dev.wr 0x1000 (mkRecord 64 [(128, 64, 1), (192, 16, 1), (256, 48, 0x1080)]) }

theorem witness_LaunchesFire_checkpoint : (saving 0x1000).dev.tick.ckpts = [aCkpt 0x1000] ∧
    (saving 0x1000).dev.frameDone = true ∧ (saving 0x1000).dev.ckptWaits [0x1000] = false ∧
    (((saving 0x1000).dev.addUpsets []).ckptChecks [0x1000]).2 = ([(0x1000, [])], none) ∧
    (saving 0x2000).dev.ckptWaits [0x2000] = false ∧
    (((saving 0x2000).dev.addUpsets []).ckptChecks [0x2000]).2.2 = some 0x2000 := by decide +kernel

/-- A checkpoint of one granule, to device 1. -/
def sending : State :=
  let s := due 9 fun d => d.modTick fun t => { t with ckpts := [aCkpt 0x1000] }
  { s with dev := (s.dev.wr 0x1000 (mkRecord 64 [(0, 48, 0x1100), (48, 16, 1), (64, 10, 1), (128, 64, 1), (192, 16, 1),
    (256, 48, 0x1080)])).wr 0x1100 (mkRecord 16 [(0, 48, 0x4000), (64, 48, 256)]) }
def sendingAt : Dev :=
  ((((sending.dev.addUpsets []).ckptChecks [0x1000]).1.stopPrefetch).setReg 0x2070 6 2).setCkpt (aCkpt 0x1000)
    { aCkpt 0x1000 with sending := true, startedAt := sending.dev.clock }

theorem witness_LaunchesFire_image : sending.dev.tick.ckpts = [aCkpt 0x1000] ∧ sending.dev.frameDone = true ∧
    sending.dev.ckptWaits [0x1000] = false ∧
    ((sending.dev.addUpsets []).ckptChecks [0x1000]).2 = ([(0x1000, [(0x4000, 256)])], none) ∧ linkOpen sending.dev ∧
    sendingAt.reachable (sendingAt.ckptDesc 0x1000) = true ∧
    (sendingAt.hostRead (sendingAt.ckptDesc 0x1000).list (16 * (sendingAt.ckptDesc 0x1000).count)).2.2 = false ∧
    ((sendingAt.hostRead (sendingAt.ckptDesc 0x1000).list (16 * (sendingAt.ckptDesc 0x1000).count)).1.readExtents
      [(0x4000, 256)]).2.2 = false := by
  unfold linkOpen; decide +kernel

/-! ### Messages between devices -/

def hearing : State :=
  let s := due 4 fun d => (((d.setReg 0x2080 1 0x10000).setReg 0x2080 2 4096).setReg 0x2080 3 1).modTick fun t => { t with
    xfers := [{ msg := 7, dev := 1, desc := aXfer, status := 0, granules := 1 }], replicas := [(0, { seq := 5, refused := false })], lost := [2] }
  s

theorem witness_PeerMessages : hearing.dev.phase = .service ∧
    peerRow (.ready 3 (.mac 2) 0) = some (3, .mac 2) ∧ hearing.dev.hears 3 (.mac 2) = false ∧
    hearing.dev.hears 2 (.mac 2) = false ∧ (2 : BitVec 16).toNat ∈ hearing.dev.tick.lost ∧
    hearing.dev.hears 1 (.mac 2) = true ∧ hearing.dev.isMaster = true ∧ linkOpen hearing.dev ∧
    inStack 0x1DFFFFFFE 2 = true ∧ hearing.dev.problemIn .host .write 0x1DFFFFFFE 2 = none ∧
    inStack (stackEnd - 1) 2 = false ∧
    (hearing.dev.tick.xfers.find? (fun x => x.msg = 7 && some x.dev = some (1 : BitVec 16).toNat)).isSome = true ∧
    (∀ r ∈ hearing.dev.tick.colls, r.collId ≠ 3) ∧ hearing.dev.areaTakes 0 1 = true ∧
    tfind hearing.dev.tick.replicas 0 = some { seq := 5, refused := false } ∧
    hearing.dev.slotOf 0 5 = (0x11000, 4096) ∧ inStack (0x11000 + 256) 3840 = true ∧
    hearing.dev.problemIn .host .write (0x11000 + 256) 3840 = none ∧ inStack 0x11000 256 = true ∧
    hearing.dev.problemIn .host .write 0x11000 256 = none ∧
    (imageHeader 1 5 0 0 1 0).length = 256 ∧ imageValid (imageHeader 1 5 0 0 1 0) = true := by
  unfold linkOpen; decide +kernel


/-! ### Share mode -/

/-- The encoding of the base point, and a HELLO of it with a nonce of zeros. -/
def aPoint : List Byte := leBytes 32 46316835694926478169428394003475163141307993866256225615783033603165251855960
def aHello : List Byte := zeroBytes 32 ++ aPoint ++ leBytes 8 9
def unbound : Session :=
  { tag := 9, ep := .mac 2, live := false, hello := aHello, scalar := none, report := [1, 2], reported := false,
    transcript := leBytes 64 77, keyOut := leBytes 32 1, keyIn := leBytes 32 2, seqOut := 0, accepted := [], nextSerial := 0 }
def bound : Session := { unbound with live := true, reported := true, accepted := [0], seqOut := 1, nextSerial := 1 }

/-- A share message of session 3, slot 5, sealed as the key holder seals it. -/
def shMsg (kind : BitVec 8) (seq serial : BitVec 64) (slot : BitVec 12) (round : BitVec 16) (p : List Byte) : ShareMsg :=
  { ep := .mac 2, kind := kind, version := 1, session := 3, slot := slot, round := round, seq := seq, serial := serial,
    bodyLen := .ofNat 32 p.length,
    body := aeadSeal (leBytes 32 2) (shareNonce seq.toNat)
      (shareHeader kind.toNat 3 slot.toNat round.toNat seq.toNat serial.toNat p.length) p }

def meeting (x : Session) (exs : Tbl Exchange) : State :=
  linked fun d => exs.foldl (fun d p => d.putExchange p.1 p.2)
    (d.modSterling fun y => { y with sessions := [(0, bound), (3, x)] })

theorem witness_ShareSessions_hello : (meeting unbound []).dev.phase = .service ∧ linkOpen (meeting unbound []).dev ∧
    aHello.length = 72 ∧ (helloKey aHello).isSome = true ∧ (meeting unbound []).dev.session 1 = none ∧
    (∀ j, j < 1 → (meeting unbound []).dev.session j ≠ none) ∧ (zeroBytes 72).length = 72 ∧
    helloKey (zeroBytes 72) = none ∧ (zeroBytes 71).length ≠ 72 := by
  unfold linkOpen; decide +kernel

theorem witness_ShareSessions_report : (meeting unbound []).dev.session 3 = some unbound ∧ unbound.live = false ∧
    unbound.reported = false ∧ unbound.report ≠ [] ∧
    (meeting { unbound with reported := true } []).dev.session 3 = some { unbound with reported := true } := by decide +kernel

def aBind : ShareMsg := shMsg 3 0 0 0 0 (leBytes 64 77)
/-- Session 0 is live under another tag. -/
def binding : State := linked fun d => d.modSterling fun y =>
  { y with sessions := [(0, { bound with tag := 8 }), (3, { unbound with reported := true })] }

theorem witness_ShareSessions_bind : binding.dev.session aBind.session.toNat = some { unbound with reported := true } ∧
    binding.dev.phase = .service ∧ linkOpen binding.dev ∧
    aBind.kind = 3 ∧ aBind.version = 1 ∧ aBind.seq = 0 ∧ aBind.bodyLen = 64 ∧
    plainOf aBind { unbound with reported := true } = some unbound.transcript ∧
    (∀ p ∈ binding.dev.sterling.sessions, p.1 ≠ aBind.session.toNat → ¬(p.2.live = true ∧ p.2.tag = unbound.tag)) ∧
    (binding.dev.sterling.sessions.map (·.1)).Nodup ∧
    aBind.slot = 0 ∧ aBind.round = 0 ∧ aBind.serial = 0 ∧
    plainOf { aBind with body := zeroBytes 80 } { unbound with reported := true } = none ∧
    (plainOf (shMsg 3 0 0 0 0 (leBytes 64 78)) { unbound with reported := true }).any (fun p => p ≠ unbound.transcript) = true := by
  unfold linkOpen; decide +kernel

/-- An exchange of four elements: function 0, or a maximum of two. -/
def exRecord (function logV layout : Nat) : List Byte :=
  mkRecord 64 [(0, 16, 3), (16, 12, 5), (32, 8, function), (40, 5, 8), (48, 4, 4), (52, 4, 4), (56, 4, logV), (64, 11, 1),
    (80, 11, 1), (96, 16, 20), (116, 6, 1), (128, 8, layout)]
def anEx (function logV layout : Nat) (st : ExchState) : Exchange :=
  { record := exRecord function logV layout, session := 3, serial := 0, sigma := leBytes 32 6, state := st, round := 0,
    sendTick := 100, deadline := 120, sendFrame := 0, parts := 1, layoutIn := .ofNat 8 layout, logN := 3, shares := [1, 2, 3, 4], transcriptIn := [],
    arrived := [], taken := [], lastMsg := [9], lastKind := 0x10, resends := 0 }
def waitingFor (st : ExchState) : State := meeting bound [(5, anEx 0 0 0 st)]

theorem witness_ShareExchanges_refused : (waitingFor .awaitingAck).dev.phase = .service ∧
    shareRow (waitingFor .awaitingAck).dev (.shAck (shMsg 0x11 1 0 5 0 [])) = some (shMsg 0x11 1 0 5 0 [], 0x11, true) ∧
    (waitingFor .awaitingAck).dev.session (shMsg 0x11 1 0 5 0 []).session.toNat = some bound ∧ bound.live = true ∧
    (shMsg 0x11 0 0 5 0 []).seq ∈ bound.accepted ∧
    plainOf { shMsg 0x11 1 0 5 0 [] with body := zeroBytes 16 } bound = none := by decide +kernel

/-- An SH_ACK of another VERSION that opens. -/
def oddAck : ShareMsg :=
  { shMsg 0x11 1 0 5 0 [] with
    version := 2, body := aeadSeal (leBytes 32 2) (shareNonce 1) (shareHeaderOf 2 0x11 3 5 0 1 0 0) [] }

theorem witness_ShareExchanges_version : oddAck.version ≠ 1 ∧ plainOf oddAck bound = some [] ∧
    shareRow (waitingFor .awaitingAck).dev (.shAck oddAck) = some (oddAck, 0x11, true) := by decide +kernel

theorem witness_ShareExchanges_close :
    shareRow (waitingFor .awaitingAck).dev (.shClose (shMsg 0x20 1 0 0 0 [])) = some (shMsg 0x20 1 0 0 0 [], 0x20, true) ∧
    plainOf (shMsg 0x20 1 0 0 0 []) bound = some [] ∧ (shMsg 0x20 1 0 0 0 []).seq ∉ bound.accepted ∧
    shareRow (waitingFor .awaitingAck).dev (.shAbort (shMsg 0x1F 1 0 5 0 [7])) =
      some (shMsg 0x1F 1 0 5 0 [7], 0x1F, true) ∧ plainOf (shMsg 0x1F 1 0 5 0 [7]) bound = some [7] ∧
    (waitingFor .awaitingAck).dev.exchange 5 = some (anEx 0 0 0 .awaitingAck) := by decide +kernel

/-- An output part of the exchange: part 0 at one level. -/
def aPart : List Byte := mkRecord 8 [(16, 8, 1), (32, 16, 60)] ++ zeroBytes (2 * limbBytes 3)

theorem witness_ShareExchanges_parts :
    shareRow (waitingFor .awaitingIn).dev (.shIn (shMsg 0x15 1 0 5 0 aPart)) = some (shMsg 0x15 1 0 5 0 aPart, 0x15, true) ∧
    plainOf (shMsg 0x15 1 0 5 0 aPart) bound = some aPart ∧ aPart.length = (shMsg 0x15 1 0 5 0 aPart).bodyLen.toNat ∧
    partOk (anEx 0 0 0 .awaitingIn) aPart = true ∧ tfind (anEx 0 0 0 .awaitingIn).arrived (fld aPart 0 16) = none ∧
    plainOf (shMsg 0x11 1 0 5 0 [7]) bound = some [7] := by decide +kernel

/-- The device once it has taken an empty SH_ACK, and the two ways its program goes on. -/
def acked (function logV layout : Nat) : Dev :=
  shareTaken (meeting bound [(5, anEx function logV layout .awaitingAck)]).dev (shMsg 0x11 1 0 5 0 []) bound

theorem witness_ShareExchanges_acked : ((acked 0 0 0).spillCheck 5 0x11).2 = true ∧
    ((acked 0 0 0).spillCheck 5 0x11).1.exchange 5 = some (anEx 0 0 0 .awaitingAck) ∧
    plainOf (shMsg 0x11 1 0 5 0 []) bound = some [] ∧
    (match ((acked 0 0 0).spillCheck 5 0x11).1.runShare (anEx 0 0 0 .awaitingAck) with | .ok _ => true | .error _ => false) = true ∧
    ((acked 1 1 0x21).spillCheck 5 0x11).2 = true ∧
    (match ((acked 1 1 0x21).spillCheck 5 0x11).1.runShare (anEx 1 1 0x21 .awaitingAck) with
      | .ok _ => false | .error _ => true) = true := by decide +kernel

/-- The same device with a spill block of the exchange that does not open. -/
theorem witness_ShareExchanges_spoiled :
    (((acked 0 0 0).modSterling fun y => { y with spillOwner := [(0, 5)] }).spillCheck 5 0x11).2 = false := by decide +kernel

/-- A round of a maximum of two: the openings that the device sent, and a reply of as many bytes. -/
def inRound : State := meeting bound [(5, { anEx 1 1 0x21 .inRound with round := 1 })]
def reply : List Byte := zeroBytes (inRound.dev.roundLength (anEx 1 1 0x21 .inRound))

theorem witness_ShareExchanges_reply :
    shareRow inRound.dev (.shReply (shMsg 0x13 1 0 5 1 reply)) = some (shMsg 0x13 1 0 5 1 reply, 0x13, true) ∧
    reply.length = inRound.dev.roundLength { anEx 1 1 0x21 .inRound with round := 1 } ∧ reply.length ≠ 0 ∧
    plainOf (shMsg 0x13 1 0 5 1 reply) bound = some reply := by decide +kernel

theorem witness_ShareExchanges_timers : (waitingFor .inRound).dev.exchange 5 = some (anEx 0 0 0 .inRound) ∧
    (waitingFor .inRound).dev.replaying = false ∧ (anEx 0 0 0 .inRound).resends < (waitingFor .inRound).dev.reg 0x5800 4 ∧
    (waitingFor .inRound).dev.session 3 = some bound ∧ linkOpen (waitingFor .inRound).dev ∧
    (waitingFor .inRound).dev.reg 0x5800 4 ≤ ({ anEx 0 0 0 .inRound with resends := 2 }).resends ∧
    ((anEx 0 0 0 .inRound).state).open_ = true ∧ (anEx 0 0 0 .inRound).deadline = 120 ∧
    ((waitingFor .inRound).dev.setReg 0x2000 9 120).tickNumber = 120 ∧
    ((waitingFor .inRound).dev.setReg 0x2000 9 136).tickNumber = 136 := by
  unfold linkOpen; decide +kernel

/-! ### Single steps -/

/-- General register `r` after a command of core 0. -/
def gAfter (i : Instr) (r : BitVec 5) : Word := ((next i st0).core 0).getG r
/-- Count of an event after a command of core 0. -/
def evAfter (i : Instr) (e : Nat) : Nat := eventCount ((next i st0).core 0) e

-- 08 R252: a sum wraps at 64 bits; differences and comparisons tell signed from unsigned.
theorem test_alu_add_wraps : gAfter (.aluAdd 0 20 10 1) 20 = 4 := by decide +kernel
theorem test_alu_sub_wraps : gAfter (.aluSub 0 1 0 1) 1 = 0xFFFFFFFFFFFFFFFB := by decide +kernel
theorem test_alu_bits : gAfter (.aluAnd 0 20 2 4) 20 = 0x10 ∧ gAfter (.aluOr 0 20 1 4) 20 = 0x15 ∧
    gAfter (.aluXor 0 20 1 4) 20 = 0x14 := by decide +kernel
/-- A shift takes the low six bits of RB: g7 ends in 000001. -/
theorem test_alu_shift_by_six_bits : gAfter (.aluSll 0 20 1 7) 20 = 10 ∧ gAfter (.aluSrl 0 20 10 7) 20 = 0x7FFFFFFFFFFFFFFF ∧
    gAfter (.aluSra 0 20 10 7) 20 = 0xFFFFFFFFFFFFFFFF := by decide +kernel
theorem test_alu_compare : gAfter (.aluSlt 0 20 10 1) 20 = 1 ∧ gAfter (.aluSltu 0 20 10 1) 20 = 0 := by decide +kernel
theorem test_alu_product : gAfter (.aluMul 0 20 10 10) 20 = 1 ∧ gAfter (.aluMulhu 0 20 10 10) 20 = 0xFFFFFFFFFFFFFFFE := by
  decide +kernel
theorem test_divide_by_zero : gAfter (.aluDivu 0 20 1 0) 20 = 0xFFFFFFFFFFFFFFFF ∧ gAfter (.aluRemu 0 20 4 0) 20 = 17 := by
  decide +kernel
theorem test_divide : gAfter (.aluDivu 0 20 4 1) 20 = 3 ∧ gAfter (.aluRemu 0 20 4 1) 20 = 2 := by decide +kernel
/-- ADDI and SLTI extend the sign; the bit operations extend with zeros. -/
theorem test_immediates : gAfter (.addi 0 20 1 0xFFFF) 20 = 4 ∧ gAfter (.andi 0 20 10 0xFFFF) 20 = 0xFFFF ∧
    gAfter (.ori 0 20 0 0x8000) 20 = 0x8000 ∧ gAfter (.xori 0 20 10 0xFFFF) 20 = 0xFFFFFFFFFFFF0000 ∧
    gAfter (.slti 0 20 1 0xFFFF) 20 = 0 := by decide +kernel
theorem test_immediate_shifts : gAfter (.shiLeft 0 20 1 63) 20 = 0x8000000000000000 ∧
    gAfter (.shiLogicalRight 0 20 10 63) 20 = 1 ∧ gAfter (.shiArithmeticRight 0 20 10 63) 20 = 0xFFFFFFFFFFFFFFFF := by
  decide +kernel
theorem test_lui : gAfter (.lui 0 20 0x8001) 20 = 0xFFFFFFFF80010000 := by decide +kernel
theorem test_g0_reads_zero : gAfter (.addi 0 0 1 7) 0 = 0 := by decide +kernel

/-- Core 0 with bytes 0x80 and 0xFF at the start of its data memory. -/
def stored : State := { st0 with dev := (next (.sth 0 1 0 0) (withCore { aCore with g := [(1, 0xFF80), (7, 0x1000000001)] })) }
/-- Loads extend with zeros, in little-endian order; a store takes the low bytes. -/
theorem test_loads : ((next (.ldb 0 20 0 0) stored).core 0).getG 20 = 0x80 ∧ ((next (.ldh 0 20 0 0) stored).core 0).getG 20 = 0xFF80 ∧
    ((next (.ldw 0 20 0 0) stored).core 0).getG 20 = 0xFF80 ∧ ((next (.ldd 0 20 0 0) stored).core 0).getG 20 = 0xFF80 := by
  decide +kernel
theorem test_store_low_byte : ((next (.ldd 0 20 0 0) { st0 with dev := next (.stb 0 7 0 1) stored }).core 0).getG 20 = 0x0180 := by
  decide +kernel
theorem test_branches : ((next (.blt 0 10 1 5) st0).core 0).tin.pc = 28 ∧ ((next (.bltu 0 10 1 5) st0).core 0).tin.pc = 12 ∧
    ((next (.bge 0 1 1 5) st0).core 0).tin.pc = 28 ∧ ((next (.bgeu 0 10 1 5) st0).core 0).tin.pc = 28 := by decide +kernel
/-- JAL writes pc + 4 to g31. -/
theorem test_jal : gAfter (.jal 0 4) 31 = 12 ∧ ((next (.jal 0 4) st0).core 0).tin.pc = 24 := by decide +kernel
theorem test_events : evAfter (.tinSignal 0 2) 2 = 2 ∧ evAfter (.tinSignal 0 1) 1 = 15 ∧ evAfter (.tinWait 0 2) 2 = 0 := by
  decide +kernel
/-- A WAIT on an event at zero stays where it is. -/
theorem test_wait_stays : ((next (.tinWait 0 5) st0).core 0).tin.pc = 8 := by decide +kernel
theorem test_ends : ((next (.tinEnd 0) st0).core 0).tin.run = .retired ∧ ((next (.accEnd 0) st0).core 0).acc.run = .retired ∧
    ((next (.exeEnd 0) st0).core 0).exe.run = .retired := by decide +kernel
theorem test_nops : ((next (.accNop 0) st0).core 0).acc.pc = 16 ∧ ((next (.exeNop 0) st0).core 0).exe.pc = 16 := by
  decide +kernel

/-! ### Arithmetic the spec takes from elsewhere -/

/-- FIPS 180-4, SHA-512 of "abc": the first eight bytes. -/
theorem test_sha512_abc : (sha512 (ascii "abc")).take 8 = ([0xdd, 0xaf, 0x35, 0xa1, 0x93, 0x61, 0x7a, 0xba] : List Byte) := by
  decide +kernel
/-- RFC 8032 section 7.1, test 1: the first eight bytes of the public key. -/
def rfcSeed : List Byte := (beBytes 32 0x9d61b19deffd5a60ba844af492ec2cc44449c5697b326919703bac031cae7f60)
theorem test_ed25519_public : (edPublic rfcSeed).take 8 = ([0xd7, 0x5a, 0x98, 0x01, 0x82, 0xb1, 0x0a, 0xb7] : List Byte) := by
  decide +kernel
/-- RFC 3720 B.4: CRC-32C of 32 bytes of zeros. -/
theorem test_crc32c_zeros : crc32c (zeroBytes 32) = 0x8A9136AA := by decide +kernel
/-- CRC-32C of the digits 1 to 9. -/
theorem test_crc32c_digits : crc32c (ascii "123456789") = 0xE3069283 := by decide +kernel
/-- 02 R31: two words in nine bytes, the lower word first. -/
theorem test_packed_words : packWords [1, 0xFFFFFFFFF] = ([1, 0, 0, 0, 0xF0, 0xFF, 0xFF, 0xFF, 0xFF] : List Byte) := by decide
theorem test_residues : resAdd 17 16 16 = 15 ∧ resSub 17 0 1 = 16 ∧ resNeg 17 0 = 0 ∧ resMul 17 16 16 = 1 := by decide

/-! ### The device around the cores -/

/-- 22 R651. -/
theorem test_idcode : (next .idcode st0).pins.jtagOut = 0xA7200CB1 := by decide +kernel
theorem test_power_on : (next .powerOn State.reset).phase = .held := by decide +kernel
theorem test_bank_wake : (next (.bankWake 255 31) (inPhase .service fun d => d.modCluster 255 fun x =>
    { x with power := [(31, .waking)] })).bankPower 255 31 = .on := by decide +kernel
theorem test_link_up : (next .linkUp st0).linkUp = true := by decide +kernel

end Sys2Proof.Tests
end

section
/-! SUPPORT. The polynomial engine: powers and inverses modulo q, the transforms of 04 R107 and R108 layer by layer, and
base conversion (04 R129). Every value is compared in `ZMod q`, and a canonical word is the value itself. -/

namespace Sys2Proof.Proofs

open Sys2Proof.Machine Sys2Proof.Terms

/-- Canonical words that are equal modulo q are equal. -/
theorem eq_of_cast_eq {q x y : Nat} (hx : x < q) (hy : y < q) (h : (x : ZMod q) = y) : x = y :=
  ((ZMod.natCast_eq_natCast_iff _ _ _).mp h).eq_of_lt_of_lt hx hy

/-! ### Powers -/

theorem powModGo_cast (n b e m acc : Nat) (he : e < 2 ^ n) :
    (powModGo n b e m acc : ZMod m) = acc * (b : ZMod m) ^ e := by
  induction n generalizing b e acc with
  | zero =>
    obtain rfl : e = 0 := by omega
    simp [powModGo]
  | succ n ih =>
    have hhalf : e / 2 < 2 ^ n := by omega
    have hsplit : (b : ZMod m) ^ e = (b * b) ^ (e / 2) * b ^ (e % 2) := by
      rw [← pow_two, ← pow_mul, ← pow_add, Nat.div_add_mod]
    rw [powModGo, ih _ _ _ hhalf, hsplit]
    obtain hbit | hbit := Nat.mod_two_eq_zero_or_one e
    · simp [hbit]
    · simp [hbit]; ring

@[simp] theorem powMod_cast (b e m : Nat) : (powMod b e m : ZMod m) = (b : ZMod m) ^ e := by
  simp [powMod, powModGo_cast _ _ _ _ _ Nat.lt_log2_self]

/-! ### Inverses -/

/-- Each division at least halves the product of the two remainders, so the fuel outlasts the algorithm. -/
theorem egcdGo_fst (n r0 r1 : Nat) (s0 s1 : Int) (hle : r1 ≤ r0) (hfuel : r0 * r1 < 2 ^ n) :
    (egcdGo n r0 r1 s0 s1).1 = Nat.gcd r0 r1 := by
  induction n generalizing r0 r1 s0 s1 with
  | zero =>
    obtain rfl : r1 = 0 := by
      by_contra hpos
      have := Nat.mul_pos (show 0 < r0 by omega) (show 0 < r1 by omega)
      omega
    simp [egcdGo]
  | succ n ih =>
    unfold egcdGo
    split
    · next hzero => simp [hzero]
    · next hpos =>
      have hhalf : 2 * (r0 % r1) ≤ r0 := by
        have := Nat.mod_add_div r0 r1
        have := Nat.mod_lt r0 (show 0 < r1 by omega)
        have := Nat.le_mul_of_pos_right r1 (Nat.div_pos hle (by omega))
        omega
      have hdrop : r1 * (r0 % r1) < 2 ^ n := by
        have := Nat.mul_le_mul_left r1 hhalf
        rw [pow_succ] at hfuel
        nlinarith
      rw [ih _ _ _ _ (Nat.mod_lt r0 (by omega)).le hdrop, Nat.gcd_comm, ← Nat.gcd_rec, Nat.gcd_comm]

/-- Both remainders are multiples of `a` modulo m by their coefficients, and a division keeps this. -/
theorem egcdGo_snd_mul (m a n r0 r1 : Nat) (s0 s1 : Int) (h0 : (s0 * a : ZMod m) = r0) (h1 : (s1 * a : ZMod m) = r1) :
    ((egcdGo n r0 r1 s0 s1).2 * a : ZMod m) = (egcdGo n r0 r1 s0 s1).1 := by
  induction n generalizing r0 r1 s0 s1 with
  | zero => simpa [egcdGo] using h0
  | succ n ih =>
    unfold egcdGo
    split
    · exact h0
    · refine ih _ _ _ _ h1 ?_
      have hdiv : (r0 : ZMod m) = (r0 % r1 : Nat) + r1 * (r0 / r1 : Nat) := by
        exact_mod_cast congrArg (Nat.cast (R := ZMod m)) (Nat.mod_add_div r0 r1).symm
      rw [Int.cast_sub, Int.cast_mul, Int.cast_natCast]
      linear_combination h0 - (r0 / r1 : Nat) * h1 + hdiv

theorem egcdGo_invMod_fst {a m : Nat} (hm : 0 < m) :
    (egcdGo (2 * Nat.log2 m + 4) (a % m) m 1 0).1 = Nat.gcd a m := by
  have hlt : a % m < m := Nat.mod_lt a hm
  have hlog : m < 2 ^ (Nat.log2 m + 1) := Nat.lt_log2_self
  have hfuel : m * (a % m) < 2 ^ (2 * Nat.log2 m + 3) := by
    calc m * (a % m) ≤ m * m := Nat.mul_le_mul_left m hlt.le
      _ < 2 ^ (Nat.log2 m + 1) * 2 ^ (Nat.log2 m + 1) := Nat.mul_lt_mul'' hlog hlog
      _ = 2 ^ (2 * Nat.log2 m + 2) := by rw [← pow_add]; congr 1; omega
      _ < 2 ^ (2 * Nat.log2 m + 3) := Nat.pow_lt_pow_right one_lt_two (by omega)
  rw [egcdGo, if_neg hm.ne', Nat.mod_eq_of_lt hlt, egcdGo_fst _ _ _ _ _ hlt.le hfuel, Nat.gcd_comm, ← Nat.gcd_rec,
    Nat.gcd_comm]

theorem invMod_eq (a m : Nat) : invMod a m =
    if (egcdGo (2 * Nat.log2 m + 4) (a % m) m 1 0).1 = 1
    then ((egcdGo (2 * Nat.log2 m + 4) (a % m) m 1 0).2 % (m : Int)).toNat else 0 := by
  rw [invMod, invMod?, apply_ite (Option.getD · 0)]
  rfl

theorem invMod_lt {m : Nat} (a : Nat) (hm : 0 < m) : invMod a m < m := by
  rw [invMod_eq]
  split
  · have := Int.emod_lt_of_pos (egcdGo (2 * Nat.log2 m + 4) (a % m) m 1 0).2 (Int.natCast_pos.mpr hm)
    omega
  · exact hm

theorem invMod_cast_mul {a m : Nat} (hm : 0 < m) (hcop : Nat.Coprime a m) : (invMod a m * a : ZMod m) = 1 := by
  have hgcd : (egcdGo (2 * Nat.log2 m + 4) (a % m) m 1 0).1 = 1 := (egcdGo_invMod_fst hm).trans hcop
  have hcoef := egcdGo_snd_mul m a (2 * Nat.log2 m + 4) (a % m) m 1 0 (by simp) (by simp)
  have hcast : ∀ z : ℤ, ((z % (m : ℤ)).toNat : ZMod m) = z := fun z => by
    rw [← Int.cast_natCast, Int.toNat_of_nonneg (Int.emod_nonneg _ (by omega)), ZMod.intCast_mod]
  rw [invMod_eq, if_pos hgcd, hcast, hcoef, hgcd, Nat.cast_one]

theorem invMod_eq_of_mul_mod {a m u : Nat} (hm : 1 < m) (hu : u < m) (hau : a * u % m = 1) : invMod a m = u := by
  have hmod : a * u ≡ 1 [MOD m] := hau.trans (Nat.mod_eq_of_lt hm).symm
  have hau' : (a * u : ZMod m) = 1 := by exact_mod_cast (ZMod.natCast_eq_natCast_iff _ _ _).mpr hmod
  have hinv := invMod_cast_mul (by omega) (Nat.coprime_of_mul_modEq_one u hmod)
  have heq : (invMod a m : ZMod m) = u := by linear_combination (u : ZMod m) * hinv - invMod a m * hau'
  exact eq_of_cast_eq (invMod_lt a (by omega)) hu heq

/-! ### Base conversion (04 R129) -/

theorem getD_zipWith (f : Nat → Nat → Nat) {l r : List Nat} {k : Nat} (hl : k < l.length) (hr : k < r.length) :
    (List.zipWith f l r).getD k 0 = f (l.getD k 0) (r.getD k 0) := by
  simp [List.getD_eq_getElem?_getD, hl, hr]

theorem prodList_eq_prod (xs : List Nat) : prodList xs = xs.prod := List.prod_eq_foldl.symm

/-- What a word `x` of the limb under source modulus `s` adds, before the reduction modulo p. -/
def convTerm (qs : List Nat) (p s x : Nat) : Nat :=
  let hat := (qs.filter (· ≠ s)).prod
  x * invMod (hat % s) s % s * (hat % p)

theorem baseConv_eq_foldl (src : List (Nat × List Nat)) (p size : Nat) :
    baseConv src p size = src.foldl (fun acc s =>
      List.zipWith (fun t x => (t + convTerm (src.map (·.1)) p s.1 x) % p) acc s.2) (List.replicate size 0) := by
  simp only [baseConv, convTerm, prodList_eq_prod]

theorem convTerm_eq {qs : List Nat} {s u : Nat} (p x : Nat) (hs : 1 < s) (hu : u < s)
    (hinv : (qs.filter (· ≠ s)).prod * u % s = 1) :
    convTerm qs p s x = x * u % s * ((qs.filter (· ≠ s)).prod % p) := by
  rw [convTerm, invMod_eq_of_mul_mod hs hu (by rwa [Nat.mod_mul_mod])]

/-- Adding limbs one by one modulo p, word by word, leaves each word's sum modulo p. -/
theorem foldl_zipWith_getD (f : Nat → Nat → Nat) {p size k : Nat} (hk : k < size) (src : List (Nat × List Nat))
    (hlen : ∀ s ∈ src, s.2.length = size) (acc : List Nat) (hacc : acc.length = size) (hlt : acc.getD k 0 < p) :
    (src.foldl (fun acc s => List.zipWith (fun t x => (t + f s.1 x) % p) acc s.2) acc).getD k 0 =
      (acc.getD k 0 + (src.map fun s => f s.1 (s.2.getD k 0)).sum) % p := by
  induction src generalizing acc with
  | nil => exact (Nat.mod_eq_of_lt hlt).symm
  | cons s src ih =>
    obtain ⟨hs, hsrc⟩ := List.forall_mem_cons.mp hlen
    have hword := getD_zipWith (fun t x => (t + f s.1 x) % p) (hacc ▸ hk) (hs ▸ hk)
    rw [List.foldl_cons, ih hsrc _ (by simp [hacc, hs]) (hword ▸ Nat.mod_lt _ (by omega)), hword, List.map_cons,
      List.sum_cons, Nat.mod_add_mod, Nat.add_assoc]

/-- Settles O29: each source limb adds its words' terms, and the model's inverse is the one that `up` names. -/
theorem baseConversion : Obligations.BaseConversion := by
  intro src p size k up hp hk _ hsrc hup
  have hlen : ∀ s ∈ src, s.2.length = size := fun s hs => (hsrc s hs).2
  have hzero : (List.replicate size 0).getD k 0 = 0 := by simp
  have hterms := List.map_congr_left fun s hs =>
    convTerm_eq (qs := src.map (·.1)) p (s.2.getD k 0) (hsrc s hs).1 (hup s hs).1 (hup s hs).2
  rw [baseConv_eq_foldl, foldl_zipWith_getD _ hk src hlen _ List.length_replicate (hzero.symm ▸ hp), hterms, hzero,
    Nat.zero_add]

/-! ### The order of the values (04 R107) -/

theorem brv_succ_low (j i : Nat) (hi : i < 2 ^ j) : brv (j + 1) i = 2 * brv j i := by
  induction j generalizing i with
  | zero =>
    obtain rfl : i = 0 := by omega
    rfl
  | succ j ih =>
    have hlow := ih (i / 2) (by omega)
    rw [brv, hlow, brv, pow_succ]
    ring

theorem brv_succ_high (j i : Nat) (hi : i < 2 ^ j) : brv (j + 1) (2 ^ j + i) = 2 * brv j i + 1 := by
  induction j generalizing i with
  | zero =>
    obtain rfl : i = 0 := by omega
    rfl
  | succ j ih =>
    have hhigh := ih (i / 2) (by omega)
    have hhalf : (2 ^ (j + 1) + i) / 2 = 2 ^ j + i / 2 := by omega
    have hbit : (2 ^ (j + 1) + i) % 2 = i % 2 := by omega
    rw [brv, hhalf, hbit, hhigh, brv, pow_succ]
    ring

/-- The power of ψ at which word `i` of the values modulo X^(2^k) - ψ^e stands. -/
def rootExp (k e i : Nat) : Nat := e / 2 ^ k + 2 ^ (18 - k) * brv k i

theorem rootExp_succ_low {j i : Nat} (e : Nat) (hj : j < 17) (hi : i < 2 ^ j) :
    rootExp (j + 1) e i = rootExp j (e / 2) i := by
  have hstep : 2 ^ (18 - j) = 2 ^ (18 - (j + 1)) * 2 := by rw [← pow_succ]; congr 1; omega
  rw [rootExp, rootExp, brv_succ_low j i hi, Nat.div_div_eq_div_mul, pow_succ', hstep]
  ring

theorem rootExp_succ_high {j i : Nat} (e : Nat) (hj : j < 17) (hi : i < 2 ^ j) :
    rootExp (j + 1) e (2 ^ j + i) = rootExp j (e / 2 + 2 ^ 17) i := by
  have hstep : 2 ^ (18 - j) = 2 ^ (18 - (j + 1)) * 2 := by rw [← pow_succ]; congr 1; omega
  have hdiv : (e / 2 + 2 ^ 17) / 2 ^ j = e / 2 ^ (j + 1) + 2 ^ (18 - (j + 1)) := by
    rw [Nat.add_div_of_dvd_left (Nat.pow_dvd_pow 2 hj.le), Nat.div_div_eq_div_mul, ← pow_succ',
      Nat.pow_div hj.le two_pos]
    congr 2; omega
  rw [rootExp, rootExp, brv_succ_high j i hi, hdiv, hstep]
  ring

/-- The points of the values modulo X^(2^k) - w^e are 2^k-th roots of w^e. -/
theorem pow_rootExp {R : Type} [CommRing R] {w : R} (hw : w ^ 2 ^ 17 = -1) {k e : Nat} (i : Nat) (hk : k ≤ 17)
    (he : 2 ^ k ∣ e) : (w ^ rootExp k e i) ^ 2 ^ k = w ^ e := by
  have hw18 : w ^ 2 ^ 18 = 1 := by rw [pow_succ 2 17, pow_mul, hw]; ring
  have hexp : rootExp k e i * 2 ^ k = e + 2 ^ 18 * brv k i := by
    calc rootExp k e i * 2 ^ k = e / 2 ^ k * 2 ^ k + 2 ^ (18 - k) * 2 ^ k * brv k i := by rw [rootExp]; ring
      _ = e + 2 ^ 18 * brv k i := by rw [Nat.div_mul_cancel he, ← pow_add, Nat.sub_add_cancel (by omega)]
  rw [← pow_mul, hexp, pow_add, pow_mul, hw18, one_pow, mul_one]

/-! ### Butterflies -/

/-- The first outputs x + t × y of a forward layer with twiddle `t` on a limb of 2m words (04 R109, Cooley–Tukey). -/
def ctSum (q t m : Nat) (a : List Nat) : List Nat :=
  List.zipWith (fun x y => (x + t * y) % q) (a.take m) (a.drop m)

/-- The second outputs x - t × y of that layer. -/
def ctDiff (q t m : Nat) (a : List Nat) : List Nat :=
  List.zipWith (fun x y => (x + (q - t * y % q)) % q) (a.take m) (a.drop m)

/-- The first outputs x + y of an inverse layer (04 R109, Gentleman–Sande), halved: `h` is the inverse of 2. -/
def gsSum (q h : Nat) (x y : List Nat) : List Nat := List.zipWith (fun x y => (x + y) * h % q) x y

/-- The second outputs (x - y) × t of that layer, halved. -/
def gsDiff (q t h : Nat) (x y : List Nat) : List Nat := List.zipWith (fun x y => (x + (q - y)) * t % q * h % q) x y

theorem nttLayers_succ (j q w e : Nat) (a : List Nat) : nttLayers (j + 1) q w e a =
    nttLayers j q w (e / 2) (ctSum q (powMod w (e / 2) q) (2 ^ j) a) ++
      nttLayers j q w (e / 2 + 2 ^ 17) (ctDiff q (powMod w (e / 2) q) (2 ^ j) a) := rfl

theorem inttLayers_succ (j q w e : Nat) (a : List Nat) : inttLayers (j + 1) q w e a =
    let x := inttLayers j q w (e / 2) (a.take (2 ^ j))
    let y := inttLayers j q w (e / 2 + 2 ^ 17) (a.drop (2 ^ j))
    gsSum q ((q + 1) / 2) x y ++ gsDiff q (invMod (powMod w (e / 2) q) q) ((q + 1) / 2) x y := rfl

theorem length_ctSum {m : Nat} {a : List Nat} (q t : Nat) (ha : a.length = m + m) : (ctSum q t m a).length = m := by
  simp [ctSum, ha]

theorem length_ctDiff {m : Nat} {a : List Nat} (q t : Nat) (ha : a.length = m + m) : (ctDiff q t m a).length = m := by
  simp [ctDiff, ha]

theorem sumWord_cast (q t x y : Nat) : (((x + t * y) % q : Nat) : ZMod q) = x + t * y := by
  simp

theorem diffWord_cast {q : Nat} (t x y : Nat) (hq : 0 < q) :
    (((x + (q - t * y % q)) % q : Nat) : ZMod q) = x - t * y := by
  rw [ZMod.natCast_mod, Nat.cast_add, Nat.cast_sub (Nat.mod_lt _ hq).le, ZMod.natCast_mod, ZMod.natCast_self]
  push_cast
  ring

/-! ### The forward transform (04 R107) -/

/-- The value at `x` of the polynomial whose coefficients are the words of a limb. -/
def limbValue {q : Nat} (a : List Nat) (x : ZMod q) : ZMod q :=
  ∑ j ∈ Finset.range a.length, (a.getD j 0 : ZMod q) * x ^ j

/-- A layer reduces the polynomial modulo X^m - c, so its value at an m-th root of c stays the same. -/
theorem limbValue_butterfly {q m : Nat} {a : List Nat} {c x : ZMod q} (f : Nat → Nat → Nat) (ha : a.length = m + m)
    (hf : ∀ u v, (f u v : ZMod q) = u + c * v) (hx : x ^ m = c) :
    limbValue (List.zipWith f (a.take m) (a.drop m)) x = limbValue a x := by
  have hlen : (List.zipWith f (a.take m) (a.drop m)).length = m := by simp [ha]
  rw [limbValue, limbValue, hlen, ha, Finset.sum_range_add, ← Finset.sum_add_distrib]
  refine Finset.sum_congr rfl fun i hi => ?_
  have him : i < m := Finset.mem_range.mp hi
  have hword : (List.zipWith f (a.take m) (a.drop m)).getD i 0 = f (a.getD i 0) (a.getD (m + i) 0) := by
    rw [getD_zipWith f (by simp [ha, him]) (by simp [ha, him])]
    simp [List.getD_eq_getElem?_getD, him]
  rw [hword, hf, pow_add, hx]
  ring

theorem length_nttLayers (k q w e : Nat) (a : List Nat) (ha : a.length = 2 ^ k) :
    (nttLayers k q w e a).length = 2 ^ k := by
  induction k generalizing e a with
  | zero => simpa [nttLayers] using ha
  | succ j ih =>
    have hhalves : a.length = 2 ^ j + 2 ^ j := by omega
    rw [nttLayers_succ, List.length_append, ih _ _ (length_ctSum _ _ hhalves), ih _ _ (length_ctDiff _ _ hhalves)]
    omega

theorem nttLayers_canonical {q : Nat} (hq : 0 < q) (k w e : Nat) (a : List Nat) :
    ∀ x ∈ nttLayers k q w e a, x < q := by
  induction k generalizing e a with
  | zero =>
    intro x hx
    obtain ⟨y, -, rfl⟩ := List.mem_map.mp hx
    exact Nat.mod_lt y hq
  | succ j ih =>
    intro x hx
    rw [nttLayers_succ, List.mem_append] at hx
    exact hx.elim (ih _ _ x) (ih _ _ x)

/-- Word `i` of the layers modulo X^(2^k) - w^e is the value at the i-th root of w^e in bit-reversed order. -/
theorem nttLayers_value {q w : Nat} (hq : 0 < q) (hw : (w : ZMod q) ^ 2 ^ 17 = -1) {k e i : Nat} {a : List Nat}
    (hk : k ≤ 17) (he : 2 ^ k ∣ e) (ha : a.length = 2 ^ k) (hi : i < 2 ^ k) :
    ((nttLayers k q w e a).getD i 0 : ZMod q) = limbValue a ((w : ZMod q) ^ rootExp k e i) := by
  induction k generalizing e i a with
  | zero =>
    obtain rfl : i = 0 := by omega
    obtain ⟨c, rfl⟩ := List.length_eq_one_iff.mp ha
    simp [nttLayers, limbValue]
  | succ j ih =>
    have hhalves : a.length = 2 ^ j + 2 ^ j := by omega
    have hsum := length_ctSum q (powMod w (e / 2) q) hhalves
    have hdiff := length_ctDiff q (powMod w (e / 2) q) hhalves
    have hdvd : 2 ^ j ∣ e / 2 := Nat.dvd_div_of_mul_dvd (by rwa [← pow_succ'])
    have hdvd' : 2 ^ j ∣ e / 2 + 2 ^ 17 := Nat.dvd_add hdvd (Nat.pow_dvd_pow 2 (by omega))
    have hleft := length_nttLayers j q w (e / 2) _ hsum
    rw [nttLayers_succ]
    obtain hlow | hhigh := Nat.lt_or_ge i (2 ^ j)
    · rw [List.getD_append _ _ _ _ (hleft.symm ▸ hlow), ih (by omega) hdvd hsum hlow,
        rootExp_succ_low e (by omega) hlow]
      refine limbValue_butterfly (c := (w : ZMod q) ^ (e / 2)) _ hhalves (fun u v => ?_)
        (pow_rootExp hw i (by omega) hdvd)
      rw [sumWord_cast, powMod_cast]
    · obtain ⟨i, rfl⟩ := Nat.exists_eq_add_of_le hhigh
      have hi' : i < 2 ^ j := by omega
      have hc : (w : ZMod q) ^ (e / 2 + 2 ^ 17) = -(w : ZMod q) ^ (e / 2) := by rw [pow_add, hw, mul_neg_one]
      rw [List.getD_append_right _ _ _ _ (hleft.symm ▸ hhigh), hleft, Nat.add_sub_cancel_left,
        ih (by omega) hdvd' hdiff hi', rootExp_succ_high e (by omega) hi']
      refine limbValue_butterfly (c := -(w : ZMod q) ^ (e / 2)) _ hhalves (fun u v => ?_)
        ((pow_rootExp hw i (by omega) hdvd').trans hc)
      rw [diffWord_cast _ _ _ hq, powMod_cast]
      ring

/-- ψ^(2^17) = -1 modulo q (02 R51), as the statements write it. -/
theorem cast_pow_eq_neg_one {b m q : Nat} (hq : 1 < q) (h : b ^ m % q = q - 1) : (b : ZMod q) ^ m = -1 := by
  rw [← Nat.cast_pow, ← ZMod.natCast_mod, h, Nat.cast_sub hq.le, ZMod.natCast_self, Nat.cast_one, zero_sub]

/-- ψ^rootExp is the (2 brv_n(k) + 1)-th power of the 2N-th root of unity. -/
theorem psiN_pow_eq (q : Nat) {n : Nat} (k : Nat) (hn : n ≤ 17) :
    (psiN q n : ZMod q) ^ (2 * brv n k + 1) = (psiOf q : ZMod q) ^ rootExp n (2 ^ 17) k := by
  have hstep : 2 ^ (18 - n) = 2 ^ (17 - n) * 2 := by rw [← pow_succ]; congr 1; omega
  rw [psiN, powMod_cast, ← pow_mul, rootExp, Nat.pow_div hn two_pos, hstep]
  congr 1
  ring

/-- Settles O27: each layer splits the values at the roots of ψ^e into those at the roots of its two square roots. -/
theorem nttEvaluates : Obligations.NttEvaluates := by
  intro n q a hn hq hpsi ha k hk
  have hvalue := nttLayers_value (by omega) (cast_pow_eq_neg_one hq hpsi) hn (Nat.pow_dvd_pow 2 hn) ha hk
  have hlen := length_nttLayers n q (psiOf q) (2 ^ 17) a ha
  have hlt : (ntt n q a).getD k 0 < q := by
    rw [ntt, List.getD_eq_getElem _ _ (hlen ▸ hk)]
    exact nttLayers_canonical (by omega) _ _ _ _ _ (List.getElem_mem _)
  rw [← Nat.mod_eq_of_lt hlt, ← ZMod.natCast_eq_natCast_iff', ntt, hvalue, limbValue, ha, Nat.cast_sum]
  refine Finset.sum_congr rfl fun j _ => ?_
  rw [Nat.cast_mul, Nat.cast_pow, pow_mul, psiN_pow_eq q k hn]

/-! ### The inverse transform (04 R108) -/

theorem half_cast {q : Nat} (hodd : q % 2 = 1) : (((q + 1) / 2 : Nat) : ZMod q) * 2 = 1 := by
  have htwo : (q + 1) / 2 * 2 = q + 1 := by omega
  simpa using congrArg (Nat.cast (R := ZMod q)) htwo

/-- The inverse layer's sum of the two outputs of a forward butterfly is its first input. -/
theorem gsSum_word {q x : Nat} (t y : Nat) (hodd : q % 2 = 1) (hx : x < q) :
    ((x + t * y) % q + (x + (q - t * y % q)) % q) * ((q + 1) / 2) % q = x := by
  have hq : 0 < q := by omega
  refine eq_of_cast_eq (Nat.mod_lt _ hq) hx ?_
  rw [ZMod.natCast_mod, Nat.cast_mul, Nat.cast_add, sumWord_cast, diffWord_cast _ _ _ hq]
  linear_combination (x : ZMod q) * half_cast hodd

/-- The inverse layer's difference of them, by the inverse twiddle, is its second input. -/
theorem gsDiff_word {q t ti y : Nat} (x : Nat) (hodd : q % 2 = 1) (hy : y < q) (ht : (ti * t : ZMod q) = 1) :
    ((x + t * y) % q + (q - (x + (q - t * y % q)) % q)) * ti % q * ((q + 1) / 2) % q = y := by
  have hq : 0 < q := by omega
  refine eq_of_cast_eq (Nat.mod_lt _ hq) hy ?_
  rw [ZMod.natCast_mod, Nat.cast_mul, ZMod.natCast_mod, Nat.cast_mul, Nat.cast_add, Nat.cast_sub (Nat.mod_lt _ hq).le,
    sumWord_cast, diffWord_cast _ _ _ hq, ZMod.natCast_self]
  linear_combination (y : ZMod q) * half_cast hodd + y * 2 * ((q + 1) / 2 : Nat) * ht

theorem gsSum_ct {q m : Nat} {a : List Nat} (t : Nat) (hodd : q % 2 = 1) (ha : a.length = m + m)
    (hcan : ∀ x ∈ a, x < q) : gsSum q ((q + 1) / 2) (ctSum q t m a) (ctDiff q t m a) = a.take m := by
  refine List.ext_getElem (by simp [gsSum, length_ctSum q t ha, length_ctDiff q t ha, ha]) fun i hi _ => ?_
  simp only [gsSum, ctSum, ctDiff, List.getElem_zipWith]
  exact gsSum_word _ _ hodd (hcan _ (List.mem_of_mem_take (List.getElem_mem _)))

theorem gsDiff_ct {q m t ti : Nat} {a : List Nat} (hodd : q % 2 = 1) (ha : a.length = m + m) (hcan : ∀ x ∈ a, x < q)
    (ht : (ti * t : ZMod q) = 1) : gsDiff q ti ((q + 1) / 2) (ctSum q t m a) (ctDiff q t m a) = a.drop m := by
  refine List.ext_getElem (by simp [gsDiff, length_ctSum q t ha, length_ctDiff q t ha, ha]) fun i hi _ => ?_
  simp only [gsDiff, ctSum, ctDiff, List.getElem_zipWith]
  exact gsDiff_word _ hodd (hcan _ (List.mem_of_mem_drop (List.getElem_mem _))) ht

theorem mem_zipWith_mod_lt {q : Nat} (hq : 0 < q) (f : Nat → Nat → Nat) (l r : List Nat) :
    ∀ x ∈ List.zipWith (fun u v => f u v % q) l r, x < q := by
  intro x hx
  obtain ⟨i, hi, rfl⟩ := List.getElem_of_mem hx
  rw [List.getElem_zipWith]
  exact Nat.mod_lt _ hq

/-- A twiddle is a power of a unit, so the model finds its inverse. -/
theorem invMod_powMod_mul {q w : Nat} (e : Nat) (hq : 0 < q) (hw : (w : ZMod q) ^ 2 ^ 17 = -1) :
    (invMod (powMod w e q) q * powMod w e q : ZMod q) = 1 := by
  have hunit : IsUnit (w : ZMod q) := (isUnit_pow_iff (pow_ne_zero 17 two_ne_zero)).mp (hw ▸ isUnit_one.neg)
  refine invMod_cast_mul hq ((ZMod.isUnit_iff_coprime _ _).mp ?_)
  rw [powMod_cast]
  exact hunit.pow e

theorem inttLayers_nttLayers {q w : Nat} (hodd : q % 2 = 1) (hw : (w : ZMod q) ^ 2 ^ 17 = -1) (k e : Nat) (a : List Nat)
    (ha : a.length = 2 ^ k) (hcan : ∀ x ∈ a, x < q) : inttLayers k q w e (nttLayers k q w e a) = a := by
  have hq : 0 < q := by omega
  induction k generalizing e a with
  | zero =>
    have hword : ∀ x ∈ a, ((· % q) ∘ (· % q)) x = id x := fun x hx => by simp [Nat.mod_eq_of_lt (hcan x hx)]
    rw [inttLayers, nttLayers, List.map_map, List.map_congr_left hword, List.map_id]
  | succ j ih =>
    have hhalves : a.length = 2 ^ j + 2 ^ j := by omega
    have hsum := length_ctSum q (powMod w (e / 2) q) hhalves
    have hdiff := length_ctDiff q (powMod w (e / 2) q) hhalves
    have hleft := length_nttLayers j q w (e / 2) _ hsum
    rw [nttLayers_succ, inttLayers_succ, List.take_left' hleft, List.drop_left' hleft,
      ih _ _ hsum (mem_zipWith_mod_lt hq _ _ _), ih _ _ hdiff (mem_zipWith_mod_lt hq _ _ _)]
    dsimp only
    rw [gsSum_ct _ hodd hhalves hcan, gsDiff_ct hodd hhalves hcan (invMod_powMod_mul _ hq hw), List.take_append_drop]

/-- Settles O28: each inverse layer undoes the forward layer with the same twiddle, from the last layer to the first. -/
theorem inttInverts : Obligations.InttInverts := by
  intro n q a _ hq hodd hpsi ha hcan
  exact inttLayers_nttLayers hodd (cast_pow_eq_neg_one hq hpsi) n (2 ^ 17) a ha hcan

end Sys2Proof.Proofs
end

section
/-! SUPPORT. The commands of one core: what is left of the device when a program waits, goes on or faults, then Tin's
control registers (08 R253, R254), events (08 R255, R256) and LOOP (08 R277-R279). -/

namespace Sys2Proof.Proofs

open Sys2Proof.Machine Sys2Proof.Terms

/-! ### A command that only sets its core -/

theorem setCore_setCore (d : Dev) (n : Nat) (b c : Core) : (d.setCore n b).setCore n c = d.setCore n c :=
  d.modCore_modCore n (fun _ => b) (fun _ => c)

/-- A command that sets core `n` changes nothing else. -/
theorem exec_setCore {i : Instr} {s : State} {n : Nat} {c : Core} {f : Dev → Dev} (hexec : exec i s = s.onDev f)
    (hf : f s.dev = s.dev.setCore n c) : ∃ t, exec i s = .next t ∧ OnlyCore s t n ∧ t.dev.core n = c := by
  rw [hexec, State.onDev_eq, hf]
  exact ⟨_, rfl, ⟨rfl, fun _ hm => s.dev.core_setCore_other c hm⟩, s.dev.core_setCore_same n c⟩

theorem exec_faultHere {i : Instr} {s : State} {n : Nat} {p : Program} {reason : BitVec 8} {f : Dev → Dev}
    (hexec : exec i s = s.onDev f) (hf : f s.dev = s.dev.faultHere n p reason) :
    exec i s = .next (s.withDev (s.dev.programFault n p reason ((s.dev.core n).prog p).pc)) := by
  rw [hexec, State.onDev_eq, hf, Dev.faultHere]

theorem await_eq_setCore (d : Dev) (n : Nat) (p : Program) (ws : List Wait) :
    d.await n p ws = d.setCore n (waiting (d.core n) p ws) := rfl

theorem checkPc_setCore (d : Dev) {n : Nat} {p : Program} {c : Core} (hp : p ≠ .tin) (h : pcIn 8 (c.prog p).pc) :
    (d.setCore n c).checkPc n p = d.setCore n c := by
  have hcore := d.core_setCore_same n c
  exact Dev.checkPc_stream _ hp (hcore.symm ▸ h.1) (hcore.symm ▸ h.2)

theorem tinGo_setCore (d : Dev) {n pc : Nat} (c : Core) (h : pcIn 4 pc) :
    (d.setCore n c).tinGo n pc = d.setCore n (tinAt c pc) := by
  rw [Dev.tinGo_eq _ h.1 h.2, Dev.modCore, Dev.core_setCore_same, setCore_setCore, tinAt]

theorem streamGo_setCore (d : Dev) {n : Nat} {p : Program} {c : Core} (hp : p ≠ .tin)
    (h : pcIn 8 (c.prog p).retire.pc) : (d.setCore n c).streamGo n p = d.setCore n (c.setProg p (c.prog p).retire) := by
  have hgo : pcIn 8 ((c.setProg p (c.prog p).retire).prog p).pc := by rwa [Core.prog_setProg]
  rw [Dev.streamGo, Dev.modCore, Dev.core_setCore_same, setCore_setCore, checkPc_setCore d hp hgo]

/-- A program whose next instruction lies in the half moves on to it, and nothing else happens (08 R278, R283). -/
theorem goOn_setCore (d : Dev) {n : Nat} {p : Program} {c : Core} (h : goesOn c p) :
    (d.setCore n c).goOn n p = d.setCore n (advanced c p) := by
  cases p with
  | tin => rw [Dev.goOn, Dev.core_setCore_same, tinGo_setCore d c h, advanced]
  | access => exact streamGo_setCore d nofun h
  | execute => exact streamGo_setCore d nofun h

/-! ### Control registers (08 R253, R254) -/

@[simp] theorem setG_tin (c : Core) (r : BitVec 5) (v : Word) : (c.setG r v).tin = c.tin := by
  unfold Core.setG; split <;> rfl

theorem tinResult_eq_setCore (d : Dev) {n : Nat} (rd : BitVec 5) (v : Word) (hpc : goesOn (d.core n) .tin) :
    d.tinResult n rd v = d.setCore n (tinAt ((d.core n).setG rd v) ((d.core n).tin.pc + 4)) := by
  have hgo : goesOn ((d.core n).setG rd v) .tin := by rwa [goesOn, setG_tin]
  rw [Dev.tinResult, Dev.modCore, goOn_setCore d hgo, advanced, setG_tin]

/-- A register reads back what was written to it; g0 reads zero (08 R251). -/
theorem wroteG_setG (c : Core) (rd : BitVec 5) (v : Word) (pc : Nat) : WroteG c (tinAt (c.setG rd v) pc) rd v pc := by
  refine ⟨?_, fun r => (Core.getG_setG c rd r v).trans ?_⟩
  · unfold Core.setG
    split <;> rfl
  · have hzero : (r = rd ∧ rd ≠ 0) ↔ (r = rd ∧ r ≠ 0) := and_congr_right fun h => by rw [h]
    simp only [hzero]

theorem controlReg_absent (d : Dev) (n : Nat) (c : Core) {k : Nat} (hk : k = 8 ∨ 9 < k) : d.controlReg n c k = 0 := by
  unfold Dev.controlReg
  split
  case h_10 => rfl
  all_goals omega

theorem callRuns_of_call_none {d : Dev} {n : Nat} (h : (d.core n).call = none) : d.callRuns n = false := by
  simp [Dev.callRuns, h]

section
variable {d : Dev} {n : Nat} (hmay : d.mayIssue n .tin = true)
include hmay

theorem selectSet_of_live {v : Word} (hcall : (d.core n).call = none) (hpc : goesOn (d.core n) .tin)
    (hv : v.toNat < 16 ∧ (d.live v.toNat).isSome = true) : d.selectSet n v =
      d.setCore n (advanced { d.core n with activeSet := some v.toNat, lastSel := 0 } .tin) := by
  rw [Dev.selectSet, Dev.issue_may d hmay, if_neg (by simp [callRuns_of_call_none hcall]), if_pos hv]
  exact goOn_setCore d hpc

theorem selectSet_of_not_live {v : Word} (hcall : (d.core n).call = none) (hpc : goesOn (d.core n) .tin)
    (hv : ¬(v.toNat < 16 ∧ (d.live v.toNat).isSome = true)) : d.selectSet n v =
      d.setCore n (advanced { d.core n with lastSel := 0x13 } .tin) := by
  rw [Dev.selectSet, Dev.issue_may d hmay, if_neg (by simp [callRuns_of_call_none hcall]), if_neg hv]
  exact goOn_setCore d hpc

theorem controlWrite_logN {ra : BitVec 5} (hpc : goesOn (d.core n) .tin)
    (hv : 12 ≤ ((d.core n).getG ra).toNat ∧ ((d.core n).getG ra).toNat ≤ 17) : d.controlWrite n ra 4 =
      d.setCore n (advanced { d.core n with logN := ((d.core n).getG ra).toNat } .tin) := by
  rw [Dev.controlWrite, Dev.issue_may d hmay, if_pos hv]
  exact goOn_setCore d hpc

theorem controlWrite_logN_out_of_range {ra : BitVec 5}
    (hv : ¬(12 ≤ ((d.core n).getG ra).toNat ∧ ((d.core n).getG ra).toNat ≤ 17)) :
    d.controlWrite n ra 4 = d.faultHere n .tin 0x0B := by
  rw [Dev.controlWrite, Dev.issue_may d hmay, if_neg hv]

theorem controlWrite_not_writable {ra : BitVec 5} {k : Nat} (hk : k ≠ 3 ∧ k ≠ 4 ∧ k ≠ 8) :
    d.controlWrite n ra k = d.faultHere n .tin 0x0B := by
  obtain ⟨hpset, hlogN, hown⟩ := hk
  unfold Dev.controlWrite
  split
  case h_4 => exact Dev.issue_may d hmay _
  all_goals contradiction

end

/-- Settles O10: both rows of PSET are one selection of a set, and CRW has a meaning at three indices only. -/
theorem controlRegisterWrite : Obligations.ControlRegisterWrite := by
  intro s n ra k hmay v pc
  have hcrw (k : BitVec 8) : exec (.crw n ra k) s = s.onDev fun d => d.controlWrite n ra k.toNat := rfl
  refine ⟨?logN, ?pset, ?fault, ?absent⟩
  case logN =>
    rintro rfl hlo hhi hpc
    exact exec_setCore (hcrw 4) (controlWrite_logN hmay hpc ⟨hlo, hhi⟩)
  case pset =>
    intro i hi hpc hcall
    have hexec : exec i s = s.onDev fun d => d.selectSet n ((d.core n).getG ra) := by obtain rfl | rfl := hi <;> rfl
    by_cases hv : v < 16 ∧ (s.dev.live v).isSome = true
    · obtain ⟨t, ht, honly, hcore⟩ := exec_setCore hexec (selectSet_of_live hmay hcall hpc hv)
      exact ⟨t, ht, honly, fun _ => hcore, fun h => absurd hv h⟩
    · obtain ⟨t, ht, honly, hcore⟩ := exec_setCore hexec (selectSet_of_not_live hmay hcall hpc hv)
      exact ⟨t, ht, honly, fun h => absurd h hv, fun _ => hcore⟩
  case fault =>
    rintro (⟨rfl, hv⟩ | hk)
    · exact exec_faultHere (hcrw 4) (controlWrite_logN_out_of_range hmay hv)
    · refine exec_faultHere (hcrw k) (controlWrite_not_writable hmay ?_)
      bv_omega
  case absent =>
    intro rd hk hpc
    have hread : s.dev.controlReg n (s.dev.core n) k.toNat = 0 := controlReg_absent _ _ _ (by bv_omega)
    have hcrr : exec (.crr n rd k) s =
        s.onDev fun d => d.issue n .tin fun c => d.tinResult n rd (d.controlReg n c k.toNat) := rfl
    obtain ⟨t, ht, honly, hcore⟩ := exec_setCore hcrr
      (by rw [Dev.issue_may _ hmay, hread, tinResult_eq_setCore _ rd 0 hpc])
    exact ⟨t, ht, honly, hcore ▸ wroteG_setG _ rd 0 pc⟩

/-! ### Events (08 R255, R256) -/

/-- A core with the count of one event replaced. -/
def setEvent (c : Core) (e : Nat) (v : BitVec 4) : Core := { c with events := tset c.events e v }

theorem eventCount_setEvent (c : Core) (e : Nat) (v : BitVec 4) (k : Nat) :
    eventCount (setEvent c e v) k = if k = e then v.toNat else eventCount c k := by
  rw [eventCount, setEvent, tget_tset, apply_ite BitVec.toNat, eventCount]

theorem goesOn_setEvent {c : Core} {p : Program} (e : Nat) (v : BitVec 4) (h : goesOn c p) :
    goesOn (setEvent c e v) p := by
  cases p <;> exact h

theorem events_advanced (c : Core) (p : Program) : (advanced c p).events = c.events := by
  cases p <;> rfl

theorem advanced_setEvent (c : Core) (p : Program) (e : Nat) (v : BitVec 4) : advanced (setEvent c e v) p =
    advanced { c with events := (advanced (setEvent c e v) p).events } p := by
  rw [events_advanced, setEvent]

/-- A command that sets one event and goes on, with the count the statements compare. -/
theorem exec_setEvent {i : Instr} {s : State} {n e : Nat} {p : Program} {v : BitVec 4} {f : Dev → Dev} {g : Nat → Nat}
    (hexec : exec i s = s.onDev f) (hf : f s.dev = s.dev.setCore n (advanced (setEvent (s.dev.core n) e v) p))
    (hv : v.toNat = g (eventCount (s.dev.core n) e)) :
    ∃ t, exec i s = .next t ∧ OnlyCore s t n ∧
      t.dev.core n = advanced { s.dev.core n with events := (t.dev.core n).events } p ∧
      ∀ k, eventCount (t.dev.core n) k =
        if k = e then g (eventCount (s.dev.core n) k) else eventCount (s.dev.core n) k := by
  obtain ⟨t, ht, honly, hcore⟩ := exec_setCore hexec hf
  refine ⟨t, ht, honly, hcore ▸ advanced_setEvent _ p e v, fun k => ?_⟩
  rw [hcore, eventCount, events_advanced, ← eventCount, eventCount_setEvent]
  split
  case isTrue hk => rw [hv, hk]
  case isFalse => rfl

theorem exec_signalRow {i : Instr} {n : Nat} {p : Program} {e : BitVec 4} (hi : signalRow i = some (n, p, e))
    (s : State) : exec i s = s.onDev fun d => d.signal n p e := by
  unfold signalRow at hi
  split at hi <;> cases hi <;> rfl

theorem exec_waitRow {i : Instr} {n : Nat} {p : Program} {e : BitVec 4} (hi : waitRow i = some (n, p, e)) (s : State) :
    exec i s = s.onDev fun d => d.waitEvent n p e := by
  unfold waitRow at hi
  split at hi <;> cases hi <;> rfl

section
variable {d : Dev} {n : Nat} {p : Program} {e : BitVec 4} (hmay : d.mayIssue n p = true)
include hmay

theorem signal_of_count_lt (hlt : eventCount (d.core n) e.toNat < 15) (hgo : goesOn (d.core n) p) : d.signal n p e =
    d.setCore n (advanced (setEvent (d.core n) e.toNat (tget (d.core n).events e.toNat 0 + 1)) p) := by
  have hroom : tget (d.core n).events e.toNat 0 ≠ 15 := fun h => hlt.ne (congrArg BitVec.toNat h)
  rw [Dev.signal, Dev.issue_may d hmay, Core.signal?, if_neg hroom]
  exact goOn_setCore d (goesOn_setEvent _ _ hgo)

theorem signal_of_count_full (hfull : eventCount (d.core n) e.toNat = 15) :
    d.signal n p e = d.faultHere n p 0x07 := by
  have hcount : tget (d.core n).events e.toNat 0 = 15 := BitVec.eq_of_toNat_eq hfull
  rw [Dev.signal, Dev.issue_may d hmay, Core.signal?, if_pos hcount]

theorem waitEvent_of_count_pos (hpos : 0 < eventCount (d.core n) e.toNat) (hgo : goesOn (d.core n) p) :
    d.waitEvent n p e =
      d.setCore n (advanced (setEvent (d.core n) e.toNat (tget (d.core n).events e.toNat 0 - 1)) p) := by
  have hset : tget (d.core n).events e.toNat 0 ≠ 0 := fun h => hpos.ne' (congrArg BitVec.toNat h)
  rw [Dev.waitEvent, Dev.issue_may d hmay, if_neg hset]
  exact goOn_setCore d (goesOn_setEvent _ _ hgo)

theorem waitEvent_of_count_zero (hzero : eventCount (d.core n) e.toNat = 0) :
    d.waitEvent n p e = d.setCore n (waiting (d.core n) p [.event e.toNat]) := by
  have hcount : tget (d.core n).events e.toNat 0 = 0 := BitVec.eq_of_toNat_eq hzero
  rw [Dev.waitEvent, Dev.issue_may d hmay, if_pos hcount, await_eq_setCore]

end

/-- Settles O12: the four-bit counter neither passes 15 nor falls below zero. -/
theorem eventsCount : Obligations.EventsCount := by
  intro s i n p e hmay
  refine ⟨fun hi hlt hgo => ?_, fun hi hfull => ?_, fun hi hpos hgo => ?_, fun hi hzero => ?_⟩
  · refine exec_setEvent (g := (· + 1)) (exec_signalRow hi s) (signal_of_count_lt hmay hlt hgo) ?_
    unfold eventCount at hlt ⊢
    bv_omega
  · exact exec_faultHere (exec_signalRow hi s) (signal_of_count_full hmay hfull)
  · refine exec_setEvent (g := (· - 1)) (exec_waitRow hi s) (waitEvent_of_count_pos hmay hpos hgo) ?_
    unfold eventCount at hpos ⊢
    bv_omega
  · exact exec_setCore (exec_waitRow hi s) (waitEvent_of_count_zero hmay hzero)

/-! ### LOOP (08 R277-R279) -/

theorem exec_loopRow {i : Instr} {n : Nat} {p : Program} {csrc : Bool} {greg : BitVec 5} {len : BitVec 11}
    {count : BitVec 32} (hi : loopRow i = some (n, p, csrc, greg, len, count)) (s : State) :
    exec i s = s.onDev fun d => d.loop n p csrc greg len count := by
  unfold loopRow at hi
  split at hi <;> cases hi <;> rfl

theorem ne_tin_of_loopRow {i : Instr} {n : Nat} {p : Program} {csrc : Bool} {greg : BitVec 5} {len : BitVec 11}
    {count : BitVec 32} (hi : loopRow i = some (n, p, csrc, greg, len, count)) : p ≠ .tin := by
  unfold loopRow at hi
  split at hi <;> cases hi <;> nofun

/-- A body that ends at `last` may open: fewer than six loops are open, and the innermost ends no earlier (08 R279). -/
def loopFits (x : ProgState) (last : Nat) : Prop :=
  x.loops.length < 6 ∧ ∀ f, x.loops.head? = some f → last ≤ f.last

/-- The model's test of the nesting. -/
theorem not_loopFits_iff (x : ProgState) (last : Nat) : ¬loopFits x last ↔
    6 ≤ x.loops.length ∨ (x.loops.head?.map fun f => decide (f.last < last)) = some true := by
  rw [loopFits, not_and_or, Nat.not_lt]
  cases x.loops <;> simp

/-- The count of a LOOP: COUNT, or the register that GREG names (08 R277). -/
def loopTimes (c : Core) (csrc : Bool) (greg : BitVec 5) (count : BitVec 32) : Nat :=
  if csrc then (c.getG greg).toNat else count.toNat

section
variable {d : Dev} {n : Nat} {p : Program} (csrc : Bool) (greg : BitVec 5) {len : BitVec 11} (count : BitVec 32)
  (hmay : d.mayIssue n p = true)
include hmay

theorem loop_of_len_zero : d.loop n p csrc greg 0 count = d.faultHere n p 0x01 := by
  rw [Dev.loop, Dev.issue_may d hmay, if_pos rfl]

theorem loop_of_not_fits (hlen : len ≠ 0)
    (hfits : ¬loopFits ((d.core n).prog p) (((d.core n).prog p).pc + 8 * len.toNat)) :
    d.loop n p csrc greg len count = d.faultHere n p 0x08 := by
  rw [Dev.loop, Dev.issue_may d hmay, if_neg hlen, if_pos ((not_loopFits_iff _ _).mp hfits)]

variable {x : ProgState} {last : Nat} (hx : x = (d.core n).prog p) (hlast : last = x.pc + 8 * len.toNat)
  (hp : p ≠ .tin) (hlen : len ≠ 0) (hfits : loopFits x last)
include hx hlast hp hlen hfits

theorem loop_of_times_zero (htimes : loopTimes (d.core n) csrc greg count = 0)
    (hpc : pcIn 8 (afterBody last 8 x.loops).1) : d.loop n p csrc greg len count =
      d.setCore n ((d.core n).setProg p
        { x with pc := (afterBody last 8 x.loops).1, waits := [], loops := (afterBody last 8 x.loops).2 }) := by
  subst hx hlast
  unfold loopTimes at htimes
  rw [Dev.loop, Dev.issue_may d hmay, if_neg hlen, if_neg (mt (not_loopFits_iff _ _).mpr (not_not_intro hfits)),
    if_pos htimes]
  refine checkPc_setCore d hp ?_
  rwa [Core.prog_setProg]

theorem loop_of_times_pos (htimes : 0 < loopTimes (d.core n) csrc greg count) (hpc : pcIn 8 (x.pc + 8)) :
    d.loop n p csrc greg len count = d.setCore n ((d.core n).setProg p
      { x with pc := x.pc + 8, waits := [],
               loops := { first := x.pc + 8, last := last, left := loopTimes (d.core n) csrc greg count - 1, iter := 0 }
                 :: x.loops }) := by
  subst hx hlast
  unfold loopTimes at htimes
  rw [Dev.loop, Dev.issue_may d hmay, if_neg hlen, if_neg (mt (not_loopFits_iff _ _).mpr (not_not_intro hfits)),
    if_neg (Nat.pos_iff_ne_zero.mp htimes)]
  refine checkPc_setCore d hp ?_
  rwa [Core.prog_setProg]

end

/-- Settles O13: each clause is one branch of LOOP, and only LOOP in a stream has a row. -/
theorem loopOpens : Obligations.LoopOpens := by
  intro s i n p csrc greg len count hi hmay x last times fits
  have hexec := exec_loopRow hi s
  have hp := ne_tin_of_loopRow hi
  refine ⟨fun hlen hfits htimes hpc => ?_, fun hlen hfits htimes hpc => ?_, ?_, fun hlen hfits => ?_⟩
  · exact exec_setCore hexec (loop_of_times_pos csrc greg count hmay rfl rfl hp hlen hfits htimes hpc)
  · exact exec_setCore hexec (loop_of_times_zero csrc greg count hmay rfl rfl hp hlen hfits htimes hpc)
  · rintro rfl
    exact exec_faultHere hexec (loop_of_len_zero csrc greg count hmay)
  · exact exec_faultHere hexec (loop_of_not_fits csrc greg count hmay hlen hfits)

end Sys2Proof.Proofs
end

section
/-! SUPPORT. The modular commands of Nickel (19 R567, R570): the operands as zero where they equal the modulus, the
inverse with its absence, and one equation of `nickelResult` per command. -/

namespace Sys2Proof.Proofs

open Sys2Proof.Machine Sys2Proof.Terms

/-! ### Operands -/

/-- An operand as a modular command takes it, the exponent of MEXP among them (19 R570, log entry 65). -/
def reducedInput (m a : Nat) : Nat := if a = m then 0 else a

theorem reducedInput_modEq (m a : Nat) : reducedInput m a ≡ a [MOD m] := by
  unfold reducedInput
  split
  · next h => simp [h, Nat.ModEq]
  · rfl

theorem reducedInput_le (m a : Nat) : reducedInput m a ≤ a := by
  unfold reducedInput
  split
  · exact Nat.zero_le a
  · exact le_rfl

theorem reducedInput_sub_mod {m b : Nat} (a : Nat) (hb : b ≤ m) :
    (reducedInput m a + (m - reducedInput m b)) % m = (((a : Int) - b) % m).toNat := by
  have ha' : (reducedInput m a : Int) ≡ a [ZMOD m] := Int.natCast_modEq_iff.mpr (reducedInput_modEq m a)
  have hb' : (reducedInput m b : Int) ≡ b [ZMOD m] := Int.natCast_modEq_iff.mpr (reducedInput_modEq m b)
  have hle : reducedInput m b ≤ m := (reducedInput_le m b).trans hb
  have hsub : ((reducedInput m a + (m - reducedInput m b) : Nat) : Int) ≡ (a : Int) - b [ZMOD m] := by
    push_cast [hle]
    calc (reducedInput m a : Int) + (m - reducedInput m b) = (reducedInput m a - reducedInput m b) + m := by ring
      _ ≡ reducedInput m a - reducedInput m b [ZMOD m] := by simp [Int.ModEq]
      _ ≡ a - b [ZMOD m] := ha'.sub hb'
  rw [← hsub.eq, ← Int.natCast_mod, Int.toNat_natCast]

/-! ### Powers and inverses -/

theorem powModGo_lt {m acc : Nat} (n b e : Nat) (hacc : acc < m) : powModGo n b e m acc < m := by
  induction n generalizing b e acc with
  | zero => exact hacc
  | succ n ih =>
    refine ih _ _ ?_
    split
    · exact Nat.mod_lt _ (by omega)
    · exact hacc

/-- The power over `n` bits is the power, where the exponent has no more. -/
theorem powModGo_one_mod {n b e m : Nat} (hm : 0 < m) (he : e < 2 ^ n) : powModGo n b e m (1 % m) = b ^ e % m := by
  refine eq_of_cast_eq (powModGo_lt n b e (Nat.mod_lt 1 hm)) (Nat.mod_lt _ hm) ?_
  simp [powModGo_cast n b e m _ he]

theorem invMod?_of_coprime {a m : Nat} (hm : 0 < m) (hcop : Nat.Coprime a m) : invMod? a m = some (invMod a m) := by
  have hgcd := (egcdGo_invMod_fst hm).trans hcop
  rw [invMod_eq, if_pos hgcd]
  exact if_pos hgcd

theorem invMod?_of_not_coprime {a m : Nat} (hm : 0 < m) (hcop : ¬Nat.Coprime a m) : invMod? a m = none :=
  if_neg fun hgcd => hcop ((egcdGo_invMod_fst hm).symm.trans hgcd)

theorem invMod_mul_mod {a m : Nat} (hm : 1 < m) (hcop : Nat.Coprime a m) : invMod a m * a % m = 1 := by
  refine eq_of_cast_eq (Nat.mod_lt _ (by omega)) hm ?_
  simpa using invMod_cast_mul (by omega) hcop

theorem coprime_reducedInput_iff (m a : Nat) : Nat.Coprime (reducedInput m a) m ↔ Nat.Coprime a m := by
  rw [Nat.Coprime, Nat.Coprime, (reducedInput_modEq m a).gcd_eq]

/-! ### The commands -/

theorem testBit_zero_bit (p : Bool) : (bit p).testBit 0 = p := by cases p <;> rfl
theorem testBit_one_bit (p : Bool) : (bit p).testBit 1 = false := by cases p <;> rfl
theorem testBit_zero_bit_add_two (p : Bool) : (bit p + 2).testBit 0 = p := by cases p <;> rfl
theorem testBit_one_bit_add_two (p : Bool) : (bit p + 2).testBit 1 = true := by cases p <;> rfl

section
variable {r : NickelRec} (a b m : Nat) (msg : List Byte)

theorem nickelResult_madd (h : r.op = 0x10) : nickelResult r a b m msg =
    (some ((reducedInput m a + reducedInput m b) % m), bit (a = m || b = m)) := by
  simp [nickelResult, h, reducedInput]

theorem nickelResult_msub (h : r.op = 0x11) : nickelResult r a b m msg =
    (some ((reducedInput m a + (m - reducedInput m b)) % m), bit (a = m || b = m)) := by
  simp [nickelResult, h, reducedInput]

theorem nickelResult_mmul (h : r.op = 0x12) : nickelResult r a b m msg =
    (some (reducedInput m a * reducedInput m b % m), bit (a = m || b = m)) := by
  simp [nickelResult, h, reducedInput]

theorem nickelResult_mexp (h : r.op = 0x14) : nickelResult r a b m msg =
    (some (powModGo r.w (reducedInput m a) (reducedInput m b) m (1 % m)), bit (a = m || b = m)) := by
  simp [nickelResult, h, reducedInput]

theorem nickelResult_minv_of_coprime {m : Nat} (h : r.op = 0x13) (hm : 0 < m) (hcop : Nat.Coprime a m) :
    nickelResult r a b m msg = (some (invMod (reducedInput m a) m), bit (a = m)) := by
  have hinv := invMod?_of_coprime hm ((coprime_reducedInput_iff m a).mpr hcop)
  unfold reducedInput at hinv ⊢
  simp [nickelResult, h, hinv]

theorem nickelResult_minv_of_not_coprime {m : Nat} (h : r.op = 0x13) (hm : 0 < m) (hcop : ¬Nat.Coprime a m) :
    nickelResult r a b m msg = (some 0, bit (a = m) + 2) := by
  have hinv := invMod?_of_not_coprime hm (mt (coprime_reducedInput_iff m a).mp hcop)
  unfold reducedInput at hinv
  simp [nickelResult, h, hinv]

end

/-- Settles O42: each command computes with the reduced operands, which are the operands modulo M. -/
theorem nickelArithmetic : Obligations.NickelArithmetic := by
  intro r a b m msg _ hm _ hbm hbw
  have hpos : 0 < m := by omega
  have ha := reducedInput_modEq m a
  have hb := reducedInput_modEq m b
  refine ⟨fun h => ?madd, fun h => ?msub, fun h => ?mmul, fun h => ?mexp, fun h hcop => ?inverse,
    fun h hcop => ?noInverse, fun h => ?unreduced, fun h => ?unreducedInverse⟩
  case madd =>
    rw [nickelResult_madd a b m msg h]
    exact congrArg some (ha.add hb)
  case msub => rw [nickelResult_msub a b m msg h, reducedInput_sub_mod a hbm]
  case mmul =>
    rw [nickelResult_mmul a b m msg h]
    exact congrArg some (ha.mul hb)
  case mexp =>
    rw [nickelResult_mexp a b m msg h, powModGo_one_mod hpos ((reducedInput_le m b).trans_lt hbw)]
    rfl
  case inverse =>
    rw [nickelResult_minv_of_coprime a b msg h hpos hcop]
    refine ⟨_, rfl, invMod_lt _ hpos, ?_, testBit_one_bit _⟩
    calc invMod (reducedInput m a) m * a % m
      _ = invMod (reducedInput m a) m * reducedInput m a % m := (ha.mul_left _).symm
      _ = 1 := invMod_mul_mod (by omega) ((coprime_reducedInput_iff m a).mpr hcop)
  case noInverse =>
    rw [nickelResult_minv_of_not_coprime a b msg h hpos hcop]
    exact ⟨rfl, testBit_one_bit_add_two _⟩
  case unreduced =>
    have hflags : (nickelResult r a b m msg).2 = bit (a = m || b = m) := by
      obtain h | h | h | h := h
      · exact congrArg Prod.snd (nickelResult_madd a b m msg h)
      · exact congrArg Prod.snd (nickelResult_msub a b m msg h)
      · exact congrArg Prod.snd (nickelResult_mmul a b m msg h)
      · exact congrArg Prod.snd (nickelResult_mexp a b m msg h)
    rw [hflags, testBit_zero_bit, Bool.decide_or]
  case unreducedInverse =>
    by_cases hcop : Nat.Coprime a m
    · rw [nickelResult_minv_of_coprime a b msg h hpos hcop, testBit_zero_bit]
    · rw [nickelResult_minv_of_not_coprime a b msg h hpos hcop, testBit_zero_bit_add_two]

end Sys2Proof.Proofs
end

section
/-! SUPPORT. What dictionary entries read after a count, after a run of sets and after a reset has dropped the values of
others (18 R540, R541). -/

namespace Sys2Proof.Proofs

open Sys2Proof.Machine Sys2Proof.Terms

/-- No type of the dictionary is wider than 64 bits. -/
theorem dictWidth_le (i k : Nat) : dictWidth i k ≤ 64 := by
  have hrows : ∀ r ∈ dictRowsOf i, r.width ≤ 64 := by
    unfold dictRowsOf
    split
    case h_11 => nofun
    all_goals decide
  have hrow : ∀ r, dictRow i k = some r → r.width ≤ 64 := by
    unfold dictRow
    intro r hr
    split at hr
    · obtain ⟨-, hr⟩ := Option.ite_none_right_eq_some.mp hr
      cases hr
      exact (by decide : 8 ≤ 64)
    · exact hrows r (List.mem_of_find?_eq_some hr)
  unfold dictWidth
  cases h : dictRow i k with
  | none => simp
  | some r => exact hrow r h

theorem reg_lt (d : Dev) (i k : Nat) : d.reg i k < 2 ^ 64 := BitVec.isLt _

theorem counted_lt (d : Dev) (i k n : Nat) : counted d i k n < 2 ^ 64 := by
  have := Nat.pow_le_pow_right two_pos (dictWidth_le i k)
  have := Nat.two_pow_pos (dictWidth i k)
  unfold counted
  omega

theorem reg_bump (d : Dev) {i k j m : Nat} (n : Nat) (hk : k < 256) (hm : m < 256) :
    (d.bump i k n).reg j m = if j = i ∧ m = k then counted d i k n else d.reg j m := by
  rw [Dev.bump, d.reg_setReg i k _ j m hk hm, ← counted, Nat.mod_eq_of_lt (counted_lt d i k n)]

/-! ### Runs of entries set one after the other -/

/-- Subindices `o` to `o + n - 1` of an index, set to the values `v`. -/
def setRegs (d : Dev) (i o : Nat) (v : Nat → Nat) (n : Nat) : Dev :=
  (List.range n).foldl (fun d k => d.setReg i (k + o) (v k)) d

theorem setRegs_succ (d : Dev) (i o : Nat) (v : Nat → Nat) (n : Nat) :
    setRegs d i o v (n + 1) = (setRegs d i o v n).setReg i (n + o) (v n) := by
  simp [setRegs, List.range_succ]

theorem setRegs_frame (d : Dev) (i o : Nat) (v : Nat → Nat) (n : Nat) :
    setRegs d i o v n = { d with regs := (setRegs d i o v n).regs } := by
  induction n with
  | zero => rfl
  | succ n ih => rw [setRegs_succ, ih]; rfl

theorem reg_setRegs (d : Dev) (i : Nat) {o n : Nat} (v : Nat → Nat) (j : Nat) {m : Nat} (hn : o + n ≤ 256)
    (hm : m < 256) : (setRegs d i o v n).reg j m =
      if j = i ∧ o ≤ m ∧ m < o + n then v (m - o) % 2 ^ 64 else d.reg j m := by
  induction n with
  | zero => rw [if_neg (by omega)]; rfl
  | succ n ih =>
    rw [setRegs_succ, Dev.reg_setReg _ _ _ _ _ _ (by omega) hm, ih (by omega)]
    by_cases hlast : j = i ∧ m = n + o
    · obtain ⟨rfl, rfl⟩ := hlast
      simp [Nat.add_comm]
    · rw [if_neg hlast]
      exact if_congr (by omega) rfl rfl

/-! ### Entries that a reset keeps -/

theorem tget_filter {α : Type} (q : Nat → Bool) (t : Tbl α) (k : Nat) (e : α) :
    tget (t.filter fun p => q p.1) k e = if q k then tget t k e else e := by
  induction t with
  | nil => simp
  | cons p t ih =>
    by_cases hp : q p.1
    · rw [List.filter_cons, if_pos hp, tget, tget, ih]
      by_cases hk : p.1 = k
      · simp [hk, hk ▸ hp]
      · simp [hk]
    · rw [List.filter_cons, if_neg hp, ih, tget]
      by_cases hk : p.1 = k
      · simp [← hk, hp]
      · simp [hk]

theorem isCountFatal_iff (i : Nat) {k : Nat} (hk : k < 256) : isCountFatal (i * 256 + k) = true ↔ countFatal i k := by
  simp only [isCountFatal, countFatal, Bool.and_eq_true, decide_eq_true_eq]
  omega

section
variable (d : Dev) (phase : Phase) {i k : Nat} (hk : k < 256)
include hk

theorem reg_cleared_of_countFatal (h : countFatal i k) : (d.cleared phase).reg i k = d.reg i k := by
  rw [Dev.reg, Dev.cleared, tget_filter isCountFatal, if_pos ((isCountFatal_iff i hk).mpr h), Dev.reg]

theorem reg_cleared_of_not_countFatal (h : ¬countFatal i k) : (d.cleared phase).reg i k = (regDefault i k).toNat := by
  rw [Dev.reg, Dev.cleared, tget_filter isCountFatal, if_neg (mt (isCountFatal_iff i hk).mp h)]

end

end Sys2Proof.Proofs
end

section
/-! SUPPORT. Power, RESET_N and the chip reset: the device that each of them leaves, the fuses that a reset cuts short, and
the boot sequence (18 R541, 20 R586, 21 R617, R618, 22 R645-R647). -/

namespace Sys2Proof.Proofs

open Sys2Proof.Machine Sys2Proof.Terms

theorem reg_congr {d e : Dev} (h : d.regs = e.regs) (i k : Nat) : d.reg i k = e.reg i k := by
  rw [Dev.reg, h, Dev.reg]

/-! ### The cleared device -/

theorem slot_of_slots_nil {d : Dev} (h : d.nickel.slots = []) (n : Nat) : d.slot n = 0 := by
  rw [Dev.slot, h, tget_nil]
  exact BitVec.toNat_zero

theorem blank_cleared (d : Dev) (phase : Phase) : blank (d.cleared phase) :=
  ⟨fun _ => rfl, fun _ => rfl, fun _ => rfl, fun _ => rfl, fun _ => rfl, rfl, rfl, rfl, rfl, rfl, rfl,
    slot_of_slots_nil rfl⟩

/-- The device without power, and the one that power-on leaves: nothing owed by Nickel either. -/
theorem blank_unpowered (d : Dev) (phase : Phase) (pins : Pins) :
    blank { d.cleared phase with regs := [], nickel := .fresh, power := .fresh, pins := pins } :=
  ⟨fun _ => rfl, fun _ => rfl, fun _ => rfl, fun _ => rfl, fun _ => rfl, rfl, rfl, rfl, rfl, rfl, rfl,
    slot_of_slots_nil rfl⟩

theorem reg_of_regs_nil {d : Dev} (h : d.regs = []) (i k : Nat) : d.reg i k = (regDefault i k).toNat := by
  rw [Dev.reg, h, tget_nil]

/-! ### Power and RESET_N (22 R626, R627, R645) -/

theorem powerOn_of_unpowered {d : Dev} (h : d.phase = .unpowered) :
    d.powerOn = { d.cleared .held with regs := [], nickel := .fresh, power := .fresh } :=
  if_neg (not_not_intro h)

theorem powerDown_of_held {d : Dev} (h : d.phase = .held) : d.powerDown =
    { d.cleared .unpowered with
      regs := [], nickel := .fresh, power := .fresh, pins := { Pins.fresh with resetN := false } } :=
  if_neg (not_not_intro h)

theorem resetAssert_of_powered {d : Dev} (h : d.phase ≠ .unpowered) :
    d.resetAssert = { d.cleared .held with pins := { d.pins with resetN := false } } := if_neg h

/-! ### Fuses under a reset (20 R584; log entry 42) -/

/-- Cutting the fuses short draws free words, and changes nothing else of the device. -/
def drawnFuses (d : Dev) : Dev := { d with draw := d.draw + 5 }

theorem cutFuses_snd (f : Fuses) (d : Dev) : (cutFuses f d).2 = drawnFuses d := rfl

theorem kept_cutFuses (f : Fuses) (d : Dev) : f.kept (cutFuses f d).1 := by
  refine ⟨fun i h => ?_, fun i h => ?_⟩
  · cases hprog : d.boot.ownerProgramming <;> simp [cutFuses, Dev.drawWord, hprog, h]
  · cases hprog : d.boot.secverProgramming <;> simp [cutFuses, Dev.drawWord, hprog, h]

theorem cutFuses_fst_of_idle (f : Fuses) {d : Dev} (howner : d.boot.ownerProgramming = none)
    (hsecver : d.boot.secverProgramming = none) : (cutFuses f d).1 = f := by
  simp [cutFuses, Dev.drawWord, howner, hsecver]

theorem exec_resetNAssert {s : State} (h : s.dev.phase ≠ .unpowered) : exec .resetNAssert s =
    .next { s with fuses := (cutFuses s.fuses s.dev).1, dev := (drawnFuses s.dev).resetAssert } := if_neg h

theorem exec_chipReset {s : State} (h : s.dev.faults.resetPending = true) : exec .chipReset s =
    .next { s with fuses := (cutFuses s.fuses s.dev).1, dev := (drawnFuses s.dev).chipReset } := by
  refine if_neg ?_
  simp [h]

/-! ### The chip reset (21 R617, R618) -/

theorem leNat_lt (bs : List Byte) : leNat bs < 256 ^ bs.length := by
  induction bs with
  | nil => exact Nat.one_pos
  | cons b bs ih =>
    have := b.isLt
    rw [leNat, List.length_cons, Nat.pow_succ]
    omega

theorem leNat_sliceOf_lt (bs : List Byte) (o : Nat) : leNat (sliceOf bs o 8) < 2 ^ 64 :=
  (leNat_lt _).trans_le (Nat.pow_le_pow_right (by decide) (List.length_take_le 8 _))

/-- What a chip reset leaves of the registers: COUNT_FATAL, RESET_CAUSE and the words of the sticky record. -/
def resetRegs (d : Dev) : Dev :=
  setRegs ((d.cleared .chipReset).setReg 0x6000 9 (d.reg 0x6000 9)) 0x6010 1
    (fun k => leNat (sliceOf d.faults.sticky (8 * k) 8)) 8

theorem chipReset_of_pending {d : Dev} (h : d.faults.resetPending = true) : d.chipReset =
    { d.cleared .chipReset with
      regs := (resetRegs d).regs,
      faults := { Faults.fresh with sticky := d.faults.sticky, resetErrn := true },
      power := d.chipReset.power } := by
  have hframe : resetRegs d = { d.cleared .chipReset with regs := (resetRegs d).regs } := setRegs_frame _ _ _ _ _
  have hchip : d.chipReset = { resetRegs d with
      faults := { Faults.fresh with sticky := d.faults.sticky, resetErrn := true }, power := d.chipReset.power } := by
    rw [Dev.chipReset, if_neg (by simp [h])]
    rfl
  conv_lhs => rw [hchip, hframe]

section
variable (d : Dev) {k : Nat}

theorem reg_resetRegs_cause : (resetRegs d).reg 0x6000 9 = d.reg 0x6000 9 := by
  rw [resetRegs, reg_setRegs _ _ _ _ (by decide) (by decide), if_neg (by decide), Dev.reg_setReg_same,
    Nat.mod_eq_of_lt (reg_lt d _ _)]

theorem reg_resetRegs_record (hk : k < 8) :
    (resetRegs d).reg 0x6010 (k + 1) = leNat (sliceOf d.faults.sticky (8 * k) 8) := by
  rw [resetRegs, reg_setRegs _ _ _ _ (by decide) (by omega), if_pos (by omega), Nat.add_sub_cancel,
    Nat.mod_eq_of_lt (leNat_sliceOf_lt _ _)]

variable {i : Nat}

theorem reg_resetRegs_other (hk : k < 256) (hcause : ¬(i = 0x6000 ∧ k = 9))
    (hrecord : ¬(i = 0x6010 ∧ 1 ≤ k ∧ k ≤ 8)) : (resetRegs d).reg i k = (d.cleared .chipReset).reg i k := by
  rw [resetRegs, reg_setRegs _ _ _ _ (by decide) hk, if_neg (by omega), Dev.reg_setReg _ _ _ _ _ _ (by decide) hk,
    if_neg hcause]

theorem reg_resetRegs_of_countFatal (hk : k < 256) (h : countFatal i k) : (resetRegs d).reg i k = d.reg i k := by
  have hsource : 0x6101 ≤ i := h.1
  rw [reg_resetRegs_other d hk (by omega) (by omega), reg_cleared_of_countFatal d _ hk h]

theorem reg_resetRegs_default (hk : k < 256) (h : ¬countFatal i k) (hcause : ¬(i = 0x6000 ∧ k = 9))
    (hrecord : ¬(i = 0x6010 ∧ 1 ≤ k ∧ k ≤ 8)) : (resetRegs d).reg i k = (regDefault i k).toNat := by
  rw [reg_resetRegs_other d hk hcause hrecord, reg_cleared_of_not_countFatal d _ hk h]

end

/-! ### The boot sequence (20 R586) -/

theorem deriveIdentity_frame (d : Dev) : d.deriveIdentity = { d with
    regs := d.deriveIdentity.regs,
    sterling := { d.sterling with identitySeed := identitySeedOf, identityPub := edPublic identitySeedOf } } :=
  setRegs_frame (d.modSterling fun x => { x with identitySeed := identitySeedOf, identityPub := edPublic identitySeedOf })
    0xA120 1 (fun k => leNat (((edPublic identitySeedOf).drop (8 * k)).take 8)) 4

theorem clearSterling_frame (d : Dev) : d.clearSterling = { d with
    draw := d.draw + 1, regs := d.clearSterling.regs,
    sterling := { Sterling.fresh with sealingKey := d.clearSterling.sterling.sealingKey },
    nickel := d.clearSterling.nickel } := rfl

/-- The device with a store that holds the identity key alone, before the port and the straps are set. -/
def withIdentity (d : Dev) : Dev :=
  (d.clearSterling.deriveIdentity.modNickel fun x => { x with sealedWork := [] }).bump 0xA000 9 1

/-- The second half of the sequence: the state of the link, the straps, the slabs to initialise and the boot ROM's step. -/
def bootStarted (d : Dev) : Dev :=
  let d := (d.setReg 0x8000 2 0).setReg 0xA100 1 d.boot.mode.toNat
  let d := { d with phase := .boot, stk := { d.stk with initialising := List.range 96 } }
  d.modBoot fun b => { b with step := if b.mode.getLsbD 1 then .hold else .idle }

theorem bootSequence_eq (d : Dev) : d.bootSequence = bootStarted (withIdentity d) := rfl

theorem withIdentity_frame (d : Dev) : withIdentity d = { d with
    draw := d.draw + 1, regs := (withIdentity d).regs, nickel := (withIdentity d).nickel,
    sterling := { Sterling.fresh with
      sealingKey := d.clearSterling.sterling.sealingKey,
      identitySeed := identitySeedOf, identityPub := edPublic identitySeedOf } } := by
  have hbump (e : Dev) : (e.modNickel fun x => { x with sealedWork := [] }).bump 0xA000 9 1 = { e with
      regs := ((e.modNickel fun x => { x with sealedWork := [] }).bump 0xA000 9 1).regs,
      nickel := ((e.modNickel fun x => { x with sealedWork := [] }).bump 0xA000 9 1).nickel } := rfl
  conv_lhs => rw [withIdentity, hbump, deriveIdentity_frame, clearSterling_frame]
  rfl

/-- The boot ROM's first step (20 R585): it stops where the straps ask for it. -/
def firstStep (d : Dev) : BootStep := if d.boot.mode.getLsbD 1 then .hold else .idle

theorem bootSequence_frame (d : Dev) : d.bootSequence = { d with
    phase := .boot, draw := d.draw + 1, regs := d.bootSequence.regs, nickel := (withIdentity d).nickel,
    stk := { d.stk with initialising := List.range 96 },
    sterling := { Sterling.fresh with
      sealingKey := d.clearSterling.sterling.sealingKey,
      identitySeed := identitySeedOf, identityPub := edPublic identitySeedOf },
    boot := { d.boot with step := firstStep d } } := by
  have hstarted (e : Dev) : bootStarted e = { e with
      phase := .boot, regs := (bootStarted e).regs, stk := { e.stk with initialising := List.range 96 },
      boot := { e.boot with step := firstStep e } } := rfl
  conv_lhs => rw [bootSequence_eq, hstarted, ← bootSequence_eq, withIdentity_frame]
  rfl

theorem reg_bootStarted (d : Dev) (i : Nat) {k : Nat} (hk : k < 256) : (bootStarted d).reg i k =
    if i = 0xA100 ∧ k = 1 then d.boot.mode.toNat else if i = 0x8000 ∧ k = 2 then 0 else d.reg i k := by
  have hmode : d.boot.mode.toNat % 2 ^ 64 = d.boot.mode.toNat :=
    Nat.mod_eq_of_lt (d.boot.mode.isLt.trans (by decide))
  have hreg : (bootStarted d).reg i k = ((d.setReg 0x8000 2 0).setReg 0xA100 1 d.boot.mode.toNat).reg i k := rfl
  rw [hreg, Dev.reg_setReg _ _ _ _ _ _ (by decide) hk, hmode, Dev.reg_setReg _ _ _ _ _ _ (by decide) hk, Nat.zero_mod]

section
variable {d e : Dev} (h : e.regs = d.bootSequence.regs)
include h

theorem portState_of_bootSequence_regs : e.reg 0x8000 2 = 0 := by
  rw [reg_congr h, bootSequence_eq, reg_bootStarted _ _ (by decide), if_neg (by decide), if_pos (by decide)]

theorem strap_of_bootSequence_regs : e.reg 0xA100 1 = d.boot.mode.toNat := by
  rw [reg_congr h, bootSequence_eq, reg_bootStarted _ _ (by decide), if_pos (by decide), withIdentity_frame]

end

/-- The device as RESET_N rises: the straps are latched (22 R646). -/
def latched (d : Dev) (mode : BitVec 2) (sel : Bool) : Dev :=
  { d with pins := { d.pins with resetN := true }, boot := { Boot.fresh with mode := mode, masterSel := sel } }

theorem resetRelease_of_held {d : Dev} (h : d.phase = .held) (mode : BitVec 2) (sel : Bool) :
    d.resetRelease mode sel = (latched d mode sel).bootSequence.modFaults fun x => { x with bootErrn := mode = 3 } :=
  if_neg (not_not_intro h)

theorem chipResetEnd_of_cool {d : Dev} (hphase : d.phase = .chipReset) (hcool : d.power.thermHold = false) :
    d.chipResetEnd = d.bootSequence.modFaults fun x => { x with bootErrn := d.boot.mode = 3 } := by
  refine if_neg ?_
  simp [hphase, hcool]

/-- Settles O43: a reset leaves the cleared device, and the two ways out of it run one boot sequence. -/
theorem resetCommands : Obligations.ResetCommands := by
  intro s
  refine ⟨fun h => ?powerOn, fun h => ?resetAssert, fun h mode sel => ?resetRelease, fun h => ?powerDown,
    fun h => ?chipReset, fun h hcool => ?chipResetEnd⟩
  case powerOn =>
    have hexec : exec .powerOn s = s.onDev Dev.powerOn := rfl
    rw [hexec, State.onDev_eq, powerOn_of_unpowered h]
    exact ⟨_, rfl, rfl, rfl, blank_unpowered _ _ _, rfl, reg_of_regs_nil rfl⟩
  case resetAssert =>
    rw [exec_resetNAssert h, resetAssert_of_powered (d := drawnFuses s.dev) h]
    exact ⟨_, rfl, kept_cutFuses _ _, cutFuses_fst_of_idle _, rfl, rfl, blank_cleared (drawnFuses s.dev) .held, rfl,
      fun _ _ hk => ⟨reg_cleared_of_countFatal (drawnFuses s.dev) .held hk,
        reg_cleared_of_not_countFatal (drawnFuses s.dev) .held hk⟩⟩
  case resetRelease =>
    have hexec : exec (.resetRelease mode sel) s = s.onDev fun d => d.resetRelease mode sel := rfl
    rw [hexec, State.onDev_eq, resetRelease_of_held h, bootSequence_frame]
    exact ⟨_, rfl, rfl, rfl, rfl, rfl, rfl, rfl, rfl, rfl,
      portState_of_bootSequence_regs (d := latched s.dev mode sel) rfl,
      strap_of_bootSequence_regs (d := latched s.dev mode sel) rfl, rfl, rfl, rfl⟩
  case powerDown =>
    have hexec : exec .powerDown s = s.onDev Dev.powerDown := rfl
    rw [hexec, State.onDev_eq, powerDown_of_held h]
    exact ⟨_, rfl, rfl, rfl, blank_unpowered _ _ _⟩
  case chipReset =>
    rw [exec_chipReset h, chipReset_of_pending (d := drawnFuses s.dev) h]
    exact ⟨_, rfl, kept_cutFuses _ _, rfl, blank_cleared (drawnFuses s.dev) .chipReset, rfl, rfl, rfl, rfl, rfl, rfl,
      reg_resetRegs_cause (drawnFuses s.dev), fun _ hk => reg_resetRegs_record (drawnFuses s.dev) hk, fun _ _ hk =>
      ⟨reg_resetRegs_of_countFatal (drawnFuses s.dev) hk, reg_resetRegs_default (drawnFuses s.dev) hk⟩⟩
  case chipResetEnd =>
    have hexec : exec .chipResetEnd s = s.onDev Dev.chipResetEnd := rfl
    rw [hexec, State.onDev_eq, chipResetEnd_of_cool h hcool, bootSequence_frame]
    exact ⟨_, rfl, rfl, rfl, rfl, rfl, rfl, portState_of_bootSequence_regs (d := s.dev) rfl, rfl⟩

end Sys2Proof.Proofs
end

section
/-! SUPPORT. The fault collector: the order of classification, and what a recorded fault and its reactions leave (21
R606-R617; log entry 64). -/

namespace Sys2Proof.Proofs

open Sys2Proof.Machine Sys2Proof.Terms

/-! ### The order of classification (21 R608) -/

/-- A fault's place in the order, as one number: the cycle, then the source, then the unit. -/
def faultRank (f : RaisedFault) : Nat := (f.raisedAt * 2 ^ 8 + f.source.toNat) * 2 ^ 16 + f.unit.toNat

theorem before_iff_rank_lt (f g : RaisedFault) : f.before g = true ↔ faultRank f < faultRank g := by
  have := f.source.isLt
  have := g.source.isLt
  have := f.unit.isLt
  have := g.unit.isLt
  simp only [RaisedFault.before, faultRank, Bool.or_eq_true, Bool.and_eq_true, decide_eq_true_eq, BitVec.lt_def,
    ← BitVec.toNat_inj]
  omega

theorem rank_le_iff (f g : RaisedFault) : faultRank f ≤ faultRank g ↔
    f.raisedAt < g.raisedAt ∨ f.raisedAt = g.raisedAt ∧
      (f.source < g.source ∨ f.source = g.source ∧ f.unit ≤ g.unit) := by
  have := f.source.isLt
  have := g.source.isLt
  have := f.unit.isLt
  have := g.unit.isLt
  simp only [faultRank, BitVec.lt_def, BitVec.le_def, ← BitVec.toNat_inj]
  omega

theorem firstFault_eq_none {fs : List RaisedFault} (h : firstFault fs = none) : fs = [] := by
  cases fs with
  | nil => rfl
  | cons a fs =>
    rw [firstFault] at h
    split at h <;> cases h

/-- The first fault is one of those raised, and none has a lower rank. -/
theorem firstFault_mem_and_least {fs : List RaisedFault} {f : RaisedFault} (h : firstFault fs = some f) :
    f ∈ fs ∧ ∀ g ∈ fs, faultRank f ≤ faultRank g := by
  induction fs generalizing f with
  | nil => cases h
  | cons a fs ih =>
    rw [firstFault] at h
    cases hrest : firstFault fs with
    | none =>
      rw [hrest] at h
      obtain rfl := Option.some.inj h
      rw [firstFault_eq_none hrest]
      exact ⟨List.mem_cons_self, List.forall_mem_cons.mpr ⟨le_rfl, nofun⟩⟩
    | some b =>
      obtain ⟨hmem, hleast⟩ := ih hrest
      have hrank := before_iff_rank_lt b a
      rw [hrest] at h
      obtain rfl := Option.some.inj h
      split
      case isTrue hlt =>
        exact ⟨List.mem_cons_of_mem _ hmem, List.forall_mem_cons.mpr ⟨(hrank.mp hlt).le, hleast⟩⟩
      case isFalse hge =>
        have hle : faultRank a ≤ faultRank b := Nat.le_of_not_lt (mt hrank.mpr hge)
        exact ⟨List.mem_cons_self, List.forall_mem_cons.mpr ⟨le_rfl, fun g hg => hle.trans (hleast g hg)⟩⟩

/-! ### Reactions (21 R609-R617) -/

/-- The index of the entries of a fault's source (21 R623). -/
def sourceIndex (f : RaisedFault) : Nat := 0x6100 + f.source.toNat

theorem le_sourceIndex (f : RaisedFault) : 0x6100 ≤ sourceIndex f := Nat.le_add_right _ _

theorem reactions_of_fatal (d : Dev) {f : RaisedFault} (h : f.cls = 2) : d.reactions f = 0x18 := if_pos h

/-- A contained fault takes the reactions that REACT_UC of its source holds. -/
theorem reactions_congr {d e : Dev} {f : RaisedFault} (hcls : f.cls = 1)
    (h : d.reg (sourceIndex f) 2 = e.reg (sourceIndex f) 2) : d.reactions f = e.reactions f := by
  unfold sourceIndex at h
  simp [Dev.reactions, hcls, h]

/-- The device after ERRN, TRAP and CHIP, as far as a reaction set asks for them. -/
def reacted (d : Dev) (f : RaisedFault) (set : Nat) (record : List Byte) : Dev :=
  let d := if set.testBit 4 then d.setReg 0x6000 7 1 else d
  let d := if set.testBit 1 then d.modFaults fun x => { x with trap := true } else d
  if set.testBit 3 then d.startReset record (f.cls = 2) else d

section
variable {d : Dev} {f : RaisedFault} {set : Nat} (record : List Byte)

theorem faultEvent_of_no_ring (h : d.reg 0x6000 2 = 0) : d.faultEvent record = d := by
  unfold Dev.faultEvent
  exact if_pos h

/-- With no ring configured and no block to reset, EVENT and BLOCK do nothing. -/
theorem react_eq_reacted (hblock : set.testBit 2 = true → f.block = none) (hring : d.reg 0x6000 2 = 0) :
    d.react f set record = reacted d f set record := by
  have hring' : (if set.testBit 4 then d.setReg 0x6000 7 1 else d).reg 0x6000 2 = 0 := by
    split
    · rwa [Dev.reg_setReg _ _ _ _ _ _ (by decide) (by decide), if_neg (by decide)]
    · exact hring
  have hevent := faultEvent_of_no_ring record hring'
  cases hbit : set.testBit 2 with
  | true => simp only [Dev.react, reacted, hbit, hblock hbit, hevent, ite_self]
  | false => simp only [Dev.react, reacted, hbit, hevent, Bool.false_eq_true, if_false, ite_self]

theorem reacted_frame : reacted d f set record =
    { d with regs := (reacted d f set record).regs, faults := (reacted d f set record).faults } := by
  unfold reacted
  split_ifs <;> rfl

theorem reacted_raised : (reacted d f set record).faults.raised = d.faults.raised := by
  unfold reacted
  split_ifs <;> rfl

theorem reacted_trap : (reacted d f set record).faults.trap = (d.faults.trap || set.testBit 1) := by
  unfold reacted
  split_ifs <;> simp_all [Dev.startReset]

theorem reacted_resetPending :
    (reacted d f set record).faults.resetPending = (d.faults.resetPending || set.testBit 3) := by
  unfold reacted
  split_ifs <;> simp_all [Dev.startReset]

theorem reg_startReset (d : Dev) (fatal : Bool) (j : Nat) {m : Nat} (hm : m < 256) :
    (d.startReset record fatal).reg j m = if j = 0x6000 ∧ m = 9 then (if fatal then 1 else 2) else d.reg j m := by
  have hcause : (if fatal then 1 else 2) % 2 ^ 64 = if fatal then 1 else 2 := by cases fatal <;> rfl
  rw [Dev.startReset, Dev.reg_setReg _ _ _ _ _ _ (by decide) hm, hcause]
  rfl

/-- ERR_STATE and RESET_CAUSE alone change. -/
theorem reg_reacted_other {j m : Nat} (hm : m < 256) (h : ¬(j = 0x6000 ∧ (m = 7 ∨ m = 9))) :
    (reacted d f set record).reg j m = d.reg j m := by
  have herr : (d.setReg 0x6000 7 1).reg j m = d.reg j m := by
    rw [Dev.reg_setReg _ _ _ _ _ _ (by decide) hm, if_neg (by omega)]
  have hcause : ¬(j = 0x6000 ∧ m = 9) := by omega
  have htrap (e : Dev) : (e.modFaults fun x => { x with trap := true }).reg j m = e.reg j m := rfl
  unfold reacted
  simp only [apply_ite (fun e : Dev => e.reg j m), reg_startReset record _ _ _ hm, if_neg hcause, htrap, herr, ite_self]

theorem reg_reacted_errState (h : set.testBit 4 = true) : (reacted d f set record).reg 0x6000 7 = 1 := by
  have htrap (e : Dev) : (e.modFaults fun x => { x with trap := true }).reg 0x6000 7 = e.reg 0x6000 7 := rfl
  simp [reacted, h, apply_ite (fun e : Dev => e.reg 0x6000 7), reg_startReset, htrap]

end

/-- ERRN and CHIP alone: the reactions of a fatal fault (21 R610). -/
theorem react_of_fatal (d : Dev) {f : RaisedFault} (record : List Byte) (h : f.cls = 2) :
    d.react f 0x18 record = (d.setReg 0x6000 7 1).startReset record true := by
  have hfatal : decide (f.cls = 2) = true := decide_eq_true h
  rw [← hfatal]
  rfl

/-! ### Recording a fault (21 R606, R608) -/

theorem logAppend_of_not_logging {d : Dev} (h : d.logState ≠ 1) (kind source frame : Nat) (payload : List Byte) :
    d.logAppend kind source frame payload = d := if_pos h

theorem logState_congr {d e : Dev} (hsize : d.reg 0x2050 2 = e.reg 0x2050 2) (hstate : d.reg 0x2050 5 = e.reg 0x2050 5) :
    d.logState = e.logState := by
  rw [Dev.logState, Dev.logState, hsize, hstate]

/-- One more fault in the sequence. -/
def inSequence (d : Dev) : Dev := d.setReg 0x6000 6 ((d.reg 0x6000 6 + 1) % 2 ^ 32)

/-- A contained fault in the sequence, in the entries of its source and in the count of its frame. -/
def containedCounted (d : Dev) (f : RaisedFault) : Dev :=
  let i := sourceIndex f
  let d := inSequence d
  (((d.bump i 4 1).setReg i 6 d.tickNumber).setReg i 7 f.addr.toNat).modFrame fun x =>
    { x with faultsUc := x.faultsUc + 1 }

/-- A fatal fault in the sequence and in the count of its source. -/
def fatalCounted (d : Dev) (f : RaisedFault) : Dev := (inSequence d).bump (sourceIndex f) 5 1

/-- A fault as recorded, by its class: what is left is the log, the store and the reactions. -/
def faultCounted (d : Dev) (f : RaisedFault) : Dev :=
  match f.cls with
  | 0 => (inSequence d).bump (sourceIndex f) 3 1
  | 1 => containedCounted d f
  | _ => fatalCounted d f

theorem containedCounted_frame (d : Dev) (f : RaisedFault) : containedCounted d f =
    { d with regs := (containedCounted d f).regs, tick := (containedCounted d f).tick } := rfl

theorem faultCounted_of_contained {d : Dev} {f : RaisedFault} (h : f.cls = 1) :
    faultCounted d f = containedCounted d f := by
  rw [faultCounted, h]
  rfl

theorem faultCounted_of_fatal {d : Dev} {f : RaisedFault} (h : f.cls = 2) : faultCounted d f = fatalCounted d f := by
  rw [faultCounted, h]
  rfl

theorem recordFault_of_not_logging {d : Dev} {f : RaisedFault} (n : Nat) (h : (faultCounted d f).drawWord.2.logState ≠ 1) :
    d.recordFault f n =
      (if f.cls = 2 then (faultCounted d f).drawWord.2.clearNickel.clearSterling else (faultCounted d f).drawWord.2).react f
        ((faultCounted d f).reactions f) ((faultCounted d f).faultRecord f ((faultCounted d f).reactions f) n) := by
  have hlog := logAppend_of_not_logging h 0x03 (faultCounted d f).drawWord.1.toNat
    (faultCounted d f).drawWord.2.frameNumber ((faultCounted d f).faultRecord f ((faultCounted d f).reactions f) n)
  conv_rhs => rw [← hlog]
  rfl

section
variable (d : Dev) (f : RaisedFault) (j : Nat) {m : Nat} (hm : m < 256)
include hm

theorem reg_inSequence :
    (inSequence d).reg j m = if j = 0x6000 ∧ m = 6 then (d.reg 0x6000 6 + 1) % 2 ^ 32 else d.reg j m := by
  rw [inSequence, Dev.reg_setReg _ _ _ _ _ _ (by decide) hm, Nat.mod_eq_of_lt (by omega)]

theorem counted_inSequence (n : Nat) : counted (inSequence d) (sourceIndex f) m n =
    counted d (sourceIndex f) m n := by
  have := le_sourceIndex f
  rw [counted, reg_inSequence _ _ hm, if_neg (by omega), counted]

theorem reg_containedCounted : (containedCounted d f).reg j m =
    if j = sourceIndex f ∧ m = 7 then f.addr.toNat
    else if j = sourceIndex f ∧ m = 6 then d.tickNumber
    else if j = sourceIndex f ∧ m = 4 then counted d (sourceIndex f) 4 1
    else (inSequence d).reg j m := by
  have hnumber : (inSequence d).tickNumber = d.tickNumber := by
    rw [Dev.tickNumber, reg_inSequence _ _ (by decide), if_neg (by decide), Dev.tickNumber]
  have hframe (e : Dev) (g : FrameRun → FrameRun) : (e.modFrame g).reg j m = e.reg j m := rfl
  have htick : d.tickNumber % 2 ^ 64 = d.tickNumber := Nat.mod_eq_of_lt (reg_lt d _ _)
  have haddr : f.addr.toNat % 2 ^ 64 = f.addr.toNat := Nat.mod_eq_of_lt (f.addr.isLt.trans (by decide))
  rw [containedCounted, hframe, Dev.reg_setReg _ _ _ _ _ _ (by decide) hm, Dev.reg_setReg _ _ _ _ _ _ (by decide) hm,
    reg_bump _ _ (by decide) hm, hnumber, htick, haddr, counted_inSequence d f (by decide)]

theorem reg_fatalCounted : (fatalCounted d f).reg j m =
    if j = sourceIndex f ∧ m = 5 then counted d (sourceIndex f) 5 1
    else (inSequence d).reg j m := by
  rw [fatalCounted, reg_bump _ _ (by decide) hm, counted_inSequence d f (by decide)]

end

section
variable {d : Dev} {f : RaisedFault} (n : Nat) (hlog : d.logState ≠ 1)
include hlog

theorem recordFault_of_contained (hcls : f.cls = 1) (hblock : f.block = none) (hring : d.reg 0x6000 2 = 0) :
    d.recordFault f n = reacted (containedCounted d f).drawWord.2 f (d.reactions f)
      ((containedCounted d f).faultRecord f (d.reactions f) n) := by
  have hkept {j m : Nat} (hm : m < 256) (hsource : j < 0x6100) (hseq : ¬(j = 0x6000 ∧ m = 6)) :
      (containedCounted d f).drawWord.2.reg j m = d.reg j m := by
    have := le_sourceIndex f
    refine (reg_containedCounted d f j hm).trans ?_
    rw [if_neg (by omega), if_neg (by omega), if_neg (by omega), reg_inSequence d j hm, if_neg hseq]
  have hreact : (containedCounted d f).reactions f = d.reactions f := by
    have := le_sourceIndex f
    refine reactions_congr hcls ?_
    rw [reg_containedCounted d f _ (by decide), if_neg (by omega), if_neg (by omega), if_neg (by omega),
      reg_inSequence d _ (by decide), if_neg (by omega)]
  have hlog' : (containedCounted d f).drawWord.2.logState ≠ 1 := by
    rwa [logState_congr (hkept (by decide) (by decide) (by decide)) (hkept (by decide) (by decide) (by decide))]
  have hring' : (containedCounted d f).drawWord.2.reg 0x6000 2 = 0 := by
    rwa [hkept (by decide) (by decide) (by decide)]
  rw [← faultCounted_of_contained hcls] at hlog'
  rw [recordFault_of_not_logging n hlog', if_neg (by rw [hcls]; decide), faultCounted_of_contained hcls,
    react_eq_reacted _ (fun _ => hblock) hring', hreact]

theorem recordFault_of_fatal (hcls : f.cls = 2) : d.recordFault f n =
    ((fatalCounted d f).drawWord.2.clearNickel.clearSterling.setReg 0x6000 7 1).startReset
      ((fatalCounted d f).faultRecord f 0x18 n) true := by
  have hkept {m : Nat} (hm : m < 256) : (fatalCounted d f).drawWord.2.reg 0x2050 m = d.reg 0x2050 m := by
    have := le_sourceIndex f
    refine (reg_fatalCounted d f _ hm).trans ?_
    rw [if_neg (by omega), reg_inSequence d _ hm, if_neg (by omega)]
  have hlog' : (faultCounted d f).drawWord.2.logState ≠ 1 := by
    rwa [faultCounted_of_fatal hcls, logState_congr (hkept (by decide)) (hkept (by decide))]
  rw [recordFault_of_not_logging n hlog', if_pos hcls, reactions_of_fatal _ hcls, faultCounted_of_fatal hcls,
    react_of_fatal _ _ hcls]

end

theorem reg_clearSterling (d : Dev) {j m : Nat} (hm : m < 256) (h : ¬(j = 0x5800 ∧ m = 8)) :
    d.clearSterling.reg j m = d.reg j m := by
  have hbump : d.clearSterling.reg j m =
      (d.bump 0x5800 8 (d.exchanges.filter fun e => !e.2.state.failed).length).reg j m := rfl
  rw [hbump, reg_bump _ _ (by decide) hm, if_neg h]

/-! ### The bytes of a record (21 R606) -/

/-- Fields above the first byte leave it as it is. -/
theorem foldl_fields_mod (fields : List (Nat × Nat × Nat)) (h : ∀ x ∈ fields, 8 ≤ x.1) (acc : Nat) :
    fields.foldl (fun acc x => acc + (x.2.2 % 2 ^ x.2.1) <<< x.1) acc % 256 = acc % 256 := by
  induction fields generalizing acc with
  | nil => rfl
  | cons x fields ih =>
    obtain ⟨hx, hfields⟩ := List.forall_mem_cons.mp h
    have hdvd : 256 ∣ (x.2.2 % 2 ^ x.2.1) <<< x.1 := by
      rw [Nat.shiftLeft_eq]
      exact Dvd.dvd.mul_left (pow_dvd_pow 2 hx) _
    rw [List.foldl_cons, ih hfields]
    omega

theorem mkRecord_getD_zero {n : Nat} (hn : 0 < n) (v : BitVec 8) (fields : List (Nat × Nat × Nat))
    (h : ∀ x ∈ fields, 8 ≤ x.1) : (mkRecord n ((0, 8, v.toNat) :: fields)).getD 0 0 = v := by
  refine (leBytes_getD n _ 0 hn).trans (BitVec.eq_of_toNat_eq ?_)
  rw [pow_zero, Nat.div_one, BitVec.toNat_ofNat, List.foldl_cons, foldl_fields_mod fields h, Nat.zero_add,
    Nat.shiftLeft_zero]
  exact (Nat.mod_mod _ _).trans (Nat.mod_eq_of_lt v.isLt)

theorem faultRecord_length (d : Dev) (f : RaisedFault) (set n : Nat) : (d.faultRecord f set n).length = 64 :=
  leBytes_length 64 _

theorem faultRecord_source (d : Dev) (f : RaisedFault) (set n : Nat) : (d.faultRecord f set n).getD 0 0 = f.source := by
  refine mkRecord_getD_zero (by decide) f.source _ ?_
  simp

/-! ### FAULT_CLASSIFY -/

theorem exec_faultClassify (s : State) : exec .faultClassify s = .next (s.withDev s.dev.classify) := rfl

/-- A fault taken out of those raised. -/
def taken (d : Dev) (f : RaisedFault) : Dev := d.modFaults fun x => { x with raised := x.raised.erase f }

section
variable {d : Dev} {f : RaisedFault} (hpending : d.faults.resetPending = false)
  (hfirst : firstFault d.faults.raised = some f)
include hpending hfirst

/-- A fault that is not a corrected one is recorded at once. -/
theorem classify_of_uncorrected (hcls : f.cls ≠ 0) : d.classify = (taken d f).recordFault f 1 := by
  unfold Dev.classify
  simp only [hpending, hfirst, Bool.false_eq_true, if_false]
  exact if_pos hcls

/-- A corrected fault of a source whose record of this tick is made counts, and no more (21 R612). -/
theorem classify_of_recorded (hcls : f.cls = 0) (hrec : f.source.toNat ∈ d.faults.corrRecorded) :
    d.classify = ((taken d f).bump (sourceIndex f) 3 1).modFaults fun x =>
      { x with corrSince := tset x.corrSince f.source.toNat (tget x.corrSince f.source.toNat 0 + 1) } := by
  have hmem : (taken d f).faults.corrRecorded.contains f.source.toNat = true := List.contains_iff_mem.mpr hrec
  unfold Dev.classify
  simp only [hpending, hfirst, Bool.false_eq_true, if_false]
  exact (if_neg (not_not_intro hcls)).trans (if_pos hmem)

end

/-- The device after an uncorrected-contained fault without a block: counted, with the reactions set for it. -/
def afterContained (d : Dev) (f : RaisedFault) (record : List Byte) : Dev :=
  reacted (containedCounted (taken d f) f).drawWord.2 f (d.reactions f) record

/-- The device after a fatal fault: counted, the slots of Nickel and the store cleared, ERRN and CHIP. -/
def afterFatal (d : Dev) (f : RaisedFault) (record : List Byte) : Dev :=
  ((fatalCounted (taken d f) f).drawWord.2.clearNickel.clearSterling.setReg 0x6000 7 1).startReset record true

section
variable {s : State} {f : RaisedFault} (hpending : s.dev.faults.resetPending = false)
  (hfirst : firstFault s.dev.faults.raised = some f) (hlog : s.dev.logState ≠ 1)
include hpending hfirst hlog

theorem exec_faultClassify_contained (hcls : f.cls = 1) (hblock : f.block = none) (hring : s.dev.reg 0x6000 2 = 0) :
    ∃ record, exec .faultClassify s = .next (s.withDev (afterContained s.dev f record)) := by
  have huncorrected : f.cls ≠ 0 := by rw [hcls]; decide
  rw [exec_faultClassify, classify_of_uncorrected hpending hfirst huncorrected,
    recordFault_of_contained (d := taken s.dev f) 1 hlog hcls hblock hring]
  exact ⟨_, rfl⟩

theorem exec_faultClassify_fatal (hcls : f.cls = 2) : exec .faultClassify s =
    .next (s.withDev (afterFatal s.dev f ((fatalCounted (taken s.dev f) f).faultRecord f 0x18 1))) := by
  have huncorrected : f.cls ≠ 0 := by rw [hcls]; decide
  rw [exec_faultClassify, classify_of_uncorrected hpending hfirst huncorrected,
    recordFault_of_fatal (d := taken s.dev f) 1 hlog hcls]
  rfl

end

section
variable (d : Dev) (f : RaisedFault)

theorem reg_taken (i k : Nat) : (taken d f).reg i k = d.reg i k := reg_congr rfl i k

theorem counted_taken (i k n : Nat) : counted (taken d f) i k n = counted d i k n := by
  rw [counted, reg_taken, counted]

theorem reg_corrected (g : Faults → Faults) (j : Nat) {m : Nat} (hm : m < 256) :
    (((taken d f).bump (sourceIndex f) 3 1).modFaults g).reg j m =
      if j = sourceIndex f ∧ m = 3 then counted d (sourceIndex f) 3 1 else d.reg j m := by
  have hbump : (((taken d f).bump (sourceIndex f) 3 1).modFaults g).reg j m =
      ((taken d f).bump (sourceIndex f) 3 1).reg j m := reg_congr rfl _ _
  rw [hbump, reg_bump _ _ (by decide) hm, counted_taken, reg_taken]

variable (record : List Byte)

/-- A contained fault leaves memory and every unit alone. -/
theorem afterContained_frame : ∃ regs tick faults, afterContained d f record =
    { d with draw := d.draw + 1, regs := regs, tick := tick, faults := faults } := by
  rw [afterContained, reacted_frame, containedCounted_frame]
  exact ⟨_, _, _, rfl⟩

theorem afterContained_raised : (afterContained d f record).faults.raised = d.faults.raised.erase f :=
  reacted_raised record

theorem afterContained_trap :
    (afterContained d f record).faults.trap = (d.faults.trap || (d.reactions f).testBit 1) :=
  reacted_trap record

theorem afterContained_resetPending : (afterContained d f record).faults.resetPending =
    (d.faults.resetPending || (d.reactions f).testBit 3) := reacted_resetPending record

/-- The registers after a contained fault are those of the counted fault, but for ERR_STATE and RESET_CAUSE. -/
theorem reg_afterContained {j m : Nat} (hm : m < 256) (h : ¬(j = 0x6000 ∧ (m = 7 ∨ m = 9))) :
    (afterContained d f record).reg j m =
      if j = sourceIndex f ∧ m = 7 then f.addr.toNat
      else if j = sourceIndex f ∧ m = 6 then d.tickNumber
      else if j = sourceIndex f ∧ m = 4 then counted d (sourceIndex f) 4 1
      else if j = 0x6000 ∧ m = 6 then (d.reg 0x6000 6 + 1) % 2 ^ 32 else d.reg j m := by
  have hdrawn : (containedCounted (taken d f) f).drawWord.2.reg j m = (containedCounted (taken d f) f).reg j m :=
    reg_congr rfl j m
  rw [afterContained, reg_reacted_other record hm h, hdrawn, reg_containedCounted _ _ _ hm, reg_inSequence _ _ hm,
    counted_taken, reg_taken, reg_taken, Dev.tickNumber, reg_taken, Dev.tickNumber]

/-- The clearing of the store after a fatal fault counts in an entry of its own. -/
theorem reg_afterFatal_count : (afterFatal d f record).reg (sourceIndex f) 5 = counted d (sourceIndex f) 5 1 := by
  have := le_sourceIndex f
  have hcount : (fatalCounted (taken d f) f).drawWord.2.clearNickel.reg (sourceIndex f) 5 =
      (fatalCounted (taken d f) f).reg (sourceIndex f) 5 := reg_congr rfl _ _
  rw [afterFatal, reg_startReset _ _ _ _ (by decide), if_neg (by omega),
    Dev.reg_setReg _ _ _ _ _ _ (by decide) (by decide), if_neg (by omega), reg_clearSterling _ (by decide) (by omega),
    hcount, reg_fatalCounted _ _ _ (by decide), if_pos ⟨rfl, rfl⟩, counted_taken]

theorem reg_afterFatal_cause : (afterFatal d f record).reg 0x6000 9 = 1 := by
  rw [afterFatal, reg_startReset _ _ _ _ (by decide), if_pos ⟨rfl, rfl⟩, if_pos rfl]

end

end Sys2Proof.Proofs
end

section
/-! SUPPORT. The end of a block reset: the units of a block that owes no record stay as they are (21 R616). -/

namespace Sys2Proof.Proofs

open Sys2Proof.Machine Sys2Proof.Terms

/-- `e` is `d` but for the lists of clusters and update units, and each of those is as it was. -/
structure SameUnits (d e : Dev) : Prop where
  frame : e = { d with clusters := e.clusters, upd := e.upd }
  cluster : ∀ c, e.cluster c = d.cluster c
  updUnit : ∀ m, e.updUnit m = d.updUnit m

theorem SameUnits.refl (d : Dev) : SameUnits d d := ⟨rfl, fun _ => rfl, fun _ => rfl⟩

theorem SameUnits.trans {d e g : Dev} (h : SameUnits d e) (h' : SameUnits e g) : SameUnits d g where
  frame := by
    rw [h'.frame, h.frame]
  cluster c := (h'.cluster c).trans (h.cluster c)
  updUnit m := (h'.updUnit m).trans (h.updUnit m)

theorem sameUnits_setCluster {d : Dev} {c : Nat} {x : Cluster} (h : x = d.cluster c) : SameUnits d (d.setCluster c x) where
  frame := rfl
  cluster k := by
    rw [Dev.cluster_setCluster]
    split
    case isTrue hk => rw [h, hk]
    case isFalse => rfl
  updUnit _ := rfl

theorem sameUnits_setUpdUnit {d : Dev} {m : Nat} {x : UpdUnit} (h : x = d.updUnit m) : SameUnits d (d.setUpdUnit m x) where
  frame := rfl
  cluster _ := rfl
  updUnit k := by
    rw [Dev.updUnit_setUpdUnit]
    split
    case isTrue hk => rw [h, hk]
    case isFalse => rfl

/-- A cluster that owes no record owes none after units have been listed as they were. -/
theorem nothingOwed_of_sameUnits {d e : Dev} (h : SameUnits d e) {c : Nat} (howed : nothingOwed d c) : nothingOwed e c := by
  have hcore (n : Nat) : e.core n = d.core n := by rw [Dev.core, h.frame]; rfl
  unfold nothingOwed at howed ⊢
  simpa only [hcore, h.cluster] using howed

theorem foldl_eq_self {α β : Type} {f : α → β → α} {a : α} {l : List β} (h : ∀ x ∈ l, f a x = a) : l.foldl f a = a := by
  induction l with
  | nil => rfl
  | cons x l ih =>
    obtain ⟨hx, hl⟩ := List.forall_mem_cons.mp h
    rw [List.foldl_cons, hx, ih hl]

theorem coresLeaveReset_of_between {d : Dev} {c : Nat} (h : ∀ k, k < 16 → (d.core (16 * c + k)).frame ≠ .inFrame) :
    d.coresLeaveReset c = d :=
  foldl_eq_self fun k hk => if_neg (h k (List.mem_range.mp hk))

theorem payStreams_of_none_owing {d : Dev} {c : Nat} (h : ∀ x ∈ (d.cluster c).streams, x.phase ≠ .owing) :
    d.payStreams c = d :=
  foldl_eq_self fun x hx => if_neg (h x hx)

theorem payJobs_of_none_owed {d : Dev} {c : Nat} (h : (d.cluster c).veOwed = []) : SameUnits d (d.payJobs c) := by
  rw [Dev.payJobs, h, List.foldl_nil]
  exact sameUnits_setCluster (by rw [← h])

theorem clusterLeavesReset_of_nothingOwed {d : Dev} {c : Nat} (h : nothingOwed d c) :
    SameUnits d (d.clusterLeavesReset c) := by
  obtain ⟨hcores, hstreams, hrun, howed⟩ := h
  unfold Dev.clusterLeavesReset
  split
  case isTrue => exact .refl d
  case isFalse =>
    simp only [coresLeaveReset_of_between hcores, payStreams_of_none_owing hstreams, hrun]
    exact payJobs_of_none_owed howed

theorem clustersLeaveReset_of_nothingOwed (l : List Nat) {d : Dev} (o : Nat) (h : ∀ k ∈ l, nothingOwed d (o + k)) :
    SameUnits d (l.foldl (fun (d : Dev) k => d.clusterLeavesReset (o + k)) d) := by
  induction l generalizing d with
  | nil => exact .refl d
  | cons k l ih =>
    obtain ⟨hk, hl⟩ := List.forall_mem_cons.mp h
    have hstep := clusterLeavesReset_of_nothingOwed hk
    exact hstep.trans (ih fun j hj => nothingOwed_of_sameUnits hstep (hl j hj))

theorem updateDone_of_nothingOwed {d : Dev} {m : Nat} (hrun : (d.updUnit m).run = none) (howed : (d.updUnit m).owed = []) :
    SameUnits d (d.updateDone m) := by
  have hdone : d.updateDone m = d.setUpdUnit m { d.updUnit m with owed := [] } := by
    unfold Dev.updateDone Dev.payUpdates
    simp only [hrun, howed, List.foldl_nil]
  rw [hdone]
  exact sameUnits_setUpdUnit (by rw [← howed])

/-- The units of a block owe no record. -/
def blockOwesNothing (d : Dev) (b : Block) : Prop :=
  match b with
  | .cluster c => nothingOwed d c
  | .electrum e => ∀ k, k < 16 → nothingOwed d (16 * e + k)
  | .update m => (d.updUnit m).run = none ∧ (d.updUnit m).owed = []
  | .channel _ => True

/-- A block taken out of those in reset. -/
def released (d : Dev) (b : Block) : Dev := d.modFaults fun x => { x with inReset := x.inReset.filter (· ≠ b) }

theorem blockResetEnd_of_nothingOwed {d : Dev} {b : Block} (hreset : d.faults.inReset.contains b = true)
    (howed : blockOwesNothing d b) : SameUnits (released d b) (d.blockResetEnd b) := by
  unfold Dev.blockResetEnd
  simp only [hreset, Bool.not_true, Bool.false_eq_true, if_false]
  cases b with
  | cluster c => exact clusterLeavesReset_of_nothingOwed (d := released d _) howed
  | electrum e =>
    exact clustersLeaveReset_of_nothingOwed (d := released d _) (List.range 16) (16 * e) fun k hk =>
      howed k (List.mem_range.mp hk)
  | update m => exact updateDone_of_nothingOwed (d := released d _) howed.1 howed.2
  | channel k => exact .refl _

/-- Settles O46: the order is that of one rank, a recorded fault is counted before its reactions, and a released block that
owes no record finds its units as they were. -/
theorem faultsClassified : Obligations.FaultsClassified := by
  refine ⟨fun fs f h => ?order, fun d f h => reactions_of_fatal d h, ?classify, fun s b hreset howed => ?blockReset⟩
  case order =>
    obtain ⟨hmem, hleast⟩ := firstFault_mem_and_least h
    exact ⟨hmem, fun g hg => (rank_le_iff f g).mp (hleast g hg)⟩
  case classify =>
    intro s f hpending hfirst hlog hring i set
    have hi := le_sourceIndex f
    refine ⟨fun hcls hblock => ?contained, fun hcls hrec => ?corrected, fun hcls => ?fatal⟩
    case contained =>
      obtain ⟨record, hexec⟩ := exec_faultClassify_contained hpending hfirst hlog hcls hblock hring
      obtain ⟨regs, tick, faults, hframe⟩ := afterContained_frame s.dev f record
      have hreg {j m : Nat} := reg_afterContained s.dev f record (j := j) (m := m)
      have hpend := afterContained_resetPending s.dev f record
      rw [hpending, Bool.false_or] at hpend
      refine ⟨_, hexec, afterContained_raised _ _ _, ?seq, ?count, ?tick, ?addr, afterContained_trap _ _ _, hpend,
        reg_reacted_errState _, ?mem, ?cores, ?clusters, ?sterling⟩
      all_goals rw [State.withDev_dev]
      case seq =>
        rw [hreg (by decide) (by decide), if_neg (by omega), if_neg (by omega), if_neg (by omega), if_pos ⟨rfl, rfl⟩]
      case count => rw [hreg (by decide) (by omega), if_neg (by omega), if_neg (by omega), if_pos ⟨rfl, rfl⟩]; rfl
      case tick => rw [hreg (by decide) (by omega), if_neg (by omega), if_pos ⟨rfl, rfl⟩]
      case addr => rw [hreg (by decide) (by omega), if_pos ⟨rfl, rfl⟩]
      all_goals rw [hframe]
    case corrected =>
      rw [exec_faultClassify, classify_of_recorded hpending hfirst hcls hrec]
      exact ⟨_, rfl, rfl, (reg_corrected s.dev f _ i (by decide)).trans (if_pos ⟨rfl, rfl⟩), rfl,
        fun j k hk h => (reg_corrected s.dev f _ j hk).trans (if_neg h)⟩
    case fatal =>
      rw [exec_faultClassify_fatal hpending hfirst hlog hcls]
      exact ⟨_, rfl, rfl, rfl, reg_afterFatal_cause _ _ _, faultRecord_length _ _ _ _, faultRecord_source _ _ _ _,
        reg_afterFatal_count s.dev f _, rfl⟩
  case blockReset =>
    have hsame := blockResetEnd_of_nothingOwed hreset howed
    have hexec : exec (.blockResetEnd b) s = s.onDev fun d => d.blockResetEnd b := rfl
    rw [hexec, State.onDev_eq]
    refine ⟨_, rfl, ?_, ?_, hsame.cluster, hsame.updUnit⟩
    · rw [State.withDev_dev, hsame.frame]
      rfl
    · rw [State.withDev_dev, hsame.frame]
      rfl

end Sys2Proof.Proofs
end

section
/-! SUPPORT. The machine as a whole: what every command answers and keeps, a step and an idle cycle, and the state after reset
(15 R467, 18 R541, 20 R584; log entries 2, 4, 42). -/

namespace Sys2Proof.Proofs

open Sys2Proof.Machine Sys2Proof.Terms

/-! ### Fuses (20 R584, R603) -/

theorem kept_refl (f : Fuses) : f.kept f := ⟨fun _ h => h, fun _ h => h⟩

theorem kept_trans {f g h : Fuses} (hfg : f.kept g) (hgh : g.kept h) : f.kept h :=
  ⟨fun i hi => hgh.1 i (hfg.1 i hi), fun i hi => hgh.2 i (hfg.2 i hi)⟩

theorem getLsbD_or_left {n : Nat} {v : BitVec n} (w : BitVec n) {i : Nat} (h : v.getLsbD i = true) :
    (v ||| w).getLsbD i = true := by
  rw [BitVec.getLsbD_or, h, Bool.true_or]

theorem getLsbD_foldl_of_keeps {n : Nat} {f : BitVec n → Nat → BitVec n} {i : Nat}
    (hf : ∀ w k, w.getLsbD i = true → (f w k).getLsbD i = true) (ks : List Nat) {w : BitVec n} (h : w.getLsbD i = true) :
    (ks.foldl f w).getLsbD i = true := by
  induction ks generalizing w with
  | nil => exact h
  | cons k ks ih => exact ih (hf w k h)

/-- Raising the security version only sets bits. -/
theorem getLsbD_raiseBits {w : BitVec 63} {i : Nat} (v : Nat) (h : w.getLsbD i = true) :
    (raiseBits w v).getLsbD i = true := by
  refine getLsbD_foldl_of_keeps (fun w k hw => ?_) _ h
  dsimp only
  split
  · exact getLsbD_or_left _ hw
  · exact hw

theorem kept_enrolled (f : Fuses) (hash : BitVec 256) : f.kept { f with ownerKeyHash := f.ownerKeyHash ||| hash } :=
  ⟨fun _ h => getLsbD_or_left _ h, fun _ h => h⟩

theorem kept_raised (f : Fuses) (v : Nat) : f.kept { f with secver := raiseBits f.secver v } :=
  ⟨fun _ h => h, fun i => getLsbD_raiseBits (w := f.secver) (i := i) v⟩

/-! ### Every command -/

/-- A next state with the same queue, and with every programmed fuse programmed. -/
def KeepsQueueAndFuses (s : State) (o : Host.Outcome State Fault Refusal) : Prop :=
  ∃ t, o = .next t ∧ t.pending = s.pending ∧ s.fuses.kept t.fuses

theorem keeps_next_self (s : State) : KeepsQueueAndFuses s (.next s) := ⟨s, rfl, rfl, kept_refl _⟩

theorem keeps_next_withDev (s : State) (d : Dev) : KeepsQueueAndFuses s (.next (s.withDev d)) :=
  ⟨_, rfl, rfl, kept_refl _⟩

/-- Only a reset under which fuses were being programmed, and the end of their programming, touch the fuses; every other
command sets the device alone. -/
theorem exec_keeps (i : Instr) (s : State) : KeepsQueueAndFuses s (exec i s) := by
  cases i with
  | resetNAssert =>
    by_cases h : s.dev.phase = .unpowered
    · have hexec : exec .resetNAssert s = .next s := if_pos h
      exact hexec ▸ keeps_next_self s
    · exact exec_resetNAssert h ▸ ⟨_, rfl, rfl, kept_cutFuses _ _⟩
  | chipReset =>
    cases h : s.dev.faults.resetPending with
    | false =>
      have hexec : exec .chipReset s = .next s := if_pos (by rw [h]; rfl)
      exact hexec ▸ keeps_next_self s
    | true => exact exec_chipReset h ▸ ⟨_, rfl, rfl, kept_cutFuses _ _⟩
  | ownerProgramDone =>
    unfold exec execOwnerProgramDone
    dsimp only
    split
    · exact keeps_next_self s
    · exact ⟨_, rfl, rfl, kept_enrolled _ _⟩
  | secverProgramDone =>
    unfold exec execSecverProgramDone
    dsimp only
    split
    · exact keeps_next_self s
    · exact ⟨_, rfl, rfl, kept_raised _ _⟩
  | libExtLoad ctx addr =>
    unfold exec execLibExtLoad
    dsimp only
    split
    · exact keeps_next_self s
    · exact keeps_next_withDev s _
  | reqAdmit ctx addr value =>
    unfold exec execReqAdmit
    dsimp only
    split
    · exact keeps_next_withDev s _
    · exact keeps_next_self s
  | _ => exact keeps_next_withDev s _

/-- Settles O2: every command's meaning is a next state made of the queue it found. -/
theorem commandsAnswerAndKeepQueue : Obligations.CommandsAnswerAndKeepQueue := fun i s =>
  let ⟨t, ht, hpending, _⟩ := exec_keeps i s
  ⟨t, ht, hpending⟩

theorem step_of_nil {s : State} (h : s.pending = []) : step s = .next (s.withDev s.dev.cycle) := by
  rw [step, h, idle, State.onDev_eq]

theorem step_of_cons {s : State} {c : Instr} {rest : List Instr} (h : s.pending = c :: rest) :
    step s = exec c { s with pending := rest } := by
  rw [step, h]

theorem step_keeps_fuses {s t : State} (h : step s = .next t) : s.fuses.kept t.fuses := by
  cases hpending : s.pending with
  | nil =>
    obtain rfl := Host.Outcome.next.inj ((step_of_nil hpending).symm.trans h)
    exact kept_refl _
  | cons c rest =>
    obtain ⟨u, hu, -, hkept⟩ := exec_keeps c { s with pending := rest }
    obtain rfl := Host.Outcome.next.inj (hu.symm.trans ((step_of_cons hpending).symm.trans h))
    exact hkept

/-- Settles O3: a step is an idle cycle, which has no fuses to change, or a command. -/
theorem fusesStayProgrammed : Obligations.FusesStayProgrammed :=
  fun _ _ _ hf hstep => kept_trans hf (step_keeps_fuses hstep)

/-- Settles O1, by the equation of `step` at a queue that is not empty. -/
theorem stepRunsFront : Obligations.StepRunsFront := fun s c => step_of_cons (s := { s with pending := c :: s.pending }) rfl

/-! ### The state after reset -/

/-- Settles O4: every table of the fresh device is empty, and a read of an empty table is its default. -/
theorem stateAtReset : Obligations.StateAtReset := by
  refine ⟨rfl, rfl, fun _ => rfl, fun i k _ => reg_of_regs_nil rfl i k, fun n r => ⟨?_, rfl⟩, fun c b => ⟨rfl, rfl⟩, rfl,
    rfl, rfl, fun s => ⟨fun i h => ?_, fun i h => ?_⟩⟩
  · have hcore : State.reset.dev.core n = .fresh := rfl
    rw [hcore, Core.getG]
    split <;> rfl
  · simp [State.reset] at h
  · simp [State.reset] at h

/-! ### An idle cycle (15 R467) -/

theorem cycle_of_service {d : Dev} (hphase : d.phase = .service) (hslew : d.tick.slew = 0) :
    d.cycle = ({ d with clock := d.clock + 1 } : Dev).setReg 0x2020 1 (d.counter + 1) := by
  unfold Dev.cycle Dev.count Dev.slewNow
  simp only [hphase, hslew, true_or, if_true]
  rfl

/-- Settles O8: the cycle sets the clock and the one entry of COUNTER. -/
theorem idleCycle : Obligations.IdleCycle := by
  intro s hpending hphase hslew
  rw [step_of_nil hpending, cycle_of_service hphase hslew]
  refine ⟨_, rfl, Dev.reg_setReg_same _ _ _ _, rfl, rfl, fun i k hk hother => ?_⟩
  exact (Dev.reg_setReg _ 0x2020 1 _ i k (by decide) hk).trans (if_neg hother)

end Sys2Proof.Proofs
end

section
/-! SUPPORT. Tin's instructions: results written to a register, loads and stores, branches and jumps, the control registers
that CRR reads, and requests for banks (08 R251, R253; 10 R323-R325). -/

namespace Sys2Proof.Proofs

open Sys2Proof.Machine Sys2Proof.Terms

/-! ### Results (08 R251) -/

/-- A command whose Tin writes a result to RD and goes on. -/
theorem exec_tinResult {i : Instr} {s : State} {n : Nat} {rd : BitVec 5} {v : Word} {f : Dev → Dev}
    (hexec : exec i s = s.onDev f) (hf : f s.dev = s.dev.tinResult n rd v) (hpc : goesOn (s.dev.core n) .tin) :
    ∃ t, exec i s = .next t ∧ OnlyCore s t n ∧ WroteG (s.dev.core n) (t.dev.core n) rd v ((s.dev.core n).tin.pc + 4) := by
  obtain ⟨t, ht, honly, hcore⟩ := exec_setCore hexec (hf.trans (tinResult_eq_setCore _ rd v hpc))
  exact ⟨t, ht, honly, hcore ▸ wroteG_setG _ rd v _⟩

theorem exec_tinAlu_congr {i : Instr} {s : State} {n : Nat} {rd ra rb : BitVec 5} {f g : Word → Word → Word}
    (hexec : exec i s = s.onDev fun d => d.tinAlu n rd ra rb f) (h : ∀ x y, f x y = g x y) :
    exec i s = s.onDev fun d => d.tinAlu n rd ra rb g := by
  rw [hexec, funext₂ h]

theorem exec_tinImm_congr {i : Instr} {s : State} {n : Nat} {rd ra : BitVec 5} {f g : Word → Word}
    (hexec : exec i s = s.onDev fun d => d.tinImm n rd ra f) (h : ∀ x, f x = g x) :
    exec i s = s.onDev fun d => d.tinImm n rd ra g := by
  rw [hexec, funext h]

theorem word_sub_eq_ofInt (x y : Word) : x - y = .ofInt 64 ((x.toNat : Int) - y.toNat) := by
  refine BitVec.eq_of_toInt_eq ?_
  rw [BitVec.toInt_ofInt, BitVec.toInt_sub, BitVec.toInt_eq_toNat_bmod, BitVec.toInt_eq_toNat_bmod, Int.sub_bmod_bmod,
    Int.bmod_sub_bmod]

theorem word_eq_zero_iff (y : Word) : y = 0 ↔ y.toNat = 0 := by
  rw [← BitVec.toNat_inj]
  rfl

theorem toInt_signExtend_word (imm : BitVec 16) : (imm.signExtend 64).toInt = imm.toInt :=
  BitVec.toInt_signExtend_of_le (by decide)

theorem word_add_signExtend (x : Word) (imm : BitVec 16) :
    x + imm.signExtend 64 = .ofInt 64 (x.toInt + imm.toInt) := by
  refine BitVec.eq_of_toInt_eq ?_
  rw [BitVec.toInt_ofInt, BitVec.toInt_add, toInt_signExtend_word]

theorem word_ushiftRight (x : Word) (k : Nat) : x >>> k = .ofNat 64 (x.toNat / 2 ^ k) := by
  refine BitVec.eq_of_toNat_eq ?_
  rw [BitVec.toNat_ushiftRight, BitVec.toNat_ofNat, Nat.shiftRight_eq_div_pow,
    Nat.mod_eq_of_lt ((Nat.div_le_self _ _).trans_lt x.isLt)]

theorem word_sshiftRight (x : Word) (k : Nat) : x.sshiftRight k = .ofInt 64 (x.toInt / 2 ^ k) := by
  rw [BitVec.sshiftRight, Int.shiftRight_eq_div_pow]
  norm_cast

theorem word_signExtend_shiftLeft (imm : BitVec 16) (k : Nat) :
    imm.signExtend 64 <<< k = .ofInt 64 (imm.toInt * 2 ^ k) := by
  refine BitVec.eq_of_toInt_eq ?_
  rw [BitVec.toInt_ofInt, BitVec.toInt_shiftLeft, ← toInt_signExtend_word imm, BitVec.toInt_eq_toNat_bmod,
    Int.bmod_mul_bmod, Nat.shiftLeft_eq, Nat.cast_mul, Nat.cast_pow, Nat.cast_ofNat]

theorem exec_aluRow {i : Instr} {n : Nat} {rd ra rb : BitVec 5} {f : Word → Word → Word}
    (hi : aluRow i = some (n, rd, ra, rb, f)) (s : State) : exec i s = s.onDev fun d => d.tinAlu n rd ra rb f := by
  cases i <;> cases hi
  case aluAdd => exact exec_tinAlu_congr rfl fun x y => BitVec.add_def x y
  case aluSub => exact exec_tinAlu_congr rfl word_sub_eq_ofInt
  case aluAnd => exact exec_tinAlu_congr rfl fun x y => BitVec.eq_of_toNat_eq (by simp)
  case aluOr => exact exec_tinAlu_congr rfl fun x y => BitVec.eq_of_toNat_eq (by simp)
  case aluXor => exact exec_tinAlu_congr rfl fun x y => BitVec.eq_of_toNat_eq (by simp)
  case aluSll => exact exec_tinAlu_congr rfl fun x y => BitVec.eq_of_toNat_eq (by simp [Nat.shiftLeft_eq])
  case aluSrl => exact exec_tinAlu_congr rfl fun x y => word_ushiftRight x _
  case aluSra => exact exec_tinAlu_congr rfl fun x y => word_sshiftRight x _
  case aluSlt => exact exec_tinAlu_congr rfl fun x y => by simp [BitVec.slt]
  case aluSltu => exact exec_tinAlu_congr rfl fun x y => by simp [BitVec.ult]
  case aluMul => exact exec_tinAlu_congr rfl fun x y => BitVec.mul_def
  case aluMulhu => exact exec_tinAlu_congr rfl fun x y => rfl
  case aluDivu => exact exec_tinAlu_congr rfl fun x y => if_congr (word_eq_zero_iff y) rfl BitVec.udiv_def
  case aluRemu => exact exec_tinAlu_congr rfl fun x y => if_congr (word_eq_zero_iff y) rfl BitVec.umod_def

theorem exec_immRow {i : Instr} {n : Nat} {rd ra : BitVec 5} {f : Word → Word} (hi : immRow i = some (n, rd, ra, f))
    (s : State) : exec i s = s.onDev fun d => d.tinImm n rd ra f := by
  cases i <;> cases hi
  case addi => exact exec_tinImm_congr rfl fun x => word_add_signExtend x _
  case andi => exact exec_tinImm_congr rfl fun x => BitVec.eq_of_toNat_eq (by simp)
  case ori => exact exec_tinImm_congr rfl fun x => BitVec.eq_of_toNat_eq (by simp)
  case xori => exact exec_tinImm_congr rfl fun x => BitVec.eq_of_toNat_eq (by simp)
  case shiLeft => exact exec_tinImm_congr rfl fun x => BitVec.eq_of_toNat_eq (by simp [Nat.shiftLeft_eq])
  case shiLogicalRight => exact exec_tinImm_congr rfl fun x => word_ushiftRight x _
  case shiArithmeticRight => exact exec_tinImm_congr rfl fun x => word_sshiftRight x _
  case lui imm => exact exec_tinImm_congr rfl fun x => word_signExtend_shiftLeft imm 16
  case slti imm =>
    refine exec_tinImm_congr rfl fun x => ?_
    rw [BitVec.slt, toInt_signExtend_word imm]
    simp

/-- Settles O5: every row is one function of the registers, written to RD. -/
theorem tinArithmeticResult : Obligations.TinArithmeticResult := by
  intro s i n rd f hi hmay hpc
  unfold resultRow at hi
  cases halu : aluRow i with
  | some x =>
    rw [halu] at hi
    cases hi
    exact exec_tinResult (exec_aluRow halu s) (Dev.issue_may _ hmay _) hpc
  | none =>
    rw [halu] at hi
    obtain ⟨x, himm, hx⟩ := Option.map_eq_some_iff.mp hi
    cases hx
    exact exec_tinResult (exec_immRow himm s) (Dev.issue_may _ hmay _) hpc

/-! ### Loads and stores (08 R251) -/

theorem tinAccessOk_iff (off w : Nat) : tinAccessOk off w = true ↔ off % w = 0 ∧ off + w ≤ 0x10000 := by
  simp [tinAccessOk]

theorem exec_loadRow {i : Instr} {n w : Nat} {r ra : BitVec 5} {imm : BitVec 16}
    (hi : loadRow i = some (n, r, ra, imm, w)) (s : State) : exec i s = s.onDev fun d => d.tinLoad n w r ra imm := by
  unfold loadRow at hi
  split at hi <;> cases hi <;> rfl

theorem exec_storeRow {i : Instr} {n w : Nat} {r ra : BitVec 5} {imm : BitVec 16}
    (hi : Terms.storeRow i = some (n, r, ra, imm, w)) (s : State) : exec i s = s.onDev fun d => d.tinStore n w r ra imm := by
  unfold Terms.storeRow at hi
  split at hi <;> cases hi <;> rfl

section
variable {d : Dev} {n : Nat} (r : BitVec 5) {ra : BitVec 5} {imm : BitVec 16} {w : Nat} (hmay : d.mayIssue n .tin = true)
include hmay

theorem tinLoad_of_ok (hok : tinAccessOk (tinOffset (d.core n) ra imm) w = true) : d.tinLoad n w r ra imm =
    d.tinResult n r (BitVec.ofNat 64 (leNat (d.mem.read (coreAddr n (tinOffset (d.core n) ra imm)) w))) :=
  (Dev.issue_may d hmay _).trans (if_pos hok)

theorem tinLoad_of_not_ok (hok : ¬tinAccessOk (tinOffset (d.core n) ra imm) w = true) :
    d.tinLoad n w r ra imm = d.faultHere n .tin 0x03 :=
  (Dev.issue_may d hmay _).trans (if_neg hok)

theorem tinStore_of_not_ok (hok : ¬tinAccessOk (tinOffset (d.core n) ra imm) w = true) :
    d.tinStore n w r ra imm = d.faultHere n .tin 0x03 :=
  (Dev.issue_may d hmay _).trans (if_neg hok)

theorem tinStore_of_ok (hok : tinAccessOk (tinOffset (d.core n) ra imm) w = true) (hpc : goesOn (d.core n) .tin) :
    d.tinStore n w r ra imm =
      (d.wr (coreAddr n (tinOffset (d.core n) ra imm)) (leBytes w ((d.core n).getG r).toNat)).setCore n
        (tinAt (d.core n) ((d.core n).tin.pc + 4)) := by
  refine ((Dev.issue_may d hmay _).trans (if_pos hok)).trans ?_
  exact Dev.tinGo_eq _ hpc.1 hpc.2

end

/-- Settles O6: an access is one of the bytes at its offset, or a fault. -/
theorem tinMemoryAccess : Obligations.TinMemoryAccess := by
  intro s i n r ra imm w hmay off at_
  refine ⟨fun hi hpc halign hin => ?load, fun hi hpc halign hin => ?store, fun hi hbad => ?fault⟩
  case load => exact exec_tinResult (exec_loadRow hi s) (tinLoad_of_ok r hmay ((tinAccessOk_iff _ _).mpr ⟨halign, hin⟩)) hpc
  case store =>
    have hstore := tinStore_of_ok r hmay ((tinAccessOk_iff _ _).mpr ⟨halign, hin⟩) hpc
    rw [exec_storeRow hi, State.onDev_eq, hstore]
    refine ⟨_, rfl, rfl, Dev.core_setCore_same _ _ _, fun m hm => Dev.core_setCore_other _ _ hm, fun a => ?_⟩
    rw [State.withDev_dev, Dev.setCore_mem, Dev.byte_wr, leBytes_length]
    exact ite_congr rfl (fun h => leBytes_getD _ _ _ (Nat.sub_lt_left_of_lt_add h.1 h.2)) fun _ => rfl
  case fault =>
    have hok := mt (tinAccessOk_iff off w).mp hbad
    obtain hi | hi := hi
    · exact exec_faultHere (exec_loadRow hi s) (tinLoad_of_not_ok r hmay hok)
    · exact exec_faultHere (exec_storeRow hi s) (tinStore_of_not_ok r hmay hok)

/-! ### Branches and jumps (08 R251) -/

theorem tinTarget_eq {pc target : Nat} {off : Int} (h : (target : Int) = pc + 4 * off) : tinTarget pc off = target := by
  unfold tinTarget
  dsimp only
  rw [← h, if_neg (by omega), Int.toNat_natCast]

theorem tinGo_eq_setCore (d : Dev) {n pc : Nat} (h : pcIn 4 pc) : d.tinGo n pc = d.setCore n (tinAt (d.core n) pc) :=
  Dev.tinGo_eq d h.1 h.2

theorem exec_tinBranch_iff {i : Instr} {s : State} {n : Nat} {ra rb : BitVec 5} {off : BitVec 16}
    {f : Word → Word → Bool} {p : Word → Word → Prop} (hexec : exec i s = s.onDev fun d => d.tinBranch n ra rb off f)
    (h : ∀ x y, f x y = true ↔ p x y) :
    ∃ f, (∀ x y, f x y = true ↔ p x y) ∧ exec i s = s.onDev fun d => d.tinBranch n ra rb off f :=
  ⟨f, h, hexec⟩

theorem exec_branchRow {i : Instr} {n : Nat} {ra rb : BitVec 5} {off : BitVec 16} {p : Word → Word → Prop}
    (hi : branchRow i = some (n, ra, rb, off, p)) (s : State) :
    ∃ f, (∀ x y, f x y = true ↔ p x y) ∧ exec i s = s.onDev fun d => d.tinBranch n ra rb off f := by
  cases i <;> cases hi
  case beq => exact exec_tinBranch_iff rfl fun x y => beq_iff_eq
  case bne => exact exec_tinBranch_iff rfl fun x y => bne_iff_ne
  case blt => exact exec_tinBranch_iff rfl fun x y => BitVec.slt_iff_toInt_lt
  case bge => exact exec_tinBranch_iff rfl fun x y => by simp [BitVec.slt]
  case bltu => exact exec_tinBranch_iff rfl fun x y => BitVec.ult_iff_lt
  case bgeu => exact exec_tinBranch_iff rfl fun x y => by simp [BitVec.ult]

section
variable {d : Dev} {n pc : Nat} (hmay : d.mayIssue n .tin = true) (hpc : pcIn 4 pc)
include hmay hpc

theorem tinBranch_of_taken {ra rb : BitVec 5} {off : BitVec 16} {f : Word → Word → Bool}
    (hf : f ((d.core n).getG ra) ((d.core n).getG rb) = true) (ht : (pc : Int) = (d.core n).tin.pc + 4 * off.toInt) :
    d.tinBranch n ra rb off f = d.setCore n (tinAt (d.core n) pc) := by
  rw [Dev.tinBranch, Dev.issue_may d hmay, if_pos hf, tinTarget_eq ht, tinGo_eq_setCore d hpc]

theorem tinBranch_of_not_taken {ra rb : BitVec 5} (off : BitVec 16) {f : Word → Word → Bool}
    (hf : ¬f ((d.core n).getG ra) ((d.core n).getG rb) = true) (ht : pc = (d.core n).tin.pc + 4) :
    d.tinBranch n ra rb off f = d.setCore n (tinAt (d.core n) pc) := by
  rw [Dev.tinBranch, Dev.issue_may d hmay, if_neg hf, Dev.goOn, ← ht, tinGo_eq_setCore d hpc]

theorem tinJump_eq {off : BitVec 26} (ht : (pc : Int) = (d.core n).tin.pc + 4 * off.toInt) :
    d.tinJump n off = d.setCore n (tinAt (d.core n) pc) := by
  rw [Dev.tinJump, Dev.issue_may d hmay, tinTarget_eq ht, tinGo_eq_setCore d hpc]

theorem tinLink_eq {off : BitVec 26} (ht : (pc : Int) = (d.core n).tin.pc + 4 * off.toInt) : d.tinLink n off =
    d.setCore n (tinAt ((d.core n).setG 31 (BitVec.ofNat 64 ((d.core n).tin.pc + 4))) pc) := by
  rw [Dev.tinLink, Dev.issue_may d hmay, tinTarget_eq ht, tinGo_setCore d _ hpc]

theorem tinJumpReg_eq {ra : BitVec 5} {imm : BitVec 16}
    (ht : pc = ((d.core n).getG ra + imm.signExtend 64 * 4).toNat) :
    d.tinJumpReg n ra imm = d.setCore n (tinAt (d.core n) pc) := by
  rw [Dev.tinJumpReg, Dev.issue_may d hmay, ← ht, tinGo_eq_setCore d hpc]

end

/-- Settles O7: every row leaves Tin at its target, and JAL a result in g31 as well. -/
theorem tinControlTransfer : Obligations.TinControlTransfer := by
  intro s n pc hmay hpc
  refine ⟨fun i ra rb off p hi htaken => ?branch, fun off ht => ⟨?jump, ?link⟩, fun ra imm ht => ?jumpReg⟩
  case branch =>
    obtain ⟨f, hf, hexec⟩ := exec_branchRow hi s
    obtain ⟨hp, ht⟩ | ⟨hp, ht⟩ := htaken
    · exact exec_setCore hexec (tinBranch_of_taken hmay hpc ((hf _ _).mpr hp) ht)
    · exact exec_setCore hexec (tinBranch_of_not_taken hmay hpc off (mt (hf _ _).mp hp) ht)
  case jump => exact exec_setCore rfl (tinJump_eq hmay hpc ht)
  case link =>
    obtain ⟨t, hexec, honly, hcore⟩ := exec_setCore (i := .jal n off) rfl (tinLink_eq hmay hpc ht)
    exact ⟨t, hexec, honly, hcore ▸ wroteG_setG _ _ _ _⟩
  case jumpReg => exact exec_setCore rfl (tinJumpReg_eq hmay hpc ht)

/-! ### Numbers built digit by digit -/

/-- A number whose digits in base `B` are given, lowest first. -/
theorem foldl_digits_lt {B : Nat} {d : Nat → Nat} (hd : ∀ e, d e < B) (n : Nat) :
    (List.range n).foldl (fun w e => w + d e * B ^ e) 0 < B ^ n := by
  induction n with
  | zero => exact Nat.one_pos
  | succ n ih =>
    rw [List.range_succ, List.foldl_append, List.foldl_cons, List.foldl_nil]
    calc _ < B ^ n + d n * B ^ n := Nat.add_lt_add_right ih _
      _ = (d n + 1) * B ^ n := by ring
      _ ≤ B * B ^ n := Nat.mul_le_mul_right _ (hd n)
      _ = B ^ (n + 1) := (Nat.pow_succ').symm

theorem foldl_digits_digit {B : Nat} {d : Nat → Nat} (hd : ∀ e, d e < B) {n e : Nat} (he : e < n) :
    (List.range n).foldl (fun w e => w + d e * B ^ e) 0 / B ^ e % B = d e := by
  have hB : 0 < B := Nat.zero_lt_of_lt (hd 0)
  induction n with
  | zero => omega
  | succ n ih =>
    rw [List.range_succ, List.foldl_append, List.foldl_cons, List.foldl_nil]
    obtain rfl | hlt := Nat.eq_or_lt_of_le (Nat.le_of_lt_succ he)
    · rw [Nat.add_mul_div_right _ _ (Nat.pow_pos hB), Nat.div_eq_of_lt (foldl_digits_lt hd e), Nat.zero_add,
        Nat.mod_eq_of_lt (hd e)]
    · have hpow : d n * B ^ n = d n * B ^ (n - e - 1) * B * B ^ e := by
        rw [Nat.mul_assoc, Nat.mul_assoc, ← Nat.pow_succ', ← Nat.pow_add]
        congr 2
        omega
      rw [hpow, Nat.add_mul_div_right _ _ (Nat.pow_pos hB), Nat.add_mul_mod_self_right, ih hlt]

/-- The bits at which `p` holds, as a number. -/
theorem foldl_bits_lt (p : Nat → Prop) [DecidablePred p] (n : Nat) :
    (List.range n).foldl (fun w b => if p b then w + 2 ^ b else w) 0 < 2 ^ n := by
  induction n with
  | zero => exact Nat.one_pos
  | succ n ih =>
    rw [List.range_succ, List.foldl_append, List.foldl_cons, List.foldl_nil, Nat.pow_succ]
    split <;> omega

theorem testBit_foldl_bits (p : Nat → Prop) [DecidablePred p] {n b : Nat} (hb : b < n) :
    ((List.range n).foldl (fun w b => if p b then w + 2 ^ b else w) 0).testBit b = decide (p b) := by
  induction n with
  | zero => omega
  | succ n ih =>
    have hlt := foldl_bits_lt p n
    have hstep := fun a => Nat.testBit_two_pow_mul_add a hlt b
    rw [List.range_succ, List.foldl_append, List.foldl_cons, List.foldl_nil]
    obtain rfl | hbn := Nat.eq_or_lt_of_le (Nat.le_of_lt_succ hb)
    · split
      case isTrue hp => simpa [Nat.add_comm, hp] using hstep 1
      case isFalse hp => simpa [hp] using hstep 0
    · split
      case isTrue => simpa [Nat.add_comm, hbn, ih hbn] using hstep 1
      case isFalse => exact ih hbn

/-! ### Control registers (08 R253) -/

theorem events_register (c : Core) {e : Nat} (he : e < 16) :
    (BitVec.ofNat 64 ((List.range 16).foldl (fun w e => w + (tget c.events e 0).toNat * 16 ^ e) 0)).toNat / 16 ^ e % 16 =
      eventCount c e := by
  have hdigit : ∀ e, (tget c.events e 0).toNat < 16 := fun e => (tget c.events e 0).isLt
  have hlt : _ < 2 ^ 64 := foldl_digits_lt hdigit 16
  rw [BitVec.toNat_ofNat, Nat.mod_eq_of_lt hlt, foldl_digits_digit hdigit he, eventCount]

theorem flags_register (p q r : Prop) [Decidable p] [Decidable q] [Decidable r] :
    let v : Word := BitVec.ofNat 64 ((if p then 1 else 0) + (if q then 2 else 0) + (if r then 4 else 0))
    v.getLsbD 0 = decide p ∧ v.getLsbD 1 = decide q ∧ v.getLsbD 2 = decide r := by
  by_cases p <;> by_cases q <;> by_cases r <;> simp [*]

theorem getLsbD_ofNat_word (x : Nat) {b : Nat} (hb : b < 64) : (BitVec.ofNat 64 x).getLsbD b = x.testBit b := by
  rw [BitVec.getLsbD_ofNat, decide_eq_true hb, Bool.true_and]

theorem testBit_ownMap (d : Dev) (n : Nat) {b : Nat} (hb : b < 32) : (d.ownMap n).testBit b =
    decide (d.bankOwner (n / 16) b = n % 16 ∨ d.bankOwner (n / 16) b = 0x10) := by
  have hbits := testBit_foldl_bits (fun b => d.bankOwner (n / 16) b = n % 16 ∨ d.bankOwner (n / 16) b = 0x10) hb
  have hlow := fun a => Nat.testBit_two_pow_mul_add a
    (foldl_bits_lt (fun b => d.bankOwner (n / 16) b = n % 16 ∨ d.bankOwner (n / 16) b = 0x10) 32) b
  rw [← hbits, Dev.ownMap]
  split
  case isTrue => simpa only [hb, if_true, Nat.mul_one, Nat.add_comm] using hlow 1
  case isFalse => rfl

theorem testBit_ownMap_pending (d : Dev) (n : Nat) : (d.ownMap n).testBit 32 = d.ownPending n := by
  have hhigh := fun a => Nat.testBit_two_pow_mul_add a
    (foldl_bits_lt (fun b => d.bankOwner (n / 16) b = n % 16 ∨ d.bankOwner (n / 16) b = 0x10) 32) 32
  rw [Dev.ownMap]
  cases d.ownPending n with
  | true => simpa [Nat.add_comm] using hhigh 1
  | false => simpa using hhigh 0

theorem exec_crr (s : State) (n : Nat) (rd : BitVec 5) (k : BitVec 8) : exec (.crr n rd k) s =
    s.onDev fun d => d.issue n .tin fun c => d.tinResult n rd (d.controlReg n c k.toNat) := rfl

/-- Settles O9: a read writes what the table of control registers names. -/
theorem controlRegisterRead : Obligations.ControlRegisterRead := by
  intro s n rd k hmay hpc
  obtain ⟨t, ht, honly, hwrote⟩ := exec_tinResult (exec_crr s n rd k) (Dev.issue_may _ hmay _) hpc
  refine ⟨t, _, ht, honly, hwrote, ?_, ?_, ?_, ?_, ?_, ?_, ?_, ?_, ?_, fun h => controlReg_absent _ _ _ (by bv_omega)⟩
  all_goals rintro rfl
  case refine_6 => exact BitVec.toNat_setWidth_of_le (by decide)
  case refine_7 => exact fun e he => events_register _ he
  case refine_8 =>
    obtain ⟨hacc, hexe, hcall⟩ := flags_register ((s.dev.core n).acc.run = .running) ((s.dev.core n).exe.run = .running)
      ((s.dev.core n).call.isSome = true)
    exact ⟨hacc, hexe, hcall.trans Bool.decide_eq_true⟩
  case refine_9 =>
    have hreg {b : Nat} := getLsbD_ofNat_word (s.dev.ownMap n) (b := b)
    exact ⟨fun b hb => (hreg (by omega)).trans (testBit_ownMap _ _ hb), (hreg (by decide)).trans (testBit_ownMap_pending _ _)⟩
  all_goals rfl

/-! ### Requests for banks (10 R323-R325) -/

theorem getLsbD_handable (d : Dev) (n : Nat) (v : Word) {b : Nat} (hb : b < 32) :
    (d.handable n (v.truncate 32)).getLsbD b = decide (v.getLsbD b = true ∧
      (d.bankOwner (n / 16) b = n % 16 ∨ d.bankOwner (n / 16) b = 0x10) ∧ d.handoverOf (n / 16) b = none) := by
  rw [Dev.handable, BitVec.getLsbD_ofNat, decide_eq_true hb, Bool.true_and]
  refine (testBit_foldl_bits _ hb).trans (decide_eq_decide.mpr ?_)
  simp [hb]

theorem ownerDefined_iff (o : Nat) : ownerDefined o = true ↔ o ≤ 0x10 ∨ o = 0x1F := by
  simp [ownerDefined]

theorem bitsAt_eq (v lo w : Nat) : bitsAt v lo w = v / 2 ^ lo % 2 ^ w := by
  rw [bitsAt, Nat.shiftRight_eq_div_pow]

theorem ownerCode_eq (v : Nat) : bitsAt v 32 5 = v / 2 ^ 32 % 32 := bitsAt_eq v 32 5

theorem exec_ownRequest {i : Instr} {n : Nat} {ra : BitVec 5} (hi : i = .ownReq n ra ∨ i = .crw n ra 8) (s : State) :
    exec i s = s.onDev fun d => d.ownRequest n ((d.core n).getG ra) := by
  obtain rfl | rfl := hi <;> rfl

section
variable {d : Dev} {n : Nat} {v : Word} (hmay : d.mayIssue n .tin = true)
include hmay

theorem ownRequest_of_pending (hpend : d.ownPending n = true) :
    d.ownRequest n v = d.setCore n (waiting (d.core n) .tin [.handover]) :=
  (Dev.issue_may d hmay _).trans (if_pos hpend)

variable (hpend : d.ownPending n = false)
include hpend

theorem ownRequest_of_reserved (howner : ownerDefined (v.toNat / 2 ^ 32 % 32) = false) :
    d.ownRequest n v = d.faultHere n .tin 0x0B := by
  rw [Dev.ownRequest, Dev.issue_may d hmay]
  simp only [hpend, ownerCode_eq, howner, Bool.false_eq_true, Bool.not_false, if_false, if_true]

variable (howner : ownerDefined (v.toNat / 2 ^ 32 % 32) = true) (hpc : goesOn (d.core n) .tin)
include howner hpc

theorem ownRequest_of_no_banks (hbanks : d.handable n (v.truncate 32) = 0) :
    d.ownRequest n v = d.setCore n (tinAt (d.core n) ((d.core n).tin.pc + 4)) := by
  rw [Dev.ownRequest, Dev.issue_may d hmay]
  simp only [hpend, ownerCode_eq, howner, hbanks, Bool.false_eq_true, Bool.not_true, if_false, if_true]
  exact tinGo_eq_setCore d hpc

theorem ownRequest_of_banks (hbanks : d.handable n (v.truncate 32) ≠ 0) : d.ownRequest n v =
    (d.modCluster (n / 16) fun x => { x with handovers := x.handovers ++
      [{ writer := n, banks := d.handable n (v.truncate 32), owner := BitVec.ofNat 8 (v.toNat / 2 ^ 32 % 32) }] }).setCore n
        (tinAt (d.core n) ((d.core n).tin.pc + 4)) := by
  rw [Dev.ownRequest, Dev.issue_may d hmay]
  simp only [hpend, ownerCode_eq, howner, hbanks, Bool.false_eq_true, Bool.not_true, if_false]
  exact tinGo_eq_setCore _ hpc

end

/-- Settles O11: both rows are one request, which waits, faults, or starts the handover of the banks it may hand over. -/
theorem bankOwnershipRequest : Obligations.BankOwnershipRequest := by
  intro s i n ra hi hmay v code here
  have hexec := exec_ownRequest hi s
  refine ⟨fun hpend hcode hpc => ?_, fun hpend hcode => ?_, fun hpend => ?_⟩
  · have howner := (ownerDefined_iff code).mpr hcode
    refine ⟨s.withDev (s.dev.ownRequest n v), s.dev.handable n (v.truncate 32), hexec,
      fun b hb => getLsbD_handable _ _ _ hb, ?_⟩
    by_cases hbanks : s.dev.handable n (v.truncate 32) = 0
    · rw [ownRequest_of_no_banks hmay hpend howner hpc hbanks, if_pos hbanks]
      exact ⟨rfl, Dev.core_setCore_same _ _ _, fun m hm => Dev.core_setCore_other _ _ hm, fun _ _ => rfl, rfl⟩
    · rw [ownRequest_of_banks hmay hpend howner hpc hbanks, if_neg hbanks]
      exact ⟨rfl, Dev.core_setCore_same _ _ _, fun m hm => Dev.core_setCore_other _ _ hm,
        fun c hc => tget_tset_other s.dev.clusters _ _ hc, tget_tset_same s.dev.clusters _ _ _⟩
  · exact exec_faultHere hexec (ownRequest_of_reserved hmay hpend (Bool.eq_false_iff.mpr (mt (ownerDefined_iff code).mp hcode)))
  · exact exec_setCore hexec (ownRequest_of_pending hmay hpend)

end Sys2Proof.Proofs
end

section
/-! SUPPORT. Programs that go on by themselves: the runs of a loop body, the instructions without operands, address generators,
and the start of a transfer (08 R247, R261-R268, R277, R278). -/

namespace Sys2Proof.Proofs

open Sys2Proof.Machine Sys2Proof.Terms

/-! ### The runs of a loop body (08 R278) -/

/-- A stream at instruction `j` of a body, in run `r` of those that its frame `f` opened. -/
structure InBody (f : LoopFrame) (rest : List LoopFrame) (r j : Nat) (x : ProgState) : Prop where
  pc : x.pc = f.first + 8 * j
  loops : x.loops = { f with left := f.left - r, iter := f.iter + r } :: rest

section
variable {f : LoopFrame} {rest : List LoopFrame} {m r j : Nat} {x : ProgState} (hlast : f.last = f.first + 8 * m)
  (h : InBody f rest r j x)
include hlast h

theorem InBody.retire_of_lt (hj : j < m) : InBody f rest r (j + 1) x.retire := by
  have hpc : x.pc ≠ f.last := by rw [h.pc, hlast]; omega
  have hnext : afterBody x.pc 8 x.loops = (x.pc + 8, x.loops) := by
    rw [h.loops, afterBody]
    exact if_pos hpc
  constructor
  · rw [ProgState.retire, hnext, h.pc]
    ring
  · rw [ProgState.retire, hnext, h.loops]

theorem InBody.retire_of_last (hj : j = m) (hr : r < f.left) : InBody f rest (r + 1) 0 x.retire := by
  have hpc : ¬x.pc ≠ f.last := by rw [h.pc, hlast, hj]; simp
  have hleft : ¬f.left - r = 0 := by omega
  constructor
  · simp only [ProgState.retire, h.loops, afterBody, if_neg hpc, if_neg hleft, Nat.mul_zero, Nat.add_zero]
  · simp only [ProgState.retire, h.loops, afterBody, if_neg hpc, if_neg hleft, Nat.sub_sub, Nat.add_assoc]

/-- After the last run the frame is closed; the enclosing body ends later, so its own frame stays as it is. -/
theorem InBody.retire_of_end (hj : j = m) (hr : r = f.left) (houter : ∀ g, rest.head? = some g → f.last < g.last) :
    x.retire.pc = f.last + 8 ∧ x.retire.loops = rest := by
  have hpc : x.pc = f.last := by rw [h.pc, hlast, hj]
  have hclosed : afterBody f.last 8 x.loops = afterBody f.last 8 rest := by
    simp only [h.loops, afterBody, hr, Nat.sub_self, if_true, ne_eq, not_true, if_false]
  simp only [ProgState.retire, hpc, hclosed]
  cases rest with
  | nil => exact ⟨rfl, rfl⟩
  | cons g rest =>
    have hne : f.last ≠ g.last := (houter g rfl).ne
    simp only [afterBody, if_pos hne, and_self]

end

section
variable {f : LoopFrame} {rest : List LoopFrame} {m : Nat} {x : ProgState} (hlast : f.last = f.first + 8 * m)
include hlast

theorem InBody.iterate_of_le {r : Nat} (h : InBody f rest r 0 x) {j : Nat} (hj : j ≤ m) :
    InBody f rest r j (ProgState.retire^[j] x) := by
  induction j with
  | zero => exact h
  | succ j ih =>
    rw [Function.iterate_succ_apply']
    exact (ih (by omega)).retire_of_lt hlast hj

theorem InBody.iterate_of_run (h : InBody f rest 0 0 x) {r : Nat} (hr : r ≤ f.left) :
    InBody f rest r 0 (ProgState.retire^[(m + 1) * r] x) := by
  induction r with
  | zero => exact h
  | succ r ih =>
    have hrun : (m + 1) * (r + 1) = m + (m + 1) * r + 1 := by ring
    rw [hrun, Function.iterate_succ_apply', Function.iterate_add_apply]
    exact ((ih (by omega)).iterate_of_le hlast le_rfl).retire_of_last hlast rfl hr

/-- Instruction k after the body was opened is number k mod (m + 1) of run k / (m + 1). -/
theorem InBody.iterate (h : InBody f rest 0 0 x) {k : Nat} (hk : k < (m + 1) * (f.left + 1)) :
    InBody f rest (k / (m + 1)) (k % (m + 1)) (ProgState.retire^[k] x) := by
  have hrun : k / (m + 1) ≤ f.left := Nat.le_of_lt_succ (Nat.div_lt_of_lt_mul hk)
  have hplace : k % (m + 1) ≤ m := Nat.le_of_lt_succ (Nat.mod_lt k (Nat.succ_pos m))
  have hstep := (h.iterate_of_run hlast hrun).iterate_of_le hlast hplace
  rwa [← Function.iterate_add_apply, Nat.mod_add_div] at hstep

end

/-- Settles O14: a body is left after its last instruction of its last run. -/
theorem loopBodyRunsItsCount : Obligations.LoopBodyRunsItsCount := by
  intro x f rest m hloops hpc hlast houter
  have hopen : InBody f rest 0 0 x := ⟨hpc, hloops⟩
  refine ⟨fun k hk => ?_, ?_⟩
  · have hk := hopen.iterate hlast hk
    exact ⟨hk.pc, by rw [hk.loops]; rfl⟩
  · have hend : (m + 1) * (f.left + 1) = m + (m + 1) * f.left + 1 := by ring
    rw [hend, Function.iterate_succ_apply', Function.iterate_add_apply]
    exact ((hopen.iterate_of_run hlast le_rfl).iterate_of_le hlast le_rfl).retire_of_end hlast rfl rfl houter

/-! ### Instructions without operands (08 R247, R268, R280) -/

theorem startCall_of_call_none {d : Dev} {n : Nat} (h : (d.core n).call = none) : d.startCall n = d := by
  rw [Dev.startCall, h]

theorem startCall_setCore (d : Dev) {n : Nat} {c : Core} (h : c.call = none) :
    (d.setCore n c).startCall n = d.setCore n c :=
  startCall_of_call_none (by rwa [Dev.core_setCore_same])

theorem goOn_eq_setCore (d : Dev) {n : Nat} {p : Program} (h : goesOn (d.core n) p) :
    d.goOn n p = d.setCore n (advanced (d.core n) p) := by
  cases p with
  | tin => exact tinGo_eq_setCore d h
  | access => exact Dev.streamGo_eq d nofun h.1 h.2
  | execute => exact Dev.streamGo_eq d nofun h.1 h.2

theorem exec_accNop (s : State) (n : Nat) :
    exec (.accNop n) s = s.onDev fun d => d.issue n .access fun _ => d.goOn n .access := rfl

theorem exec_exeNop (s : State) (n : Nat) :
    exec (.exeNop n) s = s.onDev fun d => d.issue n .execute fun _ => d.goOn n .execute := rfl

theorem exec_tinEnd (s : State) (n : Nat) :
    exec (.tinEnd n) s = s.onDev fun d => d.issue n .tin fun _ => d.retireEnd n .tin := rfl

theorem exec_undefinedOpcode (s : State) (n : Nat) (p : Program) : exec (.undefinedOpcode n p) s =
    s.onDev fun d => d.issue n p fun _ => d.faultHere n p 0x01 := rfl

section
variable {d : Dev} {n : Nat}

theorem fence_of_transfers (hmay : d.mayIssue n .access = true) (h : (d.core n).transfers ≠ []) :
    d.fence n = d.setCore n (waiting (d.core n) .access [.transfers]) :=
  (Dev.issue_may d hmay _).trans (if_neg h)

theorem fence_of_no_transfers (hmay : d.mayIssue n .access = true) (h : (d.core n).transfers = [])
    (hgo : goesOn (d.core n) .access) :
    d.fence n = d.setCore n (advanced { d.core n with unfenced := [] } .access) := by
  refine ((Dev.issue_may d hmay _).trans (if_pos h)).trans ?_
  exact goOn_setCore (c := { d.core n with unfenced := [] }) d hgo

theorem accEnd_of_transfers (hmay : d.mayIssue n .access = true) (h : (d.core n).transfers ≠ []) :
    d.accEnd n = d.setCore n (waiting (d.core n) .access [.atEnd]) :=
  (Dev.issue_may d hmay _).trans (if_neg h)

theorem accEnd_of_no_transfers (hmay : d.mayIssue n .access = true) (h : (d.core n).transfers = [])
    (hcall : (d.core n).call = none) : d.accEnd n =
      d.setCore n { d.core n with acc := { (d.core n).acc with run := .retired, waits := [], loops := [] } } := by
  refine ((Dev.issue_may d hmay _).trans (if_pos h)).trans ?_
  exact startCall_setCore d hcall

theorem yieldTo_of_call_none (hmay : d.mayIssue n .access = true) (hcall : (d.core n).call = none) :
    d.yieldTo n = d.setCore n { waiting (d.core n) .access [.call] with atYield := true } :=
  (Dev.issue_may d hmay _).trans (startCall_setCore d hcall)

theorem exeEnd_of_no_paccs (hmay : d.mayIssue n .execute = true) (h : (d.core n).paccs = []) : d.exeEnd n =
    d.setCore n { d.core n with exe := { (d.core n).exe with run := .retired, waits := [], loops := [] } } :=
  (Dev.issue_may d hmay _).trans (if_pos h)

theorem exeEnd_of_paccs (hmay : d.mayIssue n .execute = true) (h : (d.core n).paccs ≠ []) :
    d.exeEnd n = d.setCore n (waiting (d.core n) .execute [.paccWrites]) :=
  (Dev.issue_may d hmay _).trans (if_neg h)

end

/-- Settles O15: each instruction sets its core alone, or faults at its place. -/
theorem plainControl : Obligations.PlainControl := by
  intro s n
  refine ⟨fun hmay => ⟨fun hgo => ⟨?accNop, fun h => ?fence⟩, fun h => ⟨?fenceWaits, ?endWaits⟩,
    fun hcall => ⟨?yield, fun h => ?accEnd⟩⟩, fun hmay => ⟨fun hgo => ?exeNop, fun h => ?exeEnd, fun h => ?exeWaits⟩,
    fun hmay => ?tinEnd, fun p hmay => ?undefined⟩
  case accNop => exact exec_setCore (exec_accNop s n) ((Dev.issue_may _ hmay _).trans (goOn_eq_setCore _ hgo))
  case fence => exact exec_setCore rfl (fence_of_no_transfers hmay h hgo)
  case fenceWaits => exact exec_setCore rfl (fence_of_transfers hmay h)
  case endWaits => exact exec_setCore rfl (accEnd_of_transfers hmay h)
  case yield => exact exec_setCore rfl (yieldTo_of_call_none hmay hcall)
  case accEnd => exact exec_setCore rfl (accEnd_of_no_transfers hmay h hcall)
  case exeNop => exact exec_setCore (exec_exeNop s n) ((Dev.issue_may _ hmay _).trans (goOn_eq_setCore _ hgo))
  case exeEnd => exact exec_setCore rfl (exeEnd_of_no_paccs hmay h)
  case exeWaits => exact exec_setCore rfl (exeEnd_of_paccs hmay h)
  case tinEnd => exact exec_setCore (exec_tinEnd s n) (Dev.issue_may _ hmay _)
  case undefined => exact exec_faultHere (exec_undefinedOpcode s n p) (Dev.issue_may _ hmay _)

/-! ### Address generators (08 R261-R264) -/

theorem exec_agsetRow {i : Instr} {n : Nat} {p : Program} {lo hi : Nat} {ag : BitVec 3} {ovr : Bool} {greg : BitVec 5}
    {off : BitVec 16} (h : agsetRow i = some (n, p, lo, hi, ag, ovr, greg, off)) (s : State) :
    exec i s = s.onDev fun d => d.agset n p lo hi ag ovr greg off := by
  unfold agsetRow at h
  split at h <;> cases h <;> rfl

/-- A core with one generator loaded. -/
def setGen (c : Core) (k : Nat) (g : AddrGen) : Core := { c with gens := tset c.gens k g }

theorem goesOn_setGen {c : Core} {p : Program} (k : Nat) (g : AddrGen) (h : goesOn c p) : goesOn (setGen c k g) p := by
  cases p <;> exact h

theorem gens_advanced (c : Core) (p : Program) : (advanced c p).gens = c.gens := by
  cases p <;> rfl

theorem agset_of_fits {d : Dev} {n : Nat} {p : Program} {lo hi : Nat} {ag : BitVec 3} {ovr : Bool} {greg : BitVec 5}
    {off : BitVec 16} {g : AddrGen} (hmay : d.mayIssue n p = true) (hgo : goesOn (d.core n) p) (hlo : lo ≤ ag.toNat)
    (hhi : ag.toNat ≤ hi) (halign : off.toNat % 64 = 0)
    (hg : g = let x := AddrGen.parse (d.mem.read (coreAddr n off.toNat) 64)
      if ovr then { x with counts := x.counts.take 5 ++ [((d.core n).getG greg).toNat] } else x)
    (htop : ovr = true → ((d.core n).getG greg).toNat < 2 ^ 24) (hmode : g.modeFits = true)
    (hplaced : g.placed (n / 16) = true) :
    d.agset n p lo hi ag ovr greg off = d.setCore n (advanced (setGen (d.core n) ag.toNat g) p) := by
  have hag : ¬(ag.toNat < lo ∨ hi < ag.toNat) := by omega
  have htop' : ¬(ovr = true ∧ 2 ^ 24 ≤ ((d.core n).getG greg).toNat) := fun h => (htop h.1).not_ge h.2
  rw [Dev.agset, Dev.issue_may d hmay]
  dsimp only [Dev.rd] at hg ⊢
  rw [← hg, if_neg hag, if_neg (not_not_intro halign), if_neg htop', if_neg (by simp [hmode]), if_neg (by simp [hplaced])]
  exact goOn_setCore d (goesOn_setGen _ _ hgo)

theorem stepOffset_cons {i c : Nat} (j : Nat) (cs : List Nat) (s : Int) (ss : List Int) (hi : i < c) :
    stepOffset (i + c * j) (c :: cs) (s :: ss) = i * s + stepOffset j cs ss := by
  rw [stepOffset, Nat.add_mul_mod_self_left, Nat.mod_eq_of_lt hi, Nat.add_mul_div_left _ _ (Nat.zero_lt_of_lt hi),
    Nat.div_eq_of_lt hi, Nat.zero_add]

theorem stepOffset_nil (j : Nat) (ss : List Int) : stepOffset j [] ss = 0 := rfl

/-- The steps of a nest run with level 0 fastest (08 R262). -/
theorem stepOffset_ofFn (i c : Fin 6 → Nat) (stride : Fin 6 → Int) (hi : ∀ k, i k < c k) :
    stepOffset (∑ k : Fin 6, i k * ∏ l : Fin 6, if l < k then c l else 1) (List.ofFn c) (List.ofFn stride) =
      ∑ k, (i k : Int) * stride k := by
  have hnest : (∑ k : Fin 6, i k * ∏ l : Fin 6, if l < k then c l else 1) =
      i 0 + c 0 * (i 1 + c 1 * (i 2 + c 2 * (i 3 + c 3 * (i 4 + c 4 * (i 5 + c 5 * 0))))) := by
    simp only [Fin.sum_univ_six, Fin.prod_univ_six, Fin.reduceLT, if_true, if_false]
    ring
  have hcounts : List.ofFn c = [c 0, c 1, c 2, c 3, c 4, c 5] := rfl
  have hstrides : List.ofFn stride = [stride 0, stride 1, stride 2, stride 3, stride 4, stride 5] := rfl
  rw [hnest, hcounts, hstrides, Fin.sum_univ_six]
  simp only [stepOffset_cons _ _ _ _ (hi _), stepOffset_nil]
  ring

/-- Settles O16: AGSET stores what the descriptor parses to, and a step number is the nest's place in mixed radix. -/
theorem generators : Obligations.Generators := by
  refine ⟨fun s i n p lo hi ag ovr greg off g h hmay hgo hlo hhi halign hg htop hmode hplaced => ?_,
    fun g i c stride hcounts hstrides hi hpos => ?_⟩
  · obtain ⟨t, ht, honly, hcore⟩ := exec_setCore (exec_agsetRow h s)
      (agset_of_fits hmay hgo hlo hhi halign hg htop hmode hplaced)
    refine ⟨t, ht, honly, ?_, fun k => ?_⟩
    · rw [hcore, gens_advanced, setGen]
    · rw [hcore, gens_advanced, setGen, tfind_tset]
  · rw [AddrGen.addr, hcounts, hstrides, stepOffset_ofFn i c stride hi, Int.toNat_of_nonneg hpos]

/-! ### Transfers start (08 R267, 10 R317) -/

theorem addUpsets_frame (d : Dev) (ups : List Upset) :
    d.addUpsets ups = { d with draw := (d.addUpsets ups).draw, mem := (d.addUpsets ups).mem } := by
  induction ups generalizing d with
  | nil => rfl
  | cons u ups ih =>
    have hstep (e : Dev) (he : e = { d with draw := e.draw, mem := e.mem }) :
        e.addUpsets ups = { d with draw := (e.addUpsets ups).draw, mem := (e.addUpsets ups).mem } := by
      have hups := ih e
      conv_lhs => rw [hups]
      rw [he]
    refine hstep _ ?_
    dsimp only
    split <;> rfl

/-- The transfer that LD or ST starts. -/
def newTransfer (d : Dev) (n : Nat) (load : Bool) (g : AddrGen) : Transfer :=
  { load := load, gen := g, next := 0, pc := (d.core n).acc.pc, q := (d.accModulus (d.core n) g).getD 1 }

/-- A core with one more transfer in a queue. -/
def queued (c : Core) (q : Nat) (t : Transfer) : Core :=
  c.setQueue q { c.queue q with transfers := (c.queue q).transfers ++ [t] }

section
variable {d : Dev} {n : Nat} {load : Bool} {ag : BitVec 3} {q : BitVec 2} (hmay : d.mayIssue n .access = true)
include hmay

theorem startTransfer_of_no_gen (hgen : tfind (d.core n).gens ag.toNat = none) :
    d.startTransfer n load ag q = d.programFault n .access 0x0C (d.core n).acc.pc := by
  rw [Dev.startTransfer, Dev.issue_may d hmay, hgen]
  rfl

variable {g : AddrGen} (hgen : tfind (d.core n).gens ag.toNat = some g)
include hgen

theorem startTransfer_of_load_mode (hload : load = true) (hmode : g.mode ≠ 0) :
    d.startTransfer n load ag q = d.programFault n .access 0x01 (d.core n).acc.pc := by
  rw [Dev.startTransfer, Dev.issue_may d hmay, hgen]
  exact if_pos ⟨hload, hmode⟩

theorem startTransfer_of_no_modulus (hload : load = false) (hmod : d.accModulus (d.core n) g = none) :
    d.startTransfer n load ag q = d.programFault n .access 0x02 (d.core n).acc.pc := by
  rw [Dev.startTransfer, Dev.issue_may d hmay, hgen]
  exact (if_neg (by simp [hload])).trans (if_pos (by simp [hload, hmod]))

theorem startTransfer_of_fits (hgo : goesOn (d.core n) .access) (hmode : load = true → g.mode = 0)
    (hmod : d.accModulus (d.core n) g ≠ none) : d.startTransfer n load ag q =
      (d.setCore n (advanced (queued (d.core n) q.toNat (newTransfer d n load g)) .access)).pump n := by
  have hfits : ¬(load = true ∧ g.mode ≠ 0) := fun h => h.2 (hmode h.1)
  rw [Dev.startTransfer, Dev.issue_may d hmay, hgen]
  have hgo' : goesOn (queued (d.core n) q.toNat (newTransfer d n load g)) .access := hgo
  rw [← goOn_setCore d hgo']
  exact (if_neg hfits).trans (if_neg (by simp [hmod]))

end

/-- Settles O17: a transfer starts on the device that holds the errors its reads will meet. -/
theorem transferStarts : Obligations.TransferStarts := by
  intro s i d n load ag q ups hrow hmay pc
  have hd : d = { s.dev with draw := d.draw, mem := d.mem } := by
    obtain ⟨-, -, rfl⟩ | ⟨-, -, rfl⟩ := hrow
    · exact addUpsets_frame _ _
    · rfl
  have hexec : exec i s = .next (s.withDev (d.startTransfer n load ag q)) := by
    obtain ⟨rfl, rfl, rfl⟩ | ⟨rfl, rfl, rfl⟩ := hrow <;> rfl
  have hcore : d.core n = s.dev.core n := by rw [hd]; rfl
  have hmay' : d.mayIssue n .access = true := by rw [hd]; exact hmay
  have hmod (g : AddrGen) : d.accModulus (d.core n) g = s.dev.accModulus (s.dev.core n) g := by rw [hd]; rfl
  rw [hexec]
  refine ⟨fun g hgen => ⟨fun hgo hmode hg => ?_, fun hload hmode => ?_, fun hload hg => ?_⟩, fun hgen => ?_⟩
  all_goals rw [← hcore] at hgen
  · rw [startTransfer_of_fits hmay' hgen (hcore ▸ hgo) hmode (hmod g ▸ hg), newTransfer, hmod, hcore]
    rfl
  · rw [startTransfer_of_load_mode hmay' hgen hload hmode, hcore]
  · rw [startTransfer_of_no_modulus hmay' hgen hload ((hmod g).trans hg), hcore]
  · rw [startTransfer_of_no_gen hmay' hgen, hcore]

end Sys2Proof.Proofs
end

section
/-! SUPPORT. A step of a transfer over memory that is not in canonical form: the bytes of the range are not those that its
addresses list (08 R262, R267). -/

namespace Sys2Proof.Proofs

open Sys2Proof.Machine Sys2Proof.Terms

/-- One step of two bytes from the start of core 0's memory. -/
def twoByteLoad : Transfer :=
  { load := true, gen := { base := coreAddr 0 0, width := 2, counts := [1], strides := [0], mode := 0, accMod := 0, stepsDone := 0 },
    next := 0, pc := 0, q := 1 }

/-- Core 0 with that transfer at the head of its first queue, over a memory whose two cells do not rise. -/
def unsortedLoad : Dev :=
  { Dev.fresh with
    mem := { Memory.empty with cells := [(coreAddr 0 1, 1), (coreAddr 0 0, 2)] },
    cores := [(0, { Core.fresh with queues := [(0, { DQueue.empty with transfers := [twoByteLoad] })] })] }

theorem unsortedLoad_read : unsortedLoad.mem.read (coreAddr 0 0) 2 = [0, 1] := by decide

theorem unsortedLoad_byte : unsortedLoad.mem.byte (coreAddr 0 0) = 2 := by decide

/-- Refutes O18: a range is read along rising cells, so over cells that do not rise it misses a byte that its address lists,
and the core has stored nothing that the byte could come from. -/
theorem not_transferStepMoves : ¬ Obligations.TransferStepMoves := by
  rintro ⟨hstep, -⟩
  obtain ⟨hload, -, -⟩ := hstep unsortedLoad 0 0 twoByteLoad [] rfl (by decide)
  obtain ⟨e, bs, -, -, -, -, hread, hbytes⟩ := hload rfl (by decide) rfl (by decide)
  obtain rfl : bs = [0, 1] := (hread rfl).trans unsortedLoad_read
  obtain hbyte | ⟨u, hu, -⟩ := hbytes 0 (by decide)
  · exact absurd (hbyte.trans unsortedLoad_byte) (by decide)
  · exact List.not_mem_nil hu

end Sys2Proof.Proofs
end

section
/-! SUPPORT. A core that nothing moves, and the issue of a lane instruction: what it claims, takes, delivers, and what it leaves
of the core (08 R257-R260, R269-R271). -/

namespace Sys2Proof.Proofs

open Sys2Proof.Machine Sys2Proof.Terms

/-- What every step of a fold keeps, the fold keeps. -/
theorem foldl_rel {α β : Type} {R : β → β → Prop} (hrefl : ∀ b, R b b) (htrans : ∀ a b c, R a b → R b c → R a c)
    {f : β → α → β} {l : List α} (hf : ∀ b, ∀ x ∈ l, R b (f b x)) (b : β) : R b (l.foldl f b) := by
  induction l generalizing b with
  | nil => exact hrefl b
  | cons x l ih => exact htrans _ _ _ (hf b x List.mem_cons_self) (ih (fun b y hy => hf b y (List.mem_cons_of_mem _ hy)) _)

/-! ### A core at rest -/

theorem transfers_eq_nil_iff (c : Core) : c.transfers = [] ↔ ∀ q, q < 4 → (c.queue q).transfers = [] := by
  simp [Core.transfers]

theorem movesGo_of_no (fuel : Nat) {d : Dev} {n q : Nat} (h : d.moveStep n q = .no) : d.movesGo fuel n q = d := by
  cases fuel with
  | zero => rfl
  | succ k => rw [Dev.movesGo, h]

theorem moveStep_of_no_transfers {d : Dev} {n q : Nat} (h : ((d.core n).queue q).transfers = []) :
    d.moveStep n q = .no := by
  rw [Dev.moveStep]
  simp only [h]

theorem foldl_movesGo_of_no_transfers (fuel : Nat) {d : Dev} {n : Nat} (h : (d.core n).transfers = []) :
    (List.range 4).foldl (fun d q => Dev.movesGo fuel d n q) d = d := by
  have hqueues := (transfers_eq_nil_iff _).mp h
  exact foldl_eq_self fun q hq => movesGo_of_no _ (moveStep_of_no_transfers (hqueues q (List.mem_range.mp hq)))

theorem pumpPaccs_setCore (d : Dev) {n : Nat} {c : Core} (h : c.paccs = []) :
    (d.setCore n c).pumpPaccs n = d.setCore n c := by
  have hcore : ({ c with paccs := [] } : Core) = c := by rw [← h]
  rw [Dev.pumpPaccs, Dev.core_setCore_same, h, Dev.paccsGo, Dev.modCore, Dev.core_setCore_same, setCore_setCore, hcore]

theorem endPrograms_of_not_waiting {d : Dev} {n : Nat} (hacc : (d.core n).acc.waits ≠ [.atEnd])
    (hexe : (d.core n).exe.waits ≠ [.paccWrites]) : d.endPrograms n = d := by
  unfold Dev.endPrograms
  simp only [hacc, hexe, false_and, if_false]

/-- Nothing of a still core in no call moves. -/
theorem pump_setCore_of_still (d : Dev) {n : Nat} {c : Core} (h : still c) (hcall : c.call = none) :
    (d.setCore n c).pump n = d.setCore n c := by
  obtain ⟨htransfers, hpaccs, hacc, hexe⟩ := h
  have hcore := d.core_setCore_same n c
  rw [Dev.pump, foldl_movesGo_of_no_transfers _ (hcore.symm ▸ htransfers), pumpPaccs_setCore d hpaccs,
    endPrograms_of_not_waiting (hcore.symm ▸ hacc) (hcore.symm ▸ hexe), startCall_setCore d hcall]

/-! ### Claims (08 R259) -/

/-- A core that differs in which programs its queues belong to, and not in what they hold. -/
structure SameBytes (c e : Core) : Prop where
  frame : e = { c with queues := e.queues }
  bytes : ∀ q, (e.queue q).bytes = (c.queue q).bytes

theorem SameBytes.refl (c : Core) : SameBytes c c := ⟨rfl, fun _ => rfl⟩

theorem SameBytes.trans {a b c : Core} (h : SameBytes a b) (h' : SameBytes b c) : SameBytes a c where
  frame := by rw [h'.frame, h.frame]
  bytes q := (h'.bytes q).trans (h.bytes q)

theorem bytes_claim {x y : DQueue} {push : Bool} {p : Program} (h : x.claim push p = some y) : y.bytes = x.bytes := by
  unfold DQueue.claim at h
  split_ifs at h <;> cases h <;> rfl

theorem sameBytes_claimAll {c e : Core} {push : Bool} {p : Program} {qs : List Nat} (h : c.claimAll push p qs = some e) :
    SameBytes c e := by
  induction qs generalizing c with
  | nil => exact Option.some.inj h ▸ .refl c
  | cons q qs ih =>
    rw [Core.claimAll] at h
    split at h
    case h_1 x hx =>
      refine SameBytes.trans ⟨rfl, fun k => ?_⟩ (ih h)
      rw [Core.queue_setQueue]
      split
      case isTrue hk => rw [hk, bytes_claim hx]
      case isFalse => rfl
    case h_2 => cases h

section
variable {c e : Core} (h : SameBytes c e)
include h

theorem vreg_of_sameBytes (sl k : Nat) : e.vreg sl k = c.vreg sl k := by
  rw [Core.vreg, h.frame, Core.vreg]

theorem takeSource_of_sameBytes (sl : Nat) (x : Source) (draw : Nat) (t : Taken) :
    e.takeSource sl x draw t = c.takeSource sl x draw t := by
  simp only [Core.takeSource, vreg_of_sameBytes h, h.bytes]

theorem gather_of_sameBytes (sls : List Nat) (xs : List Source) (draw : Nat) :
    e.gather sls xs draw = c.gather sls xs draw := by
  simp only [Core.gather, Core.takeSlice, takeSource_of_sameBytes h]

end

theorem sameBytes_popAll {c e : Core} (h : SameBytes c e) (t : Taken) : SameBytes (c.popAll t) (e.popAll t) := by
  unfold Core.popAll
  generalize t.popped = ps
  induction ps generalizing c e with
  | nil => exact h
  | cons p ps ih =>
    refine ih ⟨?_, fun q => ?_⟩
    · dsimp only [Core.setQueue]
      rw [h.frame]
    · rw [Core.queue_setQueue, Core.queue_setQueue]
      split
      · rw [h.bytes]
      · exact h.bytes q

/-! ### What a lane instruction leaves of a core -/

/-- A core that differs in its queues and vector registers alone. -/
def OnlyVectors (c e : Core) : Prop := e = { c with queues := e.queues, vregs := e.vregs }

theorem OnlyVectors.trans {a b c : Core} (h : OnlyVectors a b) (h' : OnlyVectors b c) : OnlyVectors a c := by
  unfold OnlyVectors at *
  rw [h', h]

theorem SameBytes.onlyVectors {c e : Core} (h : SameBytes c e) : OnlyVectors c e := by
  unfold OnlyVectors
  rw [h.frame]

theorem onlyVectors_foldl {α : Type} {f : Core → α → Core} (hf : ∀ c x, OnlyVectors c (f c x)) (l : List α) (c : Core) :
    OnlyVectors c (l.foldl f c) :=
  foldl_rel (R := OnlyVectors) (fun _ => rfl) (fun _ _ _ => OnlyVectors.trans) (fun c x _ => hf c x) c

theorem onlyVectors_popAll (c : Core) (t : Taken) : OnlyVectors c (c.popAll t) := by
  unfold Core.popAll
  exact onlyVectors_foldl (fun _ _ => by rfl) _ _

theorem onlyVectors_deliver (c : Core) (sl : Nat) (dst : BitVec 4) (clear : Bool) (ws : List Nat) :
    OnlyVectors c (c.deliver sl dst clear ws) := by
  unfold Core.deliver
  dsimp only
  split <;> rfl

/-- A core after its results have been delivered, slice by slice. -/
def delivered (c : Core) (o : LaneOp) (v : PSetVals) (xs : List (Nat × List (List (List Nat)))) : Core :=
  xs.foldl (fun c s => (o.dests.zip (o.result v s.1 s.2)).foldl (fun c x => c.deliver s.1 x.1 o.clearOut x.2) c) c

theorem onlyVectors_delivered (c : Core) (o : LaneOp) (v : PSetVals) (xs : List (Nat × List (List (List Nat)))) :
    OnlyVectors c (delivered c o v xs) :=
  onlyVectors_foldl (fun _ _ => onlyVectors_foldl (fun _ _ => onlyVectors_deliver _ _ _ _ _) _ _) _ _

/-- The core that has delivered its results, with its execute stream still at the instruction. -/
def laneHeld (c : Core) (o : LaneOp) (v : PSetVals) (draw : Nat) : Core :=
  let e := delivered (c.popAll (laneTaken c o draw).1) o v (laneTaken c o draw).2
  { e with busy := e.busy + o.cycles v }

theorem laneDone_eq_advanced (c : Core) (o : LaneOp) (v : PSetVals) (draw : Nat) :
    laneDone c o v draw = advanced (laneHeld c o v draw) .execute := rfl

theorem onlyVectors_delivered_popAll (c : Core) (o : LaneOp) (v : PSetVals) (t : Taken)
    (xs : List (Nat × List (List (List Nat)))) : OnlyVectors c (delivered (c.popAll t) o v xs) :=
  (onlyVectors_popAll c t).trans (onlyVectors_delivered _ o v xs)

/-! ### Issue (08 R269-R271, R283) -/

theorem filter_lt_four_of_lt {q : Nat} (hq : q < 4) (l : List (BitVec 4)) :
    (((l.filter fun x => x.toNat < 4).map (·.toNat)).filter (· = q)).length = (l.filter fun x => x.toNat = q).length := by
  rw [List.filter_map, List.length_map, List.filter_filter]
  congr 1
  refine List.filter_congr fun x _ => ?_
  rw [Function.comp_apply, ← Bool.decide_and, decide_eq_decide]
  exact and_iff_left_of_imp fun h => h.trans_lt hq

/-- Queues that a lane instruction pops from. -/
def pullsOf (o : LaneOp) : List Nat := (o.sources.filter fun x => x.code.toNat < 8).map fun x => x.code.toNat % 4

/-- Queues that it pushes to. -/
def pushesOf (o : LaneOp) : List Nat := (o.dests.filter fun x => x.toNat < 4).map (·.toNat)

/-- A lane instruction's own conditions hold and its queues are its own, `c` being its core with their programs claimed. -/
structure Issues (d : Dev) (n : Nat) (o : LaneOp) (c : Core) (v : PSetVals) : Prop where
  may : d.mayIssue n .execute = true
  go : goesOn (d.core n) .execute
  slice : o.slice ≠ 0
  defined : o.undefined = false
  kind : o.wrongKind = false
  dests : ∀ x ∈ o.dests, ¬(4 ≤ x.toNat ∧ x.toNat < 8)
  claims : ((d.core n).claimAll false .execute (pullsOf o)).bind (fun e => e.claimAll true .execute (pushesOf o)) = some c
  vals : d.laneVals c o.modIdx = some v

section
variable {d : Dev} {n : Nat} {o : LaneOp} {c : Core} {v : PSetVals} (h : Issues d n o c v)
include h

theorem Issues.sameBytes : SameBytes (d.core n) c := by
  obtain ⟨e, hpull, hpush⟩ := Option.bind_eq_some_iff.mp h.claims
  exact (sameBytes_claimAll hpull).trans (sameBytes_claimAll hpush)

theorem Issues.gather : (d.core n).gather (slicesOf o.slice) o.sources d.draw = laneTaken c o d.draw := by
  rw [laneTaken, gather_of_sameBytes h.sameBytes]

theorem Issues.goesOn_laneHeld : goesOn (laneHeld c o v d.draw) .execute := by
  have hexe : (laneHeld c o v d.draw).exe = (d.core n).exe := by
    rw [laneHeld, onlyVectors_delivered_popAll c o v, h.sameBytes.frame]
  have hgo : pcIn 8 (d.core n).exe.retire.pc := h.go
  rw [← hexe] at hgo
  exact hgo

theorem Issues.not_undefined :
    ¬(o.slice = 0 ∨ o.undefined = true ∨ (o.dests.any fun x => 4 ≤ x.toNat && x.toNat < 8) = true) := by
  have hdests := h.dests
  refine not_or.mpr ⟨h.slice, ?_⟩
  simpa [h.defined] using hdests

theorem Issues.not_short (hneed : ∀ x ∈ (laneTaken c o d.draw).1.need, x.2 ≤ (c.queue x.1).bytes.length) :
    ((laneTaken c o d.draw).1.need.filterMap fun p =>
      if ((d.core n).queue p.1).bytes.length < p.2 then some (Wait.data p.1 p.2) else none) = [] := by
  refine List.filterMap_eq_nil_iff.mpr fun x hx => if_neg ?_
  rw [← h.sameBytes.bytes]
  exact (hneed x hx).not_gt

theorem Issues.not_full
    (hroom : ∀ x ∈ o.dests, x.toNat < 4 → ((c.popAll (laneTaken c o d.draw).1).queue x.toNat).bytes.length +
      (o.dests.filter fun y => y.toNat = x.toNat).length * (slicesOf o.slice).length * vecBytes o.clearOut ≤ 4096) :
    ((pushesOf o).eraseDups.filterMap fun q =>
      if 4096 < (((d.core n).popAll (laneTaken c o d.draw).1).queue q).bytes.length +
          ((pushesOf o).filter (· = q)).length * (slicesOf o.slice).length * vecBytes o.clearOut then
        some (Wait.room q (((pushesOf o).filter (· = q)).length * (slicesOf o.slice).length * vecBytes o.clearOut -
          tget (laneTaken c o d.draw).1.popped q 0)) else none) = [] := by
  refine List.filterMap_eq_nil_iff.mpr fun q hq => if_neg ?_
  obtain ⟨x, hx, rfl⟩ := List.mem_map.mp (List.mem_eraseDups.mp hq)
  obtain ⟨hmem, hlt⟩ := List.mem_filter.mp hx
  have hlt : x.toNat < 4 := of_decide_eq_true hlt
  rw [pushesOf, filter_lt_four_of_lt hlt, ← (sameBytes_popAll h.sameBytes _).bytes]
  exact (hroom x hmem hlt).not_gt

/-- The bytes that a lane instruction takes are there, and there is room for what it pushes. -/
theorem Issues.lane_eq (hneed : ∀ x ∈ (laneTaken c o d.draw).1.need, x.2 ≤ (c.queue x.1).bytes.length)
    (hroom : ∀ x ∈ o.dests, x.toNat < 4 → ((c.popAll (laneTaken c o d.draw).1).queue x.toNat).bytes.length +
      (o.dests.filter fun y => y.toNat = x.toNat).length * (slicesOf o.slice).length * vecBytes o.clearOut ≤ 4096) :
    d.lane n o = (({ d with
      draw := if o.sources.any (fun x => 8 ≤ x.code.toNat && 1 < x.count) then d.draw + 8192 else d.draw }).setCore n
        (laneDone c o v d.draw)).pump n := by
  have hkind : ¬o.wrongKind = true := by simp [h.kind]
  have hshort := h.not_short hneed
  have hfull := h.not_full hroom
  have hclaims := h.claims
  unfold pushesOf at hfull
  unfold pullsOf pushesOf at hclaims
  rw [Dev.lane, Dev.issue_may d h.may]
  simp only [if_neg h.not_undefined, if_neg hkind, h.gather, hshort, hfull, hclaims, h.vals, ne_eq, not_true, or_self,
    if_false]
  rw [laneDone_eq_advanced, ← goOn_setCore _ h.goesOn_laneHeld]
  split <;> rfl

end

theorem exec_laneRow {i : Instr} {s : State} {n : Nat} {o : LaneOp} (h : laneRow i (s.dev.core n) = some (n, o)) :
    exec i s = .next (s.withDev (s.dev.lane n o)) := by
  cases i <;> cases h <;> rfl

/-- Settles O23: the row is a lane operation, and its checks are those of the statement. -/
theorem laneIssue : Obligations.LaneIssue := by
  intro s i n o c v hi hmay hgo hslice hdef hkind hdests hclaims hneed hroom hvals
  have h : Issues s.dev n o c v := ⟨hmay, hgo, hslice, hdef, hkind, hdests, hclaims, hvals⟩
  rw [exec_laneRow hi, h.lane_eq hneed hroom]

end Sys2Proof.Proofs
end

section
/-! SUPPORT. Lane instructions on vector registers: the lanes of the result, row by row (02 R32, R36, R57; 04 R109; 08
R271-R275). -/

namespace Sys2Proof.Proofs

open Sys2Proof.Machine Sys2Proof.Terms

/-! ### Registers as sources (08 R269) -/

/-- The vector that a register source gives. -/
def regVec (c : Core) (sl : Nat) (x : Source) : List Nat :=
  if x.clear then (c.vreg sl (x.code.toNat - 8)).map (· % 2 ^ 32) else c.vreg sl (x.code.toNat - 8)

/-- Every source is one vector of a register. -/
def FromRegisters (xs : List Source) : Prop := ∀ x ∈ xs, 8 ≤ x.code.toNat ∧ x.count = 1

theorem takeSource_register (c : Core) (sl draw : Nat) (t : Taken) {x : Source} (h : 8 ≤ x.code.toNat ∧ x.count = 1) :
    c.takeSource sl x draw t = (t, [regVec c sl x]) := by
  rw [Core.takeSource]
  simp only [if_pos h.1, h.2, Nat.sub_self, List.range_zero, List.map_nil, regVec]

theorem foldl_collect {α β τ : Type} {f : τ × List β → α → τ × List β} {g : α → β} {l : List α}
    (h : ∀ p, ∀ x ∈ l, f p x = (p.1, p.2 ++ [g x])) (p : τ × List β) : l.foldl f p = (p.1, p.2 ++ l.map g) := by
  induction l generalizing p with
  | nil => simp
  | cons x l ih =>
    obtain ⟨hx, hl⟩ := List.forall_mem_cons.mp (fun y hy p => h p y hy)
    rw [List.foldl_cons, hx, ih fun p y hy => hl y hy p]
    simp

theorem takeSlice_registers (c : Core) (sl draw : Nat) (t : Taken) {xs : List Source} (h : FromRegisters xs) :
    c.takeSlice sl xs draw t = (t, xs.map fun x => [regVec c sl x]) := by
  rw [Core.takeSlice, foldl_collect (g := fun x => [regVec c sl x.1]) fun p x hx => ?_]
  · conv_rhs => rw [← List.zipIdx_map_fst 0 xs, List.map_map]
    rfl
  · rw [takeSource_register _ _ _ _ (h _ (List.fst_mem_of_mem_zipIdx hx))]

theorem laneTaken_registers (c : Core) (draw : Nat) {o : LaneOp} (h : FromRegisters o.sources) :
    laneTaken c o draw =
      ({ popped := [], need := [] }, (slicesOf o.slice).map fun sl => (sl, o.sources.map fun x => [regVec c sl x])) := by
  rw [laneTaken, Core.gather, foldl_collect (g := fun sl => (sl, o.sources.map fun x => [regVec c sl x])) fun p sl _ => ?_]
  · rfl
  · rw [takeSlice_registers _ _ _ _ h]

/-! ### Registers as destinations -/

theorem vreg_length (c : Core) (sl k : Nat) : (c.vreg sl k).length = 64 := by
  rw [Core.vreg, List.length_map, List.length_range]

theorem vreg_getD_lt (c : Core) (sl k i : Nat) : (c.vreg sl k).getD i 0 < 2 ^ 36 := by
  by_cases hi : i < 64
  · rw [Core.vreg, List.getD_eq_getElem _ _ (by simpa using hi), List.getElem_map]
    exact BitVec.isLt _
  · rw [List.getD_eq_default _ _ (by simpa [vreg_length] using hi)]
    exact Nat.two_pow_pos 36

/-- The lanes of a slice's result, canonical as words of a register. -/
def lanesOf (val : Nat → Nat) : List Nat := (List.range 64).map val

theorem vreg_setVreg (c : Core) {sl k sl' k' : Nat} (hk : k < 8) (hk' : k' < 8) {val : Nat → Nat}
    (hval : ∀ j, val j < 2 ^ 36) :
    (c.setVreg sl k (lanesOf val)).vreg sl' k' = if sl' = sl ∧ k' = k then lanesOf val else c.vreg sl' k' := by
  have hkey : 8 * sl' + k' = 8 * sl + k ↔ sl' = sl ∧ k' = k := by omega
  simp only [Core.vreg, Core.setVreg, tget_tset, hkey]
  split
  · refine List.map_congr_left fun i hi => ?_
    have hi := List.mem_range.mp hi
    simpa [lanesOf, hi] using hval i
  · rfl

theorem vreg_deliver (c : Core) (sl : Nat) {dst : BitVec 4} (hdst : 8 ≤ dst.toNat) (clear : Bool) {val : Nat → Nat}
    (hval : ∀ j, val j < 2 ^ 36) (sl' : Nat) {k : Nat} (hk : k < 8) :
    (c.deliver sl dst clear (lanesOf val)).vreg sl' k =
      if sl' = sl ∧ k + 8 = dst.toNat then lanesOf val else c.vreg sl' k := by
  have := dst.isLt
  have hcode : k = dst.toNat - 8 ↔ k + 8 = dst.toNat := by omega
  have hdeliver : c.deliver sl dst clear (lanesOf val) = c.setVreg sl (dst.toNat - 8) (lanesOf val) := if_pos hdst
  rw [hdeliver, vreg_setVreg c (by omega) hk hval]
  simp only [hcode]

theorem onlyVregs_deliver (c : Core) (sl : Nat) {dst : BitVec 4} (hdst : 8 ≤ dst.toNat) (clear : Bool) (ws : List Nat) :
    c.deliver sl dst clear ws = { c with vregs := (c.deliver sl dst clear ws).vregs } := by
  have hdeliver : c.deliver sl dst clear ws = c.setVreg sl (dst.toNat - 8) ws := if_pos hdst
  rw [hdeliver, Core.setVreg]

section
variable {f : Core → Nat → Core} {P : Prop} [Decidable P] {val : Nat → List Nat} {k : Nat}
  (h : ∀ c sl sl', (f c sl).vreg sl' k = if sl' = sl ∧ P then val sl' else c.vreg sl' k)
include h

theorem vreg_foldl_slice (c : Core) (b : Bool) (sl sl' : Nat) :
    ((if b then [sl] else []).foldl f c).vreg sl' k = if b = true ∧ sl' = sl ∧ P then val sl' else c.vreg sl' k := by
  cases b with
  | true => simp only [if_true, List.foldl_cons, List.foldl_nil, h, true_and]
  | false => simp only [Bool.false_eq_true, if_false, List.foldl_nil, false_and]

/-- What a fold over the slices of a mask leaves of a register, when each slice sets registers of its own. -/
theorem vreg_foldl_slices (m : BitVec 2) (c : Core) {sl : Nat} (hsl : sl < 2) :
    ((slicesOf m).foldl f c).vreg sl k = if m.getLsbD sl = true ∧ P then val sl else c.vreg sl k := by
  rw [slicesOf, List.foldl_append, vreg_foldl_slice h, vreg_foldl_slice h]
  obtain rfl | rfl : sl = 0 ∨ sl = 1 := by omega
  · simp only [zero_ne_one, true_and, false_and, and_false, if_false]
  · simp only [one_ne_zero, true_and, false_and, and_false, if_false]

end

/-! ### The register form of an instruction -/

/-- A lane instruction on registers, ready to issue on a still core. -/
structure RegisterForm (d : Dev) (n : Nat) (o : LaneOp) (v : PSetVals) : Prop where
  may : d.mayIssue n .execute = true
  go : goesOn (d.core n) .execute
  still : still (d.core n)
  slice : o.slice ≠ 0
  defined : o.undefined = false
  kind : o.wrongKind = false
  sources : FromRegisters o.sources
  dests : ∀ x ∈ o.dests, 8 ≤ x.toNat
  vals : d.laneVals (d.core n) o.modIdx = some v

/-- The core whose slices have set their registers. -/
def registersSet (c : Core) (o : LaneOp) (v : PSetVals) : Core :=
  (slicesOf o.slice).foldl (fun e sl =>
    (o.dests.zip (o.result v sl (o.sources.map fun x => [regVec c sl x]))).foldl
      (fun e x => e.deliver sl x.1 o.clearOut x.2) e) c

theorem laneDone_registers (c : Core) {o : LaneOp} (v : PSetVals) (draw : Nat) (h : FromRegisters o.sources) :
    laneDone c o v draw =
      { registersSet c o v with busy := (registersSet c o v).busy + o.cycles v, exe := (registersSet c o v).exe.retire } := by
  rw [laneDone, laneTaken_registers c draw h]
  dsimp only [Core.popAll]
  rw [List.foldl_nil, List.foldl_map]
  rfl

/-- A core that differs in its vector registers alone. -/
def OnlyVregs (c e : Core) : Prop := e = { c with vregs := e.vregs }

theorem onlyVregs_foldl {α : Type} {f : Core → α → Core} {l : List α} (hf : ∀ c, ∀ x ∈ l, OnlyVregs c (f c x)) (c : Core) :
    OnlyVregs c (l.foldl f c) := by
  refine foldl_rel (R := OnlyVregs) (fun _ => rfl) (fun a b c hab hbc => ?_) hf c
  unfold OnlyVregs at *
  rw [hbc, hab]

theorem onlyVregs_registersSet (c : Core) {o : LaneOp} (v : PSetVals) (h : ∀ x ∈ o.dests, 8 ≤ x.toNat) :
    OnlyVregs c (registersSet c o v) :=
  onlyVregs_foldl (fun _ _ _ => onlyVregs_foldl (fun e _ hx =>
    onlyVregs_deliver e _ (h _ (List.of_mem_zip hx).1) _ _) _) c

theorem registersDone_eq (c : Core) {o : LaneOp} (v : PSetVals) (draw : Nat) (hsources : FromRegisters o.sources)
    (hdests : ∀ x ∈ o.dests, 8 ≤ x.toNat) : laneDone c o v draw =
      { c with vregs := (registersSet c o v).vregs, exe := c.exe.retire, busy := c.busy + o.cycles v } := by
  rw [laneDone_registers c v draw hsources, onlyVregs_registersSet c v hdests]

theorem call_none_of_mayIssue {d : Dev} {n : Nat} (h : d.mayIssue n .execute = true) : (d.core n).call = none := by
  simp only [Dev.mayIssue, Bool.and_eq_true, decide_eq_true_eq] at h
  exact h.2

section
variable {d : Dev} {n : Nat} {o : LaneOp} {v : PSetVals} (h : RegisterForm d n o v)
include h

theorem RegisterForm.issues : Issues d n o (d.core n) v where
  may := h.may
  go := h.go
  slice := h.slice
  defined := h.defined
  kind := h.kind
  dests x hx hlt := (h.dests x hx).not_gt hlt.2
  claims := by
    have hpulls : pullsOf o = [] := by
      rw [pullsOf, List.map_eq_nil_iff, List.filter_eq_nil_iff]
      exact fun x hx => by simpa using (h.sources x hx).1
    have hpushes : pushesOf o = [] := by
      rw [pushesOf, List.map_eq_nil_iff, List.filter_eq_nil_iff]
      exact fun x hx => by have := h.dests x hx; simp; omega
    rw [hpulls, hpushes]
    rfl
  vals := h.vals

/-- A register form draws no free value and lets nothing else move. -/
theorem RegisterForm.lane_eq : d.lane n o = d.setCore n
    { d.core n with vregs := (registersSet (d.core n) o v).vregs, exe := (d.core n).exe.retire,
                    busy := (d.core n).busy + o.cycles v } := by
  have htaken := laneTaken_registers (d.core n) d.draw h.sources
  have hdraw : (o.sources.any fun x => 8 ≤ x.code.toNat && 1 < x.count) = false := by
    refine List.any_eq_false.mpr fun x hx => ?_
    simp [(h.sources x hx).2]
  rw [h.issues.lane_eq (by rw [htaken]; nofun) fun x hx hlt => by have := h.dests x hx; omega, hdraw,
    registersDone_eq _ _ _ h.sources h.dests]
  obtain ⟨htransfers, hpaccs, hacc, -⟩ := h.still
  exact pump_setCore_of_still d ⟨htransfers, hpaccs, hacc, nofun⟩ (call_none_of_mayIssue h.may)

end

/-- A core whose slices of the mask have delivered one vector each to a register. -/
def vectorsSet (c : Core) (m : BitVec 2) (dst : BitVec 4) (clear : Bool) (val : Nat → Nat → Nat) : Core :=
  (slicesOf m).foldl (fun e sl => e.deliver sl dst clear (lanesOf (val sl))) c

theorem vreg_vectorsSet (c : Core) (m : BitVec 2) {dst : BitVec 4} (hdst : 8 ≤ dst.toNat) (clear : Bool)
    {val : Nat → Nat → Nat} (hval : ∀ sl j, val sl j < 2 ^ 36) {sl k : Nat} (hsl : sl < 2) (hk : k < 8) :
    (vectorsSet c m dst clear val).vreg sl k =
      if m.getLsbD sl = true ∧ k + 8 = dst.toNat then lanesOf (val sl) else c.vreg sl k := by
  refine vreg_foldl_slices (val := fun sl => lanesOf (val sl)) (fun e sl sl' => ?_) m c hsl
  rw [vreg_deliver e sl hdst _ (hval sl) sl' hk]
  exact ite_congr rfl (fun h => by rw [h.1]) fun _ => rfl

theorem wroteLanes_vectorsSet (c : Core) (m : BitVec 2) {dst : BitVec 4} (hdst : 8 ≤ dst.toNat) (clear : Bool)
    {val : Nat → Nat → Nat} (hval : ∀ sl j, val sl j < 2 ^ 36) (cycles : Nat) :
    WroteLanes c { c with vregs := (vectorsSet c m dst clear val).vregs, exe := c.exe.retire, busy := c.busy + cycles }
      m dst val cycles :=
  ⟨rfl, fun _ _ hsl hk => vreg_vectorsSet c m hdst clear hval hsl hk⟩

/-- One result: the lanes of a slice are those of its register sources. -/
theorem wroteLanes_of_single (c : Core) {o : LaneOp} (v : PSetVals) {dst : BitVec 4} {val : Nat → Nat → Nat}
    (hdests : o.dests = [dst]) (hdst : 8 ≤ dst.toNat)
    (hresult : ∀ sl, o.result v sl (o.sources.map fun x => [regVec c sl x]) = [lanesOf (val sl)])
    (hval : ∀ sl j, val sl j < 2 ^ 36) :
    WroteLanes c { c with vregs := (registersSet c o v).vregs, exe := c.exe.retire, busy := c.busy + o.cycles v }
      o.slice dst val (o.cycles v) := by
  have hset : registersSet c o v = vectorsSet c o.slice dst o.clearOut val := by
    simp only [registersSet, vectorsSet, hdests, hresult, List.zip_cons_cons, List.zip_nil_left, List.foldl_cons,
      List.foldl_nil]
  rw [hset]
  exact wroteLanes_vectorsSet c o.slice hdst _ hval _

/-- A command that is a register form with one destination. -/
theorem exec_registerForm {i : Instr} {s : State} {n : Nat} {o : LaneOp} {v : PSetVals} {m : BitVec 2} {dst : BitVec 4}
    {val : Nat → Nat → Nat} {cycles : Nat} (hexec : exec i s = .next (s.withDev (s.dev.lane n o)))
    (h : RegisterForm s.dev n o v) (hslice : o.slice = m) (hdests : o.dests = [dst]) (hcycles : o.cycles v = cycles)
    (hresult : ∀ sl, o.result v sl (o.sources.map fun x => [regVec (s.dev.core n) sl x]) = [lanesOf (val sl)])
    (hval : ∀ sl j, val sl j < 2 ^ 36) :
    ∃ t, exec i s = .next t ∧ OnlyCore s t n ∧ WroteLanes (s.dev.core n) (t.dev.core n) m dst val cycles := by
  have hdst : 8 ≤ dst.toNat := h.dests dst (by rw [hdests]; exact List.mem_singleton_self _)
  obtain ⟨t, ht, honly, hcore⟩ := exec_setCore (f := fun d => d.lane n o) hexec h.lane_eq
  subst hslice hcycles
  exact ⟨t, ht, honly, hcore ▸ wroteLanes_of_single _ v hdests hdst hresult hval⟩

end Sys2Proof.Proofs
end

section
/-! SUPPORT. The rows of lane instructions on vector registers (02 R32, R36, R57; 04 R109; 08 R271-R275). -/

namespace Sys2Proof.Proofs

open Sys2Proof.Machine Sys2Proof.Terms

/-! ### Lanes of a register source -/

theorem laneOf_lt (c : Core) (sl : Nat) (k : BitVec 4) (i : Nat) : laneOf c sl k i < 2 ^ 36 := vreg_getD_lt c sl _ i

theorem regVec_residue (c : Core) (sl : Nat) (k : BitVec 4) : regVec c sl (src k false) = c.vreg sl (k.toNat - 8) := rfl

/-- The width of a lane of a source: 32 bits of a clear vector, all 36 of a residue one. -/
def laneRange (clear : Bool) : Nat := if clear then 2 ^ 32 else 2 ^ 36

theorem laneRange_le (clear : Bool) : laneRange clear ≤ 2 ^ 36 := by cases clear <;> decide

theorem getD_regVec (c : Core) (sl : Nat) (k : BitVec 4) (clear : Bool) (i : Nat) :
    (regVec c sl (src k clear)).getD i 0 = laneOf c sl k i % laneRange clear := by
  cases clear with
  | true => exact List.getD_map (d := 0) (f := fun x => x % 2 ^ 32) ..
  | false => exact (Nat.mod_eq_of_lt (laneOf_lt c sl k i)).symm

theorem map_zipIdx_eq_lanesOf {l : List Nat} (h : l.length = 64) (g : Nat → Nat → Nat) :
    (l.zipIdx.map fun p => g p.1 p.2) = lanesOf fun j => g (l.getD j 0) j := by
  refine List.ext_getElem (by simp [lanesOf, h]) fun j h1 h2 => ?_
  have hj : j < l.length := by simpa using h1
  simp [lanesOf, List.getElem?_eq_getElem hj]

theorem map_eq_lanesOf {l : List Nat} (h : l.length = 64) (g : Nat → Nat) : l.map g = lanesOf fun j => g (l.getD j 0) := by
  refine List.ext_getElem (by simp [lanesOf, h]) fun j h1 h2 => ?_
  have hj : j < l.length := by simpa using h1
  simp [lanesOf, List.getElem?_eq_getElem hj]

/-! ### Residue operations (02 R32, R36) -/

theorem resSub_eq {q : Nat} (hq : 0 < q) (x y : Nat) : resSub q x y = (((x : Int) - y) % q).toNat := by
  have hy : y % q ≤ q := (Nat.mod_lt y hq).le
  have hcast : ((resSub q x y : Nat) : Int) = ((x : Int) - y) % q := by
    rw [resSub, Int.natCast_mod, Nat.cast_add, Nat.cast_sub hy, Int.natCast_mod]
    have hsum : (x : Int) + (q - y % q) = (x - y % q) + q := by ring
    rw [hsum, Int.add_emod_right, Int.sub_emod, Int.emod_emod_of_dvd _ (dvd_refl _), ← Int.sub_emod]
  rw [← hcast, Int.toNat_natCast]

theorem resNeg_eq {q : Nat} (hq : 0 < q) (x : Nat) : resNeg q x = ((-(x : Int)) % q).toNat := by
  have h := resSub_eq hq 0 x
  rwa [resSub, Nat.zero_add, Nat.cast_zero, zero_sub] at h

theorem laneProduct_eq (mb : Bool) (q : Nat) (sp : Bool) (x y : Nat) :
    laneProduct mb q sp x y = if mb && !sp then x * y * radixInv q % q else x * y % q := by
  cases mb <;> cases sp <;> simp [laneProduct, resMulMb, resMul]

theorem resAdd_laneProduct_eq (mb : Bool) (q : Nat) (sp : Bool) (x y z : Nat) : resAdd q (laneProduct mb q sp x y) z =
    if mb && !sp then (x * y * radixInv q + z) % q else (x * y + z) % q := by
  rw [laneProduct_eq, resAdd]
  split <;> simp

theorem resFromMont_eq (q : Nat) (sp : Bool) (x : Nat) :
    resFromMont q sp x = if sp then x % q else x * radixInv q % q := by
  cases sp <;> simp [resFromMont]

/-- A residue row is `residueOp` of its sources with a function `g'` that agrees with `g`, and that reads no source beyond
those the row has. -/
structure ResidueMeans (i : Instr) (f : RFields) (src : List (BitVec 4)) (g g' : Nat → Bool → Nat → Nat → Nat → Nat)
    (cycles : PSetVals → Nat) : Prop where
  value : ∀ q sp x y z, 0 < q → g' q sp x y z = g q sp x y z
  canonical : ∀ q sp x y z, 0 < q → g' q sp x y z < q
  unary : src.length ≤ 1 → ∀ q sp x y y' z, g q sp x y z = g q sp x y' z
  binary : src.length ≤ 2 → ∀ q sp x y z z', g q sp x y z = g q sp x y z'
  one : 1 ≤ src.length
  cycles : ∀ v : PSetVals, cycles v = residueCycles i f (v.sparse f.modIdx.toNat)

theorem exec_residueRow {i : Instr} {n : Nat} {f : RFields} {src : List (BitVec 4)}
    {g : Nat → Bool → Nat → Nat → Nat → Nat} (hi : residueRow i = some (n, f, src, g)) (s : State) :
    ∃ g' cycles, exec i s = .next (s.withDev (s.dev.lane n (residueOp f src cycles g'))) ∧
      ResidueMeans i f src g g' cycles := by
  cases i <;> cases hi
  case madd =>
    exact ⟨_, _, rfl, fun _ _ _ _ _ _ => rfl, fun _ _ _ _ _ hq => Nat.mod_lt _ hq, nofun, fun _ _ _ _ _ _ _ => rfl,
      Nat.le_add_left 1 _, fun _ => rfl⟩
  case msub =>
    exact ⟨_, _, rfl, fun _ _ x y _ hq => resSub_eq hq x y, fun _ _ _ _ _ hq => Nat.mod_lt _ hq, nofun,
      fun _ _ _ _ _ _ _ => rfl, Nat.le_add_left 1 _, fun _ => rfl⟩
  case mneg =>
    exact ⟨_, _, rfl, fun _ _ x _ _ hq => resNeg_eq hq x, fun _ _ _ _ _ hq => Nat.mod_lt _ hq,
      fun _ _ _ _ _ _ _ => rfl, fun _ _ _ _ _ _ _ => rfl, Nat.le_add_left 1 _, fun _ => rfl⟩
  case mmul =>
    refine ⟨_, _, rfl, fun q sp x y _ _ => laneProduct_eq f.mb q sp x y, fun q sp x y _ hq => ?_, nofun,
      fun _ _ _ _ _ _ _ => rfl, Nat.le_add_left 1 _, fun _ => rfl⟩
    rw [laneProduct_eq]
    split <;> exact Nat.mod_lt _ hq
  case mmac =>
    exact ⟨_, _, rfl, fun q sp x y z _ => resAdd_laneProduct_eq f.mb q sp x y z, fun _ _ _ _ _ hq => Nat.mod_lt _ hq, nofun,
      nofun, Nat.le_add_left 1 _, fun _ => rfl⟩
  case mtom =>
    refine ⟨_, _, rfl, fun _ _ _ _ _ _ => rfl, fun q sp x _ _ hq => ?_, fun _ _ _ _ _ _ _ => rfl, fun _ _ _ _ _ _ _ => rfl,
      Nat.le_add_left 1 _, fun _ => rfl⟩
    rw [resToMont]
    split <;> exact Nat.mod_lt _ hq
  case mfrom =>
    refine ⟨_, _, rfl, fun q sp x _ _ _ => resFromMont_eq q sp x, fun q sp x _ _ hq => ?_, fun _ _ _ _ _ _ _ => rfl,
      fun _ _ _ _ _ _ _ => rfl, Nat.le_add_left 1 _, fun _ => rfl⟩
    rw [resFromMont_eq]
    split <;> exact Nat.mod_lt _ hq

theorem q_lt (v : PSetVals) (j : Nat) : v.q j < 2 ^ 36 := Nat.mod_lt _ (Nat.two_pow_pos 36)

theorem vecAt_registers (c : Core) (sl : Nat) (ks : List (BitVec 4)) {k : Nat} (hk : k < ks.length) :
    vecAt ((ks.map fun k => src k false).map fun x => [regVec c sl x]) k = c.vreg sl ((ks.getD k 8).toNat - 8) := by
  simp [vecAt, hk, regVec_residue]

/-- The lanes of a residue row's result. -/
theorem residueOp_result (c : Core) (sl : Nat) {i : Instr} {f : RFields} {ks : List (BitVec 4)}
    {g g' : Nat → Bool → Nat → Nat → Nat → Nat} {cycles : PSetVals → Nat} (h : ResidueMeans i f ks g g' cycles)
    (v : PSetVals) (hq : 0 < v.q f.modIdx.toNat) :
    (residueOp f ks cycles g').result v sl ((residueOp f ks cycles g').sources.map fun x => [regVec c sl x]) =
      [lanesOf fun j => g (v.q f.modIdx.toNat) (v.sparse f.modIdx.toNat) (laneOf c sl (ks.getD 0 8) j)
        (laneOf c sl (ks.getD 1 8) j) (laneOf c sl (ks.getD 2 8) j)] := by
  dsimp only [residueOp]
  rw [vecAt_registers c sl ks h.one]
  refine congrArg (fun l => [l]) ((map_zipIdx_eq_lanesOf (vreg_length ..) fun x j => g' _ _ x
    ((vecAt ((ks.map fun k => src k false).map fun x => [regVec c sl x]) 1).getD j 0)
    ((vecAt ((ks.map fun k => src k false).map fun x => [regVec c sl x]) 2).getD j 0)).trans ?_)
  refine congrArg lanesOf (funext fun j => ?_)
  rw [h.value _ _ _ _ _ hq]
  have hx : (c.vreg sl ((ks.getD 0 8).toNat - 8)).getD j 0 = laneOf c sl (ks.getD 0 8) j := rfl
  rw [hx]
  by_cases hone : ks.length ≤ 1
  · rw [h.unary hone _ _ _ _ (laneOf c sl (ks.getD 1 8) j), h.binary (by omega)]
  · rw [vecAt_registers c sl ks (by omega)]
    by_cases htwo : ks.length ≤ 2
    · exact h.binary htwo ..
    · rw [vecAt_registers c sl ks (by omega)]
      rfl

theorem laneVals_of_active {d : Dev} {c : Core} {v : PSetVals} {j : Nat} (h : d.activeVals c = some v) (hj : j < v.count) :
    d.laneVals c (some j) = some v := by
  rw [Dev.laneVals, h, Option.bind_some, if_pos hj]

/-- Settles O19: a row is one function of its register lanes, canonical under the modulus. -/
theorem residueLanes : Obligations.ResidueLanes := by
  intro s i n f ks g v hi hmay hgo hstill hslice hks hdst hvals hidx hq
  obtain ⟨g', cycles, hexec, hmeans⟩ := exec_residueRow hi s
  have hform : RegisterForm s.dev n (residueOp f ks cycles g') v :=
    { may := hmay, go := hgo, still := hstill, slice := hslice, defined := rfl, kind := rfl,
      sources := fun x hx => by
        obtain ⟨k, hk, rfl⟩ := List.mem_map.mp hx
        exact ⟨hks k hk, rfl⟩
      dests := fun x hx => List.mem_singleton.mp hx ▸ hdst
      vals := laneVals_of_active hvals hidx }
  refine exec_registerForm hexec hform rfl rfl (hmeans.cycles v) (fun sl => residueOp_result _ sl hmeans v hq) fun sl j => ?_
  rw [← hmeans.value _ _ _ _ _ hq]
  exact (hmeans.canonical _ _ _ _ _ hq).trans (q_lt _ _)

end Sys2Proof.Proofs
end

section
/-! SUPPORT. Permutations, MOV and VZERO on vector registers (08, permutation patterns). -/

namespace Sys2Proof.Proofs

open Sys2Proof.Machine Sys2Proof.Terms

/-- A pattern takes a lane of SA, a lane of SB, or zero. -/
def TakesLane (pick : Nat → (Nat → Nat) → (Nat → Nat) → Nat) : Prop :=
  ∀ j a b, (∃ k, pick j a b = a k) ∨ (∃ k, pick j a b = b k) ∨ pick j a b = 0

theorem TakesLane.lt {pick : Nat → (Nat → Nat) → (Nat → Nat) → Nat} (h : TakesLane pick) {j m : Nat} {a b : Nat → Nat}
    (hm : 0 < m) (ha : ∀ k, a k < m) (hb : ∀ k, b k < m) : pick j a b < m := by
  obtain ⟨k, hk⟩ | ⟨k, hk⟩ | hk := h j a b
  · exact hk ▸ ha k
  · exact hk ▸ hb k
  · exact hk ▸ hm

/-- The operation `o` moves lanes as `pick` says, and reads no source beyond those it has. -/
structure PermMeans (o : LaneOp) (f : RFields) (ks : List (BitVec 4))
    (pick : Nat → (Nat → Nat) → (Nat → Nat) → Nat) : Prop where
  slice : o.slice = f.slice
  sources : o.sources = ks.map fun k => src k f.w
  dests : o.dests = [f.dst]
  defined : o.undefined = false
  kind : o.wrongKind = false
  plain : o.modIdx = none
  cycles : ∀ v, o.cycles v = 1
  takes : TakesLane pick
  nullary : ks.length = 0 → ∀ j a a' b, pick j a b = pick j a' b
  unary : ks.length ≤ 1 → ∀ j a b b', pick j a b = pick j a b'
  result : ∀ v sl xs, o.result v sl xs =
    [lanesOf fun j => pick j (fun k => (vecAt xs 0).getD k 0) fun k => (vecAt xs 1).getD k 0]

section
variable (f : RFields) {p : Nat → List Nat → List Nat → Nat} {pick : Nat → (Nat → Nat) → (Nat → Nat) → Nat}
  (hp : ∀ j a b, p j a b = pick j (fun k => a.getD k 0) fun k => b.getD k 0) (htakes : TakesLane pick)
include hp htakes

theorem permMeans_one {undef : Bool} (hundef : undef = false) (hone : ∀ j a b b', pick j a b = pick j a b') :
    PermMeans (permOp f false undef p) f [f.sa] pick :=
  { slice := rfl, sources := rfl, dests := rfl, defined := hundef, kind := rfl, plain := rfl, cycles := fun _ => rfl,
    takes := htakes, nullary := nofun, unary := fun _ => hone,
    result := fun _ _ _ => congrArg (fun g => [lanesOf g]) (funext fun j => hp j _ _) }

theorem permMeans_two : PermMeans (permOp f true false p) f [f.sa, f.sb] pick :=
  { slice := rfl, sources := rfl, dests := rfl, defined := rfl, kind := rfl, plain := rfl, cycles := fun _ => rfl,
    takes := htakes, nullary := nofun, unary := fun h => absurd h (by simp),
    result := fun _ _ _ => congrArg (fun g => [lanesOf g]) (funext fun j => hp j _ _) }

end

/-- A pattern of two sources takes one of them in each lane. -/
theorem takesLane_ite (c : Nat → Prop) [DecidablePred c] (l r : Nat → Nat) :
    TakesLane fun j a b => if c j then a (l j) else b (r j) := by
  intro j a b
  by_cases h : c j
  · exact .inl ⟨l j, if_pos h⟩
  · exact .inr (.inl ⟨r j, if_neg h⟩)

theorem half_of_odd {j : Nat} (h : ¬j % 2 = 0) : j / 2 = (j - 1) / 2 := by omega

theorem exec_permRow {i : Instr} {n : Nat} {f : RFields} {ks : List (BitVec 4)}
    {pick : Nat → (Nat → Nat) → (Nat → Nat) → Nat} (hi : permRow i = some (n, f, ks, pick)) (s : State) :
    ∃ o, exec i s = .next (s.withDev (s.dev.lane n o)) ∧ PermMeans o f ks pick := by
  cases i
  case permXor m r amt =>
    rw [permRow] at hi
    split at hi
    next hamt =>
      cases hi
      exact ⟨_, rfl, permMeans_one f (fun _ _ _ => rfl) (fun _ _ _ => .inl ⟨_, rfl⟩)
        (decide_eq_false (Nat.not_lt.mpr hamt)) fun _ _ _ _ => rfl⟩
    next => exact nomatch hi
  all_goals cases hi
  case permInterleaveLow =>
    exact ⟨_, rfl, permMeans_two f (fun j _ _ => ite_congr rfl (fun _ => rfl) fun h => half_of_odd h ▸ rfl)
      (takesLane_ite (· % 2 = 0) _ _)⟩
  case permInterleaveHigh =>
    exact ⟨_, rfl, permMeans_two f (fun j _ _ => ite_congr rfl (fun _ => rfl) fun h => half_of_odd h ▸ rfl)
      (takesLane_ite (· % 2 = 0) _ _)⟩
  case permDeinterleaveEven => exact ⟨_, rfl, permMeans_two f (fun _ _ _ => rfl) (takesLane_ite (· < 32) _ _)⟩
  case permDeinterleaveOdd => exact ⟨_, rfl, permMeans_two f (fun _ _ _ => rfl) (takesLane_ite (· < 32) _ _)⟩
  case vzero =>
    exact ⟨_, rfl,
      { slice := rfl, sources := rfl, dests := rfl, defined := rfl, kind := rfl, plain := rfl, cycles := fun _ => rfl,
        takes := fun _ _ _ => .inr (.inr rfl), nullary := fun _ _ _ _ _ => rfl, unary := fun _ _ _ _ _ => rfl,
        result := fun _ _ _ => rfl }⟩
  all_goals
    exact ⟨_, rfl, permMeans_one f (fun _ _ _ => rfl) (fun _ _ _ => .inl ⟨_, rfl⟩) rfl fun _ _ _ _ => rfl⟩

theorem vecAt_registersOf (c : Core) (sl : Nat) (ks : List (BitVec 4)) (w : Bool) {k : Nat} (hk : k < ks.length) :
    vecAt ((ks.map fun k => src k w).map fun x => [regVec c sl x]) k = regVec c sl (src (ks.getD k 8) w) := by
  simp [vecAt, hk]

/-- The lanes of a permutation's result. -/
theorem PermMeans.result_registers {o : LaneOp} {f : RFields} {ks : List (BitVec 4)}
    {pick : Nat → (Nat → Nat) → (Nat → Nat) → Nat} (h : PermMeans o f ks pick) (c : Core) (v : PSetVals) (sl : Nat) :
    o.result v sl (o.sources.map fun x => [regVec c sl x]) =
      [lanesOf fun j => pick j (fun k => laneOf c sl (ks.getD 0 8) k % laneRange f.w)
        fun k => laneOf c sl (ks.getD 1 8) k % laneRange f.w] := by
  rw [h.result, h.sources]
  refine congrArg (fun g => [lanesOf g]) (funext fun j => ?_)
  have hlane {k : Nat} (hk : k < ks.length) (i : Nat) :
      (vecAt ((ks.map fun k => src k f.w).map fun x => [regVec c sl x]) k).getD i 0 =
        laneOf c sl (ks.getD k 8) i % laneRange f.w := by
    rw [vecAt_registersOf c sl ks f.w hk, getD_regVec]
  by_cases hzero : ks.length = 0
  · exact (h.nullary hzero ..).trans (h.unary (by omega) ..)
  · simp only [hlane (Nat.pos_of_ne_zero hzero)]
    by_cases hone : ks.length ≤ 1
    · exact h.unary hone ..
    · simp only [hlane (Nat.lt_of_not_le hone)]

/-- Settles O20: a row is one pattern of lanes. -/
theorem permutedLanes : Obligations.PermutedLanes := by
  intro s i n f ks pick hi hmay hgo hstill hslice hks hdst
  obtain ⟨o, hexec, h⟩ := exec_permRow hi s
  have hform : RegisterForm s.dev n o .none_ :=
    { may := hmay, go := hgo, still := hstill, slice := h.slice ▸ hslice, defined := h.defined, kind := h.kind,
      sources := fun x hx => by
        rw [h.sources] at hx
        obtain ⟨k, hk, rfl⟩ := List.mem_map.mp hx
        exact ⟨hks k hk, rfl⟩
      dests := fun x hx => List.mem_singleton.mp (h.dests ▸ hx) ▸ hdst
      vals := by rw [h.plain]; rfl }
  refine exec_registerForm hexec hform h.slice h.dests (h.cycles _) (h.result_registers _ _) fun sl j => ?_
  have hlane (k : BitVec 4) (i : Nat) : laneOf (s.dev.core n) sl k i % laneRange f.w < 2 ^ 36 :=
    (Nat.mod_le ..).trans_lt (laneOf_lt ..)
  exact h.takes.lt (Nat.two_pow_pos 36) (hlane _) (hlane _)

end Sys2Proof.Proofs
end

section
/-! SUPPORT. Butterflies on vector registers under generated twiddles (04 R109, 08 R272, R273). -/

namespace Sys2Proof.Proofs

open Sys2Proof.Machine Sys2Proof.Terms

theorem powMod_eq (b e : Nat) {m : Nat} (hm : 0 < m) : powMod b e m = b ^ e % m := by
  rw [powMod, powModGo_one_mod hm Nat.lt_log2_self, ← Nat.pow_mod]

theorem twiddle_eq (v : PSetVals) (c : Core) (f : BFields) (sl i : Nat) (hq : 0 < v.q f.modIdx.toNat) :
    twiddle v f c.logN (if f.lv = 0 then 0 else ((c.exe.loops[f.lv.toNat - 1]?).map (·.iter)).getD 0) sl i =
      psiN (v.q f.modIdx.toNat) c.logN ^ flyExponent c f sl i % v.q f.modIdx.toNat := by
  rw [twiddle, powMod_eq _ _ hq]
  rfl

theorem fly_eq (ct : Bool) {q : Nat} (hq : 0 < q) (x y w : Nat) : fly ct q x y w = flyOf ct q x y w := by
  cases ct with
  | true =>
    refine Prod.ext (Nat.add_mod_mod ..) ((resSub_eq hq x _).trans (congrArg Int.toNat ?_))
    rw [resMul, Int.natCast_mod, Int.sub_emod_emod, Nat.cast_mul]
  | false =>
    refine Prod.ext rfl (Int.ofNat_inj.mp ?_)
    have hq' : (q : Int) ≠ 0 := by exact_mod_cast hq.ne'
    have hdiff : ((resSub q x y : Nat) : Int) = ((x : Int) - y) % q := by
      rw [resSub_eq hq, Int.toNat_of_nonneg (Int.emod_nonneg _ hq')]
    simp only [fly, flyOf, Bool.false_eq_true, if_false, resMul]
    rw [Int.toNat_of_nonneg (Int.emod_nonneg _ hq'), Int.natCast_mod, Nat.cast_mul, hdiff]
    exact (Int.mod_modEq _ _).mul_right _

theorem flyOf_lt (ct : Bool) {q : Nat} (hq : 0 < q) (x y w : Nat) : (flyOf ct q x y w).1 < q ∧ (flyOf ct q x y w).2 < q := by
  rw [← fly_eq ct hq]
  cases ct <;> exact ⟨Nat.mod_lt _ hq, Nat.mod_lt _ hq⟩

/-- The two results of the butterfly whose x sits in lane `j` of a slice. -/
def flyAt (ct : Bool) (c : Core) (f : BFields) (q sl j : Nat) (x y : Nat) : Nat × Nat :=
  flyOf ct q x y (psiN q c.logN ^ flyExponent c f sl j % q)

theorem butterflyOp_intra (ct : Bool) (c : Core) {f : BFields} (hhc : f.hc.toNat ≤ 5) (v : PSetVals) (sl : Nat)
    (hq : 0 < v.q f.modIdx.toNat) :
    (butterflyOp ct c f).result v sl ((butterflyOp ct c f).sources.map fun x => [regVec c sl x]) =
      [lanesOf fun j =>
        let x := if j.testBit f.hc.toNat then j - 2 ^ f.hc.toNat else j
        let r := flyAt ct c f (v.q f.modIdx.toNat) sl x (laneOf c sl f.sa x) (laneOf c sl f.sa (x + 2 ^ f.hc.toNat))
        if j.testBit f.hc.toNat then r.2 else r.1] := by
  have hne : ¬f.hc = 6 := by
    rintro h
    rw [h] at hhc
    exact absurd hhc (by decide)
  simp only [butterflyOp, if_neg hne, flyAll, if_neg (show ¬f.hc.toNat = 6 by omega), lanesOf, twiddle_eq v c f _ _ hq,
    fly_eq ct hq, flyAt]
  rfl

theorem butterflyOp_pair (ct : Bool) (c : Core) {f : BFields} (hhc : f.hc = 6) (v : PSetVals) (sl : Nat)
    (hq : 0 < v.q f.modIdx.toNat) :
    (butterflyOp ct c f).result v sl ((butterflyOp ct c f).sources.map fun x => [regVec c sl x]) =
      [lanesOf fun j => (flyAt ct c f (v.q f.modIdx.toNat) sl j (laneOf c sl f.sa j) (laneOf c sl f.sb j)).1,
       lanesOf fun j => (flyAt ct c f (v.q f.modIdx.toNat) sl j (laneOf c sl f.sa j) (laneOf c sl f.sb j)).2] := by
  have hsix : f.hc.toNat = 6 := by rw [hhc]; rfl
  simp only [butterflyOp, if_pos hhc, flyAll, if_pos hsix, lanesOf, twiddle_eq v c f _ _ hq, fly_eq ct hq, flyAt,
    List.map_map]
  rfl

/-- A core whose slices of the mask have delivered two vectors each, in order. -/
def pairsSet (c : Core) (m : BitVec 2) (a b : BitVec 4) (clear : Bool) (A B : Nat → Nat → Nat) : Core :=
  (slicesOf m).foldl (fun e sl => (e.deliver sl a clear (lanesOf (A sl))).deliver sl b clear (lanesOf (B sl))) c

theorem vreg_pairsSet (c : Core) (m : BitVec 2) {a b : BitVec 4} (ha : 8 ≤ a.toNat) (hb : 8 ≤ b.toNat) (clear : Bool)
    {A B : Nat → Nat → Nat} (hA : ∀ sl j, A sl j < 2 ^ 36) (hB : ∀ sl j, B sl j < 2 ^ 36) {sl k : Nat} (hsl : sl < 2)
    (hk : k < 8) :
    (pairsSet c m a b clear A B).vreg sl k =
      if m.getLsbD sl = true ∧ k + 8 = b.toNat then lanesOf (B sl) else (vectorsSet c m a clear A).vreg sl k := by
  rw [pairsSet, vreg_foldl_slices (P := k + 8 = b.toNat ∨ k + 8 = a.toNat)
    (val := fun sl => if k + 8 = b.toNat then lanesOf (B sl) else lanesOf (A sl)) (fun e sl sl' => ?_) m c hsl,
    vreg_vectorsSet c m ha clear hA hsl hk]
  · by_cases hkb : k + 8 = b.toNat
    · simp only [hkb, true_or, and_true, if_true]
      split <;> simp_all
    · simp only [hkb, false_or, and_false, if_false]
  · rw [vreg_deliver _ sl hb _ (hB sl) sl' hk, vreg_deliver e sl ha _ (hA sl) sl' hk]
    by_cases hsl' : sl' = sl
    · subst hsl'
      by_cases hkb : k + 8 = b.toNat
      · simp only [hkb, true_or, and_true, if_true]
      · simp only [hkb, false_or, true_and, and_false, if_false]
    · simp only [hsl', false_and, if_false]

theorem registersSet_butterfly (ct : Bool) (c : Core) {f : BFields} (hhc : f.hc = 6) (v : PSetVals)
    (hq : 0 < v.q f.modIdx.toNat) : registersSet c (butterflyOp ct c f) v = pairsSet c f.slice f.dst f.dst2 false
      (fun sl j => (flyAt ct c f (v.q f.modIdx.toNat) sl j (laneOf c sl f.sa j) (laneOf c sl f.sb j)).1)
      fun sl j => (flyAt ct c f (v.q f.modIdx.toNat) sl j (laneOf c sl f.sa j) (laneOf c sl f.sb j)).2 := by
  have hdests : (butterflyOp ct c f).dests = [f.dst, f.dst2] := if_pos hhc
  simp only [registersSet, hdests, butterflyOp_pair ct c hhc v _ hq, List.zip_cons_cons, List.zip_nil_left,
    List.foldl_cons, List.foldl_nil]
  rfl

theorem exec_flyRow {i : Instr} {n : Nat} {f : BFields} {ct : Bool} (hi : flyRow i = some (n, f, ct)) (s : State) :
    exec i s = .next (s.withDev (s.dev.lane n (butterflyOp ct (s.dev.core n) f))) := by
  cases i <;> cases hi <;> rfl

/-- Settles O21: intra mode sets one register, pair mode two. -/
theorem butterflyLanes : Obligations.ButterflyLanes := by
  intro s i n f ct v hi hmay hgo hstill hslice hsa hdst hdcode hls hlv hvals hidx hq q w
  have hexec := exec_flyRow hi s
  have hq : 0 < v.q f.modIdx.toNat := by omega
  have hform (hundef : f.hc ≠ 7) (hsources : FromRegisters (butterflyOp ct (s.dev.core n) f).sources)
      (hdests : ∀ x ∈ (butterflyOp ct (s.dev.core n) f).dests, 8 ≤ x.toNat) :
      RegisterForm s.dev n (butterflyOp ct (s.dev.core n) f) v :=
    { may := hmay, go := hgo, still := hstill, slice := hslice, kind := rfl, sources := hsources, dests := hdests
      defined := by
        simp only [butterflyOp, decide_eq_false hundef, decide_eq_false hdcode.not_gt, decide_eq_false hls.not_gt,
          decide_eq_false hlv.not_gt, Bool.or_self]
      vals := laneVals_of_active hvals hidx }
  constructor
  case left =>
    intro hhc
    have hsix : ¬f.hc = 6 := by rintro h; rw [h] at hhc; exact absurd hhc (by decide)
    have hseven : f.hc ≠ 7 := by rintro h; rw [h] at hhc; exact absurd hhc (by decide)
    have hdests : (butterflyOp ct (s.dev.core n) f).dests = [f.dst] := if_neg hsix
    have hsources : (butterflyOp ct (s.dev.core n) f).sources = [src f.sa false] := if_neg hsix
    refine exec_registerForm hexec (hform hseven ?_ ?_) rfl hdests (if_neg hsix)
      (fun sl => butterflyOp_intra ct _ hhc v sl hq) fun sl j => ?_
    · rw [hsources]
      exact List.forall_mem_singleton.mpr ⟨hsa, rfl⟩
    · rw [hdests]
      exact List.forall_mem_singleton.mpr hdst
    · dsimp only
      split
      · exact (flyOf_lt ct hq _ _ _).2.trans (q_lt ..)
      · exact (flyOf_lt ct hq _ _ _).1.trans (q_lt ..)
  case right =>
    intro hhc hsb hdst2
    have hseven : f.hc ≠ 7 := by rw [hhc]; decide
    have hdests : (butterflyOp ct (s.dev.core n) f).dests = [f.dst, f.dst2] := if_pos hhc
    have hsources : (butterflyOp ct (s.dev.core n) f).sources = [src f.sa false, src f.sb false] := if_pos hhc
    have h := hform hseven
      (by rw [hsources]; exact List.forall_mem_cons.mpr ⟨⟨hsa, rfl⟩, List.forall_mem_singleton.mpr ⟨hsb, rfl⟩⟩)
      (by rw [hdests]; exact List.forall_mem_cons.mpr ⟨hdst, List.forall_mem_singleton.mpr hdst2⟩)
    obtain ⟨t, ht, honly, hcore⟩ := exec_setCore (f := fun d => d.lane n (butterflyOp ct (s.dev.core n) f)) hexec h.lane_eq
    have hcycles : (butterflyOp ct (s.dev.core n) f).cycles v = 2 := if_pos hhc
    refine ⟨t, _, ht, honly, wroteLanes_vectorsSet (s.dev.core n) f.slice hdst false (fun sl j => ?_) 2, ?_, fun sl k hsl hk => ?_⟩
    · exact (flyOf_lt ct hq _ _ _).1.trans (q_lt ..)
    · rw [hcore, hcycles]
    · rw [hcore]
      exact (congrArg (fun e => e.vreg sl k) (registersSet_butterfly ct _ hhc v hq)).trans
        (vreg_pairsSet _ f.slice hdst hdst2 false (fun sl j => (flyOf_lt ct hq _ _ _).1.trans (q_lt ..))
          (fun sl j => (flyOf_lt ct hq _ _ _).2.trans (q_lt ..)) hsl hk)

end Sys2Proof.Proofs
end

section
/-! SUPPORT. Integer CMAC and the residue conversions on vector registers (02 R57, 08 R274, R275). -/

namespace Sys2Proof.Proofs

open Sys2Proof.Machine Sys2Proof.Terms

theorem signed_mod (x w : Nat) : signed (x % 2 ^ w) w = signed x w := by
  rw [signed, Nat.mod_mod, signed]

/-- An element that lies inside a 32-bit word is an element of whatever holds the word. -/
theorem signed_elem {b e : Nat} (x : Nat) (h : b * e + b ≤ 32) :
    signed (bitsAt (x % 2 ^ 32) (b * e) b) b = signed (x / 2 ^ (b * e)) b := by
  have hsplit : 2 ^ 32 = 2 ^ (b * e) * 2 ^ (32 - b * e) := by rw [← pow_add]; congr 1; omega
  rw [bitsAt, signed_mod, Nat.shiftRight_eq_div_pow, hsplit, Nat.mod_mul_right_div_self, ← signed_mod,
    Nat.mod_mod_of_dvd _ (pow_dvd_pow 2 (by omega)), signed_mod]

/-- The sum of the products of the packed elements. -/
def products (b x y : Nat) : Int :=
  ∑ e ∈ Finset.range (32 / b), signed (x / 2 ^ (b * e)) b * signed (y / 2 ^ (b * e)) b

theorem sum_elems (b x y : Nat) :
    (List.zipWith (fun x y => signed x b * signed y b) (elemsOf b (x % 2 ^ 32)) (elemsOf b (y % 2 ^ 32))).foldl (· + ·) 0 =
      products b x y := by
  have hinside {e : Nat} (he : e ∈ List.range (32 / b)) : b * e + b ≤ 32 := by
    have hle : b * (e + 1) ≤ 32 := (Nat.mul_le_mul_left b (List.mem_range.mp he)).trans (Nat.mul_div_le 32 b)
    rwa [Nat.mul_succ] at hle
  rw [← List.sum_eq_foldl, elemsOf, elemsOf, List.zipWith_map, List.zipWith_self]
  exact congrArg List.sum (List.map_congr_left fun e he => by rw [signed_elem x (hinside he), signed_elem y (hinside he)])

theorem macInt_eq (b acc x y : Nat) :
    macInt b (acc % 2 ^ 32) (elemsOf b (x % 2 ^ 32)) (elemsOf b (y % 2 ^ 32)) =
      (((acc : Int) + products b x y) % 2 ^ 32).toNat := by
  rw [macInt, sum_elems, wrapInt]
  push_cast
  rw [Int.emod_add_emod]

theorem toNat_emod_lt (x : Int) {m : Nat} (hm : 0 < m) : (x % (m : Int)).toNat < m :=
  (Int.toNat_lt' hm).mpr (Int.emod_lt_of_pos x (by exact_mod_cast hm))

theorem or_eight {k : BitVec 4} (h : 8 ≤ k.toNat) : k ||| 8 = k := by
  have hmem : ∀ k : BitVec 4, 8 ≤ k.toNat → k ||| 8 = k := by decide
  exact hmem k h

theorem macLane_of_integer {fmt b : Nat} (h : fmt = 4 ∧ b = 8 ∨ fmt = 5 ∧ b = 4) (acc x y : Nat) :
    macLane fmt (acc % 2 ^ 32) (x % 2 ^ 32) (y % 2 ^ 32) = (((acc : Int) + products b x y) % 2 ^ 32).toNat := by
  obtain ⟨rfl, rfl⟩ | ⟨rfl, rfl⟩ := h
  · exact macInt_eq _ acc x y
  · exact macInt_eq _ acc x y

theorem cmacOp_result (c : Core) (sl : Nat) {f : RFields} (hdst : 8 ≤ f.dst.toNat) {fmt b : Nat}
    (h : fmt = 4 ∧ b = 8 ∨ fmt = 5 ∧ b = 4) (v : PSetVals) :
    (cmacOp f fmt).result v sl ((cmacOp f fmt).sources.map fun x => [regVec c sl x]) =
      [lanesOf fun j =>
        (((laneOf c sl f.dst j : Int) + products b (laneOf c sl f.sa j) (laneOf c sl f.sb j)) % 2 ^ 32).toNat] := by
  have hlane (j : Nat) : macLane fmt ((regVec c sl (src (f.dst ||| 8) true)).getD j 0)
      ((regVec c sl (src f.sa true)).getD j 0) ((regVec c sl (src f.sb true)).getD j 0) =
        (((laneOf c sl f.dst j : Int) + products b (laneOf c sl f.sa j) (laneOf c sl f.sb j)) % 2 ^ 32).toNat := by
    rw [getD_regVec, getD_regVec, getD_regVec, or_eight hdst]
    exact macLane_of_integer h ..
  exact congrArg (fun g => [lanesOf g]) (funext hlane)

theorem regVec_length (c : Core) (sl : Nat) (k : BitVec 4) (clear : Bool) : (regVec c sl (src k clear)).length = 64 := by
  cases clear with
  | true => exact (List.length_map ..).trans (vreg_length ..)
  | false => exact vreg_length ..

theorem cvtOp_result (c : Core) (sl : Nat) (f : RFields) (a b : Nat) (v : PSetVals) :
    (cvtOp f a b).result v sl ((cvtOp f a b).sources.map fun x => [regVec c sl x]) =
      [lanesOf fun j => cvtLane a b (v.q f.modIdx.toNat) (laneOf c sl f.sa j % laneRange (a != 8))] := by
  refine (congrArg (fun l => [l]) (map_eq_lanesOf (regVec_length c sl f.sa (a != 8)) _)).trans ?_
  simp only [getD_regVec]

theorem liftQ_eq (q x : Nat) : liftQ q x = if 2 * x < q then (x : Int) else (x : Int) - q :=
  ite_congr (by rw [eq_iff_iff]; omega) (fun _ => rfl) fun _ => rfl

/-- Settles O22: packed products under two's complement, and both conversions under a modulus. -/
theorem integerLanes : Obligations.IntegerLanes := by
  intro s n f hmay hgo hstill hslice hsa hdst
  have hform {o : LaneOp} {v : PSetVals} (hs : o.slice = f.slice) (hdefined : o.undefined = false)
      (hkind : o.wrongKind = false) (hsources : FromRegisters o.sources) (hdests : o.dests = [f.dst])
      (hvals : s.dev.laneVals (s.dev.core n) o.modIdx = some v) : RegisterForm s.dev n o v :=
    { may := hmay, go := hgo, still := hstill, slice := hs ▸ hslice, defined := hdefined, kind := hkind,
      sources := hsources, dests := fun x hx => List.mem_singleton.mp (hdests ▸ hx) ▸ hdst, vals := hvals }
  refine ⟨fun fmt b hfmt hsb => ?_, fun v hvals hidx hq => ⟨?_, ?_⟩⟩
  case refine_1 =>
    have hcode : fmt.toNat = 4 ∧ b = 8 ∨ fmt.toNat = 5 ∧ b = 4 :=
      hfmt.imp (fun h => ⟨by rw [h.1]; rfl, h.2⟩) fun h => ⟨by rw [h.1]; rfl, h.2⟩
    refine exec_registerForm (o := cmacOp f fmt.toNat) rfl (hform (v := .none_) rfl ?_ ?_ ?_ rfl rfl) rfl rfl rfl
      (fun sl => cmacOp_result _ sl hdst hcode _) fun sl j => (toNat_emod_lt _ (Nat.two_pow_pos 32)).trans (by decide)
    · exact decide_eq_false (by omega)
    · exact decide_eq_false (by omega)
    · exact List.forall_mem_cons.mpr ⟨⟨hsa, rfl⟩, List.forall_mem_cons.mpr ⟨⟨hsb, rfl⟩,
        List.forall_mem_singleton.mpr ⟨(or_eight hdst).symm ▸ hdst, rfl⟩⟩⟩
  case refine_2 =>
    refine exec_registerForm (o := cvtOp f 5 8) rfl (hform rfl rfl rfl (List.forall_mem_singleton.mpr ⟨hsa, rfl⟩) rfl
      (laneVals_of_active hvals hidx)) rfl rfl rfl (fun sl => (cvtOp_result _ sl f 5 8 v).trans ?_)
      fun sl j => (toNat_emod_lt _ hq).trans (q_lt ..)
    exact congrArg (fun g => [lanesOf g]) (funext fun j => congrArg (resOf (v.q f.modIdx.toNat)) (signed_mod _ 32))
  case refine_3 =>
    refine exec_registerForm (o := cvtOp f 8 5) rfl (hform rfl rfl rfl (List.forall_mem_singleton.mpr ⟨hsa, rfl⟩) rfl
      (laneVals_of_active hvals hidx)) rfl rfl rfl (fun sl => (cvtOp_result _ sl f 8 5 v).trans ?_)
      fun sl j => (toNat_emod_lt _ (Nat.two_pow_pos 32)).trans (by decide)
    refine congrArg (fun g => [lanesOf g]) (funext fun j => ?_)
    have hlane : laneOf (s.dev.core n) sl f.sa j % laneRange ((8 : Nat) != 8) = laneOf (s.dev.core n) sl f.sa j :=
      Nat.mod_eq_of_lt (laneOf_lt ..)
    rw [hlane, cvtLane, if_neg (by decide), if_pos rfl, liftQ_eq, wrapInt]
    rfl

end Sys2Proof.Proofs
end

section
/-! SUPPORT. What the operations on stored data leave of the device (10 R320-R333, 13 R410-R419). -/

namespace Sys2Proof.Proofs

open Sys2Proof.Machine Sys2Proof.Terms

/-- Entries in which an access is counted or recorded: REFUSED and its tick, a cluster's refusals, SP_BUSY and its corrected
words, a controller's counts. -/
def accessEntry (i k : Nat) : Prop :=
  i = 0x4000 ∧ (k = 6 ∨ k = 7) ∨ 0x3100 ≤ i ∧ 0x0B ≤ k ∧ k ≤ 0x0F ∨ 0x4200 ≤ i ∧ i ≤ 0x4208 ∧ k ≤ 7

/-- A device that differs in its stored data, the free values drawn, what has been counted and recorded of accesses, the faults
raised and the writes that wait for a bank: all that an access can touch. -/
structure Accessed (d e : Dev) : Prop where
  frame : e = { d with draw := e.draw, mem := e.mem, regs := e.regs, faults := { d.faults with raised := e.faults.raised },
                       owedWrites := e.owedWrites }
  regs : ∀ i k, k < 256 → ¬accessEntry i k → e.reg i k = d.reg i k

theorem Accessed.refl (d : Dev) : Accessed d d := ⟨rfl, fun _ _ _ _ => rfl⟩

theorem Accessed.trans {a b c : Dev} (h : Accessed a b) (h' : Accessed b c) : Accessed a c where
  frame := by rw [h'.frame, h.frame]
  regs i k hk hi := (h'.regs i k hk hi).trans (h.regs i k hk hi)

theorem Accessed.symm {a b : Dev} (h : Accessed a b) : Accessed b a where
  frame := by rw [h.frame]
  regs i k hk hi := (h.regs i k hk hi).symm

theorem Accessed.withMem {d e : Dev} (h : Accessed d e) (m : Memory) : Accessed d { e with mem := m } where
  frame := by rw [h.frame]
  regs := h.regs

theorem accessed_foldl {α : Type} {f : Dev → α → Dev} {l : List α} (hf : ∀ d, ∀ x ∈ l, Accessed d (f d x)) (d : Dev) :
    Accessed d (l.foldl f d) :=
  foldl_rel (R := Accessed) .refl (fun _ _ _ => .trans) hf d

/-- What a granule maps to is the number of a controller, or one more in a slab's check area (13 R406). -/
theorem stackOf_le (d : Dev) (a : Nat) : d.stackOf a ≤ 8 := by
  have hu : a % 0x200000000 < 0x200000000 := Nat.mod_lt _ (by decide)
  have hbytes (cls : Nat) : a % 0x200000000 / (usableBytes cls / 8) ≤ 8 := by
    unfold usableBytes
    split <;> omega
  unfold Dev.stackOf
  dsimp only
  split
  · exact hbytes _
  · omega
  · omega

section
variable (d : Dev)

theorem accessed_withDraw (k : Nat) : Accessed d { d with draw := k } := ⟨rfl, fun _ _ _ _ => rfl⟩

theorem accessed_setReg {i k : Nat} (v : Nat) (h : accessEntry i k) : Accessed d (d.setReg i k v) where
  frame := rfl
  regs j m hm hj := by
    rw [d.reg_setReg i k v j m (by unfold accessEntry at h; omega) hm, if_neg]
    rintro ⟨rfl, rfl⟩
    exact hj h

theorem accessed_bump {i k : Nat} (n : Nat) (h : accessEntry i k) : Accessed d (d.bump i k n) := accessed_setReg d _ h

theorem accessed_wr (a : Nat) (bs : List Byte) : Accessed d (d.wr a bs) := (Accessed.refl d).withMem _

theorem accessed_raise (f : RaisedFault) : Accessed d (d.raise f) := by
  unfold Dev.raise
  cases f.block with
  | none => exact ⟨rfl, fun _ _ _ _ => rfl⟩
  | some b =>
    dsimp only
    split <;> exact ⟨rfl, fun _ _ _ _ => rfl⟩

theorem accessed_faultUc (src unit addr : Nat) (reason status : BitVec 8) (detail : Nat) :
    Accessed d (d.faultUc src unit addr reason status detail) := accessed_raise _ _

theorem accessed_faultCorr (src unit addr detail : Nat) : Accessed d (d.faultCorr src unit addr detail) :=
  accessed_raise _ _

theorem accessed_countGranules {sub : Nat} (hsub : sub ≤ 7) (gs : List Nat) : Accessed d (d.countGranules sub gs) := by
  unfold Dev.countGranules
  refine accessed_foldl (fun d k hk => ?_) d
  have hk := List.mem_range.mp hk
  dsimp only
  split
  · exact .refl d
  · exact accessed_bump _ _ (by unfold accessEntry; omega)

theorem accessEntry_stack (a : Nat) {k : Nat} (hk : k ≤ 7) : accessEntry (0x4200 + d.stackOf a) k := by
  have := stackOf_le d a
  unfold accessEntry
  omega

theorem accessed_meetGranule (blk : Option Block) (g : Nat) : Accessed d (d.meetGranule blk g).1 := by
  unfold Dev.meetGranule
  split
  · exact .refl d
  · split
    · exact .refl d
    · dsimp only
      split
      · dsimp only
        exact (((Accessed.refl d).withMem _).trans (accessed_bump _ _ (accessEntry_stack d g (k := 1) (by decide)))).trans
          (accessed_raise _ _)
      · dsimp only
        exact ((((((Accessed.refl d).withMem _).trans (accessed_bump _ _ (accessEntry_stack d g (k := 2) (by decide)))).trans
          (accessed_setReg _ _ (accessEntry_stack d g (k := 3) (by decide)))).trans
          (accessed_setReg _ _ (accessEntry_stack d g (k := 4) (by decide)))).withMem _).trans (accessed_raise _ _)

theorem accessed_meetWord (c : Nat) (u : Upset) : Accessed d (d.meetWord c u) := by
  unfold Dev.meetWord
  cases u.kind with
  | correctable =>
    exact (((Accessed.refl d).withMem _).trans (accessed_bump _ _ (by unfold accessEntry; omega))).trans
      (accessed_faultCorr ..)
  | uncorrectable => exact accessed_faultUc ..

/-- A read. -/
theorem accessed_fetch (blk : Option Block) (a n : Nat) : Accessed d (d.fetch blk a n).1 := by
  unfold Dev.fetch
  cases regionOf a with
  | stack =>
    refine .trans ?_ (accessed_countGranules _ (by decide) _)
    refine foldl_rel (R := fun (p q : Dev × Bool) => Accessed p.1 q.1) (fun _ => .refl _) (fun _ _ _ => .trans)
      (fun p g _ => ?_) (d, false)
    exact accessed_meetGranule p.1 blk g
  | bank c off => exact accessed_foldl (fun d u _ => accessed_meetWord d c u) d
  | core n off => exact .refl d
  | nowhere => exact .refl d

/-- A write. -/
theorem accessed_store (blk : Option Block) (a : Nat) (bs : List Byte) : Accessed d (d.store blk a bs) := by
  unfold Dev.store
  cases regionOf a with
  | stack =>
    exact (((accessed_foldl (fun d g _ => accessed_meetGranule d blk g) d).withMem _).trans
      (accessed_countGranules _ (by decide) _)).trans
      ((accessed_countGranules _ (by decide) _).trans (accessed_wr ..))
  | bank c off => exact (Accessed.refl d).withMem _
  | core n off => exact (Accessed.refl d).withMem _
  | nowhere => exact (Accessed.refl d).withMem _

theorem accessed_addUpsets (us : List Upset) : Accessed d (d.addUpsets us) := by
  unfold Dev.addUpsets
  refine accessed_foldl (fun d u _ => ?_) d
  dsimp only
  split <;> exact ⟨rfl, fun _ _ _ _ => rfl⟩

theorem accessed_noteProblem (r : Requester) (k : AccessKind) (p : Problem) : Accessed d (d.noteProblem r k p) := by
  cases p with
  | wait => exact .refl d
  | nowhere => exact .refl d
  | core n a => exact accessed_faultUc ..
  | stack a cause =>
    exact ((accessed_setReg d _ (.inl ⟨rfl, .inl rfl⟩)).trans (accessed_setReg _ _ (.inl ⟨rfl, .inr rfl⟩))).trans
      (accessed_faultUc ..)
  | bank c a cause =>
    exact (((accessed_setReg d _ (by unfold accessEntry; omega)).trans
      (accessed_setReg _ _ (by unfold accessEntry; omega))).trans
      (accessed_bump _ _ (by unfold accessEntry; omega))).trans (accessed_faultUc ..)

theorem accessed_writeAs (r : Requester) (a : Nat) (bs : List Byte) : Accessed d (d.writeAs r a bs) := by
  obtain ⟨-, e⟩ | ⟨p, -, -, e⟩ | ⟨-, e⟩ := d.writeAs_cases r a bs
  · rw [e]; exact ⟨rfl, fun _ _ _ _ => rfl⟩
  · rw [e]; exact accessed_noteProblem ..
  · rw [e]; exact accessed_foldl (fun d p _ => accessed_store d ..) d

theorem accessed_meetWrites (a n : Nat) (writes : Nat → List (Nat × Nat)) : Accessed d (d.meetWrites a n writes).2 := by
  unfold Dev.meetWrites
  refine foldl_rel (R := fun (p q : Nat × Dev) => Accessed p.2 q.2) (fun _ => .refl _) (fun _ _ _ => .trans)
    (fun p g _ => ?_) (0, d)
  split
  · split
    · dsimp only
      split
      · exact (accessed_withDraw _ _).trans (accessed_bump _ _ (by unfold accessEntry; omega))
      · exact accessed_withDraw ..
    · exact .refl _
  · exact .refl _

end

theorem findSome?_congr {α β : Type} {f g : α → Option β} {l : List α} (h : ∀ x ∈ l, f x = g x) :
    l.findSome? f = l.findSome? g := by
  induction l with
  | nil => rfl
  | cons x l ih =>
    rw [List.findSome?_cons, List.findSome?_cons, h x List.mem_cons_self, ih fun y hy => h y (List.mem_cons_of_mem _ hy)]

theorem regionOf_bank_lt {a c off : Nat} (h : regionOf a = .bank c off) : c < 256 := by
  unfold regionOf clusterBase clusterEnd at h
  split_ifs at h with hstack hbank
  cases h
  omega

theorem bankProblem_congr {d e : Dev} {c : Nat} (hcluster : e.cluster c = d.cluster c)
    (hmode : e.reg (0x3100 + c) 1 = d.reg (0x3100 + c) 1) (hdivision : e.reg (0x3100 + c) 2 = d.reg (0x3100 + c) 2)
    (r : Requester) (k : AccessKind) (off a : Nat) : e.bankProblem r k c off a = d.bankProblem r k c off a := by
  have hdiv : e.division c = d.division c := by rw [Dev.division, hmode, hdivision, Dev.division]
  unfold Dev.bankProblem Dev.bankPower Dev.handoverOf Dev.bankOwner
  rw [hcluster, hdiv]

section
variable {d e : Dev} (h : Accessed d e)
include h

theorem Accessed.core (n : Nat) : e.core n = d.core n := by rw [h.frame]; rfl

theorem Accessed.cores : e.cores = d.cores := by rw [h.frame]

theorem Accessed.cluster (c : Nat) : e.cluster c = d.cluster c := by rw [h.frame]; rfl

theorem Accessed.clusters : e.clusters = d.clusters := by rw [h.frame]

theorem Accessed.tick : e.tick = d.tick := by rw [h.frame]

theorem Accessed.port : e.port = d.port := by rw [h.frame]

theorem Accessed.power : e.power = d.power := by rw [h.frame]

theorem Accessed.stk : e.stk = d.stk := by rw [h.frame]

theorem Accessed.clock : e.clock = d.clock := by rw [h.frame]

theorem Accessed.inReset : e.faults.inReset = d.faults.inReset := by rw [h.frame]

theorem Accessed.holds (b : Block) : e.faults.holds b = d.faults.holds b := by
  cases b <;> simp only [Faults.holds, h.inReset]

theorem Accessed.tickNumber : e.tickNumber = d.tickNumber := h.regs _ _ (by decide) (by unfold accessEntry; omega)

theorem Accessed.slabClass (s : Nat) : e.slabClass s = d.slabClass s := by
  have hreg {r k : Nat} (hr : r < 32) (hk : 1 ≤ k ∧ k ≤ 4) : e.reg (0x4100 + r) k = d.reg (0x4100 + r) k :=
    h.regs _ _ (by omega) (by unfold accessEntry; omega)
  unfold Dev.slabClass
  refine findSome?_congr fun r hr => ?_
  have hr := List.mem_range.mp hr
  simp only [hreg hr (k := 1) (by decide), hreg hr (k := 2) (by decide), hreg hr (k := 3) (by decide),
    hreg hr (k := 4) (by decide)]

theorem Accessed.stackCause (a : Nat) : e.stackCause a = d.stackCause a := by
  rw [Dev.stackCause, h.slabClass, h.stk, Dev.stackCause]

theorem Accessed.bankProblem (r : Requester) (k : AccessKind) {c : Nat} (hc : c < 256) (off a : Nat) :
    e.bankProblem r k c off a = d.bankProblem r k c off a :=
  bankProblem_congr (h.cluster c) (h.regs _ _ (by decide) (by unfold accessEntry; omega))
    (h.regs _ _ (by decide) (by unfold accessEntry; omega)) r k off a

/-- Accesses change nothing of what stands against an access. -/
theorem Accessed.problemAt (r : Requester) (k : AccessKind) (a : Nat) : e.problemAt r k a = d.problemAt r k a := by
  unfold Dev.problemAt
  cases hregion : regionOf a with
  | stack => simp only [h.stackCause]
  | bank c off => exact h.bankProblem r k (regionOf_bank_lt hregion) off a
  | core n off => simp only [h.core]
  | nowhere => rfl

theorem Accessed.problemIn (r : Requester) (k : AccessKind) (a n : Nat) : e.problemIn r k a n = d.problemIn r k a n := by
  simp only [Dev.problemIn, h.problemAt]

end

/-! ### What stands against an access -/

/-- Of its cores, an access asks only which are in the frame and with which half (08 R239). -/
theorem problemIn_setCore (d : Dev) {n : Nat} {c : Core} (hframe : c.frame = (d.core n).frame)
    (hhalf : c.half = (d.core n).half) (r : Requester) (k : AccessKind) (a m : Nat) :
    (d.setCore n c).problemIn r k a m = d.problemIn r k a m := by
  refine congrArg (fun f => (pieces a m).findSome? f) (funext fun p => ?_)
  unfold Dev.problemAt
  cases regionOf p with
  | stack => rfl
  | bank _ _ => rfl
  | nowhere => rfl
  | core i off =>
    have hf : ((d.setCore n c).core i).frame = (d.core i).frame := by
      rw [Dev.core_setCore]; split
      case isTrue hi => rw [hi, hframe]
      case isFalse => rfl
    have hh : ((d.setCore n c).core i).half = (d.core i).half := by
      rw [Dev.core_setCore]; split
      case isTrue hi => rw [hi, hhalf]
      case isFalse => rfl
    simp only [hf, hh]

end Sys2Proof.Proofs
end

section
/-! SUPPORT. PACC through a plain generator (08 R276). -/

namespace Sys2Proof.Proofs

open Sys2Proof.Machine Sys2Proof.Terms

theorem packWords_length (k : Nat) {ws : List Nat} (h : ws.length = 2 * k) : (packWords ws).length = 9 * k := by
  induction k generalizing ws with
  | zero => rw [List.length_eq_zero_iff.mp h]; rfl
  | succ k ih =>
    match ws, h with
    | x :: y :: r, h =>
      have hr : r.length = 2 * k := by simpa [Nat.mul_succ] using h
      rw [packWords, List.length_append, leBytes_length, ih hr]
      omega

theorem vecPacked_length (clear : Bool) {ws : List Nat} (h : ws.length = 64) :
    (vecPacked clear ws).length = vecBytes clear := by
  cases clear with
  | true => simp [vecPacked, List.length_flatMap, h, vecBytes]
  | false => exact packWords_length 32 h

theorem regVec_eq_map (c : Core) (sl : Nat) (k : BitVec 4) (clear : Bool) :
    regVec c sl (src k clear) = (List.range 64).map fun j => laneOf c sl k j % if clear then 2 ^ 32 else 2 ^ 36 := by
  refine List.ext_getElem (by simp [regVec_length]) fun j h1 h2 => ?_
  rw [← List.getD_eq_getElem _ 0 h1, getD_regVec, List.getElem_map, List.getElem_range]
  rfl

/-- The one write that waits reaches its bank. -/
theorem pumpPaccs_of_single {d : Dev} {n : Nat} {w : PaccWrite} (h : (d.core n).paccs = [w]) (hmode : w.mode = 0)
    (hfree : d.problemIn (.stream n) .write w.addr w.data.length = none) :
    d.pumpPaccs n = (d.stepWrite n 0 w.q w.addr w.data).modCore n fun c => { c with paccs := [] } := by
  rw [Dev.pumpPaccs, h, Dev.paccsGo]
  simp only [hmode, if_true, hfree]
  rfl

/-- A plain step's write leaves its core with the bytes that it may still read. -/
theorem core_stepWrite (d : Dev) (n q a : Nat) (bs : List Byte) : (d.stepWrite n 0 q a bs).core n =
    { d.core n with unfenced := (a, d.mem.read a bs.length) :: (d.core n).unfenced } := by
  rw [Dev.stepWrite, if_pos rfl, (accessed_store _ _ _ _).core, Dev.core_modCore_same]
  rfl

theorem core_stepWrite_other (d : Dev) {n m : Nat} (q a : Nat) (bs : List Byte) (h : m ≠ n) :
    (d.stepWrite n 0 q a bs).core m = d.core m := by
  rw [Dev.stepWrite, if_pos rfl, (accessed_store _ _ _ _).core, Dev.modCore, Dev.core_setCore, if_neg h]

theorem byte_stepWrite (d : Dev) (n q a : Nat) (bs : List Byte) (x : Nat) : (d.stepWrite n 0 q a bs).mem.byte x =
    if a ≤ x ∧ x < a + bs.length then bs.getD (x - a) 0 else d.mem.byte x := by
  rw [Dev.stepWrite, if_pos rfl, Dev.byte_store]
  rfl

/-- The write that a PACC of one slice makes. -/
def paccOf (c : Core) (f : RFields) (k sl : Nat) (g : AddrGen) : PaccWrite :=
  { gen := k, mode := g.mode, q := 1, addr := g.addr g.stepsDone, data := vecPacked f.w (regVec c sl (src f.sa f.w)),
    pc := c.exe.pc }

/-- The core of a PACC while its write has not reached its bank. -/
def paccIssued (c : Core) (f : RFields) (k sl : Nat) (g : AddrGen) : Core :=
  { c with gens := tset c.gens k { g with stepsDone := g.stepsDone + 1 }, paccs := [paccOf c f k sl g] }

theorem slicesOf_single {m : BitVec 2} {sl : Nat} (h : m = 1 ∧ sl = 0 ∨ m = 2 ∧ sl = 1) : slicesOf m = [sl] := by
  obtain ⟨rfl, rfl⟩ | ⟨rfl, rfl⟩ := h <;> rfl

theorem pacc_of_register {d : Dev} {n : Nat} {f : RFields} {agsel : Bool} {g : AddrGen} {sl k : Nat}
    (hk : k = if agsel then 7 else 6) (hmay : d.mayIssue n .execute = true) (hstill : still (d.core n))
    (hslice : f.slice = 1 ∧ sl = 0 ∨ f.slice = 2 ∧ sl = 1) (hsa : 8 ≤ f.sa.toNat)
    (hgen : tfind (d.core n).gens k = some g) (hmode : g.mode = 0) (hwidth : g.width = vecBytes f.w)
    (hstep : g.stepsDone < g.steps) : d.pacc n f agsel =
      let e := (d.setCore n (paccIssued (d.core n) f k sl g)).pumpPaccs n
      if (e.core n).stop = none then (e.goOn n .execute).pump n else e := by
  have hne : ¬f.slice = 0 := by obtain ⟨h, -⟩ | ⟨h, -⟩ := hslice <;> rw [h] <;> decide
  have hpaccs : (d.core n).paccs = [] := hstill.2.1
  have hsource : FromRegisters [src f.sa f.w] := List.forall_mem_singleton.mpr ⟨hsa, rfl⟩
  have hgather : (d.core n).gather [sl] [src f.sa f.w] d.draw =
      ({ popped := [], need := [] }, [(sl, [[regVec (d.core n) sl (src f.sa f.w)]])]) := by
    rw [← slicesOf_single hslice]
    exact (laneTaken_registers (o := { permOp f false false fun _ _ _ => 0 with slice := f.slice }) (d.core n) d.draw
      hsource).trans (by rw [slicesOf_single hslice]; rfl)
  have hmod (c : Core) : d.accModulus c g = some 1 := if_pos (by rw [hmode]; decide)
  have hwide : ¬g.width ≠ vecBytes f.w := not_not.mpr hwidth
  have hsteps : ¬g.steps < g.stepsDone + 1 := by omega
  rw [Dev.pacc, Dev.issue_may d hmay]
  simp only [if_neg hne, ← hk, hgen, slicesOf_single hslice, hgather, if_neg hwide, if_neg hsa.not_gt, hpaccs, hmod,
    Core.claimAll, List.length_singleton, if_neg hsteps, List.filterMap_nil, List.any_nil, ne_eq, not_true, if_false,
    Bool.false_eq_true]
  rfl

/-- The core of a PACC once its write has reached its bank. -/
def paccLanded (d : Dev) (n k : Nat) (g : AddrGen) : Core :=
  { d.core n with gens := tset (d.core n).gens k { g with stepsDone := g.stepsDone + 1 },
                  unfenced := (g.addr g.stepsDone, d.mem.read (g.addr g.stepsDone) g.width) :: (d.core n).unfenced }

section
variable {d : Dev} {n : Nat} {f : RFields} {k sl : Nat} {g : AddrGen} (hpaccs : (d.core n).paccs = [])
  (hmode : g.mode = 0) (hwidth : g.width = vecBytes f.w)
  (hfree : d.problemIn (.stream n) .write (g.addr g.stepsDone) g.width = none)

theorem paccOf_length (c : Core) (hwidth : g.width = vecBytes f.w) : (paccOf c f k sl g).data.length = g.width :=
  (vecPacked_length f.w (regVec_length c sl f.sa f.w)).trans hwidth.symm

include hpaccs hmode hwidth hfree

/-- Its write reaches its bank at once. -/
theorem pumpPaccs_paccIssued : (d.setCore n (paccIssued (d.core n) f k sl g)).pumpPaccs n =
    ((d.setCore n (paccIssued (d.core n) f k sl g)).stepWrite n 0 1 (g.addr g.stepsDone)
      (paccOf (d.core n) f k sl g).data).setCore n (paccLanded d n k g) := by
  have hlength := paccOf_length (k := k) (sl := sl) (d.core n) hwidth
  rw [pumpPaccs_of_single (w := paccOf (d.core n) f k sl g) (by rw [Dev.core_setCore_same]; rfl) hmode
    (by rw [hlength, problemIn_setCore d (c := paccIssued (d.core n) f k sl g) rfl rfl]; exact hfree)]
  refine congrArg (Dev.setCore _ n) ?_
  rw [core_stepWrite, Dev.core_setCore_same, hlength, paccLanded, ← hpaccs]
  rfl

end

/-- Settles O24: the write reaches its bank at once. -/
theorem plainVectorStore : Obligations.PlainVectorStore := by
  intro s n f agsel g sl hmay hgo hstill hslice hsa hgen hmode hwidth hstep hfree
  obtain ⟨htransfers, hpaccs, hacc, hexe⟩ := id hstill
  obtain ⟨k, hk⟩ : ∃ k, k = if agsel then 7 else 6 := ⟨_, rfl⟩
  rw [← hk] at hgen ⊢
  have hstop : (paccLanded s.dev n k g).stop = none := by
    simp only [Dev.mayIssue, Bool.and_eq_true, decide_eq_true_eq] at hmay
    exact hmay.1.1.1.2
  have hlands := pacc_of_register hk hmay hstill hslice hsa hgen hmode hwidth hstep
  rw [pumpPaccs_paccIssued hpaccs hmode hwidth hfree] at hlands
  dsimp only at hlands
  have hgo : goesOn (paccLanded s.dev n k g) .execute := hgo
  have hstill' : still (advanced (paccLanded s.dev n k g) .execute) :=
    ⟨htransfers, hpaccs, hacc, by rintro ⟨⟩⟩
  rw [Dev.core_setCore_same, if_pos hstop, goOn_setCore _ hgo,
    pump_setCore_of_still _ hstill' (call_none_of_mayIssue hmay)] at hlands
  refine ⟨s.withDev _, congrArg (fun d => Host.Outcome.next (s.withDev d)) hlands, ?_, fun m hm => ?_, rfl, fun a => ?_⟩
  · rw [State.withDev, Dev.core_setCore_same]
    rfl
  · rw [State.withDev, Dev.core_setCore, if_neg hm, core_stepWrite_other _ _ _ _ hm, Dev.core_setCore, if_neg hm]
  · have hbyte := byte_stepWrite (s.dev.setCore n (paccIssued (s.dev.core n) f k sl g)) n 1 (g.addr g.stepsDone)
      (paccOf (s.dev.core n) f k sl g).data a
    rw [paccOf_length _ hwidth] at hbyte
    refine hbyte.trans (ite_congr rfl (fun _ => ?_) fun _ => rfl)
    rw [paccOf, regVec_eq_map]

end Sys2Proof.Proofs
end

section
/-! SUPPORT. CALL: the checks of its fields, and when the call of a core and of its cluster starts (08 R280, R291). -/

namespace Sys2Proof.Proofs

open Sys2Proof.Machine Sys2Proof.Terms

theorem bootStep_of_named {d : Dev} {n p : Nat} {a : BitVec 16} (l : LinkEvent)
    (h : n % 16 ≠ 0 ∨ ((d.argWords n a.toNat).getD 1 0).toNat = p ∨ 2 < ((d.argWords n a.toNat).getD 1 0).toNat) :
    d.bootStep n p a l = d.call n 0x041 a l := by
  rw [Dev.bootStep]
  refine if_neg ?_
  simp only [Bool.and_eq_true, decide_eq_true_eq, ne_eq]
  omega

theorem exec_callRow {i : Instr} {n r : Nat} {a : BitVec 16} {l : LinkEvent} (h : callRow i = some (n, r, a, l)) {s : State}
    (hplan : planNamed s.dev i n a) : exec i s = .next (s.withDev (s.dev.call n r a l)) := by
  cases i
  case bootStepFull =>
    cases h
    exact congrArg (fun d => Host.Outcome.next (s.withDev d)) (bootStep_of_named l (hplan 0 rfl))
  case bootStepHalfE =>
    cases h
    exact congrArg (fun d => Host.Outcome.next (s.withDev d)) (bootStep_of_named l (hplan 1 rfl))
  case bootStepS2cOnly =>
    cases h
    exact congrArg (fun d => Host.Outcome.next (s.withDev d)) (bootStep_of_named l (hplan 2 rfl))
  all_goals cases h <;> rfl

theorem stop_none_of_mayIssue {d : Dev} {n : Nat} {p : Program} (h : d.mayIssue n p = true) : (d.core n).stop = none := by
  simp only [Dev.mayIssue, Bool.and_eq_true, decide_eq_true_eq] at h
  exact h.1.1.1.2

theorem routineThere_iff (d : Dev) (r : Nat) : routineThere d r ↔
    (romRoutine r || (d.lib.inService.any fun x => x.routines.any fun y => y.number = r)) = true := by
  simp only [routineThere, Bool.or_eq_true, Option.any_eq_true_iff_get, List.any_eq_true, decide_eq_true_eq]
  cases d.lib.inService <;> simp

section
variable {d : Dev} {n r : Nat} {a : BitVec 16} (l : LinkEvent) (hmay : d.mayIssue n .execute = true)
include hmay

theorem call_of_not_argsFit (h : ¬argsFit a) : d.call n r a l = d.faultHere n .execute 0x03 := by
  rw [Dev.call, Dev.issue_may d hmay]
  exact if_pos (by simp only [argsFit] at h; omega)

theorem call_of_routineThere (h : argsFit a) (hr : routineThere d r) :
    d.call n r a l = (d.setCore n (callIssued (d.core n) r a l false)).startCall n := by
  obtain ⟨halign, hlow, hhigh⟩ := h
  rw [Dev.call, Dev.issue_may d hmay]
  dsimp only
  rw [if_neg (by omega), if_neg (by rw [(routineThere_iff d r).mp hr]; decide)]
  rfl

theorem call_of_not_routineThere (h : argsFit a) (hr : ¬routineThere d r) :
    d.call n r a l = d.faultHere n .execute 0x01 := by
  obtain ⟨halign, hlow, hhigh⟩ := h
  rw [Dev.call, Dev.issue_may d hmay]
  dsimp only
  rw [if_neg (by omega), if_pos (by rw [Bool.eq_false_iff.mpr ((routineThere_iff d r).not.mp hr)]; rfl)]

end

section
variable {d : Dev} {n : Nat} {c : Core} {k : CoreCall} (hcall : c.call = some k)
include hcall

/-- The access stream is not at YIELD or END, or a transfer or an accumulating write is not complete. -/
theorem startCall_of_busy
    (h : ¬((c.atYield = true ∨ c.acc.run ≠ .running) ∧ c.transfers = [] ∧ c.paccs = [])) :
    (d.setCore n c).startCall n = d.setCore n c := by
  rw [Dev.startCall, Dev.core_setCore_same, hcall]
  refine if_neg fun h' => h ?_
  simp only [Dev.isDone, Dev.core_setCore_same, Core.prog, Bool.and_eq_true, Bool.or_eq_true, decide_eq_true_eq] at h'
  exact ⟨h'.1.1.1.2, h'.1.1.2, h'.1.2⟩

theorem startCall_of_ready (hstarted : k.started = false) (hyield : c.atYield = true ∨ c.acc.run ≠ .running) (htransfers : c.transfers = [])
    (hpaccs : c.paccs = []) (hstop : c.stop = none) : (d.setCore n c).startCall n =
      if (List.range 4).any fun q => (c.queue q).bytes ≠ [] then (d.setCore n c).faultHere n .execute 0x09
      else ((d.setCore n { c with call := some { k with started := true }, unfenced := [] }).formCall (n / 16)).tryCalls := by
  rw [Dev.startCall, Dev.core_setCore_same, hcall]
  have hready : (!k.started && (c.atYield || (d.setCore n c).isDone n .access) && decide (c.transfers = []) &&
      decide (c.paccs = []) && decide (c.stop = none)) = true := by
    simpa [Dev.isDone, Core.prog, hstarted, htransfers, hpaccs, hstop] using hyield
  exact (if_pos hready).trans (by rw [setCore_setCore])

end

/-! ### A call that cannot be formed, and calls that do not wait -/

theorem formCall_of_missing {d : Dev} {c k : Nat} (hk : k < 16)
    (h : ∀ x, (d.core (16 * c + k)).call = some x → x.started = false) : d.formCall c = d := by
  have hnone : (d.core (16 * c + k)).call.filter (·.started) = none :=
    Option.filter_eq_none_iff.mpr fun x hx => by rw [h x hx]; decide
  refine if_neg ?_
  simp only [Bool.and_eq_true, List.all_eq_true, List.forall_mem_map, not_and]
  intro _ hall
  exact absurd (hall k (List.mem_range.mpr hk)) (by rw [hnone]; decide)

theorem issuedCall_of_none_waits {d : Dev} (h : noneWaits d) (c : Nat) : d.issuedCall c = none := by
  refine Option.filter_eq_none_iff.mpr fun g hg => ?_
  simp [h c g hg]

theorem namesOf_of_none_waits {d : Dev} (h : noneWaits d) (c : Nat) : d.namesOf c = none := by
  rw [Dev.namesOf, issuedCall_of_none_waits h, Option.bind_none]

theorem tryCall_of_none_waits {d : Dev} (h : noneWaits d) (c : Nat) : d.tryCall c = d := by
  rw [Dev.tryCall]
  cases hcall : (d.cluster c).call with
  | none => rfl
  | some g =>
    have hjoin : d.joinLate c g = d := by
      rw [Dev.joinLate, namesOf_of_none_waits h]
      rfl
    have hrun : d.runGang c = d := by
      rw [Dev.runGang, hcall]
      exact if_pos (.inr (h c g hcall))
    have hgang : d.gangOf c = none := by
      rw [Dev.gangOf, Dev.digestTo, namesOf_of_none_waits h]
      rfl
    dsimp only
    rw [hgang, hrun, hjoin]
    split
    · split <;> rfl
    · rfl

theorem tryCalls_of_none_waits {d : Dev} (h : noneWaits d) : d.tryCalls = d :=
  foldl_eq_self fun c _ => tryCall_of_none_waits h c

/-- Settles O25: the checks in order, then whether the core's and the cluster's calls can start. -/
theorem callIssues : Obligations.CallIssues := by
  intro s i n r a l hi hmay hplan
  have hexec := exec_callRow hi hplan
  have hstop := stop_none_of_mayIssue hmay
  have hready (hstart : callMayStart s.dev n) :=
    startCall_of_ready (d := s.dev) (n := n) (c := callIssued (s.dev.core n) r a l false) rfl rfl hstart.1 hstart.2.1
      hstart.2.2 hstop
  refine ⟨fun hfit hthere hnot => ?_, fun hfit hthere hstart hheld => ?_, fun hfit hthere hstart hempty => ?_,
    fun hnot => ?_, fun hfit hnot => ?_⟩
  · exact exec_setCore (f := fun d => d.call n r a l) hexec
      ((call_of_routineThere l hmay hfit hthere).trans (startCall_of_busy rfl hnot))
  · have hany : ((List.range 4).any fun q => ((callIssued (s.dev.core n) r a l false).queue q).bytes ≠ []) = true := by
      obtain ⟨q, hq, hbytes⟩ := hheld
      exact List.any_eq_true.mpr ⟨q, List.mem_range.mpr hq, decide_eq_true hbytes⟩
    rw [hexec, call_of_routineThere l hmay hfit hthere, hready hstart, if_pos hany, Dev.faultHere, Dev.core_setCore_same]
    rfl
  · have hany : ¬((List.range 4).any fun q => ((callIssued (s.dev.core n) r a l false).queue q).bytes ≠ []) = true := by
      simp only [List.any_eq_true, decide_eq_true_eq, not_exists, not_and, not_not]
      exact fun q hq => hempty q (List.mem_range.mp hq)
    have hcall : s.dev.call n r a l =
        ((s.dev.setCore n (callIssued (s.dev.core n) r a l true)).formCall (n / 16)).tryCalls :=
      (call_of_routineThere l hmay hfit hthere).trans ((hready hstart).trans (if_neg hany))
    refine ⟨by rw [hexec, hcall], fun ⟨k, hk, hne, hmissing⟩ hnone => ?_⟩
    have hform : (s.dev.setCore n (callIssued (s.dev.core n) r a l true)).formCall (n / 16) = _ :=
      formCall_of_missing hk (by rw [Dev.core_setCore, if_neg hne]; exact hmissing)
    rw [hform] at hcall
    exact exec_setCore (f := fun d => d.call n r a l) hexec (hcall.trans (tryCalls_of_none_waits hnone))
  · rw [hexec, call_of_not_argsFit l hmay hnot]
    rfl
  · rw [hexec, call_of_not_routineThere l hmay hfit hnot]
    rfl

end Sys2Proof.Proofs
end

section
/-! SUPPORT. The bytes of a record made of fields, and reads beside a write. -/

namespace Sys2Proof.Proofs

open Sys2Proof.Machine Sys2Proof.Terms

/-! ### Records (00 R5) -/

/-- The fields of a record lie above bit `lo`, in order and apart. -/
def FieldsFit (lo : Nat) : List (Nat × Nat × Nat) → Prop
  | [] => True
  | f :: r => lo ≤ f.1 ∧ FieldsFit (f.1 + f.2.1) r

/-- The value of a record's fields. -/
def fieldsValue (fields : List (Nat × Nat × Nat)) : Nat := (fields.map fun f => f.2.2 % 2 ^ f.2.1 * 2 ^ f.1).sum

theorem foldl_fields_eq (fields : List (Nat × Nat × Nat)) (acc : Nat) :
    fields.foldl (fun acc f => acc + (f.2.2 % 2 ^ f.2.1) <<< f.1) acc = acc + fieldsValue fields := by
  induction fields generalizing acc with
  | nil => rfl
  | cons f r ih =>
    rw [List.foldl_cons, ih, Nat.shiftLeft_eq, fieldsValue, fieldsValue, List.map_cons, List.sum_cons, Nat.add_assoc]

theorem mkRecord_eq (n : Nat) (fields : List (Nat × Nat × Nat)) : mkRecord n fields = leBytes n (fieldsValue fields) := by
  rw [mkRecord, foldl_fields_eq, Nat.zero_add]

theorem FieldsFit.dvd {lo : Nat} {fields : List (Nat × Nat × Nat)} (h : FieldsFit lo fields) : 2 ^ lo ∣ fieldsValue fields := by
  induction fields generalizing lo with
  | nil => exact Nat.dvd_zero _
  | cons f r ih =>
    obtain ⟨hlo, hr⟩ := h
    rw [fieldsValue, List.map_cons, List.sum_cons]
    exact Nat.dvd_add (Nat.dvd_mul_left_of_dvd (pow_dvd_pow 2 hlo) _) ((pow_dvd_pow 2 (by omega)).trans (ih hr))

theorem FieldsFit.le_of_mem {lo : Nat} {fields : List (Nat × Nat × Nat)} (h : FieldsFit lo fields) {f : Nat × Nat × Nat}
    (hmem : f ∈ fields) : lo ≤ f.1 := by
  induction fields generalizing lo with
  | nil => cases hmem
  | cons g r ih =>
    obtain ⟨hlo, hr⟩ := h
    rcases List.mem_cons.mp hmem with rfl | hmem
    · exact hlo
    · exact (ih hr hmem).trans' (by omega)

/-- Bits inside a field are those of its value. -/
theorem FieldsFit.bits {lo : Nat} {fields : List (Nat × Nat × Nat)} (h : FieldsFit lo fields) {at_ w v m b : Nat}
    (hmem : (at_, w, v) ∈ fields) (hm : at_ ≤ m) (hb : m + b ≤ at_ + w) :
    fieldsValue fields / 2 ^ m % 2 ^ b = v / 2 ^ (m - at_) % 2 ^ b := by
  induction fields generalizing lo with
  | nil => cases hmem
  | cons f r ih =>
    obtain ⟨hlo, hr⟩ := h
    obtain ⟨k, hk⟩ := hr.dvd
    rw [fieldsValue, List.map_cons, List.sum_cons, ← fieldsValue]
    rcases List.mem_cons.mp hmem with rfl | hmem
    · obtain ⟨t, rfl⟩ := Nat.exists_eq_add_of_le hm
      obtain ⟨c, rfl⟩ := Nat.exists_eq_add_of_le (show t + b ≤ w by omega)
      rw [hk, Nat.add_sub_cancel_left]
      dsimp only
      have hsum : v % 2 ^ (t + b + c) * 2 ^ at_ + 2 ^ (at_ + (t + b + c)) * k =
          2 ^ at_ * (v % 2 ^ (t + b + c) + 2 ^ t * (2 ^ b * (2 ^ c * k))) := by ring
      rw [hsum, pow_add 2 at_ t, Nat.mul_div_mul_left _ _ (Nat.two_pow_pos at_),
        Nat.add_mul_div_left _ _ (Nat.two_pow_pos t), Nat.add_mul_mod_self_left, Nat.add_assoc t b c, pow_add 2 t,
        Nat.mod_mul_right_div_self, pow_add 2 b c, Nat.mod_mul_right_mod]
    · have hfield : f.1 + f.2.1 ≤ at_ := hr.le_of_mem hmem
      rw [← ih hr hmem]
      obtain ⟨t, rfl⟩ := Nat.exists_eq_add_of_le (hfield.trans hm)
      have hlow : f.2.2 % 2 ^ f.2.1 * 2 ^ f.1 < 2 ^ (f.1 + f.2.1) := by
        rw [pow_add, Nat.mul_comm]
        exact Nat.mul_lt_mul_of_pos_left (Nat.mod_lt _ (Nat.two_pow_pos _)) (Nat.two_pow_pos _)
      rw [pow_add 2 (f.1 + f.2.1) t, ← Nat.div_div_eq_div_mul, ← Nat.div_div_eq_div_mul, hk,
        Nat.add_mul_div_left _ _ (Nat.two_pow_pos _), Nat.div_eq_of_lt hlow, Nat.zero_add,
        Nat.mul_div_cancel_left _ (Nat.two_pow_pos _)]

/-- A byte inside a field. -/
theorem mkRecord_byte {n k : Nat} (hk : k < n) {fields : List (Nat × Nat × Nat)} (h : FieldsFit 0 fields) {at_ w v : Nat}
    (hmem : (at_, w, v) ∈ fields) (hlow : at_ ≤ 8 * k) (hhigh : 8 * k + 8 ≤ at_ + w) :
    (mkRecord n fields).getD k 0 = .ofNat 8 (v / 2 ^ (8 * k - at_)) := by
  rw [mkRecord_eq, leBytes_getD n _ k hk]
  refine BitVec.eq_of_toNat_eq ?_
  rw [BitVec.toNat_ofNat, BitVec.toNat_ofNat, show (256 : Nat) = 2 ^ 8 from rfl, ← pow_mul, h.bits hmem hlow hhigh]

/-! ### Reads beside a write -/

theorem filter_write (m : Memory) (a : Nat) (bs : List Byte) {x n : Nat} (h : a + bs.length ≤ x ∨ x + n ≤ a) :
    ((m.write a bs).cells.filter fun c => x ≤ c.1 && c.1 < x + n) = m.cells.filter fun c => x ≤ c.1 && c.1 < x + n := by
  have hnew : (cellsOf a bs).filter (fun c => x ≤ c.1 && c.1 < x + n) = [] := by
    refine List.filter_eq_nil_iff.mpr fun c hc => ?_
    have hbounds := cellsOf_bounds a bs c hc
    simp only [Bool.and_eq_true, decide_eq_true_eq]
    omega
  rw [Memory.write, List.filter_append, List.filter_append, hnew, List.append_nil, List.filter_filter, List.filter_filter]
  rcases h with h | h
  · have hlow : (m.cells.filter fun c => (x ≤ c.1 && c.1 < x + n) && c.1 < a) = [] := by
      refine List.filter_eq_nil_iff.mpr fun c _ => ?_
      simp only [Bool.and_eq_true, decide_eq_true_eq]
      omega
    rw [hlow, List.nil_append]
    refine List.filter_congr fun c _ => ?_
    rw [Bool.eq_iff_iff]
    simp only [Bool.and_eq_true, decide_eq_true_eq]
    omega
  · have hhigh : (m.cells.filter fun c => (x ≤ c.1 && c.1 < x + n) && a + bs.length ≤ c.1) = [] := by
      refine List.filter_eq_nil_iff.mpr fun c _ => ?_
      simp only [Bool.and_eq_true, decide_eq_true_eq]
      omega
    rw [hhigh, List.append_nil]
    refine List.filter_congr fun c _ => ?_
    rw [Bool.eq_iff_iff]
    simp only [Bool.and_eq_true, decide_eq_true_eq]
    omega

/-- Where a range lies apart from a write, it reads as before it. -/
theorem read_write_apart (m : Memory) (a : Nat) (bs : List Byte) {x n : Nat} (h : a + bs.length ≤ x ∨ x + n ≤ a) :
    (m.write a bs).read x n = m.read x n := by
  rw [Memory.read, filter_write m a bs h, Memory.read]

end Sys2Proof.Proofs
end

section
/-! SUPPORT. CALL_RETURN: what a call writes at its end, and the return of each core (08 R281, 09 R289, R302). -/

namespace Sys2Proof.Proofs

open Sys2Proof.Machine Sys2Proof.Terms

/-! ### One core's return -/

/-- The header word that a return leaves. -/
def headerOf (g : GangCall) (st : BitVec 8) (cycles old : Nat) : List Byte :=
  mkRecord 8 [(0, 8, st.toNat), (8, 5, bitsAt old 8 5), (16, 16, if g.routine = 0x041 then g.progress.toNat else 0),
    (32, 32, min cycles 0xFFFFFFFF)]

/-- The core of a call that has returned, its event not yet counted, with `draw` free values drawn before its vectors. -/
def returnedCore (c : Core) (cycles draw : Nat) : Core :=
  { c with call := none, busy := c.busy + cycles, exe := c.exe.retire, acc := if c.atYield then c.acc.retire else c.acc,
           atYield := false,
           vregs := (List.range 16).foldl (fun t r => tset t r
             ((List.range 64).map fun i => BitVec.ofNat 36 (Config.freeWord (draw + 64 * r + i)).toNat)) c.vregs }

/-- The event that a header word names is counted, where it asks for it. -/
def headerEvent (c : Core) (old : Nat) : Core :=
  if old.testBit 8 then setEvent c (bitsAt old 9 4) (tget c.events (bitsAt old 9 4) 0 + 1) else c

theorem freeVectors_setCore (d : Dev) (n : Nat) (c : Core) : (d.setCore n c).freeVectors n =
    ({ d with draw := d.draw + 1024 }).setCore n { c with vregs := (List.range 16).foldl (fun t r => tset t r
      ((List.range 64).map fun i => BitVec.ofNat 36 (Config.freeWord (d.draw + 64 * r + i)).toNat)) c.vregs } := by
  rw [Dev.freeVectors, Dev.modCore, Dev.core_setCore_same, setCore_setCore]
  rfl

theorem signal?_of_lt {c : Core} {e : Nat} (h : eventCount c e < 15) :
    c.signal? e = some (setEvent c e (tget c.events e 0 + 1)) := by
  refine if_neg fun hfull => ?_
  rw [eventCount, hfull] at h
  exact absurd h (by decide)

/-- A return counts its event, or faults where the count is full (08 R281). -/
def countHeader (d : Dev) (n old pc : Nat) : Dev :=
  if old.testBit 8 then
    match (d.core n).signal? (bitsAt old 9 4) with
    | some c => d.setCore n c
    | none => d.programFault n .execute 0x07 pc
  else d

theorem countHeader_setCore (d : Dev) (n pc : Nat) {c : Core} {old : Nat}
    (hroom : old.testBit 8 = true → eventCount c (bitsAt old 9 4) < 15) :
    countHeader (d.setCore n c) n old pc = d.setCore n (headerEvent c old) := by
  rw [countHeader, headerEvent]
  split
  case isTrue hbit => rw [Dev.core_setCore_same, signal?_of_lt (hroom hbit)]; exact setCore_setCore ..
  case isFalse => rfl

section
variable {d : Dev} {n : Nat} {k : CoreCall} (g : GangCall) (st : BitVec 8) (hcall : (d.core n).call = some k)
  (hrun : (d.core n).exe.run = .running) (hexe : goesOn (d.core n) .execute)
  (hacc : (d.core n).atYield = true → goesOn (d.core n) .access)
  (hroom : (d.rdLe (coreAddr n k.args) 8).testBit 8 = true →
    eventCount (d.core n) (bitsAt (d.rdLe (coreAddr n k.args) 8) 9 4) < 15)
include hcall hrun hexe hacc hroom

theorem returnCore_eq : d.returnCore g st n =
    ({ d.wr (coreAddr n k.args) (headerOf g st (max (d.clock - g.issuedAt) g.stated) (d.rdLe (coreAddr n k.args) 8)) with
        draw := d.draw + 1024 }).setCore n
      (headerEvent (returnedCore (d.core n) (max (d.clock - g.issuedAt) g.stated) d.draw) (d.rdLe (coreAddr n k.args) 8)) := by
  set old := d.rdLe (coreAddr n k.args) 8 with hold
  set cycles := max (d.clock - g.issuedAt) g.stated with hcycles
  set c := returnedCore (d.core n) cycles d.draw with hc
  have hexe : pcIn 8 (c.prog .execute).pc := hexe
  have hyield (e : Dev) : (if (d.core n).atYield = true then (e.setCore n c).checkPc n .access else e.setCore n c) =
      e.setCore n c := by
    split
    case isTrue hy =>
      have hpc : pcIn 8 (c.prog .access).pc := by
        rw [hc, returnedCore, Core.prog, if_pos hy]
        exact hacc hy
      exact checkPc_setCore (p := .access) e nofun hpc
    case isFalse => rfl
  have hcore (a : Nat) (bs : List Byte) : (d.wr a bs).core n = d.core n := rfl
  rw [Dev.returnCore, hcall]
  simp only [Dev.modCore, Dev.core_setCore_same, setCore_setCore, freeVectors_setCore, hcore]
  rw [if_neg (not_not.mpr hrun)]
  change countHeader (Dev.checkPc (if (d.core n).atYield = true then Dev.checkPc (Dev.setCore _ n c) n .access
    else Dev.setCore _ n c) n .execute) n old (d.core n).exe.pc = _
  rw [hyield, checkPc_setCore (p := .execute) _ nofun hexe, countHeader_setCore (c := c) _ _ _ hroom]
  rfl

end

/-! ### What a call writes at its end (03 R73) -/

theorem Accessed.withTick {d e : Dev} (h : Accessed d e) (t : Tick) : Accessed { d with tick := t } { e with tick := t } where
  frame := by rw [h.frame]
  regs := h.regs

theorem accessed_putPieces (d : Dev) (u : Pieces) : Accessed d (d.putPieces u) :=
  accessed_foldl (fun d _ _ => accessed_store d ..) d

/-- The device once an operation's words are laid down. -/
def wordsLaid (d : Dev) (e : Effect) : Dev := e.units.foldl (fun d u => d.putPieces u) (d.putSides e)

theorem accessed_wordsLaid (d : Dev) (e : Effect) : Accessed d (wordsLaid d e) :=
  ((accessed_putPieces d e.work).trans (accessed_foldl (fun d u _ => accessed_putPieces d u) _)).trans
    (accessed_foldl (fun d u _ => accessed_putPieces d u) _)

theorem problemIn_countPoison (d : Dev) (b : Bool) (r : Requester) (k : AccessKind) (a n : Nat) :
    (d.countPoison b).problemIn r k a n = d.problemIn r k a n := rfl

/-- A descriptor's write counts poison, and is an access. -/
theorem accessed_writeDesc (d : Dev) (a : Nat) (bs : List Byte) (st : BitVec 8) :
    ∃ t, Accessed { d with tick := t } (d.writeDesc a bs st).1 := by
  have hcount : ∃ t, (if fld bs 160 1 = 1 then d.countPoison true else d) = { d with tick := t } := by
    split
    · exact ⟨_, rfl⟩
    · exact ⟨_, rfl⟩
  obtain ⟨t, ht⟩ := hcount
  refine ⟨t, ?_⟩
  rw [Dev.writeDesc, ht]
  split
  · split
    · exact accessed_noteProblem ..
    · exact accessed_store ..
  · exact accessed_store ..

theorem finishEffect_eq (d : Dev) (e : Effect) (st : BitVec 8) : d.finishEffect e st =
    match e.dest with
    | some (a, bs) => (wordsLaid d e).writeDesc a (stampTick bs d.tickNumber) st
    | none => (wordsLaid d e, st) := by
  rw [Dev.finishEffect, ← wordsLaid, (accessed_wordsLaid d e).tickNumber] <;> rfl

theorem accessed_finishEffect (d : Dev) (e : Effect) (st : BitVec 8) :
    ∃ t, Accessed { d with tick := t } (d.finishEffect e st).1 := by
  have hwords := accessed_wordsLaid d e
  rw [finishEffect_eq]
  cases e.dest with
  | none => exact ⟨d.tick, hwords⟩
  | some x =>
    obtain ⟨t, ht⟩ := accessed_writeDesc (wordsLaid d e) x.1 (stampTick x.2 d.tickNumber) st
    exact ⟨t, (hwords.withTick t).trans ht⟩

section
variable {d e : Dev} (h : Accessed d e) (hcells : e.mem.cells = d.mem.cells)

theorem write_cells_congr {m k : Memory} (h : m.cells = k.cells) (a : Nat) (bs : List Byte) :
    (m.write a bs).cells = (k.write a bs).cells := by
  rw [Memory.write, h, Memory.write]

include hcells

theorem foldl_cells_congr {α : Type} {f : Dev → α → Dev} {l : List α}
    (hf : ∀ d e x, e.mem.cells = d.mem.cells → (f e x).mem.cells = (f d x).mem.cells) :
    (l.foldl f e).mem.cells = (l.foldl f d).mem.cells := by
  induction l generalizing d e with
  | nil => exact hcells
  | cons x l ih => exact ih (hf d e x hcells)

theorem putPieces_cells_congr (u : Pieces) : (e.putPieces u).mem.cells = (d.putPieces u).mem.cells :=
  foldl_cells_congr hcells fun d e p h => by
    rw [Dev.store_cells, Dev.store_cells]
    exact write_cells_congr h ..

theorem wordsLaid_cells_congr (x : Effect) : (wordsLaid e x).mem.cells = (wordsLaid d x).mem.cells :=
  foldl_cells_congr (foldl_cells_congr (putPieces_cells_congr hcells _) fun _ _ u h => putPieces_cells_congr h u)
    fun _ _ u h => putPieces_cells_congr h u

include h

theorem writeDesc_cells_congr (a : Nat) (bs : List Byte) (st : BitVec 8) :
    (e.writeDesc a bs st).1.mem.cells = (d.writeDesc a bs st).1.mem.cells ∧
      (e.writeDesc a bs st).2 = (d.writeDesc a bs st).2 := by
  have hcount (d : Dev) : ∃ t, (if fld bs 160 1 = 1 then d.countPoison true else d) = { d with tick := t } := by
    split
    · exact ⟨_, rfl⟩
    · exact ⟨_, rfl⟩
  obtain ⟨t, ht⟩ := hcount d
  obtain ⟨t', ht'⟩ := hcount e
  have hproblem : ({ e with tick := t' } : Dev).problemIn (.library []) .write a 64 =
      ({ d with tick := t } : Dev).problemIn (.library []) .write a 64 := h.problemIn ..
  have hstore : (({ e with tick := t' } : Dev).store none a bs).mem.cells =
      (({ d with tick := t } : Dev).store none a bs).mem.cells := by
    rw [Dev.store_cells, Dev.store_cells]
    exact write_cells_congr hcells ..
  rw [Dev.writeDesc, Dev.writeDesc, ht, ht', hproblem]
  split
  · split
    · exact ⟨by rw [Dev.noteProblem_mem, Dev.noteProblem_mem]; exact hcells, rfl⟩
    · exact ⟨hstore, rfl⟩
  · exact ⟨hstore, rfl⟩

/-- What an effect writes, and the status that it leaves, depend on stored bytes and on what stands against an access alone. -/
theorem finishEffect_congr (x : Effect) (st : BitVec 8) :
    (e.finishEffect x st).1.mem.cells = (d.finishEffect x st).1.mem.cells ∧
      (e.finishEffect x st).2 = (d.finishEffect x st).2 := by
  have hwords := wordsLaid_cells_congr hcells x
  have hlaid : Accessed (wordsLaid d x) (wordsLaid e x) :=
    (accessed_wordsLaid d x).symm.trans (h.trans (accessed_wordsLaid e x))
  rw [finishEffect_eq, finishEffect_eq, h.tickNumber]
  cases x.dest with
  | none => exact ⟨hwords, rfl⟩
  | some y => exact writeDesc_cells_congr hlaid hwords ..

end

/-! ### The 16 cores of a cluster return, one after the other -/

/-- Cores 0 to m - 1 of cluster `c` have returned, with header words `hdr` from what stood there. -/
structure ReturnedTo (d e : Dev) (g : GangCall) (st : BitVec 8) (c : Nat) (k : Nat → CoreCall) (m : Nat) : Prop where
  clock : e.clock = d.clock
  clusters : e.clusters = d.clusters
  cores : ∀ i, m ≤ i → e.core (16 * c + i) = d.core (16 * c + i)
  returned : ∀ i, i < m → ∃ draw, e.core (16 * c + i) =
    headerEvent (returnedCore (d.core (16 * c + i)) (max (d.clock - g.issuedAt) g.stated) draw)
      (d.rdLe (coreAddr (16 * c + i) (k i).args) 8)
  reads : ∀ a n, (∀ i, i < m → coreAddr (16 * c + i) (k i).args + 8 ≤ a ∨ a + n ≤ coreAddr (16 * c + i) (k i).args) →
    e.mem.read a n = d.mem.read a n
  kept : ∀ a, (∀ i, i < m → ¬(coreAddr (16 * c + i) (k i).args ≤ a ∧ a < coreAddr (16 * c + i) (k i).args + 8)) →
    e.mem.byte a = d.mem.byte a
  headers : ∀ i, i < m → ∀ b, b < 8 → e.mem.byte (coreAddr (16 * c + i) (k i).args + b) =
    (headerOf g st (max (d.clock - g.issuedAt) g.stated) (d.rdLe (coreAddr (16 * c + i) (k i).args) 8)).getD b 0

theorem headerOf_length (g : GangCall) (st : BitVec 8) (cycles old : Nat) : (headerOf g st cycles old).length = 8 :=
  leBytes_length 8 _

/-- The header words of two cores lie apart. -/
theorem header_apart {i j x y : Nat} (h : i < j) (hx : x ≤ 0xFFC0) (c : Nat) :
    coreAddr (16 * c + i) x + 8 ≤ coreAddr (16 * c + j) y := by
  unfold coreAddr
  omega

section
variable {d : Dev} (g : GangCall) (st : BitVec 8) {c : Nat} {k : Nat → CoreCall}
  (hcall : ∀ i, i < 16 → (d.core (16 * c + i)).call = some (k i))
  (hrun : ∀ i, i < 16 → (d.core (16 * c + i)).exe.run = .running) (hargs : ∀ i, i < 16 → (k i).args ≤ 0xFFC0)
  (hexe : ∀ i, i < 16 → goesOn (d.core (16 * c + i)) .execute)
  (hacc : ∀ i, i < 16 → (d.core (16 * c + i)).atYield = true → goesOn (d.core (16 * c + i)) .access)
  (hroom : ∀ i, i < 16 → (d.rdLe (coreAddr (16 * c + i) (k i).args) 8).testBit 8 = true →
    eventCount (d.core (16 * c + i)) (bitsAt (d.rdLe (coreAddr (16 * c + i) (k i).args) 8) 9 4) < 15)
include hcall hrun hargs hexe hacc hroom

theorem returnedTo (m : Nat) (hm : m ≤ 16) :
    ReturnedTo d ((List.range m).foldl (fun d i => d.returnCore g st (16 * c + i)) d) g st c k m := by
  induction m with
  | zero => exact ⟨rfl, rfl, fun _ _ => rfl, nofun, fun _ _ _ => rfl, fun _ _ => rfl, nofun⟩
  | succ m ih =>
    have h := ih (by omega)
    rw [List.range_succ, List.foldl_append, List.foldl_cons, List.foldl_nil]
    set e := (List.range m).foldl (fun d i => d.returnCore g st (16 * c + i)) d with he
    have hcore := h.cores m (Nat.le_refl m)
    have hread : e.rdLe (coreAddr (16 * c + m) (k m).args) 8 = d.rdLe (coreAddr (16 * c + m) (k m).args) 8 :=
      congrArg leNat (h.reads _ _ fun i hi => .inl (header_apart hi (hargs i (by omega)) c))
    have hstep := returnCore_eq (d := e) (n := 16 * c + m) (k := k m) g st (hcore ▸ hcall m (by omega))
      (hcore ▸ hrun m (by omega)) (hcore ▸ hexe m (by omega)) (hcore ▸ hacc m (by omega))
      (by rw [hread, hcore]; exact hroom m (by omega))
    rw [hread, hcore, h.clock] at hstep
    rw [hstep]
    have hlength := headerOf_length g st (max (d.clock - g.issuedAt) g.stated)
      (d.rdLe (coreAddr (16 * c + m) (k m).args) 8)
    exact
      { clock := h.clock
        clusters := h.clusters
        cores := fun i hi => by
          rw [Dev.core_setCore, if_neg (by omega)]
          exact h.cores i (by omega)
        returned := fun i hi => by
          rw [Dev.core_setCore]
          by_cases hi' : i = m
          · subst hi'
            exact ⟨e.draw, if_pos rfl⟩
          · obtain ⟨draw, hdraw⟩ := h.returned i (by omega)
            exact ⟨draw, (if_neg (by omega)).trans hdraw⟩
        reads := fun a n ha => by
          refine (read_write_apart e.mem _ _ ?_).trans (h.reads a n fun i hi => ha i (by omega))
          rw [hlength]
          exact ha m (by omega)
        kept := fun a ha => by
          refine (Memory.byte_write e.mem _ _ a).trans ((if_neg ?_).trans (h.kept a fun i hi => ha i (by omega)))
          rw [hlength]
          exact ha m (by omega)
        headers := fun i hi b hb => by
          refine (Memory.byte_write e.mem _ _ _).trans ?_
          rw [hlength]
          by_cases hi' : i = m
          · subst hi'
            rw [if_pos (by omega), Nat.add_sub_cancel_left]
          · have hapart := header_apart (y := (k m).args) (show i < m by omega) (hargs i (by omega)) c
            rw [if_neg (by omega)]
            exact h.headers i (by omega) b hb }

end

/-! ### The header word, byte by byte (09 R289) -/

section
variable (g : GangCall) (st : BitVec 8) (cycles old : Nat)

theorem headerOf_eq : headerOf g st cycles old = mkRecord 8 [(0, 8, st.toNat), (8, 8, bitsAt old 8 5),
    (16, 16, if g.routine = 0x041 then g.progress.toNat else 0), (32, 32, min cycles 0xFFFFFFFF)] := by
  have hfive : bitsAt old 8 5 % 2 ^ 5 = bitsAt old 8 5 % 2 ^ 8 := by
    unfold bitsAt
    omega
  rw [headerOf, mkRecord, mkRecord]
  simp only [List.foldl_cons, hfive]

theorem headerOf_fit : FieldsFit 0 [(0, 8, st.toNat), (8, 8, bitsAt old 8 5),
    (16, 16, if g.routine = 0x041 then g.progress.toNat else 0), (32, 32, min cycles 0xFFFFFFFF)] := by
  simp [FieldsFit]

theorem headerOf_status : (headerOf g st cycles old).getD 0 0 = st := by
  rw [headerOf_eq, mkRecord_byte (by decide) (headerOf_fit g st cycles old) List.mem_cons_self (by decide) (by decide)]
  simp

theorem headerOf_event : (headerOf g st cycles old).getD 1 0 = .ofNat 8 (old / 2 ^ 8 % 32) := by
  rw [headerOf_eq, mkRecord_byte (by decide) (headerOf_fit g st cycles old) (at_ := 8) (w := 8) (v := bitsAt old 8 5)
    (by simp) (by decide) (by decide), bitsAt, Nat.shiftRight_eq_div_pow]
  simp

theorem headerOf_progress {b : Nat} (hb : b < 2) : (headerOf g st cycles old).getD (2 + b) 0 =
    .ofNat 8 ((if g.routine = 0x041 then g.progress.toNat else 0) / 2 ^ (8 * b)) := by
  rw [headerOf_eq, mkRecord_byte (by omega) (headerOf_fit g st cycles old) (at_ := 16) (w := 16)
    (v := if g.routine = 0x041 then g.progress.toNat else 0) (by simp) (by omega) (by omega)]
  congr 3
  omega

theorem headerOf_cycles {b : Nat} (hb : b < 4) :
    (headerOf g st cycles old).getD (4 + b) 0 = .ofNat 8 (min cycles 0xFFFFFFFF / 256 ^ b) := by
  rw [headerOf_eq, mkRecord_byte (by omega) (headerOf_fit g st cycles old) (at_ := 32) (w := 32)
    (v := min cycles 0xFFFFFFFF) (by simp) (by omega) (by omega), show 8 * (4 + b) - 32 = 8 * b by omega, pow_mul]
  rfl

end

/-! ### What a returned core counts -/

/-- Counting an event changes nothing else of a returned core. -/
theorem headerEvent_frame (c : Core) (old : Nat) : headerEvent c old = { c with events := (headerEvent c old).events } := by
  rw [headerEvent]
  split <;> rfl

theorem eventCount_headerEvent {c : Core} (cycles draw : Nat) {old : Nat}
    (hroom : old.testBit 8 = true → eventCount c (bitsAt old 9 4) < 15) (e : Nat) :
    eventCount (headerEvent (returnedCore c cycles draw) old) e =
      eventCount c e + if old.testBit 8 = true ∧ e = old / 2 ^ 9 % 16 then 1 else 0 := by
  have hevent : bitsAt old 9 4 = old / 2 ^ 9 % 16 :=
    congrArg (· % 16) (Nat.shiftRight_eq_div_pow old 9)
  have hcount (e : Nat) : eventCount (returnedCore c cycles draw) e = eventCount c e := rfl
  rw [headerEvent]
  by_cases hbit : old.testBit 8 = true
  · rw [if_pos hbit, eventCount_setEvent, hcount, hevent]
    have hlt := hroom hbit
    rw [hevent] at hlt
    simp only [hbit, true_and]
    split
    case isTrue he =>
      subst he
      rw [BitVec.toNat_add]
      exact Nat.mod_eq_of_lt (Nat.succ_lt_succ hlt)
    case isFalse => rfl
  · rw [if_neg hbit, if_neg (fun h => hbit h.1), hcount, Nat.add_zero]

/-! ### The end of the call -/

/-- A device whose stored bytes are those of `f`, and which is `d` in its cores, its clusters, its clock and its blocks in
reset. -/
structure EndedAs (d f e : Dev) : Prop where
  cells : e.mem.cells = f.mem.cells
  core : ∀ n, e.core n = d.core n
  clusters : e.clusters = d.clusters
  clock : e.clock = d.clock
  holds : ∀ b, e.faults.holds b = d.faults.holds b

theorem Accessed.endedAs {d e f : Dev} {t : Tick} (h : Accessed { d with tick := t } e)
    (hcells : e.mem.cells = f.mem.cells) : EndedAs d f e :=
  ⟨hcells, h.core, h.clusters, h.clock, h.holds⟩

theorem logShareIn_of_not_logging {d : Dev} (h : d.logState ≠ 1) (a : Nat) :
    d.logShareIn a = { d with draw := d.draw + 1 } := if_pos h

/-- A call's busy reads are counted, and nothing else. -/
structure BusyCounted (d e : Dev) : Prop where
  accessed : Accessed d e
  mem : e.mem = d.mem
  regs : ∀ i m, m < 256 → m ≠ 0x0E → e.reg i m = d.reg i m

theorem busyCounted_callBusy (d : Dev) (g : GangCall) : BusyCounted d (d.callBusy g) := by
  unfold Dev.callBusy
  split
  · exact ⟨.refl d, rfl, fun _ _ _ _ => rfl⟩
  · refine foldl_rel (R := BusyCounted) (fun d => ⟨.refl d, rfl, fun _ _ _ _ => rfl⟩)
      (fun _ _ _ h h' => ⟨h.1.trans h'.1, h'.2.trans h.2, fun i m hm hne => (h'.3 i m hm hne).trans (h.3 i m hm hne)⟩)
      (fun d c _ => ?_) d
    refine ⟨(accessed_withDraw d _).trans (accessed_bump _ _ (by unfold accessEntry; omega)), rfl, fun i m hm hne => ?_⟩
    exact (Dev.reg_setReg _ _ _ _ _ _ (by decide) hm).trans (if_neg fun h => hne h.2)

theorem BusyCounted.deliveryProblem {d e : Dev} (h : BusyCounted d e) (who : Requester) (held : List (Nat × Nat)) :
    e.deliveryProblem who held = d.deliveryProblem who held :=
  findSome?_congr fun b _ => congrArg (Option.filter _) (bankProblem_congr (h.accessed.cluster _)
    (h.regs _ _ (by decide) (by decide)) (h.regs _ _ (by decide) (by decide)) ..)

section
variable {d : Dev} {c : Nat} {g : GangCall} (hclusters : g.clusters = [c]) (hjoined : g.joined = [])
include hclusters hjoined

theorem everywhere_of_alone : g.everywhere = [c] := by
  rw [GangCall.everywhere, hclusters, hjoined]
  simp [List.eraseDups_cons]

theorem endCallAs_of_delivered (hcall : (d.cluster c).call = some g) (hfree : d.deliveryProblem (.limb [c]) g.held = none)
    (hlog : g.routine = 0x061 → d.logState ≠ 1) (st : BitVec 8) :
    EndedAs d (d.finishEffect g.effect st).1 (d.endCallAs c g st).1 ∧
      (d.endCallAs c g st).2 = (d.finishEffect g.effect st).2 := by
  obtain ⟨t, ht⟩ := accessed_finishEffect d g.effect st
  have hheld : (g.everywhere.flatMap fun k => ((d.cluster k).call.map (·.held)).getD []) = g.held := by
    simp [everywhere_of_alone hclusters hjoined, hcall]
  have hlogState : (d.finishEffect g.effect st).1.logState = d.logState := by
    rw [Dev.logState, ht.regs _ _ (by decide) (by unfold accessEntry; omega),
      ht.regs _ _ (by decide) (by unfold accessEntry; omega)]
    rfl
  rw [Dev.endCallAs]
  dsimp only
  rw [hheld, hclusters, hfree]
  dsimp only
  split
  case h_1 a _ hroutine hdest =>
    rw [logShareIn_of_not_logging (by rw [hlogState]; exact hlog hroutine)]
    exact ⟨(ht.trans (accessed_withDraw _ _)).endedAs rfl, rfl⟩
  case h_2 => exact ⟨ht.endedAs rfl, rfl⟩

theorem endCall_of_delivered (hcall : (d.cluster c).call = some g) (hfree : d.deliveryProblem (.limb [c]) g.held = none)
    (hlog : g.routine = 0x061 → d.logState ≠ 1) (st : BitVec 8) :
    EndedAs d (d.finishEffect g.effect st).1 (d.endCall c g st).1 ∧
      (d.endCall c g st).2 = (d.finishEffect g.effect st).2 := by
  have hbusy := busyCounted_callBusy d g
  obtain ⟨hended, hstatus⟩ := endCallAs_of_delivered (d := d.callBusy g) hclusters hjoined
    (by rw [hbusy.accessed.cluster]; exact hcall) (by rw [hbusy.deliveryProblem]; exact hfree)
    (by rw [Dev.logState, hbusy.regs _ _ (by decide) (by decide), hbusy.regs _ _ (by decide) (by decide)]; exact hlog) st
  obtain ⟨hcells, hst⟩ := finishEffect_congr hbusy.accessed (by rw [hbusy.mem]) g.effect st
  exact ⟨⟨hended.cells.trans hcells, fun n => (hended.core n).trans (hbusy.accessed.core n),
    hended.clusters.trans hbusy.accessed.clusters, hended.clock.trans hbusy.accessed.clock,
    fun b => (hended.holds b).trans (hbusy.accessed.holds b)⟩, hstatus.trans hst⟩

/-- An extension that ran past its stated cost is counted (09 R302). -/
def lateCounted (d : Dev) (late : Bool) : Dev := if late then d.bump 0xA300 5 1 else d

omit hclusters hjoined in
theorem EndedAs.lateCounted {f e : Dev} (h : EndedAs d f e) (late : Bool) : EndedAs d f (lateCounted e late) := by
  cases late with
  | true => exact ⟨h.cells, h.core, h.clusters, h.clock, h.holds⟩
  | false => exact h

/-- The device of a cluster's call that ends, its writes in memory, and the status that this leaves. -/
theorem returnCall_of_served {st : BitVec 8} {w : Bool} (hcall : (d.cluster c).call = some g) (hphase : g.phase = .ended st w)
    (hserved : d.streamServed g = true) (hholds : d.faults.holds (.cluster c) = false)
    (hends : w = true → d.deliveryProblem (.limb [c]) g.held = none ∧ (g.routine = 0x061 → d.logState ≠ 1)) :
    ∃ x, EndedAs d (if w then d.finishEffect g.effect st else (d, st)).1 x ∧ d.returnCall c =
      ((List.range 16).foldl (fun e i => e.returnCore g (if w then d.finishEffect g.effect st else (d, st)).2 (16 * c + i))
        x).modCluster c fun y => { y with call := none } := by
  obtain ⟨x, hx, hrun, hstatus⟩ : ∃ x : Dev × BitVec 8, EndedAs d (if w then d.finishEffect g.effect st else (d, st)).1 x.1 ∧
      x = (if w then d.endCall c g st else (d, st)) ∧ x.2 = (if w then d.finishEffect g.effect st else (d, st)).2 := by
    cases w with
    | true =>
      obtain ⟨hfree, hlog⟩ := hends rfl
      obtain ⟨hended, hst⟩ := endCall_of_delivered hclusters hjoined hcall hfree hlog st
      exact ⟨_, hended, rfl, hst⟩
    | false => exact ⟨_, ⟨rfl, fun _ => rfl, rfl, rfl, fun _ => rfl⟩, rfl, rfl⟩
  have hlead : g.clusters.foldl min c = c := by rw [hclusters]; exact Nat.min_self c
  have hgang : (c :: g.everywhere).eraseDups = [c] := by
    rw [everywhere_of_alone hclusters hjoined]
    simp [List.eraseDups_cons]
  have hlate := fun b => hx.lateCounted b
  refine ⟨_, hlate (x.1.clock - g.issuedAt > g.stated && 0x200 ≤ g.routine && w && x.2 ≠ stAborted), ?_⟩
  rw [Dev.returnCall, hcall]
  dsimp only
  rw [hphase]
  dsimp only
  rw [if_neg (by rw [hserved]; decide), hlead, hcall, Option.getD_some, ← hrun, hgang, ← hstatus]
  have hfilter (late : Bool) : ([c].filter fun k => !(lateCounted x.1 late).faults.holds (.cluster k)) = [c] := by
    rw [List.filter_singleton, (hlate late).holds, hholds]
    rfl
  unfold lateCounted at hfilter ⊢
  rw [hfilter]
  simp only [List.foldl_cons, List.foldl_nil]

end

theorem read_congr {m k : Memory} (h : m.cells = k.cells) (a n : Nat) : m.read a n = k.read a n := by
  rw [Memory.read, h, Memory.read]

/-- Settles O26: the call's writes, then the 16 cores one after the other. -/
theorem callReturns : Obligations.CallReturns := by
  intro s c g st w k hcall hphase hclusters hjoined hserved hholds hends hcores e hdr old progress hroom
  obtain ⟨x, hx, hreturn⟩ := returnCall_of_served hclusters hjoined hcall hphase hserved hholds hends
  have hold (i : Nat) : x.rdLe (coreAddr (16 * c + i) (k i).args) 8 = old i := congrArg leNat (read_congr hx.cells _ _)
  have hevent (i : Nat) : bitsAt (old i) 9 4 = old i / 2 ^ 9 % 16 := congrArg (· % 16) (Nat.shiftRight_eq_div_pow _ 9)
  have hroom' (i : Nat) (hi : i < 16) (hbit : (old i).testBit 8 = true) :
      eventCount (s.dev.core (16 * c + i)) (bitsAt (old i) 9 4) < 15 := by
    rw [hevent]
    exact hroom i hi hbit
  have hto := returnedTo (d := x) (c := c) (k := k) g e.2 (fun i hi => (hx.core _).symm ▸ (hcores i hi).1)
    (fun i hi => (hx.core _).symm ▸ (hcores i hi).2.1) (fun i hi => (hcores i hi).2.2.2.1)
    (fun i hi => (hx.core _).symm ▸ (hcores i hi).2.2.2.2.1) (fun i hi => (hx.core _).symm ▸ (hcores i hi).2.2.2.2.2)
    (fun i hi => by rw [hold, hx.core]; exact hroom' i hi) 16 (Nat.le_refl 16)
  obtain ⟨y, hy⟩ : ∃ y, y = (List.range 16).foldl (fun d i => d.returnCore g e.2 (16 * c + i)) x := ⟨_, rfl⟩
  rw [← hy] at hto hreturn
  refine ⟨s.withDev (y.modCluster c fun y => { y with call := none }),
    congrArg (fun d => Host.Outcome.next (s.withDev d)) hreturn, ?_, fun i hi => ?_, fun a ha => ?_⟩
  · rw [State.withDev, Dev.cluster_modCluster_same]
  · obtain ⟨draw, hcore⟩ := hto.returned i hi
    rw [hold, hx.core, hx.clock] at hcore
    have hheader := hto.headers i hi
    rw [hold, hx.clock] at hheader
    have hevents := eventCount_headerEvent (c := s.dev.core (16 * c + i)) (max (s.dev.clock - g.issuedAt) g.stated) draw
      (hroom' i hi)
    rw [← hcore] at hevents
    rw [headerEvent_frame] at hcore
    have hkept : (s.withDev (y.modCluster c fun y => { y with call := none })).dev.core (16 * c + i) =
        y.core (16 * c + i) := rfl
    rw [hkept]
    refine ⟨by rw [hcore]; rfl, by rw [hcore]; rfl, by rw [hcore]; rfl, by rw [hcore]; rfl, by rw [hcore]; rfl, hevents,
      ?_, ?_, ?_, ?_, fun b hb => ?_⟩
    · exact (hheader 0 (by decide)).trans (headerOf_status ..)
    · exact (hheader 1 (by decide)).trans (headerOf_event ..)
    · exact (hheader 2 (by decide)).trans ((headerOf_progress g e.2 _ _ (b := 0) (by decide)).trans (by simp [progress]))
    · exact (hheader 3 (by decide)).trans ((headerOf_progress g e.2 _ _ (b := 1) (by decide)).trans (by simp [progress]))
    · exact (congrArg y.mem.byte (Nat.add_assoc ..)).trans ((hheader (4 + b) (by omega)).trans (headerOf_cycles g e.2 _ _ hb))
  · exact (hto.kept a ha).trans (Memory.byte_congr hx.cells a)

end Sys2Proof.Proofs
end

section
/-! SUPPORT. The words of the linear routines (09 R292). -/

namespace Sys2Proof.Proofs

open Sys2Proof.Machine Sys2Proof.Terms

/-! ### Limbs and their words -/

/-- A polynomial of `l` limbs of 2^n words. -/
def LimbsShaped (p : List (List Nat)) (l n : Nat) : Prop := p.length = l ∧ ∀ m ∈ p, m.length = 2 ^ n

/-- Word `j` of limb `i` of a polynomial. -/
def limbWord (p : List (List Nat)) (i j : Nat) : Nat := (p.getD i []).getD j 0

section
variable {a b : List (List Nat)} {l n : Nat} (ha : LimbsShaped a l n)
include ha

theorem LimbsShaped.length_getD {i : Nat} (hi : i < l) : (a.getD i []).length = 2 ^ n := by
  have hlt : i < a.length := ha.1.symm ▸ hi
  rw [List.getD_eq_getElem _ _ hlt]
  exact ha.2 _ (List.getElem_mem hlt)

/-- A limb-wise function of the words of one polynomial. -/
theorem limbWord_map (g : Nat → Nat → Nat) {i j : Nat} (hi : i < l) (hj : j < 2 ^ n) :
    limbWord (a.zipIdx.map fun x => x.1.map (g x.2)) i j = g i (limbWord a i j) := by
  have hlt : i < a.length := ha.1.symm ▸ hi
  have hword : j < a[i].length := (ha.2 _ (List.getElem_mem hlt)).symm ▸ hj
  simp [limbWord, hlt, hword]

variable (hb : LimbsShaped b l n)
include hb

theorem limbsShaped_zipLimbs (g : Nat → Nat → Nat → Nat) :
    LimbsShaped (zipLimbs (fun i => List.zipWith (g i)) a b) l n := by
  refine ⟨by simp [zipLimbs, ha.1, hb.1], fun m hm => ?_⟩
  obtain ⟨x, hx, rfl⟩ := List.mem_map.mp hm
  obtain ⟨hleft, hright⟩ := List.of_mem_zip (List.fst_mem_of_mem_zipIdx hx)
  simp [ha.2 _ hleft, hb.2 _ hright]

/-- A limb-wise function of the words of two polynomials. -/
theorem limbWord_zipLimbs (g : Nat → Nat → Nat → Nat) {i j : Nat} (hi : i < l) (hj : j < 2 ^ n) :
    limbWord (zipLimbs (fun i => List.zipWith (g i)) a b) i j = g i (limbWord a i j) (limbWord b i j) := by
  have hla : i < a.length := ha.1.symm ▸ hi
  have hlb : i < b.length := hb.1.symm ▸ hi
  have hwa : j < a[i].length := (ha.2 _ (List.getElem_mem hla)).symm ▸ hj
  have hwb : j < b[i].length := (hb.2 _ (List.getElem_mem hlb)).symm ▸ hj
  simp [limbWord, zipLimbs, hla, hlb, hwa, hwb]

end

theorem wordsShaped_two {x : Polys} {l n : Nat} (h : wordsShaped x 2 l n) :
    ∃ x0 x1, x = [x0, x1] ∧ LimbsShaped x0 l n ∧ LimbsShaped x1 l n := by
  obtain ⟨hlen, hall⟩ := h
  obtain ⟨x0, x1, rfl⟩ := List.length_eq_two.mp hlen
  exact ⟨x0, x1, rfl, hall x0 (by simp), hall x1 (by simp)⟩

theorem wordsShaped_one {x : Polys} {l n : Nat} (h : wordsShaped x 1 l n) : ∃ x0, x = [x0] ∧ LimbsShaped x0 l n := by
  obtain ⟨hlen, hall⟩ := h
  obtain ⟨x0, rfl⟩ := List.length_eq_one_iff.mp hlen
  exact ⟨x0, rfl, hall x0 (by simp)⟩

/-! ### The routines, polynomial by polynomial -/

section
variable {v : PSetVals} {a b c : List (List Nat)} {l n i j : Nat} (ha : LimbsShaped a l n) (hi : i < l) (hj : j < 2 ^ n)
include ha

theorem limbsShaped_map (g : Nat → Nat → Nat) : LimbsShaped (a.zipIdx.map fun x => x.1.map (g x.2)) l n := by
  refine ⟨by simp [ha.1], fun m hm => ?_⟩
  obtain ⟨x, hx, rfl⟩ := List.mem_map.mp hm
  rw [List.length_map, ha.2 _ (List.fst_mem_of_mem_zipIdx hx)]

section
include hi hj

theorem limbWord_neg : limbWord (a.zipIdx.map fun x => limbNeg (v.q x.2) x.1) i j = resNeg (v.q i) (limbWord a i j) :=
  limbWord_map ha (fun i => resNeg (v.q i)) hi hj

theorem limbWord_canon : limbWord (a.zipIdx.map fun x => x.1.map (· % v.q x.2)) i j = limbWord a i j % v.q i :=
  limbWord_map ha (fun i x => x % v.q i) hi hj

variable (hb : LimbsShaped b l n)
include hb

theorem limbWord_add : limbWord (zipLimbs (fun i => limbAdd (v.q i)) a b) i j =
    (limbWord a i j + limbWord b i j) % v.q i :=
  limbWord_zipLimbs ha hb (fun i => resAdd (v.q i)) hi hj

theorem limbWord_mul : limbWord (mulPoly v a b) i j = limbWord a i j * limbWord b i j % v.q i :=
  limbWord_zipLimbs ha hb (fun i => resMul (v.q i)) hi hj

/-- a − b, word by word. -/
theorem limbWord_sub (hq : 0 < v.q i) :
    (limbWord (zipLimbs (fun i => limbAdd (v.q i)) a (b.zipIdx.map fun x => limbNeg (v.q x.2) x.1)) i j : Int) =
      ((limbWord a i j : Int) - limbWord b i j) % v.q i := by
  have hneg : LimbsShaped (b.zipIdx.map fun x => limbNeg (v.q x.2) x.1) l n := limbsShaped_map hb fun i => resNeg (v.q i)
  rw [limbWord_add ha hi hj hneg, limbWord_neg hb hi hj, resNeg_eq hq]
  have hq : (v.q i : Int) ≠ 0 := by exact_mod_cast hq.ne'
  rw [Int.natCast_mod, Nat.cast_add, Int.toNat_of_nonneg (Int.emod_nonneg _ hq), Int.add_emod_emod, Int.sub_eq_add_neg]

end

theorem limbsShaped_mul (hb : LimbsShaped b l n) : LimbsShaped (mulPoly v a b) l n :=
  limbsShaped_zipLimbs ha hb fun i => resMul (v.q i)

end

/-- Settles O30: two polynomials, each limb by limb. -/
theorem linearRoutineWords : Obligations.LinearRoutineWords := by
  intro d dest a b c x y z l n i j hx hy hz hi hj q hq
  obtain ⟨x0, x1, rfl, hx0, hx1⟩ := wordsShaped_two hx
  obtain ⟨y0, y1, rfl, hy0, hy1⟩ := wordsShaped_two hy
  obtain ⟨z0, rfl, hz0⟩ := wordsShaped_one hz
  have hneg (w : List (List Nat)) (hw : LimbsShaped w l n) :
      ((resNeg q (limbWord w i j) : Nat) : Int) = (-(limbWord w i j : Int)) % q := by
    rw [resNeg_eq hq, Int.toNat_of_nonneg (Int.emod_nonneg _ (by exact_mod_cast hq.ne'))]
  refine ⟨fun p hp => ?_, limbWord_mul hx0 hi hj hy0, ?_, limbWord_mul hx1 hi hj hy1⟩
  · obtain rfl | rfl : p = 0 ∨ p = 1 := by omega
    · refine ⟨limbWord_add hx0 hi hj hy0, limbWord_sub hx0 hi hj hy0 hq,
        (congrArg Nat.cast (limbWord_neg hx0 hi hj)).trans (hneg x0 hx0), limbWord_add hx0 hi hj hz0,
        limbWord_mul hx0 hi hj hz0, (limbWord_add hx0 hi hj (limbsShaped_mul hy0 hz0)).trans ?_⟩
      rw [limbWord_mul hy0 hi hj hz0, Nat.add_mod_mod]
      rfl
    · refine ⟨limbWord_add hx1 hi hj hy1, limbWord_sub hx1 hi hj hy1 hq,
        (congrArg Nat.cast (limbWord_neg hx1 hi hj)).trans (hneg x1 hx1), limbWord_canon hx1 hi hj,
        limbWord_mul hx1 hi hj hz0, (limbWord_add hx1 hi hj (limbsShaped_mul hy1 hz0)).trans ?_⟩
      rw [limbWord_mul hy1 hi hj hz0, Nat.add_mod_mod]
      rfl
  · refine (limbWord_add (limbsShaped_mul hx0 hy1) hi hj (limbsShaped_mul hx1 hy0)).trans ?_
    rw [limbWord_mul hx0 hi hj hy1, limbWord_mul hx1 hi hj hy0, Nat.mod_add_mod, Nat.add_mod_mod]
    rfl

end Sys2Proof.Proofs
end

section
/-! SUPPORT. How a core leaves its frame: program faults, deadlock, exit and its record, and the end of a handover (08
R247-R249, R284, R285; 10 R324). -/

namespace Sys2Proof.Proofs

open Sys2Proof.Machine Sys2Proof.Terms

/-! ### Faults raised -/

/-- A fault of a block that is not in reset is raised. -/
theorem raised_raise {d : Dev} {f : RaisedFault} {b : Block} (hblock : f.block = some b) (hholds : d.faults.holds b = false) :
    (d.raise f).faults.raised = d.faults.raised ++ [{ f with raisedAt := d.clock }] := by
  rw [Dev.raise, hblock]
  dsimp only
  rw [hholds]
  rfl

theorem regs_raise (d : Dev) (f : RaisedFault) : (d.raise f).regs = d.regs := by
  unfold Dev.raise
  cases f.block with
  | none => rfl
  | some b =>
    dsimp only
    split <;> rfl

/-! ### A stopped core -/

/-- The core of a program fault or a deadlock: its programs stop and its queues are discarded. -/
def stoppedCore (c : Core) (why : CoreStop) : Core :=
  { c.discard with tin := c.tin.halt, acc := c.acc.halt, exe := c.exe.halt, stop := some why, atYield := false,
                   call := c.call.filter (·.started) }

theorem stopCore_eq (d : Dev) (n : Nat) (why : CoreStop) :
    ∃ t, d.stopCore n why = { d.setCore n (stoppedCore (d.core n) why) with tick := t } := ⟨_, rfl⟩

theorem abortCoreCall_of_none {d : Dev} {n : Nat} (h : (d.core n).call = none) : d.abortCoreCall n = d := by
  rw [Dev.abortCoreCall, h]
  rfl

theorem run_halt (p : ProgState) : p.halt.run = if p.run = .retired then .retired else .stopped := rfl

theorem prog_stoppedCore (c : Core) (why : CoreStop) (p : Program) : (stoppedCore c why).prog p = (c.prog p).halt := by
  cases p <;> rfl

theorem bytes_stoppedCore (c : Core) (why : CoreStop) (q : Nat) : ((stoppedCore c why).queue q).bytes = [] := rfl

/-- A device whose core has stopped, with the stop counted and its fault raised: what both stops have in common. -/
structure StoppedBy (d e : Dev) (n : Nat) (why : CoreStop) (k : Nat) (f : RaisedFault) : Prop where
  core : e.core n = stoppedCore (d.core n) why
  other : ∀ m, m ≠ n → e.core m = d.core m
  mem : e.mem = d.mem
  counts : e.reg 0x3001 k = min (d.reg 0x3001 k + 1) (2 ^ dictWidth 0x3001 k - 1)
  raised : ∀ b, f.block = some b → d.faults.holds b = false →
    e.faults.raised = d.faults.raised ++ [{ f with raisedAt := d.clock }]

theorem stoppedBy (d : Dev) (n : Nat) (why : CoreStop) {k : Nat} (hk : k < 256) (f : RaisedFault) :
    StoppedBy d (((d.stopCore n why).bump 0x3001 k 1).raise f) n why k f := by
  obtain ⟨t, ht⟩ := stopCore_eq d n why
  rw [ht]
  have hraise := accessed_raise (({ d.setCore n (stoppedCore (d.core n) why) with tick := t } : Dev).bump 0x3001 k 1) f
  refine ⟨(hraise.core n).trans (Dev.core_setCore_same ..), fun m hm => ?_, Dev.raise_mem .., ?_, fun b hb hholds => ?_⟩
  · exact (hraise.core m).trans ((Dev.core_setCore ..).trans (if_neg hm))
  · rw [reg_congr (regs_raise ..), reg_bump _ _ hk hk, if_pos ⟨rfl, rfl⟩]
    rfl
  · exact raised_raise hb hholds

/-- Settles O31: a core in no call stops, and one fault is raised. -/
theorem programFaultStopsCore : Obligations.ProgramFaultStopsCore := by
  intro d n p reason pc hstop hcall e
  have hfault : e = d.programFault n p reason pc := rfl
  rw [Dev.programFault, if_neg (not_not.mpr hstop), abortCoreCall_of_none hcall] at hfault
  have h := stoppedBy d n { state := 2, reason := reason, stream := streamCode p, pc := pc } (k := 2) (by decide)
    { source := BitVec.ofNat 8 0x02, cls := 1, unit := BitVec.ofNat 16 n,
      addr := BitVec.ofNat 48 (coreAddr n (0x10000 + (if (d.core n).half then 0x4000 else 0) + pc % 0x4000)),
      reason := reason, status := 0, detail := BitVec.ofNat 64 (streamCode p).toNat, block := sourceBlock 0x02 n,
      forced := false }
  change StoppedBy d (Dev.faultUc _ 0x02 n _ reason 0 _) n _ 2 _ at h
  rw [← hfault] at h
  refine ⟨by rw [h.core]; rfl, fun r => by rw [h.core, prog_stoppedCore, run_halt], fun q _ => by
    rw [h.core, bytes_stoppedCore], by rw [h.core]; rfl, by rw [h.core]; rfl, h.other, h.mem, h.counts,
    fun hholds hn => ⟨_, h.raised _ rfl (by rwa [Nat.mod_eq_of_lt hn] at hholds), rfl, rfl, ?_, rfl⟩⟩
  exact (BitVec.toNat_ofNat ..).trans (Nat.mod_eq_of_lt hn)

/-- Settles O33: every running program is blocked, so the core stops. -/
theorem deadlockStopsCore : Obligations.DeadlockStopsCore := by
  intro s n hn hframe hstop hcall ⟨r, hrun⟩ hblocked hholds
  have hdead : s.dev.coreDeadlock n = (((s.dev.stopCore n { state := 3, reason := 0, stream := 3, pc := 0 }).bump 0x3001 3
      1).faultUc 0x03 n 0 0 0 0) := by
    rw [Dev.coreDeadlock, if_pos, abortCoreCall_of_none hcall]
    refine ⟨hframe, hstop, List.ne_nil_of_mem (a := r) (List.mem_filter.mpr ⟨?_, decide_eq_true hrun⟩), ?_⟩
    · cases r <;> simp
    · exact List.all_eq_true.mpr fun p hp => hblocked p (of_decide_eq_true (List.mem_filter.mp hp).2)
  have h := stoppedBy s.dev n { state := 3, reason := 0, stream := 3, pc := 0 } (k := 3) (by decide)
    { source := BitVec.ofNat 8 0x03, cls := 1, unit := BitVec.ofNat 16 n, addr := BitVec.ofNat 48 0, reason := 0,
      status := 0, detail := BitVec.ofNat 64 0, block := sourceBlock 0x03 n, forced := false }
  change StoppedBy s.dev (Dev.faultUc _ 0x03 n 0 0 0 0) n _ 3 _ at h
  rw [← hdead] at h
  refine ⟨s.withDev (s.dev.coreDeadlock n), _, rfl, (congrArg Core.stop h.core), fun p => ?_, h.other, h.mem, h.counts,
    h.raised _ rfl hholds, rfl, ?_, rfl⟩
  · have hprog : ((s.dev.coreDeadlock n).core n).prog p = ((s.dev.core n).prog p).halt := by rw [h.core, prog_stoppedCore]
    have hkept : ((s.withDev (s.dev.coreDeadlock n)).dev.core n).prog p = ((s.dev.coreDeadlock n).core n).prog p := rfl
    rw [hkept, hprog, run_halt]
    split <;> decide
  · exact (BitVec.toNat_ofNat ..).trans (Nat.mod_eq_of_lt (by omega))

/-! ### The record of a core that leaves (08 R248, R249) -/

/-- The bytes left in queue `q` of a core that leaves its frame, as the record's field holds them. -/
def residueField (c : Core) (q : Nat) : Nat := min (tget c.residue q 0 + (c.queue q).bytes.length) 65535

theorem tget_foldl_add (c : Core) (l : List Nat) (hl : l.Nodup) (t : Tbl Nat) (q : Nat) :
    tget (l.foldl (fun t q => tset t q (tget t q 0 + (tget c.queues q DQueue.empty).bytes.length)) t) q 0 =
      tget t q 0 + if q ∈ l then (c.queue q).bytes.length else 0 := by
  induction l generalizing t with
  | nil => rfl
  | cons x l ih =>
    obtain ⟨hx, hl⟩ := List.nodup_cons.mp hl
    rw [List.foldl_cons, ih hl, tget_tset]
    by_cases hq : q = x
    · subst hq
      simp [hx, Core.queue]
    · simp [hq]

theorem residue_discard (c : Core) {q : Nat} (hq : q < 4) :
    tget c.discard.residue q 0 = tget c.residue q 0 + (c.queue q).bytes.length := by
  have h : tget c.discard.residue q 0 = _ := tget_foldl_add c (List.range 4) List.nodup_range c.residue q
  rw [h, if_pos (List.mem_range.mpr hq)]

theorem residueWord_eq (c : Core) : c.residueWord =
    0 + min (tget c.residue 0 0) 65535 <<< 0 + min (tget c.residue 1 0) 65535 <<< 16 +
      min (tget c.residue 2 0) 65535 <<< 32 + min (tget c.residue 3 0) 65535 <<< 48 := rfl

theorem residueWord_discard (c : Core) : c.discard.residueWord =
    residueField c 0 + residueField c 1 * 2 ^ 16 + residueField c 2 * 2 ^ 32 + residueField c 3 * 2 ^ 48 := by
  rw [residueWord_eq, residue_discard c (q := 0) (by decide), residue_discard c (q := 1) (by decide),
    residue_discard c (q := 2) (by decide), residue_discard c (q := 3) (by decide), ← residueField, ← residueField,
    ← residueField, ← residueField, Nat.shiftLeft_eq, Nat.shiftLeft_eq, Nat.shiftLeft_eq, Nat.shiftLeft_eq]
  generalize residueField c 0 = a
  generalize residueField c 1 = b
  ring

/-- The fields of a core's status record, those of a byte or more. -/
def statusFields (w : CoreStop) (c : Core) (cycle : Nat) : List (Nat × Nat × Nat) :=
  [(0, 8, w.state.toNat), (8, 8, w.reason.toNat), (16, 16, w.stream.toNat + 4 * w.pc), (64, 64, cycle),
   (128, 64, c.tick.toNat), (192, 16, residueField c 0), (208, 16, residueField c 1), (224, 16, residueField c 2),
   (240, 16, residueField c 3), (256, 64, c.busy)]

theorem statusFields_fit (w : CoreStop) (c : Core) (cycle : Nat) : FieldsFit 0 (statusFields w c cycle) := by
  simp [FieldsFit, statusFields]

theorem residueField_lt (c : Core) (q : Nat) : residueField c q < 2 ^ 16 := (Nat.min_le_right ..).trans_lt (by decide)

/-- Two fields side by side are one field. -/
theorem fieldsValue_join (lo v w x y : Nat) (r : List (Nat × Nat × Nat)) (hx : x < 2 ^ v) (hy : y < 2 ^ w) :
    fieldsValue ((lo, v, x) :: (lo + v, w, y) :: r) = fieldsValue ((lo, v + w, x + 2 ^ v * y) :: r) := by
  have hjoin : x + 2 ^ v * y < 2 ^ (v + w) := by
    calc x + 2 ^ v * y < 2 ^ v + 2 ^ v * y := Nat.add_lt_add_right hx _
      _ = 2 ^ v * (y + 1) := by ring
      _ ≤ 2 ^ v * 2 ^ w := Nat.mul_le_mul_left _ hy
      _ = 2 ^ (v + w) := (pow_add 2 v w).symm
  simp only [fieldsValue, List.map_cons, List.sum_cons, Nat.mod_eq_of_lt hx, Nat.mod_eq_of_lt hy, Nat.mod_eq_of_lt hjoin]
  ring

theorem fieldsValue_cons_congr (f : Nat × Nat × Nat) {r r' : List (Nat × Nat × Nat)} (h : fieldsValue r = fieldsValue r') :
    fieldsValue (f :: r) = fieldsValue (f :: r') := by
  rw [fieldsValue, List.map_cons, List.sum_cons, ← fieldsValue, h, fieldsValue, fieldsValue, List.map_cons, List.sum_cons]

/-- Four fields of 16 bits are one of 64. -/
theorem fieldsValue_join_four (lo a b c d : Nat) (r : List (Nat × Nat × Nat)) (ha : a < 2 ^ 16) (hb : b < 2 ^ 16)
    (hc : c < 2 ^ 16) (hd : d < 2 ^ 16) :
    fieldsValue ((lo, 16, a) :: (lo + 16, 16, b) :: (lo + 32, 16, c) :: (lo + 48, 16, d) :: r) =
      fieldsValue ((lo, 64, a + b * 2 ^ 16 + c * 2 ^ 32 + d * 2 ^ 48) :: r) := by
  rw [fieldsValue_join lo 16 16 a b _ ha hb, fieldsValue_join lo 32 16 (a + 2 ^ 16 * b) c _ (by omega) hc,
    fieldsValue_join lo 48 16 (a + 2 ^ 16 * b + 2 ^ 32 * c) d _ (by omega) hd]
  congr 4
  ring

/-- The record as `writeCoreStatus` lays it out: STREAM and PC share two bytes, QRESIDUE is four fields in one. -/
theorem statusRecord_eq {w : CoreStop} (hpc : w.pc < 2 ^ 14) (c : Core) (cycle : Nat) :
    mkRecord 64 [(0, 8, w.state.toNat), (8, 8, w.reason.toNat), (16, 2, w.stream.toNat), (18, 14, w.pc), (64, 64, cycle),
      (128, 64, c.tick.toNat), (192, 64, c.discard.residueWord), (256, 64, c.busy)] =
      mkRecord 64 (statusFields w c cycle) := by
  rw [mkRecord_eq, mkRecord_eq, residueWord_discard, statusFields]
  refine congrArg (leBytes 64) (fieldsValue_cons_congr _ (fieldsValue_cons_congr _ ?_))
  rw [fieldsValue_join 16 2 14 _ _ _ w.stream.isLt hpc]
  refine fieldsValue_cons_congr _ (fieldsValue_cons_congr _ (fieldsValue_cons_congr _ ?_))
  exact (fieldsValue_join_four 192 _ _ _ _ _ (residueField_lt c 0) (residueField_lt c 1) (residueField_lt c 2)
    (residueField_lt c 3)).symm

/-! ### The record's bytes -/

section
variable (w : CoreStop) (c : Core) (cycle : Nat)

/-- A byte of a field of the record. -/
theorem statusByte {k at_ width v : Nat} (hmem : (at_, width, v) ∈ statusFields w c cycle) (hk : k < 64) (hlow : at_ ≤ 8 * k)
    (hhigh : 8 * k + 8 ≤ at_ + width) :
    (mkRecord 64 (statusFields w c cycle)).getD k 0 = .ofNat 8 (v / 2 ^ (8 * k - at_)) :=
  mkRecord_byte hk (statusFields_fit w c cycle) hmem hlow hhigh

theorem statusByte_state : (mkRecord 64 (statusFields w c cycle)).getD 0 0 = w.state := by
  rw [statusByte w c cycle (at_ := 0) (width := 8) (v := w.state.toNat) (by simp [statusFields]) (by decide) (by decide)
    (by decide)]
  simp

theorem statusByte_reason : (mkRecord 64 (statusFields w c cycle)).getD 1 0 = w.reason := by
  rw [statusByte w c cycle (at_ := 8) (width := 8) (v := w.reason.toNat) (by simp [statusFields]) (by decide) (by decide)
    (by decide)]
  simp

theorem statusByte_stream : (mkRecord 64 (statusFields w c cycle)).getD 2 0 = .ofNat 8 (w.stream.toNat + 4 * w.pc) := by
  rw [statusByte w c cycle (at_ := 16) (width := 16) (v := w.stream.toNat + 4 * w.pc) (by simp [statusFields]) (by decide)
    (by decide) (by decide)]
  simp

theorem statusByte_pc : (mkRecord 64 (statusFields w c cycle)).getD 3 0 = .ofNat 8 (w.pc / 2 ^ 6) := by
  have hstream := w.stream.isLt
  rw [statusByte w c cycle (at_ := 16) (width := 16) (v := w.stream.toNat + 4 * w.pc) (by simp [statusFields]) (by decide)
    (by decide) (by decide)]
  congr 1
  omega

section
variable {b : Nat} (hb : b < 8)
include hb

theorem statusByte_cycle : (mkRecord 64 (statusFields w c cycle)).getD (8 + b) 0 = .ofNat 8 (cycle / 256 ^ b) := by
  rw [statusByte w c cycle (at_ := 64) (width := 64) (v := cycle) (by simp [statusFields]) (by omega) (by omega) (by omega),
    show 8 * (8 + b) - 64 = 8 * b by omega, pow_mul]
  rfl

theorem statusByte_tick : (mkRecord 64 (statusFields w c cycle)).getD (16 + b) 0 = .ofNat 8 (c.tick.toNat / 256 ^ b) := by
  rw [statusByte w c cycle (at_ := 128) (width := 64) (v := c.tick.toNat) (by simp [statusFields]) (by omega) (by omega)
    (by omega), show 8 * (16 + b) - 128 = 8 * b by omega, pow_mul]
  rfl

theorem statusByte_busy : (mkRecord 64 (statusFields w c cycle)).getD (32 + b) 0 = .ofNat 8 (c.busy / 256 ^ b) := by
  rw [statusByte w c cycle (at_ := 256) (width := 64) (v := c.busy) (by simp [statusFields]) (by omega) (by omega)
    (by omega), show 8 * (32 + b) - 256 = 8 * b by omega, pow_mul]
  rfl

end

theorem statusByte_residue {q b : Nat} (hq : q < 4) (hb : b < 2) :
    (mkRecord 64 (statusFields w c cycle)).getD (24 + (2 * q + b)) 0 = .ofNat 8 (residueField c q / 256 ^ b) := by
  have hmem : (192 + 16 * q, 16, residueField c q) ∈ statusFields w c cycle := by
    obtain rfl | rfl | rfl | rfl : q = 0 ∨ q = 1 ∨ q = 2 ∨ q = 3 := by omega
    all_goals simp [statusFields]
  rw [statusByte w c cycle hmem (by omega) (by omega) (by omega),
    show 8 * (24 + (2 * q + b)) - (192 + 16 * q) = 8 * b by omega, pow_mul]
  rfl

end

/-! ### Exit -/

theorem mem_of_tget_ne {α : Type} {t : Tbl α} {k : Nat} {dflt v : α} (h : tget t k dflt = v) (hne : v ≠ dflt) :
    (k, v) ∈ t := by
  induction t with
  | nil => exact absurd h.symm hne
  | cons p r ih =>
    obtain ⟨j, w⟩ := p
    rw [tget] at h
    split at h
    case isTrue hj =>
      subst hj h
      exact List.mem_cons_self
    case isFalse => exact List.mem_cons_of_mem _ (ih h)

/-- Another core of the cluster is still in the frame, so nothing is dropped. -/
theorem afterExit_of_other {d : Dev} {n m : Nat} (hcluster : m / 16 = n / 16) (h : (d.core m).frame = .inFrame) :
    d.afterExit n = d := by
  have hcluster : d.clusterOut (n / 16) = false := by
    refine List.all_eq_false.mpr ⟨m % 16, List.mem_range.mpr (Nat.mod_lt _ (by decide)), ?_⟩
    rw [show 16 * (n / 16) + m % 16 = m by omega, h]
    decide
  have hcores : (d.cores.all fun p => p.2.frame ≠ .inFrame) = false := by
    refine List.all_eq_false.mpr ⟨(m, d.core m), mem_of_tget_ne rfl fun hfresh => ?_, by simp [h]⟩
    rw [show d.core m = Core.fresh from hfresh] at h
    cases h
  rw [Dev.afterExit, Dev.clusterExit, hcluster, if_neg (by decide), Dev.lastExit, hcores, if_neg (by decide)]

/-- Settles O32: the core's record, and nothing else. -/
theorem coreExitWritesRecord : Obligations.CoreExitWritesRecord := by
  intro s n m w hframe hholds hdone htransfers hpaccs hm hcluster hother hw hpc
  have hisDone (p : Program) : s.dev.isDone n p = true := by
    refine decide_eq_true fun h => ?_
    obtain h' | h' := hdone p <;> rw [h'] at h <;> cases h
  have hstop : (s.dev.core n).discard.stop.getD { state := 1, reason := 0, stream := 3, pc := 0 } = w := hw.symm
  have hleave : s.dev.coreExit n = s.dev.leaveFrame n := by
    rw [Dev.coreExit, if_pos ⟨hframe, by simp [hholds], hisDone _, hisDone _, hisDone _, htransfers, hpaccs⟩]
    refine afterExit_of_other hcluster ?_
    refine (congrArg Core.frame ((Dev.core_setCore ..).trans (if_neg hm))).trans hother
  have hrecord := statusRecord_eq hpc (s.dev.core n) (s.dev.clock - (s.dev.core n).barrierAt)
  obtain ⟨e, he, hmem, hcore, hkept⟩ : ∃ e, s.dev.coreExit n = e ∧
      e.mem = s.dev.mem.write (coreAddr n 0x40) (mkRecord 64 (statusFields w (s.dev.core n)
        (s.dev.clock - (s.dev.core n).barrierAt))) ∧ (e.core n).frame = .exited ∧ ∀ k, k ≠ n → e.core k = s.dev.core k := by
    refine ⟨_, hleave, ?_, ?_, fun k hk => ?_⟩
    · rw [Dev.leaveFrame, hstop]
      exact congrArg (s.dev.mem.write _) hrecord
    · exact congrArg Core.frame (Dev.core_setCore_same ..)
    · exact (Dev.core_setCore ..).trans (if_neg hk)
  obtain ⟨bytes, hbytes⟩ : ∃ bytes, bytes = mkRecord 64 (statusFields w (s.dev.core n)
      (s.dev.clock - (s.dev.core n).barrierAt)) := ⟨_, rfl⟩
  have hlength : bytes.length = 64 := hbytes ▸ leBytes_length 64 _
  rw [← hbytes] at hmem
  have hbyte {a k : Nat} (ha : a = coreAddr n 0x40 + k) (hk : k < 64) : e.mem.byte a = bytes.getD k 0 := by
    rw [hmem, Memory.byte_write, hlength, if_pos (by omega), ha, Nat.add_sub_cancel_left]
  subst hbytes
  refine ⟨s.withDev e, congrArg (fun d => Host.Outcome.next (s.withDev d)) he, hcore, hkept,
    (hbyte (k := 0) rfl (by decide)).trans (statusByte_state ..), (hbyte (k := 1) rfl (by decide)).trans (statusByte_reason ..),
    (hbyte (k := 2) rfl (by decide)).trans (statusByte_stream ..), (hbyte (k := 3) rfl (by decide)).trans (statusByte_pc ..),
    fun b hb => ⟨(hbyte ?_ (by omega)).trans (statusByte_cycle _ _ _ hb), (hbyte ?_ (by omega)).trans (statusByte_tick _ _ _ hb),
      (hbyte ?_ (by omega)).trans (statusByte_busy _ _ _ hb)⟩,
    fun q hq b hb => (hbyte ?_ (by omega)).trans (statusByte_residue _ _ _ hq hb), fun a ha => ?_⟩
  · unfold coreAddr; omega
  · unfold coreAddr; omega
  · unfold coreAddr; omega
  · unfold coreAddr; omega
  · refine (congrArg (Memory.byte · a) hmem).trans ((Memory.byte_write ..).trans (if_neg ?_))
    rw [hlength]
    unfold coreAddr at ha ⊢
    omega

/-! ### Handovers (10 R324) -/

theorem tget_foldl_where {α : Type} (p : Nat → Bool) (v dflt : α) (l : List Nat) (t : Tbl α) (k : Nat) :
    tget (l.foldl (fun t b => if p b then tset t b v else t) t) k dflt = if k ∈ l ∧ p k = true then v else tget t k dflt := by
  induction l generalizing t with
  | nil => simp
  | cons x l ih =>
    rw [List.foldl_cons, ih]
    by_cases hk : k = x
    · subst hk
      cases p k <;> simp
    · cases p x <;> simp [hk, tget_tset]

/-- Settles O34: the banks of the handover, and no other. -/
theorem handoverChangesOwners : Obligations.HandoverChangesOwners := by
  intro s c w h hfind hcall hve
  have hfree : (((((s.dev.cluster c).call.map (·.held)).getD []) ++ (((s.dev.cluster c).veRun.map (·.held)).getD [])).any
      fun b => b.1 = c && h.banks.getLsbD b.2) = false := by
    refine List.any_eq_false.mpr fun b hb => ?_
    rw [Bool.and_eq_true, decide_eq_true_eq, not_and, Bool.not_eq_true]
    rcases List.mem_append.mp hb with hb | hb
    · cases hg : (s.dev.cluster c).call with
      | none => rw [hg] at hb; cases hb
      | some g => rw [hg] at hb; exact hcall g hg b hb
    · cases hj : (s.dev.cluster c).veRun with
      | none => rw [hj] at hb; cases hb
      | some j => rw [hj] at hb; exact hve j hj b hb
  refine ⟨s.dev.setCluster c { s.dev.cluster c with
    owners := (List.range 32).foldl (fun t b => if h.banks.getLsbD b then tset t b h.owner else t) (s.dev.cluster c).owners,
    handovers := (s.dev.cluster c).handovers.filter fun k => k.writer ≠ w }, ?_, fun b hb => ?_, ?_, fun k hk => ?_, rfl, rfl,
    rfl⟩
  · refine congrArg (fun d => Host.Outcome.next (s.withDev d)) (?_ : s.dev.handoverDone c w = _)
    rw [Dev.handoverDone]
    dsimp only
    rw [hfind]
    dsimp only
    rw [hfree]
    rfl
  · rw [Dev.bankOwner, Dev.cluster_setCluster, if_pos rfl, tget_foldl_where, apply_ite BitVec.toNat]
    exact ite_congr (by simp [hb]) (fun _ => rfl) fun _ => rfl
  · rw [Dev.cluster_setCluster, if_pos rfl]
  · rw [Dev.cluster_setCluster, if_neg hk]

end Sys2Proof.Proofs
end

section
/-! SUPPORT. Bronze key streams (05 R153-R158, R162). -/

namespace Sys2Proof.Proofs

open Sys2Proof.Machine Sys2Proof.Terms

theorem Accessed.channel {d e : Dev} (h : Accessed d e) (k : Nat) : e.channel k = d.channel k := by rw [h.frame]; rfl

/-! ### The stream read next -/

/-- The better of the stream chosen so far and another. -/
def betterOpen (best : Option OpenRec) (r : OpenRec) : Option OpenRec :=
  match best with
  | none => some r
  | some b => if r.openAt.toNat < b.openAt.toNat then some r else some b

theorem foldl_betterOpen (ws : List OpenRec) (b r : OpenRec) (h : ws.foldl betterOpen (some b) = some r) :
    r ∈ b :: ws ∧ ∀ x ∈ b :: ws, r.openAt.toNat ≤ x.openAt.toNat := by
  induction ws generalizing b with
  | nil => cases h; simp
  | cons w ws ih =>
    rw [List.foldl_cons, betterOpen] at h
    split at h
    case isTrue hlt =>
      obtain ⟨hmem, hle⟩ := ih w h
      refine ⟨List.mem_cons_of_mem _ hmem, List.forall_mem_cons.mpr ⟨?_, hle⟩⟩
      exact (hle w List.mem_cons_self).trans hlt.le
    case isFalse hge =>
      obtain ⟨hmem, hle⟩ := ih b h
      obtain ⟨hb, hws⟩ := List.forall_mem_cons.mp hle
      refine ⟨?_, List.forall_mem_cons.mpr ⟨hb, List.forall_mem_cons.mpr ⟨by omega, hws⟩⟩⟩
      rcases List.mem_cons.mp hmem with rfl | hmem
      · exact List.mem_cons_self
      · exact List.mem_cons_of_mem _ (List.mem_cons_of_mem _ hmem)

theorem nextOpen_least {ws : List OpenRec} {r : OpenRec} (h : nextOpen ws = some r) :
    r ∈ ws ∧ ∀ x ∈ ws, r.openAt.toNat ≤ x.openAt.toNat := by
  cases ws with
  | nil => cases h
  | cons w ws => exact foldl_betterOpen ws w r h

/-! ### Reads of data without stored errors -/

theorem meetGranule_of_errorFree {d : Dev} (h : errorFree d) (blk : Option Block) (g : Nat) :
    d.meetGranule blk g = (d, false) := by
  obtain ⟨hupsets, hpoison⟩ := h
  rw [Dev.meetGranule, hpoison, hupsets]
  rfl

theorem meetGranules_of_errorFree {d : Dev} (h : errorFree d) (blk : Option Block) (gs : List Nat) :
    gs.foldl (fun (p : Dev × Bool) g => let (d, b) := p.1.meetGranule blk g; (d, p.2 || b)) (d, false) = (d, false) :=
  foldl_eq_self fun g _ => by simp only [meetGranule_of_errorFree h, Bool.or_false]

/-- A read where no stored error waits is delivered well, and leaves none. -/
theorem fetch_of_errorFree {d : Dev} (h : errorFree d) (blk : Option Block) (a n : Nat) :
    (d.fetch blk a n).2.2 = false ∧ errorFree (d.fetch blk a n).1 := by
  have hupsets : d.upsetsIn a n = [] := by rw [Dev.upsetsIn, h.1]; rfl
  unfold Dev.fetch
  cases regionOf a with
  | stack =>
    dsimp only
    rw [meetGranules_of_errorFree h]
    exact ⟨rfl, by unfold errorFree; rw [Dev.countGranules_mem]; exact h⟩
  | bank c off =>
    dsimp only
    rw [hupsets]
    exact ⟨rfl, h⟩
  | core n off => exact ⟨rfl, h⟩
  | nowhere => exact ⟨rfl, h⟩

/-! ### STREAM_OPEN (05 R153, R154) -/

/-- The read of a stream's header. -/
def headerRead (d : Dev) (image : Nat) : Dev × List Byte × Bool :=
  if inStack image 128 then d.fetch none image 128 else (d, [], true)

theorem accessed_headerRead (d : Dev) (image : Nat) : Accessed d (headerRead d image).1 := by
  unfold headerRead
  split
  · exact accessed_fetch ..
  · exact .refl d

theorem cells_headerRead (d : Dev) (image : Nat) : (headerRead d image).1.mem.cells = d.mem.cells := by
  unfold headerRead
  split
  · exact Dev.fetch_cells ..
  · rfl

/-- The header checks, and it is delivered well. -/
def headerGood (d : Dev) (r : OpenRec) : Bool :=
  !(headerRead d r.image.toNat).2.2 &&
    (headerRead d r.image.toNat).1.headerOk (KeyHdr.parse (headerRead d r.image.toNat).2.1) r.image.toNat r.level.toNat

theorem headerGood_eq (d : Dev) (r : OpenRec) : headerGood d r =
    (inStack r.image.toNat 128 && !(d.fetch none r.image.toNat 128).2.2 &&
      (d.fetch none r.image.toNat 128).1.headerOk (KeyHdr.parse (d.fetch none r.image.toNat 128).2.1) r.image.toNat
        r.level.toNat) := by
  unfold headerGood headerRead
  cases inStack r.image.toNat 128 <;> rfl

/-- The stream of a channel whose header has been read. -/
def openedStream (d : Dev) (r : OpenRec) : KeyStream :=
  { record := r, header := if headerGood d r then some (headerRead d r.image.toNat).2.1 else none, delivered := false,
    attached := [], requested := [], dataPhase := false }

theorem openedStream_eq (d : Dev) (r : OpenRec) : openedStream d r =
    { record := r, header := if headerGood d r then some (d.fetch none r.image.toNat 128).2.1 else none, delivered := false,
      attached := [], requested := [], dataPhase := false } := by
  unfold openedStream headerGood headerRead
  cases inStack r.image.toNat 128 <;> rfl

section
variable {d : Dev} {k : Nat} {r : OpenRec} (ups : List Upset)

/-- The device once a channel has taken a stream, its failure not yet recorded. -/
def opened (d : Dev) (k : Nat) (r : OpenRec) (ups : List Upset) : Dev :=
  (((headerRead (d.addUpsets ups) r.image.toNat).1.setChannel k { d.channel k with
    waiting := dropOpen r (d.channel k).waiting, stream := some (openedStream (d.addUpsets ups) r) }).setReg (0x5400 + k) 2
      r.image.toNat).bump (0x5400 + k) 3 1

theorem openStream_of_next (hnext : nextOpen (d.channel k).waiting = some r) (hstream : (d.channel k).stream = none)
    (hopen : d.frameOpen = true) (hholds : d.faults.holds (.channel k) = false) : d.openStream k ups =
      if headerGood (d.addUpsets ups) r then opened d k r ups else (opened d k r ups).chanFault k r.image.toNat := by
  rw [Dev.openStream]
  dsimp only
  rw [hnext, hstream]
  dsimp only
  rw [if_neg (by rw [hopen, hholds]; decide)]
  rfl

/-- What a stream's opening leaves. -/
structure Opens (d e f : Dev) (k : Nat) (x : Channel) : Prop where
  taken : f.channel k = x
  other : ∀ j, j ≠ k → f.channel j = d.channel j
  cores : f.cores = d.cores
  clusters : f.clusters = d.clusters
  cells : f.mem.cells = e.mem.cells

theorem Opens.of_accessed {d e f g : Dev} {k : Nat} {x : Channel} (h : Opens d e f k x) (h' : Accessed f g)
    (hmem : g.mem = f.mem) : Opens d e g k x :=
  ⟨(h'.channel k).trans h.taken, fun j hj => (h'.channel j).trans (h.other j hj), h'.cores.trans h.cores,
    h'.clusters.trans h.clusters, by rw [hmem, h.cells]⟩

theorem Opens.setReg {d e f : Dev} {k : Nat} {x : Channel} (h : Opens d e f k x) (i j v : Nat) :
    Opens d e (f.setReg i j v) k x := ⟨h.taken, h.other, h.cores, h.clusters, h.cells⟩

theorem opens_opened (d : Dev) (k : Nat) (r : OpenRec) : Opens d (d.addUpsets ups) (opened d k r ups) k { d.channel k with
    waiting := dropOpen r (d.channel k).waiting, stream := some (openedStream (d.addUpsets ups) r) } := by
  have hread := (accessed_addUpsets d ups).trans (accessed_headerRead (d.addUpsets ups) r.image.toNat)
  rw [opened, Dev.bump]
  refine Opens.setReg (Opens.setReg ⟨Dev.channel_setChannel_same .., fun j hj => ?_, hread.cores, hread.clusters,
    cells_headerRead ..⟩ _ _ _) _ _ _
  exact (Dev.channel_setChannel ..).trans ((if_neg hj).trans (hread.channel j))

theorem opens_chanFault {d e f : Dev} {k : Nat} {x : Channel} (h : Opens d e f k x) (image : Nat) :
    Opens d e (f.chanFault k image) k x := by
  rw [Dev.chanFault, Dev.bump]
  exact ((h.setReg _ _ _).setReg _ _ _).of_accessed (accessed_faultUc ..) (Dev.faultUc_mem ..)

theorem reg_chanFault (d : Dev) (k image : Nat) : (d.chanFault k image).reg (0x5400 + k) 1 = 3 := by
  rw [Dev.chanFault, Dev.faultUc, reg_congr (regs_raise ..), Dev.reg_setReg_same]
  rfl

end

/-! ### DATA_PHASE_START (05 R156, R162) -/

/-- A data phase's reads, and whether one of them is delivered badly. -/
def bodyRead (d : Dev) (body : List (Nat × Nat)) (internal : Bool) : Dev × Bool :=
  body.foldl (fun (p : Dev × Bool) r => ((p.1.fetch none r.1 r.2).1, p.2 || (p.1.fetch none r.1 r.2).2.2)) (d, internal)

theorem accessed_bodyRead (d : Dev) (body : List (Nat × Nat)) (internal : Bool) : Accessed d (bodyRead d body internal).1 := by
  refine foldl_rel (R := fun (p q : Dev × Bool) => Accessed p.1 q.1) (fun _ => .refl _) (fun _ _ _ => .trans)
    (fun p r _ => ?_) (d, internal)
  exact accessed_fetch ..

theorem cells_bodyRead (d : Dev) (body : List (Nat × Nat)) (internal : Bool) :
    (bodyRead d body internal).1.mem.cells = d.mem.cells := by
  refine foldl_rel (R := fun (p q : Dev × Bool) => q.1.mem.cells = p.1.mem.cells) (fun _ => rfl)
    (fun _ _ _ h h' => h'.trans h) (fun p r _ => ?_) (d, internal)
  exact Dev.fetch_cells ..

theorem bodyRead_of_errorFree {d : Dev} (h : errorFree d) (body : List (Nat × Nat)) : (bodyRead d body false).2 = false := by
  have hread : errorFree (bodyRead d body false).1 ∧ (bodyRead d body false).2 = false := by
    unfold bodyRead
    have hp : errorFree ((d, false) : Dev × Bool).1 ∧ ((d, false) : Dev × Bool).2 = false := ⟨h, rfl⟩
    revert hp
    generalize ((d, false) : Dev × Bool) = p
    intro hp
    induction body generalizing p with
    | nil => exact hp
    | cons r body ih =>
      obtain ⟨hwell, hfree⟩ := fetch_of_errorFree hp.1 none r.1 r.2
      exact ih _ ⟨hfree, by simp only [hp.2, hwell, Bool.or_self]⟩
  exact hread.2

theorem dropRefused_of_deliverable {d : Dev} {x : KeyStream} (k : Nat) (h : deliverable d x) : d.dropRefused k x.requested = d := by
  refine foldl_eq_self fun c hc => ?_
  have hfree := h c hc
  dsimp only at hfree ⊢
  rw [hfree]

theorem dropOthers_of_same {d : Dev} {x : KeyStream} {range : Nat × Nat} (k image : Nat) (h : ∀ c ∈ x.requested, d.brRange c = some range) :
    d.dropOthers k image range x.requested = d := by
  have hnone : (x.requested.filter fun c => d.brRange c ≠ some range) = [] := by
    refine List.filter_eq_nil_iff.mpr fun c hc => ?_
    simp [h c hc]
  rw [Dev.dropOthers, hnone]
  rfl

/-- Every attached cluster has requested data and every bank takes it: the stored words are read. -/
theorem dataPhase_of_ready {d : Dev} {k : Nat} {x : KeyStream} {ups : List Upset} {internal : Bool}
    (hstream : (d.channel k).stream = some x) (hdelivered : x.delivered = true) (hheader : x.header ≠ none)
    (hphase : x.dataPhase = false) (hattached : x.attached ≠ []) (hrequested : ∀ c ∈ x.attached, c ∈ x.requested)
    (hsame : x.hdr.kind = 0x11 →
      ∀ c ∈ x.requested, d.brRange c = some ((d.brRange (x.requested.foldl min 255)).getD (0, 0)))
    (hdeliverable : deliverable d x) :
    let body := x.body ((d.brRange (x.requested.foldl min 255)).getD (0, 0))
    let e := bodyRead (d.addUpsets ups) body internal
    d.dataPhase k ups internal = if e.2 then e.1.failStream k
      else (e.1.setChannel k { d.channel k with stream := some { x with dataPhase := true } }).bump (0x5400 + k) 4
        ((body.foldl (fun n r => n + r.2) 0) * 2 / 9) := by
  intro body e
  have hall : (x.attached.any fun c => !x.requested.contains c) = false :=
    List.any_eq_false.mpr fun c hc => by simp [hrequested c hc]
  have hothers : (if x.hdr.kind = 0x11 then d.dropOthers k x.record.image.toNat
      ((d.brRange (x.requested.foldl min 255)).getD (0, 0)) x.requested else d) = d := by
    split
    case isTrue hkind => exact dropOthers_of_same k _ (hsame hkind)
    case isFalse => rfl
  have haccessed : Accessed d e.1 := (accessed_addUpsets d ups).trans (accessed_bodyRead ..)
  rw [← haccessed.channel k, Dev.dataPhase, hstream]
  dsimp only
  rw [if_neg (by rw [hdelivered, hphase, hall]; simp [hheader, hattached]), hothers, hstream, Option.map_some, Option.getD_some,
    dropRefused_of_deliverable k hdeliverable]
  change (if e.2 = true then e.1.failStream k else match (e.1.channel k).stream with | none => e.1 | some s => _) = _
  rw [haccessed.channel, hstream]
  dsimp only
  rw [← haccessed.channel k]
  rfl

/-- Settles O35: the opening, the data phase, the close and the attachment of a stream. -/
theorem keyStreams : Obligations.KeyStreams := by
  refine ⟨⟨fun ws r => nextOpen_least, ?_, ?_, fun s k x hstream hdone => ?_⟩, fun s k x hstream hdelivered hroom => ?_⟩
  · intro s k r ups hnext hstream hopen hholds x ok
    have hok : ok = headerGood (s.dev.addUpsets ups) r := (headerGood_eq _ r).symm
    have hopened : Opens s.dev (s.dev.addUpsets ups) (if ok then opened s.dev k r ups
        else (opened s.dev k r ups).chanFault k r.image.toNat) k { s.dev.channel k with
          waiting := dropOpen r (s.dev.channel k).waiting, stream := some (openedStream (s.dev.addUpsets ups) r) } := by
      split
      · exact opens_opened ups s.dev k r
      · exact opens_chanFault (opens_opened ups s.dev k r) _
    have hexec := openStream_of_next ups hnext hstream hopen hholds
    rw [← hok] at hexec
    refine ⟨s.withDev _, congrArg (fun d => Host.Outcome.next (s.withDev d)) hexec, ?_, congrArg Channel.waiting hopened.taken,
      fun hbad => ?_, hopened.other, hopened.cores, hopened.clusters, fun a => Memory.byte_congr hopened.cells a⟩
    · rw [hok] at hopened ⊢
      exact (congrArg Channel.stream hopened.taken).trans (congrArg some (openedStream_eq _ r))
    · rw [hbad]
      exact reg_chanFault ..
  · intro s k x ups internal hstream hdelivered hheader hphase hattached hrequested range hsame hdeliverable e
    have hexec := dataPhase_of_ready (ups := ups) (internal := internal) hstream hdelivered hheader hphase hattached
      hrequested hsame hdeliverable
    have haccessed := (accessed_addUpsets s.dev ups).trans (accessed_bodyRead (s.dev.addUpsets ups) (x.body range) internal)
    have hcells := cells_bodyRead (s.dev.addUpsets ups) (x.body range) internal
    change _ = if e.2 = true then _ else _ at hexec
    refine ⟨fun hwell => ?_, fun hbad => ?_, fun hups hfree hint => ?_⟩
    · rw [hwell, if_neg (by decide), Dev.bump, Dev.setReg] at hexec
      refine ⟨s.withDev _, congrArg (fun d => Host.Outcome.next (s.withDev d)) hexec, ?_, fun j hj => ?_, haccessed.cores,
        haccessed.clusters, rfl, fun a => Memory.byte_congr hcells a⟩
      · exact congrArg Channel.stream (Dev.channel_setChannel_same ..)
      · exact (Dev.channel_setChannel ..).trans ((if_neg hj).trans (haccessed.channel j))
    · rw [hbad, if_pos rfl] at hexec
      exact congrArg (fun d => Host.Outcome.next (s.withDev d)) hexec
    · subst hups hint
      have hwell : e.2 = false := bodyRead_of_errorFree hfree _
      rw [hwell, if_neg (by decide), Dev.bump, Dev.setReg] at hexec
      refine ⟨s.withDev _, congrArg (fun d => Host.Outcome.next (s.withDev d)) hexec, ?_⟩
      exact congrArg Channel.stream (Dev.channel_setChannel_same ..)
  · intro d
    have hexec : s.dev.closeStream k = d.tryCalls := by
      rw [Dev.closeStream, hstream]
      exact if_pos hdone
    refine ⟨congrArg (fun d => Host.Outcome.next (s.withDev d)) hexec, fun hnone => ?_⟩
    exact congrArg (fun d => Host.Outcome.next (s.withDev d)) (hexec.trans (tryCalls_of_none_waits (d := d) hnone))
  · refine ⟨x.record.clusters.filter fun c => !s.dev.faults.holds (.cluster c), fun c => ?_, ?_⟩
    · simp [OpenRec.clusters]
      tauto
    · have hany : ((x.record.clusters.filter fun c => !s.dev.faults.holds (.cluster c)).any
          fun c => 2 ≤ s.dev.attachedTo c) = false := by
        refine List.any_eq_false.mpr fun c hc => ?_
        obtain ⟨hlt, hholds, hsub⟩ : c < 256 ∧ s.dev.faults.holds (.cluster c) = false ∧
            x.record.subscribers.getLsbD c = true := by simpa [OpenRec.clusters] using hc
        simpa using hroom c hlt hsub hholds
      refine congrArg (fun d => Host.Outcome.next (s.withDev d)) (?_ : s.dev.attachStream k = _)
      rw [Dev.attachStream, hstream]
      dsimp only
      rw [if_neg (by rw [hdelivered, hany]; decide)]

end Sys2Proof.Proofs
end

section
/-! SUPPORT. A part of a block over memory that is not in canonical form: what the DMA engine reads is not what the addresses
list (11 R362). -/

namespace Sys2Proof.Proofs

open Sys2Proof.Machine Sys2Proof.Terms

/-- A fresh device whose first bank lists two bytes at addresses that do not rise. -/
def unsortedBank : Dev :=
  { Dev.fresh with mem := { Memory.empty with cells := [(clusterAddr 0 1, 1), (clusterAddr 0 0, 2)] } }

/-- The copy of those two bytes to the next granule. -/
def twoByteCopy : MovePart :=
  { dst := [(clusterAddr 0 256, 2)], src := [(clusterAddr 0 0, 2)], fill := 0, limb := none }

theorem unsortedBank_part_byte :
    ((Mover.fresh unsortedBank).part 0 twoByteCopy).map (fun e => e.dev.mem.byte (clusterAddr 0 256)) = some 0 := by decide

theorem unsortedBank_byte : unsortedBank.mem.byte (clusterAddr 0 0) = 2 := by decide

theorem unsortedBank_dmaMay_read : dmaMay unsortedBank .read 0 (clusterAddr 0 0) 2 := by unfold dmaMay; decide

theorem unsortedBank_dmaMay_write : dmaMay unsortedBank .write 0 (clusterAddr 0 256) 2 := by unfold dmaMay; decide

/-- Refutes O36: a block's part is read along rising cells, so over cells that do not rise it misses a byte that its address
lists, and its copy is not the byte of the source. -/
theorem not_streamsRun : ¬ Obligations.StreamsRun := by
  rintro ⟨-, hpart, -⟩
  obtain ⟨e, hmove, hbytes⟩ := hpart (Mover.fresh unsortedBank) 0 (clusterAddr 0 256) (clusterAddr 0 0) 2 0
    unsortedBank_dmaMay_read unsortedBank_dmaMay_write ⟨rfl, rfl⟩
  have hcopied : e.dev.mem.byte (clusterAddr 0 256) = 2 := (hbytes _).trans unsortedBank_byte
  have hread : e.dev.mem.byte (clusterAddr 0 256) = 0 := by
    have h := unsortedBank_part_byte
    rw [show (Mover.fresh unsortedBank).part 0 twoByteCopy = some e from hmove] at h
    exact Option.some.inj h
  exact absurd (hcopied.symm.trans hread) (by decide)

end Sys2Proof.Proofs
end

section
/-! SUPPORT. The words of ENC_AXPY (14 R442). -/

namespace Sys2Proof.Proofs

open Sys2Proof.Machine Sys2Proof.Terms

theorem resOf_lt {q : Nat} (hq : 0 < q) (x : Int) : resOf q x < q := by
  have hlt : x % (q : Int) < q := Int.emod_lt_of_pos x (by exact_mod_cast hq)
  unfold resOf
  omega

theorem resOf_modEq {q : Nat} (hq : 0 < q) (x : Int) : (resOf q x : Int) ≡ x [ZMOD q] := by
  rw [resOf, Int.toNat_of_nonneg (Int.emod_nonneg x (by omega))]
  exact Int.mod_modEq x q

/-- The word that the limb's sum of products gives; a missing polynomial, limb or word reads zero. -/
theorem wordOf_axpyWords {v : PSetVals} {ka kb : Int} {polys level n : Nat} {a b : Polys} {p i k : Nat} (hp : p < polys)
    (hi : i < level) (hk : k < n) :
    wordOf (axpyWords v ka kb polys level n a b) p i k = resOf (v.q i) (ka * wordOf a p i k + kb * wordOf b p i k) := by
  simp [wordOf, axpyWords, hp, hi, hk]

/-- Settles O39. -/
theorem encryptedAxpyWords : Obligations.EncryptedAxpyWords := by
  intro v ka kb polys level n a b p i k hp hi hk hq
  rw [wordOf_axpyWords hp hi hk]
  exact ⟨resOf_lt hq _, resOf_modEq hq _⟩

end Sys2Proof.Proofs
end

section
/-! SUPPORT. The counter's discipline (15 R468). -/

namespace Sys2Proof.Proofs

open Sys2Proof.Machine Sys2Proof.Terms

/-- Under its source, each row of the discipline measures the error that it brings. -/
theorem exec_measureRow {s : State} {i : Instr} {src ns : Nat} {err : Int}
    (hrow : measureRow s.dev i = some (src, ns, err)) (halive : s.dev.alive = true) (hsrc : s.dev.reg 0x2020 2 = src) :
    exec i s = .next (s.withDev (s.dev.measured ns err)) := by
  have hset (f : Dev → Dev) (h : f s.dev = s.dev.measured ns err) : s.onDev f = .next (s.withDev (s.dev.measured ns err)) := by
    rw [State.onDev, h]
  cases i
  case ppsEdge t =>
    cases hrow
    exact hset (Dev.pps · ns) (if_pos ⟨halive, hsrc⟩)
  case ptpMessage event t =>
    rw [measureRow] at hrow
    split at hrow
    · next hev =>
      obtain ⟨hevent, hlink⟩ := Bool.and_eq_true_iff.mp hev
      cases hrow
      exact hset (Dev.ptp · event ns) (if_pos ⟨halive, hlink, hevent, hsrc⟩)
    · cases hrow
  all_goals cases hrow

/-- COUNTER_STATE after an error `err` with `lock` locked seconds, where it was `state`. -/
def stateMeasured (err : Int) (lock state : Nat) : Nat :=
  if 1050 < err.natAbs then 1 else if 16 ≤ lock then 2 else state

/-- COUNTER_STATE as a measurement sets it. -/
def withState (d : Dev) (err : Int) (lock : Nat) : Dev :=
  if 1050 < err.natAbs then d.setReg 0x2020 3 1 else if 16 ≤ lock then d.setReg 0x2020 3 2 else d

theorem withState_eq (d : Dev) (err : Int) (lock : Nat) :
    withState d err lock = { d with regs := (withState d err lock).regs } := by
  unfold withState
  split
  · rfl
  · split <;> rfl

theorem reg_withState (d : Dev) (err : Int) (lock j : Nat) {k : Nat} (hk : k < 256) : (withState d err lock).reg j k =
    if j = 0x2020 ∧ k = 3 then stateMeasured err lock (d.reg 0x2020 3) else d.reg j k := by
  unfold withState stateMeasured
  split
  · exact Dev.reg_setReg _ _ _ _ _ _ (by decide) hk
  · split
    · exact Dev.reg_setReg _ _ _ _ _ _ (by decide) hk
    · split
      · next h => rw [h.1, h.2]
      · rfl

theorem wrapInt_lt (x : Int) : wrapInt x 32 < 2 ^ 64 := by
  unfold wrapInt
  omega

theorem wrapInt_cast (x : Int) : (wrapInt x 32 : Int) = x % 2 ^ 32 := by
  unfold wrapInt
  omega

/-- COUNTER_ERROR takes an error, for which a free word was drawn. -/
def withError (d : Dev) (err : Int) : Dev := ({ d with draw := d.draw + 1 } : Dev).setReg 0x2020 4 (wrapInt err 32)

theorem reg_withError (d : Dev) (err : Int) (j : Nat) {k : Nat} (hk : k < 256) :
    (withError d err).reg j k = if j = 0x2020 ∧ k = 4 then wrapInt err 32 else d.reg j k := by
  rw [withError, Dev.reg_setReg _ _ _ _ _ _ (by decide) hk, Nat.mod_eq_of_lt (wrapInt_lt err)]
  rfl

/-- The consecutive seconds of lock after an error `err` at `ns` nanoseconds. -/
def lockAfter (d : Dev) (ns : Nat) (err : Int) : Nat :=
  if err.natAbs ≤ 1 then lockedSeconds d.tick.lockSeconds d.tick.lastSecond (ns / 1000000000) else 0

/-- A measurement of an error that the entry holds. -/
theorem measured_eq (d : Dev) (ns : Nat) {err : Int} (hlow : -(2 ^ 31 : Int) ≤ err) (hhigh : err < 2 ^ 31) :
    d.measured ns err = (withState (withError d err) err (lockAfter d ns err)).modTick fun t =>
      { t with slew := -err, lockSeconds := lockAfter d ns err, lastSecond := ns / 1000000000 } := by
  have hfits : (if -(2 ^ 31 : Int) ≤ err ∧ err < 2 ^ 31 then wrapInt err 32 else d.drawWord.1.toNat % 2 ^ 32) = wrapInt err 32 :=
    if_pos ⟨hlow, hhigh⟩
  simp only [Dev.measured, hfits]
  rfl

theorem reg_measured (d : Dev) (ns : Nat) {err : Int} (hlow : -(2 ^ 31 : Int) ≤ err) (hhigh : err < 2 ^ 31) (j : Nat) {k : Nat}
    (hk : k < 256) : (d.measured ns err).reg j k =
      if j = 0x2020 ∧ k = 3 then stateMeasured err (lockAfter d ns err) (d.reg 0x2020 3)
      else if j = 0x2020 ∧ k = 4 then wrapInt err 32 else d.reg j k := by
  have hstate : (withError d err).reg 0x2020 3 = d.reg 0x2020 3 := by rw [reg_withError _ _ _ (by decide), if_neg (by decide)]
  rw [measured_eq d ns hlow hhigh, ← hstate, ← reg_withError d err j hk]
  exact reg_withState (withError d err) err _ j hk

/-- Settles O48. -/
theorem counterDiscipline : Obligations.CounterDiscipline := by
  constructor
  · intro s i src ns err hrow halive hsrc hlow hhigh lock
    have hreg (j : Nat) {k : Nat} (hk : k < 256) := reg_measured s.dev ns hlow hhigh j hk
    refine ⟨_, exec_measureRow hrow halive hsrc, ?_, ?_, ?_, ?_, fun j k hk hother => ?_⟩
    · exact (congrArg Nat.cast (hreg 0x2020 (by decide))).trans (wrapInt_cast err)
    · exact hreg 0x2020 (by decide)
    · change (s.dev.measured ns err).tick = _
      rw [measured_eq s.dev ns hlow hhigh, withState_eq]
      rfl
    · change s.dev.measured ns err = { s.dev with
        draw := (s.dev.measured ns err).draw, regs := (s.dev.measured ns err).regs, tick := (s.dev.measured ns err).tick }
      rw [measured_eq s.dev ns hlow hhigh, withState_eq]
      rfl
    · refine (hreg j hk).trans ?_
      rw [if_neg fun h => hother ⟨h.1, .inl h.2⟩, if_neg fun h => hother ⟨h.1, .inr h.2⟩]
  · intro s halive hsrc
    have hlost : s.dev.sourceLost = (s.dev.setReg 0x2020 3 1).modTick fun t => { t with lockSeconds := 0 } :=
      if_pos ⟨halive, hsrc⟩
    refine ⟨s.withDev _, congrArg (fun d => Host.Outcome.next (s.withDev d)) hlost, Dev.reg_setReg_same .., rfl,
      fun j k hk hother => ?_⟩
    exact (Dev.reg_setReg _ _ _ _ _ _ (by decide) hk).trans (if_neg hother)

end Sys2Proof.Proofs
end

section
/-! SUPPORT. What the port's operations change, and the message that leaves an open link (17 R506, R509, R515). -/

namespace Sys2Proof.Proofs

open Sys2Proof.Machine Sys2Proof.Terms

/-! ### Nothing but the port -/

/-- Nothing but the port differs. -/
def OnlyPort (d e : Dev) : Prop := e = { d with port := e.port }

section
variable {d e f : Dev}

theorem OnlyPort.refl : OnlyPort d d := rfl

theorem OnlyPort.trans (h : OnlyPort d e) (h' : OnlyPort e f) : OnlyPort d f := by
  rw [OnlyPort, h', h]

theorem OnlyPort.regs (h : OnlyPort d e) : e.regs = d.regs := by rw [h]

theorem OnlyPort.reg (h : OnlyPort d e) (i k : Nat) : e.reg i k = d.reg i k := reg_congr h.regs i k

theorem OnlyPort.mem (h : OnlyPort d e) : e.mem = d.mem := by rw [h]

theorem OnlyPort.boot (h : OnlyPort d e) : e.boot = d.boot := by rw [h]

theorem OnlyPort.phase (h : OnlyPort d e) : e.phase = d.phase := by rw [h]

theorem OnlyPort.sterling (h : OnlyPort d e) : e.sterling = d.sterling := by rw [h]

theorem OnlyPort.tick (h : OnlyPort d e) : e.tick = d.tick := by rw [h]

theorem OnlyPort.linkUp (h : OnlyPort d e) : e.linkUp = d.linkUp := by
  rw [Dev.linkUp, h.reg, Dev.linkUp]

theorem OnlyPort.alive (h : OnlyPort d e) : e.alive = d.alive := by
  rw [Dev.alive, h.phase, Dev.alive]

end

theorem onlyPort_modPort (d : Dev) (f : Port → Port) : OnlyPort d (d.modPort f) := rfl

theorem onlyPort_setTransport (d : Dev) (t : Transport) : OnlyPort d (d.setTransport t) := rfl

theorem onlyPort_emit (d : Dev) (m : OutMsg) : OnlyPort d (d.emit m) := rfl

theorem onlyPort_dropMsg (d : Dev) (m : Msg) : OnlyPort d (d.dropMsg m) := rfl

theorem onlyPort_consume (d : Dev) (ep : Endpoint) (cls : BitVec 4) (kind : BitVec 8) : OnlyPort d (d.consume ep cls kind) := by
  unfold Dev.consume
  split
  · exact onlyPort_dropMsg d _
  · exact OnlyPort.refl

section
variable (d : Dev) (e : Endpoint) (t : Traffic) (cls : BitVec 4) (kind : BitVec 8) (version : BitVec 4) (dst : BitVec 16)
  (body : List Byte) (bad : List Nat)

theorem onlyPort_sendMarked : OnlyPort d (d.sendMarked e t cls kind version dst body bad) := by
  unfold Dev.sendMarked
  split
  · exact OnlyPort.refl
  · dsimp only
    split
    · rfl
    · rfl

theorem onlyPort_sendMsg : OnlyPort d (d.sendMsg e t cls kind version dst body) := onlyPort_sendMarked ..

/-! ### A message that leaves -/

/-- A message goes out when it is sent, over a link that is up and not paused. -/
theorem sendMarked_of_linkOpen (h : linkOpen d) : d.sendMarked e t cls kind version dst body bad =
    (d.modPort fun x => { x with nextMsg := x.nextMsg + 1 }).emit
      { ep := e, prio := d.prioOf t, cls := cls, kind := kind, number := d.port.nextMsg, version := version, dst := dst,
        body := body, bad := bad } := by
  obtain ⟨hup, hpaused⟩ := h
  have hfree : (d.modPort fun x => { x with nextMsg := x.nextMsg + 1 }).port.paused.contains (d.prioOf t) = false := by
    change d.port.paused.contains _ = false
    rw [hpaused]
    rfl
  simp only [Dev.sendMarked, hup, Bool.not_true, Bool.false_eq_true, if_false, hfree]

theorem sentOne_sendMarked (h : linkOpen d) : sentOne d (d.sendMarked e t cls kind version dst body bad) e cls kind body := by
  rw [sendMarked_of_linkOpen d e t cls kind version dst body bad h]
  exact ⟨_, rfl, rfl, rfl, rfl, rfl, rfl⟩

theorem sentOne_sendMsg (h : linkOpen d) : sentOne d (d.sendMsg e t cls kind version dst body) e cls kind body :=
  sentOne_sendMarked d e t cls kind version dst body [] h

end

/-! ### What leaves the port's sending side alone -/

/-- The two devices have sent the same, and send the next message under the same conditions. -/
structure SameSending (d e : Dev) : Prop where
  sent : e.port.sent = d.port.sent
  nextMsg : e.port.nextMsg = d.port.nextMsg
  paused : e.port.paused = d.port.paused
  linkUp : e.linkUp = d.linkUp

section
variable {d e f : Dev} {ep : Endpoint} {cls : BitVec 4} {kind : BitVec 8} {body : List Byte}

theorem SameSending.refl : SameSending d d := ⟨rfl, rfl, rfl, rfl⟩

theorem SameSending.trans (h : SameSending d e) (h' : SameSending e f) : SameSending d f :=
  ⟨h'.sent.trans h.sent, h'.nextMsg.trans h.nextMsg, h'.paused.trans h.paused, h'.linkUp.trans h.linkUp⟩

theorem SameSending.linkOpen (h : SameSending d e) (ho : linkOpen d) : linkOpen e :=
  ⟨h.linkUp.trans ho.1, h.paused.trans ho.2⟩

theorem SameSending.sentOne (h : SameSending d e) (hs : sentOne e f ep cls kind body) : sentOne d f ep cls kind body := by
  obtain ⟨m, hsent, hep, hcls, hkind, hbody, hnumber⟩ := hs
  exact ⟨m, h.sent ▸ hsent, hep, hcls, hkind, hbody, hnumber.trans h.nextMsg⟩

theorem sentOne_of_sent (h : f.port.sent = e.port.sent) (hs : sentOne d e ep cls kind body) : sentOne d f ep cls kind body := by
  obtain ⟨m, hsent, hm⟩ := hs
  exact ⟨m, h.trans hsent, hm⟩

end

/-- What leaves the port and the registers alone. -/
theorem sameSending_of_port {d e : Dev} (hport : e.port = d.port) (hregs : e.regs = d.regs) : SameSending d e :=
  ⟨by rw [hport], by rw [hport], by rw [hport], by rw [Dev.linkUp, reg_congr hregs, Dev.linkUp]⟩

theorem sameSending_dropMsg (d : Dev) (m : Msg) : SameSending d (d.dropMsg m) := ⟨rfl, rfl, rfl, rfl⟩

theorem sameSending_consume (d : Dev) (ep : Endpoint) (cls : BitVec 4) (kind : BitVec 8) :
    SameSending d (d.consume ep cls kind) := by
  unfold Dev.consume
  split
  · exact sameSending_dropMsg d _
  · exact SameSending.refl

end Sys2Proof.Proofs
end

section
/-! SUPPORT. What a host access changes (10 R318). -/

namespace Sys2Proof.Proofs

open Sys2Proof.Machine Sys2Proof.Terms

/-! ### Host accesses (10 R318) -/

theorem accessed_hostWrite (d : Dev) (a : Nat) (bs : List Byte) : Accessed d (d.hostWrite a bs) := accessed_writeAs d .host a bs

theorem accessed_hostRead (d : Dev) (a n : Nat) : Accessed d (d.hostRead a n).1 := by
  unfold Dev.hostRead
  refine foldl_rel (R := fun x y : Dev × List Byte × Bool => Accessed x.1 y.1) (fun x => .refl x.1) (fun _ _ _ => .trans)
    (fun x p _ => ?_) (d, [], false)
  dsimp only
  split
  · dsimp only
    split
    · exact .refl _
    · exact accessed_noteProblem _ _ _ _
  · exact accessed_fetch _ _ _ _

theorem accessed_writeNickelStatus (d : Dev) (j : NickelJob) : Accessed d (d.writeNickelStatus j) := by
  unfold Dev.writeNickelStatus
  split
  · exact .refl d
  · split
    · exact .refl d
    · exact accessed_hostWrite d _ _

end Sys2Proof.Proofs
end

section
/-! SUPPORT. The boot exchange (20 R587-R592). -/

namespace Sys2Proof.Proofs

open Sys2Proof.Machine Sys2Proof.Terms

/-! ### BOOT messages (20 R587) -/

section
variable (d : Dev)

theorem onlyPort_sendBoot (to_ : BitVec 48) (kind : BitVec 8) (body : List Byte) : OnlyPort d (d.sendBoot to_ kind body) :=
  onlyPort_sendMsg ..

theorem onlyPort_sendHello : OnlyPort d d.sendHello := onlyPort_sendBoot ..

theorem onlyPort_sendRead : OnlyPort d d.sendRead := onlyPort_sendBoot ..

theorem onlyPort_sendDone (result : Nat) : OnlyPort d (d.sendDone result) := onlyPort_sendBoot ..

variable (h : linkOpen d)
include h

theorem sentOne_sendHello : sentOne d d.sendHello (helloTo d) 6 1 (helloBody d) := sentOne_sendMsg _ _ _ _ _ _ _ _ h

theorem sentOne_sendRead : sentOne d d.sendRead (.mac d.boot.server) 6 3
    (beBytes 8 d.boot.imageId.toNat ++ beBytes 8 d.boot.nextRead ++ beBytes 4 d.boot.readLen) := sentOne_sendMsg _ _ _ _ _ _ _ _ h

theorem sentOne_sendDone (result : Nat) : sentOne d (d.sendDone result) (.mac d.boot.server) 6 5
    (beBytes 8 d.boot.imageId.toNat ++ beBytes 1 result) := sentOne_sendMsg _ _ _ _ _ _ _ _ h

/-! ### Attempts (20 R586, R589) -/

theorem attemptFailed_failAttempt (result : Nat) : attemptFailed d (d.failAttempt result) result :=
  ⟨rfl, rfl, sentOne_of_sent rfl (sentOne_sendDone d h result)⟩

end

/-- The device as attempt `n` begins, before BOOT_HELLO goes out. -/
def attemptBegun (d : Dev) (n : BitVec 32) : Dev :=
  d.modBoot fun b => { b with
    step := .hello, attempt := n, server := 0, imageId := 0, imageLen := 0, image := [], nextRead := 0, readLen := 0,
    readResends := 0 }

section
variable (d : Dev) (n : BitVec 32)

theorem onlyPort_startAttempt : OnlyPort (attemptBegun d n) (d.startAttempt n) := onlyPort_sendHello _

theorem step_startAttempt : (d.startAttempt n).boot.step = .hello := congrArg (·.step) (onlyPort_startAttempt d n).boot

theorem attempt_startAttempt : (d.startAttempt n).boot.attempt = n := congrArg (·.attempt) (onlyPort_startAttempt d n).boot

theorem sentOne_startAttempt (h : linkOpen d) :
    sentOne d (d.startAttempt n) (helloTo d) 6 1 (helloBody (d.startAttempt n)) := by
  have hbody : helloBody (d.startAttempt n) = helloBody (attemptBegun d n) := by
    rw [helloBody, helloBody, (onlyPort_startAttempt d n).boot, (onlyPort_startAttempt d n).sterling]
  rw [hbody]
  exact sentOne_sendHello (attemptBegun d n) h

end

/-! ### The image (20 R588, R592) -/

section
variable (d : Dev)

theorem onlyPort_askRange (off len : Nat) :
    OnlyPort (d.modBoot fun b => { b with nextRead := off, readLen := len, readResends := 0 }) (d.askRange off len) :=
  onlyPort_sendRead _

theorem sentOne_askRange (h : linkOpen d) (off len : Nat) : sentOne d (d.askRange off len) (.mac d.boot.server) 6 3
    (beBytes 8 d.boot.imageId.toNat ++ beBytes 8 off ++ beBytes 4 len) :=
  sentOne_sendRead (d.modBoot fun b => { b with nextRead := off, readLen := len, readResends := 0 }) h

/-- What the Nickel engine pays is accesses, and its own list. -/
theorem accessed_payNickel : ∃ e, Accessed d e ∧ d.payNickel = e.modNickel fun x => { x with owed := [] } :=
  ⟨_, accessed_foldl (fun d _ _ => accessed_writeNickelStatus d _) d, rfl⟩

theorem phase_payNickel : d.payNickel.phase = d.phase := by
  obtain ⟨e, he, hpaid⟩ := accessed_payNickel d
  rw [hpaid]
  change e.phase = d.phase
  rw [he.frame]

theorem bootErrn_payNickel : d.payNickel.faults.bootErrn = d.faults.bootErrn := by
  obtain ⟨e, he, hpaid⟩ := accessed_payNickel d
  rw [hpaid]
  change e.faults.bootErrn = d.faults.bootErrn
  rw [he.frame]

theorem sterling_payNickel : d.payNickel.sterling = d.sterling := by
  obtain ⟨e, he, hpaid⟩ := accessed_payNickel d
  rw [hpaid]
  change e.sterling = d.sterling
  rw [he.frame]

/-- The measurement of an image, in the store and in the entries that show it, before BOOT_DONE goes out. -/
def firmwareMeasured (d : Dev) : Dev :=
  let m := sha512 (d.boot.image.take 128)
  let d := d.modSterling fun x => { x with fwMeasure := m }
  let d := (List.range 8).foldl (fun (d : Dev) k => d.setReg 0xA100 (6 + k) (leNat (sliceOf m (8 * k) 8))) d
  let d := ((d.setReg 0xA100 2 d.boot.attempt.toNat).setReg 0xA100 3 d.boot.server.toNat).setReg 0xA100 4
    (fld d.boot.image 64 32)
  d.setReg 0xA100 5 (fld d.boot.image 96 8)

/-- The firmware's first acts after BOOT_DONE, but for the records that the Nickel engine owes. -/
def firmwareBegun (d : Dev) : Dev :=
  let d := d.modFaults fun x => { x with bootErrn := false, resetErrn := false }
  let d := d.modBoot fun b => { b with step := .idle }
  let d := (List.range 3).foldl (fun (d : Dev) j =>
    d.modPower fun x => { x with voutSent := tset x.voutSent j (BitVec.ofNat 16 (d.reg (0x7300 + j) 3)) }) d
  { d with phase := .service }

theorem firmwareStart_eq : d.firmwareStart = (firmwareBegun ((firmwareMeasured d).sendDone 0)).payNickel := rfl

theorem sterling_firmwareMeasured :
    (firmwareMeasured d).sterling = { d.sterling with fwMeasure := sha512 (d.boot.image.take 128) } := rfl

theorem sterling_firmwareBegun : (firmwareBegun d).sterling = d.sterling := by
  simp [firmwareBegun, List.range, List.range.loop]

theorem phase_firmwareStart : d.firmwareStart.phase = .service := phase_payNickel _

theorem bootErrn_firmwareStart : d.firmwareStart.faults.bootErrn = false := bootErrn_payNickel _

theorem fwMeasure_firmwareStart : d.firmwareStart.sterling.fwMeasure = sha512 (d.boot.image.take 128) := by
  rw [firmwareStart_eq, sterling_payNickel, sterling_firmwareBegun, (onlyPort_sendDone _ 0).sterling,
    sterling_firmwareMeasured]

/-- An image is taken up to `image`, of which more is to come. -/
theorem nextRange_of_short (h : d.boot.image.length < d.boot.imageLen.toNat) :
    d.nextRange = d.askRange d.boot.image.length (min (2 ^ 20) (d.boot.imageLen.toNat - d.boot.image.length)) := if_pos h

theorem nextRange_of_bad (h : d.boot.imageLen.toNat ≤ d.boot.image.length)
    (hbad : sha512 (d.boot.image.drop 384) ≠ (d.boot.image.drop 32).take 64) : d.nextRange = d.failAttempt 0x09 :=
  (if_neg (Nat.not_lt.mpr h)).trans (if_pos hbad)

theorem nextRange_of_good (h : d.boot.imageLen.toNat ≤ d.boot.image.length)
    (hgood : sha512 (d.boot.image.drop 384) = (d.boot.image.drop 32).take 64) : d.nextRange = d.firmwareStart :=
  (if_neg (Nat.not_lt.mpr h)).trans (if_neg (not_not_intro hgood))

/-- The device with more of the image. -/
def imageGrown (d : Dev) (data : List Byte) : Dev := d.modBoot fun b => { b with image := b.image ++ data }

variable {d}

/-- BOOT_DATA that answers the outstanding read. -/
theorem bootData_of_answer {f : Fuses} {data : List Byte} (hphase : d.phase = .boot) (hstep : d.boot.step = .reading)
    (hlen : data.length = d.boot.readLen) (hnext : d.boot.nextRead < 2 ^ 64) :
    d.bootData f d.boot.server d.boot.imageId (.ofNat 64 d.boot.nextRead) data =
      if d.boot.nextRead ≠ 0 ∨ firmwareCheck f data d.boot.imageLen.toNat = 0 then (imageGrown d data).nextRange
      else (imageGrown d data).failAttempt (firmwareCheck f data d.boot.imageLen.toNat) := by
  have hoff : (BitVec.ofNat 64 d.boot.nextRead).toNat = d.boot.nextRead := by
    rw [BitVec.toNat_ofNat, Nat.mod_eq_of_lt hnext]
  rw [Dev.bootData]
  dsimp only
  rw [if_pos ⟨hphase, hstep, rfl, rfl, hoff, hlen⟩]
  by_cases hfirst : d.boot.nextRead ≠ 0
  · rw [if_pos hfirst, if_pos (.inl hfirst)]
    rfl
  · rw [if_neg hfirst]
    split
    · next hcheck => rw [if_pos (.inr hcheck)]; rfl
    · next hcheck => rw [if_neg (by simpa [hfirst] using hcheck)]; rfl

end

/-- The device with an offer accepted. -/
def offerTaken (d : Dev) (src : BitVec 48) (id len : BitVec 64) : Dev :=
  d.modBoot fun b => { b with step := .reading, server := src, imageId := id, imageLen := len, image := [] }

/-- Nothing but the port and the boot ROM's state differs. -/
theorem OnlyPort.withBoot {d c e : Dev} {b : Boot} (h : OnlyPort d c) (h' : OnlyPort { c with boot := b } e) :
    e = { d with port := e.port, boot := e.boot } := by
  rw [h', h]

theorem SameSending.modBoot {d e : Dev} (h : SameSending d e) (f : Boot → Boot) : SameSending d (e.modBoot f) :=
  h.trans (sameSending_of_port rfl rfl)

theorem attemptFailed_of_sameSending {d e : Dev} (h : SameSending d e) (hopen : linkOpen d)
    (hserver : e.boot.server = d.boot.server) (himage : e.boot.imageId = d.boot.imageId) (result : Nat) :
    attemptFailed d (e.failAttempt result) result := by
  obtain ⟨hstep, herrn, hsent⟩ := attemptFailed_failAttempt e (h.linkOpen hopen) result
  rw [hserver, himage] at hsent
  exact ⟨hstep, herrn, h.sentOne hsent⟩

/-- In the boot sequence with the link up, the first attempt begins when no slab is left to initialise. -/
theorem tryHello_eq {d : Dev} (hphase : d.phase = .boot) (hup : d.linkUp = true) :
    d.tryHello = if d.boot.step = .idle ∧ d.stk.initialising = [] then d.startAttempt 1 else d := by
  simp only [Dev.tryHello, hphase, hup, true_and, and_true]

/-! ### The rows -/

section
variable {s : State} (hphase : s.dev.phase = .boot)
include hphase

theorem exec_helloRepeat (hstep : s.dev.boot.step = .hello) : exec .helloRepeat s = .next (s.withDev s.dev.sendHello) :=
  congrArg (fun d => Host.Outcome.next (s.withDev d)) (if_pos ⟨hphase, hstep⟩)

theorem exec_bootOffer (hstep : s.dev.boot.step = .hello) {src : BitVec 48} (id len : BitVec 64)
    (hsrc : s.dev.boot.mode ≠ 0 ∨ src = Config.bootServer) :
    exec (.bootOffer src id len) s = .next (s.withDev
      ((offerTaken (s.dev.consume (.mac src) 6 2) src id len).askRange 0 384)) := by
  have honly := onlyPort_consume s.dev (.mac src) 6 2
  refine congrArg (fun d => Host.Outcome.next (s.withDev d)) (if_pos ⟨honly.phase.trans hphase, ?_, ?_⟩)
  · rw [honly.boot, hstep]
  · rwa [honly.boot]

theorem exec_bootReadResend (hstep : s.dev.boot.step = .reading) : exec .bootReadResend s = .next (s.withDev
    (if s.dev.boot.readResends < 8 then (s.dev.modBoot fun b => { b with readResends := b.readResends + 1 }).sendRead
      else s.dev.failAttempt 0x0A)) :=
  congrArg (fun d => Host.Outcome.next (s.withDev d)) (if_neg (by simp [hphase, hstep]))

theorem exec_attemptRetry (hstep : s.dev.boot.step = .waitRetry) :
    exec .attemptRetry s = .next (s.withDev (s.dev.startAttempt (s.dev.boot.attempt + 1))) :=
  congrArg (fun d => Host.Outcome.next (s.withDev d)) (if_pos ⟨hphase, hstep⟩)

/-- What is taken of a message that answers the outstanding read. -/
theorem exec_bootData (hstep : s.dev.boot.step = .reading) {data : List Byte} (hlen : data.length = s.dev.boot.readLen)
    (hnext : s.dev.boot.nextRead < 2 ^ 64) : ∃ c, OnlyPort s.dev c ∧ SameSending s.dev c ∧
      exec (.bootData s.dev.boot.server s.dev.boot.imageId (.ofNat 64 s.dev.boot.nextRead) data) s = .next (s.withDev
        (if s.dev.boot.nextRead ≠ 0 ∨ firmwareCheck s.fuses data s.dev.boot.imageLen.toNat = 0 then (imageGrown c data).nextRange
          else (imageGrown c data).failAttempt (firmwareCheck s.fuses data s.dev.boot.imageLen.toNat))) := by
  have honly := onlyPort_consume s.dev (.mac s.dev.boot.server) 6 4
  refine ⟨_, honly, sameSending_consume s.dev (.mac s.dev.boot.server) 6 4,
    congrArg (fun d => Host.Outcome.next (s.withDev d)) ?_⟩
  have htaken (c : Dev) (honly : OnlyPort s.dev c) := bootData_of_answer (d := c) (f := s.fuses) (data := data)
    (honly.phase.trans hphase) (by rw [honly.boot, hstep]) (by rw [honly.boot, hlen]) (by rwa [honly.boot])
  have hc := htaken _ honly
  rwa [honly.boot] at hc

end

/-- Settles O44. -/
theorem bootExchange : Obligations.BootExchange := by
  intro s hphase hopen b
  refine ⟨fun hstep => ?_, fun hstep src id len hsrc => ?_, fun hstep hmore => ?_, fun hstep hmost => ?_,
    fun hstep data hlen hnext => ?_, fun hstep => ?_, fun slab => ?_⟩
  · exact ⟨_, exec_helloRepeat hphase hstep, onlyPort_sendHello s.dev, sentOne_sendHello s.dev hopen⟩
  · have hsending := sameSending_consume s.dev (.mac src) 6 2
    have honly := onlyPort_consume s.dev (.mac src) 6 2
    refine ⟨_, exec_bootOffer hphase hstep id len hsrc, ?_⟩
    obtain ⟨c, hc⟩ : ∃ c, c = s.dev.consume (.mac src) 6 2 := ⟨_, rfl⟩
    rw [← hc] at hsending honly ⊢
    have hasked := onlyPort_askRange (offerTaken c src id len) 0 384
    have hoffer : SameSending s.dev (offerTaken c src id len) := hsending.modBoot _
    exact ⟨congrArg (·.step) hasked.boot, congrArg (·.server) hasked.boot, congrArg (·.imageId) hasked.boot,
      congrArg (·.imageLen) hasked.boot, congrArg (·.image) hasked.boot, honly.withBoot hasked,
      hoffer.sentOne (sentOne_askRange _ (hoffer.linkOpen hopen) 0 384)⟩
  · refine ⟨_, exec_bootReadResend hphase hstep, ?_⟩
    rw [if_pos hmore]
    exact ⟨onlyPort_sendRead _, sentOne_sendRead _ hopen⟩
  · refine ⟨_, exec_bootReadResend hphase hstep, ?_⟩
    rw [if_neg (Nat.not_lt.mpr hmost)]
    exact attemptFailed_failAttempt s.dev hopen 0x0A
  · intro row image good
    obtain ⟨c, honly, hsending, hrow⟩ := exec_bootData hphase hstep hlen hnext
    have hgrown : SameSending s.dev (imageGrown c data) := hsending.modBoot _
    have hlinked := hgrown.linkOpen hopen
    have hboot : (imageGrown c data).boot = { b with image := image } :=
      congrArg (fun x : Boot => { x with image := x.image ++ data }) honly.boot
    refine ⟨fun hbad => ⟨_, hrow, ?_⟩, fun hgood hshort => ⟨_, hrow, ?_⟩, fun hgood hfull hsha => ⟨_, hrow, ?_⟩,
      fun hgood hfull hsha => ⟨_, hrow, ?_⟩⟩
    · rw [if_neg hbad]
      exact attemptFailed_of_sameSending hgrown hopen (by rw [hboot]) (by rw [hboot]) _
    · rw [if_pos hgood, nextRange_of_short _ (by rwa [hboot])]
      have hasked (len more : Nat) := (onlyPort_askRange (imageGrown c data) len more).boot
      have hsent (len more : Nat) := hgrown.sentOne (sentOne_askRange _ hlinked len more)
      rw [hboot] at hsent ⊢
      exact ⟨(congrArg (·.step) (hasked _ _)).trans ((congrArg (·.step) hboot).trans hstep),
        (congrArg (·.image) (hasked _ _)).trans (congrArg (·.image) hboot), congrArg (·.nextRead) (hasked _ _),
        congrArg (·.readResends) (hasked _ _), congrArg (·.readLen) (hasked _ _), hsent _ _⟩
    · rw [if_pos hgood, nextRange_of_good _ (by rwa [hboot]) (by rwa [hboot])]
      refine ⟨phase_firmwareStart _, bootErrn_firmwareStart _, (fwMeasure_firmwareStart _).trans ?_⟩
      rw [hboot]
    · rw [if_pos hgood, nextRange_of_bad _ (by rwa [hboot]) (by rwa [hboot])]
      exact attemptFailed_of_sameSending hgrown hopen (by rw [hboot]) (by rw [hboot]) _
  · exact ⟨_, exec_attemptRetry hphase hstep, step_startAttempt .., attempt_startAttempt ..,
      sentOne_startAttempt s.dev _ hopen⟩
  · obtain ⟨d, hd⟩ : ∃ d : Dev, d = { s.dev with
      stk := { s.dev.stk with initialising := s.dev.stk.initialising.filter (· ≠ slab) } } := ⟨_, rfl⟩
    have hrow : exec (.slabInitDone slab) s = .next (s.withDev d.tryHello) := by rw [hd]; rfl
    have hdboot : d.boot = b := by rw [hd]
    have hdphase : d.phase = .boot := by rw [hd, ← hphase]
    have hdsending : SameSending s.dev d := by rw [hd]; exact sameSending_of_port rfl rfl
    have hdinit : d.stk.initialising = s.dev.stk.initialising.filter (· ≠ slab) := by rw [hd]
    have hdmem : d.mem = s.dev.mem := by rw [hd]
    rw [tryHello_eq hdphase (hdsending.linkOpen hopen).1, hdboot] at hrow
    refine ⟨_, hrow, ?_⟩
    split
    · next hlast =>
      have hbegun := onlyPort_startAttempt d 1
      have hstk : (d.startAttempt 1).stk = d.stk := by rw [hbegun]; rfl
      refine ⟨hbegun.mem.trans hdmem, (congrArg (·.initialising) hstk).trans hdinit, fun _ _ => ⟨step_startAttempt d 1,
        attempt_startAttempt d 1, ?_⟩, fun hnot => ?_⟩
      · have hto : helloTo d = helloTo s.dev := by rw [helloTo, hdboot, helloTo]
        exact hto ▸ hdsending.sentOne (sentOne_startAttempt d 1 (hdsending.linkOpen hopen))
      · exact absurd hlast (by rw [← hstk]; exact fun h => hnot.elim (· h.1) (· h.2))
    · next hnot =>
      refine ⟨hdmem, hdinit, fun hidle hnone => absurd ⟨hidle, hnone⟩ hnot, fun _ => ?_⟩
      rw [hd]
      rfl

end Sys2Proof.Proofs
end

section
/-! SUPPORT. The link, address queries and flow control (17 R506, R507, R509). -/

namespace Sys2Proof.Proofs

open Sys2Proof.Machine Sys2Proof.Terms

/-! ### The link (17 R506) -/

theorem exec_linkUp {s : State} (halive : s.dev.alive = true) (hdown : s.dev.linkUp = false) :
    exec .linkUp s = .next (s.withDev (s.dev.setReg 0x8000 2 2).tryHello) :=
  congrArg (fun d => Host.Outcome.next (s.withDev d)) (if_pos ⟨halive, by rw [hdown]; rfl⟩)

/-- What the first hello of a boot, if any, leaves of the registers. -/
theorem regs_tryHello (d : Dev) : d.tryHello.regs = d.regs := by
  unfold Dev.tryHello
  split
  · exact (onlyPort_startAttempt d 1).regs
  · rfl

theorem tryHello_of_service {d : Dev} (h : d.phase = .service) : d.tryHello = d :=
  if_neg fun hboot => absurd (h.symm.trans hboot.1) (by decide)

/-- The device as the link falls with nothing under way. -/
def linkGone (d : Dev) : Dev :=
  (({ d with draw := d.draw + 1 } : Dev).faultUc 0x11 (d.drawWord.1.toNat % 65536) 0 0 0 0).modPort fun x =>
    { x with transports := [], held := [], paused := [] }

/-- With nothing that waits for an answer, the link takes only its transports along. -/
theorem linkLost_of_idle {d : Dev} (hup : d.linkUp = true) (hxfers : d.tick.xfers = []) (hckpts : d.tick.ckpts = [])
    (hcolls : d.tick.colls = []) (hmsgs : d.port.messages = []) : d.linkLost = linkGone d := by
  have hgone : (linkGone d).tick = d.tick := rfl
  have hall : (linkGone d).unreachable (fun _ => true) true (d.drawWord.1.toNat % 65536) = linkGone d := by
    simp [Dev.unreachable, hgone, hxfers, hckpts, hcolls]
  rw [Dev.linkLost, if_neg (by rw [hup]; decide)]
  simp only [Dev.drawWord, hmsgs, List.filter_nil, List.foldl_nil]
  exact hall

theorem exec_linkDown {s : State} (halive : s.dev.alive = true) (hup : s.dev.linkUp = true) :
    exec .linkDown s = .next (s.withDev (s.dev.linkLost.setReg 0x8000 2 0)) :=
  congrArg (fun d => Host.Outcome.next (s.withDev d)) (if_pos ⟨halive, hup⟩)

/-! ### Address queries (17 R507) -/

section
variable {d : Dev} (halive : d.alive = true) (hup : d.linkUp = true) (mac : BitVec 48) {own : Nat} {target : BitVec 128}
include halive hup

theorem answerQuery_own (hown : target.toNat = own) (hzero : target ≠ 0) : d.answerQuery mac own target =
    { d with port := { d.port with arpReplies := d.port.arpReplies ++ [(mac, target)] } } := by
  have hne : own ≠ 0 := fun h => hzero (BitVec.eq_of_toNat_eq (hown.trans h))
  simp only [Dev.answerQuery, halive, hup, Bool.not_true, Bool.false_eq_true, or_self, if_false]
  exact if_pos ⟨hne, hown⟩

theorem answerQuery_other (hother : target.toNat ≠ own) : d.answerQuery mac own target = d.bump 0x8000 0x12 1 := by
  simp only [Dev.answerQuery, halive, hup, Bool.not_true, Bool.false_eq_true, or_self, if_false]
  exact if_neg fun h => hother h.2

end

/-! ### Flow control (17 R509) -/

section
variable {d : Dev} (halive : d.alive = true) (hup : d.linkUp = true) {p : BitVec 3}

theorem pfc_of_disabled (hoff : (d.reg 0x8000 0x0C).testBit p.toNat = false) (on : Bool) : d.pfc p on = d := by
  simp [Dev.pfc, hoff]

include halive hup

theorem pfc_pauses (hon : (d.reg 0x8000 0x0C).testBit p.toNat = true) :
    d.pfc p true = { d with port := { d.port with paused := (p :: d.port.paused).eraseDups } } := by
  simp [Dev.pfc, halive, hup, hon, Dev.modPort]

theorem pfc_releases (hon : (d.reg 0x8000 0x0C).testBit p.toNat = true) (hheld : ∀ m ∈ d.port.held, m.prio ≠ p) :
    d.pfc p false = { d with port := { d.port with paused := d.port.paused.filter (· ≠ p) } } := by
  have hnone : d.port.held.filter (fun m => m.prio = p) = [] := List.filter_eq_nil_iff.mpr fun m hm => by simpa using hheld m hm
  have hall : d.port.held.filter (fun m => m.prio ≠ p) = d.port.held := List.filter_eq_self.mpr fun m hm => by simpa using hheld m hm
  simp only [Dev.pfc, halive, hup, hon, Bool.not_true, Bool.false_eq_true, or_self, if_false, Dev.releaseHeld, hnone,
    List.foldl_nil, Dev.modPort, hall]

end

theorem toNat_zeroExtend_ipv4 (x : BitVec 32) : (x.zeroExtend 128).toNat = x.toNat :=
  BitVec.toNat_setWidth_of_le (by decide)

theorem zeroExtend_ipv4_ne_zero {x : BitVec 32} (h : x ≠ 0) : x.zeroExtend 128 ≠ 0 := fun hzero =>
  h (BitVec.eq_of_toNat_eq (by rw [← toNat_zeroExtend_ipv4, hzero]; rfl))

/-- Settles O49. -/
theorem linkEvents : Obligations.LinkEvents := by
  intro s halive
  refine ⟨fun hdown hpaused => ⟨_, exec_linkUp halive hdown, ?_, fun hphase hstep hinit => ?_, fun hphase => ?_⟩,
    fun hup => ⟨fun hxfers hckpts hcolls hmsgs => ?_, fun mac x => ⟨fun hown hzero => ?_, fun hother => ?_⟩, fun mac x => ?_, fun p => ⟨fun hoff on => ?_, fun hon => ⟨?_, fun hheld => ?_⟩⟩⟩⟩
  · exact (reg_congr (regs_tryHello _) 0x8000 2).trans (Dev.reg_setReg_same ..)
  · have hopen : linkOpen (s.dev.setReg 0x8000 2 2) := ⟨by rw [Dev.linkUp, Dev.reg_setReg_same]; rfl, hpaused⟩
    rw [tryHello_eq (d := s.dev.setReg 0x8000 2 2) hphase hopen.1, if_pos ⟨hstep, hinit⟩]
    exact ⟨step_startAttempt .., attempt_startAttempt .., sentOne_startAttempt (s.dev.setReg 0x8000 2 2) 1 hopen⟩
  · exact tryHello_of_service hphase
  · refine ⟨s.withDev ((linkGone s.dev).setReg 0x8000 2 0), _, ?_, Dev.reg_setReg_same .., rfl, rfl, rfl, rfl, rfl, rfl, rfl⟩
    rw [exec_linkDown halive hup, linkLost_of_idle hup hxfers hckpts hcolls hmsgs]
  · exact congrArg (fun d => Host.Outcome.next (s.withDev d)) (answerQuery_own halive hup mac
      ((toNat_zeroExtend_ipv4 x).trans hown) (zeroExtend_ipv4_ne_zero hzero))
  · exact congrArg (fun d => Host.Outcome.next (s.withDev d)) (answerQuery_other halive hup mac
      ((toNat_zeroExtend_ipv4 x).trans_ne hother))
  · intro own
    exact ⟨fun hown hzero => congrArg (fun d => Host.Outcome.next (s.withDev d)) (answerQuery_own halive hup mac hown hzero),
      fun hother => congrArg (fun d => Host.Outcome.next (s.withDev d)) (answerQuery_other halive hup mac hother)⟩
  · exact congrArg (fun d => Host.Outcome.next (s.withDev d)) (pfc_of_disabled hoff on)
  · exact ⟨s.withDev _, congrArg (fun d => Host.Outcome.next (s.withDev d)) (pfc_pauses halive hup hon), rfl, fun q => by simp⟩
  · exact ⟨s.withDev _, congrArg (fun d => Host.Outcome.next (s.withDev d)) (pfc_releases halive hup hon hheld), rfl,
      fun q => by simp [and_comm]⟩

end Sys2Proof.Proofs
end

section
/-! SUPPORT. Frames, acknowledgements and resends (17 R511-R515). -/

namespace Sys2Proof.Proofs

open Sys2Proof.Machine Sys2Proof.Terms

/-! ### Transport state -/

theorem transport_ep (d : Dev) (e : Endpoint) (p : BitVec 3) : (d.transport e p).ep = e ∧ (d.transport e p).prio = p := by
  unfold Dev.transport
  cases hfind : d.port.transports.find? fun t => t.ep = e && t.prio = p with
  | none => exact ⟨rfl, rfl⟩
  | some t => simpa using List.find?_some hfind

section
variable {α : Type} {p q : α → Bool} {l : List α} {a : α}

theorem find?_replace_same (h : q a = true) : (l.filter (fun x => !q x) ++ [a]).find? q = some a := by
  have hnone : (l.filter fun x => !q x).find? q = none :=
    List.find?_eq_none.mpr fun x hx hq => by simp [hq] at hx
  rw [List.find?_append, hnone, Option.none_or, List.find?_singleton, if_pos h]

theorem find?_replace_other (h : q a = false) (hpq : ∀ x, q x = true → p x = false) :
    (l.filter (fun x => !p x) ++ [a]).find? q = l.find? q := by
  have hpred : (fun x => decide ((!p x) = true ∧ q x = true)) = q := by
    funext x
    cases hq : q x with
    | false => simp
    | true => simp [hpq x hq]
  rw [List.find?_append, List.find?_filter, hpred, List.find?_singleton, if_neg (by simp [h]), Option.or_none]

end

section
variable {d : Dev} {t : Transport} {e : Endpoint} {p : BitVec 3}

theorem transport_setTransport_same (hep : t.ep = e) (hprio : t.prio = p) : (d.setTransport t).transport e p = t := by
  subst hep hprio
  have hfind := find?_replace_same (q := fun u : Transport => u.ep = t.ep && u.prio = t.prio) (l := d.port.transports) (a := t)
    (by simp)
  exact congrArg (Option.getD · _) hfind

theorem transport_setTransport_other (h : ¬(e = t.ep ∧ p = t.prio)) : (d.setTransport t).transport e p = d.transport e p := by
  have hfind := find?_replace_other (q := fun u : Transport => u.ep = e && u.prio = p)
    (p := fun u : Transport => u.ep = t.ep && u.prio = t.prio) (l := d.port.transports) (a := t)
    (by grind) (by grind)
  exact congrArg (Option.getD · _) hfind

end

/-! ### Acknowledgements (17 R513) -/

section
variable (d : Dev) (ep : Endpoint) (p : BitVec 3) (n : BitVec 32)

theorem onlyPort_acked : OnlyPort d (d.acked ep p n) := by
  unfold Dev.acked
  dsimp only
  split
  · exact OnlyPort.refl
  · exact onlyPort_setTransport d _

theorem transport_acked : (d.acked ep p n).transport ep p =
    { d.transport ep p with unacked := (d.transport ep p).unacked.filter fun f => !seqBefore f.hdr.tseq n } := by
  obtain ⟨hep, hprio⟩ := transport_ep d ep p
  unfold Dev.acked
  dsimp only
  split
  · next hall => rw [hall]
  · exact transport_setTransport_same hep hprio

theorem transport_acked_other {e : Endpoint} {q : BitVec 3} (h : ¬(e = ep ∧ q = p)) :
    (d.acked ep p n).transport e q = d.transport e q := by
  obtain ⟨hep, hprio⟩ := transport_ep d ep p
  unfold Dev.acked
  dsimp only
  split
  · rfl
  · exact transport_setTransport_other (by rw [hep, hprio]; exact h)

end

theorem exec_ack {s : State} (halive : s.dev.alive = true) (hup : s.dev.linkUp = true) {ep : Endpoint} {p : BitVec 3}
    {n : BitVec 32} : exec (.ack ep p n) s = .next (s.withDev (s.dev.acked ep p n)) :=
  congrArg (fun d => Host.Outcome.next (s.withDev d)) (if_pos ⟨halive, hup⟩)

/-! ### Frames (17 R507, R511, R513) -/

/-- The device once it has taken a frame's sequence number: the expectation moves on, and the frame is acknowledged. -/
def numbered (d : Dev) (w : WireFrame) : Dev :=
  (d.setTransport { d.transport w.ep w.prio with expect := some (w.hdr.tseq + 1) }).modPort fun x =>
    { x with acksSent := x.acksSent ++ [(w.ep, w.prio, w.hdr.tseq + 1)],
             spoke := (w.ep, w.hdr.version) :: x.spoke.filter fun p => p.1 ≠ w.ep }

theorem transport_numbered (d : Dev) (w : WireFrame) :
    (numbered d w).transport w.ep w.prio = { d.transport w.ep w.prio with expect := some (w.hdr.tseq + 1) } := by
  obtain ⟨hep, hprio⟩ := transport_ep d w.ep w.prio
  exact transport_setTransport_same (d := d) hep hprio

section
variable {d : Dev} {w : WireFrame} (halive : d.alive = true) (hup : d.linkUp = true)
include halive hup

theorem frameIn_of_not_frameOk (hok : d.frameOk w = false) : d.frameIn w = d.bump 0x8000 0x12 1 := by
  simp [Dev.frameIn, halive, hup, hok, Dev.dropFrame]

theorem frameIn_of_ack (hok : d.frameOk w = true) (hcls : w.hdr.cls = 4) (hackv : w.hdr.ackv = true) :
    d.frameIn w = d.acked w.ep w.prio w.hdr.ack := by
  simp [Dev.frameIn, halive, hup, hok, hcls, hackv]

theorem frameIn_eq_judgeFrame (hok : d.frameOk w = true) (hcls : w.hdr.cls ≠ 4) : d.frameIn w = d.judgeFrame w := by
  simp only [Dev.frameIn, halive, hup, hok, hcls, Bool.not_true, Bool.false_eq_true, or_self, if_false]

end

section
variable {d : Dev} {w : WireFrame} (hroom : w.ep ∈ d.endpoints ∨ d.endpoints.length < 4096)
include hroom

/-- The endpoint has transport state, or room for it. -/
theorem endpoint_known : ¬(!(d.endpoints.contains w.ep) ∧ 4096 ≤ d.endpoints.length) := by
  rintro ⟨hnew, hfull⟩
  obtain hmem | hless := hroom
  · simp [hmem] at hnew
  · omega

theorem judgeFrame_of_taken (htaken : w.hdr.sync = true ∨ (d.transport w.ep w.prio).expect = some w.hdr.tseq) :
    d.judgeFrame w = d.acceptFrame w (d.transport w.ep w.prio) := by
  rw [Dev.judgeFrame]
  rw [if_neg (endpoint_known hroom), if_pos htaken]

theorem judgeFrame_of_repeated {e : BitVec 32} (hsync : w.hdr.sync = false)
    (hexpect : (d.transport w.ep w.prio).expect = some e) (hne : e ≠ w.hdr.tseq) : d.judgeFrame w =
      if seqBefore w.hdr.tseq e then d.modPort fun x => { x with acksSent := x.acksSent ++ [(w.ep, w.prio, e)] } else d := by
  rw [Dev.judgeFrame]
  rw [if_neg (endpoint_known hroom), if_neg (by rw [hsync, hexpect]; simpa using hne), hexpect]

theorem judgeFrame_of_unexpected (hsync : w.hdr.sync = false) (hexpect : (d.transport w.ep w.prio).expect = none) :
    d.judgeFrame w = d := by
  rw [Dev.judgeFrame]
  rw [if_neg (endpoint_known hroom), if_neg (by rw [hsync, hexpect]; simp), hexpect]

end

/-! ### Segments (17 R512, R515) -/

/-- The message that a first segment opens. -/
def openedBy (d : Dev) (w : WireFrame) : Msg :=
  { ep := w.ep, prio := w.prio, number := w.hdr.msg, cls := w.hdr.cls, kind := w.hdr.kind, version := w.hdr.version,
    src := w.hdr.src, segs := [(w.hdr.offset.toNat, w.data.take w.hdr.segLen.toNat)], last := w.hdr.last,
    startedAt := d.clock, judged := false }

/-- A message with one more segment. -/
def grownBy (m : Msg) (w : WireFrame) : Msg :=
  { m with segs := m.segs ++ [(w.hdr.offset.toNat, w.data.take w.hdr.segLen.toNat)], last := m.last || w.hdr.last }

section
variable {d : Dev} {w : WireFrame}

theorem openMsg_of_new (hheard : ¬(w.hdr.cls = 3 ∧ w.hdr.src.toNat ∈ d.tick.lost))
    (hnew : d.findMsg w.ep w.prio w.hdr.msg = none) :
    d.openMsg w = d.modPort fun x => { x with messages := x.messages ++ [openedBy d w] } := by
  have hnot : ¬(w.hdr.cls = 3 ∧ d.tick.lost.contains w.hdr.src.toNat = true) := by simpa using hheard
  simp only [Dev.openMsg, if_neg hnot, hnew]
  rfl

theorem growMsg_of_found {m : Msg} (hfound : d.findMsg w.ep w.prio w.hdr.msg = some m) (hcls : m.cls = w.hdr.cls)
    (hopen : ¬(m.cls = 0 ∧ m.judged = true)) : d.growMsg w = d.setMsg m (grownBy m w) := by
  have hleft : ¬(m.cls = 0 ∧ m.judged = true ∧ (!d.admitted m.ep) = true) := fun h => hopen ⟨h.1, h.2.1⟩
  simp only [Dev.growMsg, hfound]
  rw [if_neg (not_not_intro hcls), if_neg hleft]
  exact if_neg hopen

theorem dropPartial_of_not_judged {m : Msg} (h : ¬(m.cls = 0 ∧ m.judged = true)) : d.dropPartial m = d.dropMsg m :=
  if_neg h

section
variable (hackv : w.hdr.ackv = false)
include hackv

theorem acceptFrame_first (hfirst : w.hdr.first = true) :
    d.acceptFrame w (d.transport w.ep w.prio) = (numbered d w).openMsg w := by
  simp only [Dev.acceptFrame, hackv, hfirst, Bool.false_eq_true, if_false, if_true]
  rfl

theorem acceptFrame_later (hfirst : w.hdr.first = false) :
    d.acceptFrame w (d.transport w.ep w.prio) = (numbered d w).growMsg w := by
  simp only [Dev.acceptFrame, hackv, hfirst, Bool.false_eq_true, if_false]
  rfl

end

end

/-! ### Resends, failure and messages given up (17 R514, R515) -/

section
variable {d : Dev} {ep : Endpoint} {p : BitVec 3}

theorem resend_of_unpaused {f : SentFrame} {rest : List SentFrame} (hun : (d.transport ep p).unacked = f :: rest)
    (hfew : f.resends < 3) (hup : d.linkUp = true) (hfree : p ∉ d.port.paused) : d.resend ep p =
      (d.setTransport { d.transport ep p with
        unacked := (d.transport ep p).unacked.map fun g => { g with resends := g.resends + 1 } }).bump 0x8000 0x0F
          (d.transport ep p).unacked.length := by
  have hgo : ¬(3 ≤ f.resends ∨ (!d.linkUp) = true ∨ d.port.paused.contains p = true) := by simp [hup, hfree, hfew]
  simp only [Dev.resend, hun, if_neg hgo]

theorem resend_of_many {f : SentFrame} {rest : List SentFrame} (hun : (d.transport ep p).unacked = f :: rest)
    (hmany : 3 ≤ f.resends) : d.resend ep p = d := by
  simp only [Dev.resend, hun]
  exact if_pos (.inl hmany)

/-- The device as a transport fails with nothing under way over it; `c` is the device once the endpoint's index `k` is known. -/
def transportGone (c : Dev) (t : Transport) (k : Nat) : Dev :=
  ((c.setTransport { t with unacked := [], syncNext := true }).bump 0x8000 0x0E 1).faultUc 0x11 k 0 0 0 0

theorem endpointIndex_frame (d : Dev) (ep : Endpoint) : ∃ k n, d.endpointIndex ep = (k, { d with draw := n }) := by
  unfold Dev.endpointIndex
  split
  · exact ⟨_, d.draw, rfl⟩
  · exact ⟨_, _, rfl⟩

theorem transportFails_of_idle (hun : (d.transport ep p).unacked ≠ []) (hxfers : d.tick.xfers = []) (hckpts : d.tick.ckpts = [])
    (hcolls : d.tick.colls = []) (hmsgs : d.port.messages = []) :
    ∃ k n, d.transportFails ep p = transportGone { d with draw := n } (d.transport ep p) k := by
  obtain ⟨k, n, hindex⟩ := endpointIndex_frame d ep
  have hnone (t : Transport) : (({ d with draw := n } : Dev).setTransport t).port.messages = [] := hmsgs
  have htick : (transportGone { d with draw := n } (d.transport ep p) k).tick = d.tick := rfl
  have hall (gone : Nat → Bool) (host : Bool) : (transportGone { d with draw := n } (d.transport ep p) k).unreachable gone host k =
      transportGone { d with draw := n } (d.transport ep p) k := by
    simp [Dev.unreachable, htick, hxfers, hckpts, hcolls]
  refine ⟨k, n, ?_⟩
  rw [Dev.transportFails, if_neg hun]
  simp only [hindex, Dev.bump_port, hnone, List.filter_nil, List.foldl_nil]
  exact hall _ _

end

/-- Settles O50. -/
theorem framesAndAcknowledgements : Obligations.FramesAndAcknowledgements := by
  intro s halive hup
  refine ⟨fun w => ?_, fun ep p => ?_⟩
  · intro x
    refine ⟨fun hok => congrArg (fun d => Host.Outcome.next (s.withDev d)) (frameIn_of_not_frameOk halive hup hok),
      fun hok hcls hroom => ?_, fun hok hcls hackv => ?_⟩
    · have hrow : exec (.cwpFrame w) s = .next (s.withDev (s.dev.judgeFrame w)) :=
        congrArg (fun d => Host.Outcome.next (s.withDev d)) (frameIn_eq_judgeFrame halive hup hok hcls)
      refine ⟨fun htaken hackv hheard seg hseg => ?_, fun e hsync hexpect hne => ?_, fun hsync hexpect => ?_⟩
      · rw [judgeFrame_of_taken hroom htaken] at hrow
        refine ⟨fun hfirst hnew => ?_, fun m hfirst hfound hmcls hopen => ?_⟩
        · rw [acceptFrame_first hackv hfirst, openMsg_of_new (d := numbered s.dev w) hheard hnew] at hrow
          refine ⟨_, hrow, rfl, rfl, transport_numbered s.dev w, ?_⟩
          rw [hseg]
          rfl
        · rw [acceptFrame_later hackv hfirst, growMsg_of_found (d := numbered s.dev w) hfound hmcls hopen] at hrow
          refine ⟨_, hrow, rfl, rfl, ?_⟩
          rw [hseg]
          rfl
      · rw [hrow, judgeFrame_of_repeated hroom hsync hexpect hne]
        simp only [seqBefore, Bool.and_eq_true, decide_eq_true_eq]
        split <;> rfl
      · rw [hrow, judgeFrame_of_unexpected hroom hsync hexpect]
        rfl
    · have hack : exec (.ack w.ep w.prio w.hdr.ack) s = .next (s.withDev (s.dev.acked w.ep w.prio w.hdr.ack)) :=
        exec_ack halive hup
      rw [hack]
      exact congrArg (fun d => Host.Outcome.next (s.withDev d)) (frameIn_of_ack halive hup hok hcls hackv)
  · intro x
    refine ⟨fun n => ⟨_, exec_ack halive hup, onlyPort_acked s.dev ep p n, ?_, ?_, fun e q => transport_acked_other s.dev ep p n⟩,
      fun f rest hun hfree => ⟨fun hfew => ?_, fun hmany => ?_⟩, fun hun hxfers hckpts hcolls hmsgs => ?_,
      fun n m hfound hwhole hopen => ?_⟩
    · exact congrArg (·.unacked) (transport_acked s.dev ep p n)
    · exact congrArg (·.expect) (transport_acked s.dev ep p n)
    · refine ⟨s.withDev _, congrArg (fun d => Host.Outcome.next (s.withDev d)) (resend_of_unpaused hun hfew hup hfree), ?_, ?_, rfl⟩
      · obtain ⟨hep, hprio⟩ := transport_ep s.dev ep p
        exact congrArg (·.unacked) (transport_setTransport_same (d := s.dev) (t := { s.dev.transport ep p with
          unacked := (s.dev.transport ep p).unacked.map fun g => { g with resends := g.resends + 1 } }) hep hprio)
      · exact (reg_bump _ _ (by decide) (by decide)).trans (if_pos ⟨rfl, rfl⟩)
    · exact congrArg (fun d => Host.Outcome.next (s.withDev d)) (resend_of_many hun hmany)
    · obtain ⟨k, n, hfails⟩ := transportFails_of_idle hun hxfers hckpts hcolls hmsgs
      refine ⟨s.withDev _, _, congrArg (fun d => Host.Outcome.next (s.withDev d)) hfails, ?_, ?_, rfl, rfl, rfl, rfl⟩
      · obtain ⟨hep, hprio⟩ := transport_ep s.dev ep p
        exact transport_setTransport_same (d := s.dev) hep hprio
      · exact (reg_bump (({ s.dev with draw := n } : Dev).setTransport _) 1 (by decide) (by decide)).trans (if_pos ⟨rfl, rfl⟩)
    · refine congrArg (fun d => Host.Outcome.next (s.withDev d)) (?_ : s.dev.giveUp ep p n = _)
      simp only [Dev.giveUp, hfound, hwhole, Bool.false_eq_true, if_false]
      exact dropPartial_of_not_judged hopen

end Sys2Proof.Proofs
end

section
/-! SUPPORT. Rails and sensors (22 R631, R638-R641). -/

namespace Sys2Proof.Proofs

open Sys2Proof.Machine Sys2Proof.Terms

/-! ### Rails (22 R631) -/

/-- A reading that answers without a warning. -/
def Quiet (r : RailReading) : Prop := r.answered = true ∧ r.warning = false ∧ r.shutdown = false

/-- One rail's reading, of PMBUS_POLL or PMB_ALERT. -/
def railRead (poll : Bool) (d : Dev) (j : Nat) (r : RailReading) : Dev := if poll then d.pollRail j r else d.alertRail j r

/-- The entries that a reading of rail `j` writes. -/
def railEntry (poll : Bool) (j i k : Nat) : Prop := i = 0x7300 + j ∧ (k = 7 ∨ poll = true ∧ (k = 5 ∨ k = 6))

/-- Nothing but registers and the arbiter differs. -/
def OnlyReadings (d e : Dev) : Prop := e = { d with regs := e.regs, power := e.power }

theorem OnlyReadings.refl (d : Dev) : OnlyReadings d d := rfl

theorem OnlyReadings.trans {d e f : Dev} (h : OnlyReadings d e) (h' : OnlyReadings e f) : OnlyReadings d f := by
  rw [OnlyReadings, h', h]

section
variable {d : Dev} {j : Nat} {r : RailReading} (hquiet : Quiet r)
include hquiet

theorem railStatus_of_quiet :
    d.railStatus j r = d.modPower fun x => { x with railWarned := x.railWarned.filter (· ≠ j) } := by
  obtain ⟨hans, hwarn, hshut⟩ := hquiet
  simp [Dev.railStatus, hans, hwarn, hshut]

theorem onlyReadings_railRead (poll : Bool) : OnlyReadings d (railRead poll d j r) := by
  cases poll with
  | true =>
    simp only [railRead, if_true, Dev.pollRail, hquiet.1, railStatus_of_quiet hquiet]
    rfl
  | false =>
    simp only [railRead, Bool.false_eq_true, if_false, Dev.alertRail, hquiet.1, if_true, railStatus_of_quiet hquiet]
    rfl

theorem regs_pollRail : (d.pollRail j r).regs =
    (((d.setReg (0x7300 + j) 5 r.vout.toNat).setReg (0x7300 + j) 6 r.iout.toNat).setReg (0x7300 + j) 7 r.status.toNat).regs := by
  simp only [Dev.pollRail, hquiet.1, railStatus_of_quiet hquiet, if_true]
  rfl

theorem regs_alertRail : (d.alertRail j r).regs = (d.setReg (0x7300 + j) 7 r.status.toNat).regs := by
  simp only [Dev.alertRail, hquiet.1, railStatus_of_quiet hquiet, if_true]
  rfl

theorem reg_pollRail (i : Nat) {k : Nat} (hk : k < 256) : (d.pollRail j r).reg i k =
    if i = 0x7300 + j ∧ k = 7 then r.status.toNat else if i = 0x7300 + j ∧ k = 6 then r.iout.toNat
    else if i = 0x7300 + j ∧ k = 5 then r.vout.toNat else d.reg i k := by
  have hsmall (v : BitVec 16) : v.toNat % 2 ^ 64 = v.toNat := Nat.mod_eq_of_lt (v.isLt.trans (by decide))
  rw [reg_congr (regs_pollRail hquiet), Dev.reg_setReg _ _ _ _ _ _ (by decide) hk, Dev.reg_setReg _ _ _ _ _ _ (by decide) hk,
    Dev.reg_setReg _ _ _ _ _ _ (by decide) hk, hsmall, hsmall, hsmall]

theorem reg_alertRail (i : Nat) {k : Nat} (hk : k < 256) : (d.alertRail j r).reg i k =
    if i = 0x7300 + j ∧ k = 7 then r.status.toNat else d.reg i k := by
  have hsmall (v : BitVec 16) : v.toNat % 2 ^ 64 = v.toNat := Nat.mod_eq_of_lt (v.isLt.trans (by decide))
  rw [reg_congr (regs_alertRail hquiet), Dev.reg_setReg _ _ _ _ _ _ (by decide) hk, hsmall]

theorem reg_railRead_status (poll : Bool) : (railRead poll d j r).reg (0x7300 + j) 7 = r.status.toNat := by
  cases poll with
  | true => exact (reg_pollRail hquiet _ (by decide)).trans (if_pos ⟨rfl, rfl⟩)
  | false => exact (reg_alertRail hquiet _ (by decide)).trans (if_pos ⟨rfl, rfl⟩)

theorem reg_railRead_vout : (railRead true d j r).reg (0x7300 + j) 5 = r.vout.toNat :=
  (reg_pollRail hquiet _ (by decide)).trans (by simp)

theorem reg_railRead_iout : (railRead true d j r).reg (0x7300 + j) 6 = r.iout.toNat :=
  (reg_pollRail hquiet _ (by decide)).trans (by simp)

theorem reg_railRead_other {poll : Bool} {i k : Nat} (hk : k < 256) (h : ¬railEntry poll j i k) :
    (railRead poll d j r).reg i k = d.reg i k := by
  unfold railEntry at h
  cases poll with
  | true =>
    refine (reg_pollRail hquiet i hk).trans ?_
    rw [if_neg (by tauto), if_neg (by tauto), if_neg (by tauto)]
  | false =>
    refine (reg_alertRail hquiet i hk).trans ?_
    rw [if_neg (by tauto)]

end

/-- The rails' readings in order. -/
def railsRead (poll : Bool) (d : Dev) (rs : List RailReading) : Dev :=
  rs.zipIdx.foldl (fun (d : Dev) r => railRead poll d r.2 r.1) d

theorem railsRead_append (poll : Bool) (d : Dev) (rs : List RailReading) (r : RailReading) :
    railsRead poll d (rs ++ [r]) = railRead poll (railsRead poll d rs) rs.length r := by
  simp [railsRead, List.zipIdx_append]

theorem exec_railRow {s : State} {i : Instr} {poll : Bool} {rs : List RailReading} (hrow : railRow i = some (poll, rs))
    (hphase : s.dev.phase = .service) : exec i s = .next (s.withDev (railsRead poll s.dev (rs.take 8))) := by
  have heach (f : Dev → Nat → RailReading → Dev) : s.dev.eachRail rs f =
      (rs.take 8).zipIdx.foldl (fun (d : Dev) r => f d r.2 r.1) s.dev := if_neg (not_not_intro hphase)
  cases i
  case pmbusPoll r => cases hrow; exact congrArg (fun d => Host.Outcome.next (s.withDev d)) (heach Dev.pollRail)
  case pmbAlert r => cases hrow; exact congrArg (fun d => Host.Outcome.next (s.withDev d)) (heach Dev.alertRail)
  all_goals cases hrow

/-- What quiet readings of the rails leave: their entries, and nothing else of the dictionary. -/
structure RailsShown (poll : Bool) (d e : Dev) (rs : List RailReading) : Prop where
  frame : OnlyReadings d e
  shown : ∀ j r, rs[j]? = some r → e.reg (0x7300 + j) 7 = r.status.toNat ∧
    (poll = true → e.reg (0x7300 + j) 5 = r.vout.toNat ∧ e.reg (0x7300 + j) 6 = r.iout.toNat)
  other : ∀ i k, k < 256 → (∀ j, j < rs.length → ¬railEntry poll j i k) → e.reg i k = d.reg i k

theorem railsShown (poll : Bool) (d : Dev) {rs : List RailReading} (hquiet : ∀ r ∈ rs, Quiet r) :
    RailsShown poll d (railsRead poll d rs) rs := by
  induction rs using List.reverseRecOn with
  | nil => exact ⟨.refl d, fun j r h => by simp at h, fun _ _ _ _ => rfl⟩
  | append_singleton rs r ih =>
    obtain ⟨hframe, hshown, hother⟩ := ih fun r hr => hquiet r (List.mem_append_left _ hr)
    have hr : Quiet r := hquiet r (by simp)
    rw [railsRead_append]
    refine ⟨hframe.trans (onlyReadings_railRead hr poll), fun j x hx => ?_, fun i k hk hi => ?_⟩
    · by_cases hj : j < rs.length
      · have hold (k : Nat) (hk : k < 256) := reg_railRead_other (d := railsRead poll d rs) (j := rs.length) hr (poll := poll)
          (i := 0x7300 + j) hk (by unfold railEntry; omega)
        rw [hold 7 (by decide), hold 5 (by decide), hold 6 (by decide)]
        exact hshown j x (by rwa [List.getElem?_append_left hj] at hx)
      · obtain rfl : j = rs.length := by
          have := (List.getElem?_eq_some_iff.mp hx).1
          simp only [List.length_append, List.length_singleton] at this
          omega
        obtain rfl : r = x := by simpa using hx
        exact ⟨reg_railRead_status hr poll, fun h => by subst h; exact ⟨reg_railRead_vout hr, reg_railRead_iout hr⟩⟩
    · rw [reg_railRead_other hr hk (hi rs.length (by simp))]
      exact hother i k hk fun j hj => hi j (by simp; omega)

/-! ### Sensors (22 R638, R639, R641) -/

/-- A sensor's sample in its entry and in the arbiter's record of heat, under a throttle threshold. -/
def sampled (d : Dev) (ts : List Int) (k : Nat) (throttle : Int) : Dev :=
  let d := d.setReg (0x7500 + k) 1 (wrapInt (goodSample ts k) 32)
  d.modPower fun x => { x with
    hot := x.hot || decide (throttle ≤ goodSample ts k), warm := x.warm || !d.cool k (goodSample ts k),
    hottest := match x.hottest with
      | some h => if h.2 < goodSample ts k then some (k, goodSample ts k) else some h
      | none => some (k, goodSample ts k) }

section
variable (d : Dev) (ts : List Int) (k : Nat)

theorem reg_sampled (throttle : Int) (i : Nat) {m : Nat} (hm : m < 256) : (sampled d ts k throttle).reg i m =
    if i = 0x7500 + k ∧ m = 1 then wrapInt (goodSample ts k) 32 else d.reg i m := by
  have h := Dev.reg_setReg d (0x7500 + k) 1 (wrapInt (goodSample ts k) 32) i m (by decide) hm
  rwa [Nat.mod_eq_of_lt (wrapInt_lt _)] at h

theorem thresholds_congr {d e : Dev} (h : ∀ m, m < 256 → e.reg 0x7400 m = d.reg 0x7400 m) : e.thresholds k = d.thresholds k := by
  simp only [Dev.thresholds, h 1 (by decide), h 2 (by decide), h 3 (by decide), h 4 (by decide)]

/-- A sample that is no outlier, below the shutdown threshold. -/
theorem sense_of_mild (hin : isOutlier ts k = false) (hlow : goodSample ts k < (d.thresholds k).2) :
    d.sense ts k = sampled d ts k (d.thresholds k).1 := by
  simp only [Dev.sense, hin, Bool.false_eq_true, if_false, if_neg (Int.not_le.mpr hlow)]
  rfl

/-- The corrected fault that an outlier raises before its sample counts. -/
def outlierNoted (d : Dev) (ts : List Int) (k : Nat) : Dev := if isOutlier ts k then d.faultCorr 0x15 k 0 0 else d

theorem outlierNoted_raised : ∃ fs, (outlierNoted d ts k).faults.raised = d.faults.raised ++ fs := by
  unfold outlierNoted
  split
  · exact ⟨_, rfl⟩
  · exact ⟨[], (List.append_nil _).symm⟩

theorem outlierNoted_regs : (outlierNoted d ts k).regs = d.regs := by
  unfold outlierNoted
  split <;> rfl

theorem sense_eq : d.sense ts k = if (d.thresholds k).2 ≤ goodSample ts k
    then (sampled (outlierNoted d ts k) ts k (d.thresholds k).1).faultFatal 0x15 k
    else sampled (outlierNoted d ts k) ts k (d.thresholds k).1 := rfl

/-- A sample shows in its sensor's entry alone. -/
theorem reg_sense_other {i m : Nat} (hm : m < 256) (hi : i ≠ 0x7500 + k) : (d.sense ts k).reg i m = d.reg i m := by
  have hsampled := (reg_sampled (outlierNoted d ts k) ts k (d.thresholds k).1 i hm).trans (if_neg fun h => hi h.1)
  rw [sense_eq, ← reg_congr (outlierNoted_regs d ts k) i m, ← hsampled]
  split <;> rfl

/-- What was raised stays raised. -/
theorem raised_sense {f : RaisedFault} (h : f ∈ d.faults.raised) : f ∈ (d.sense ts k).faults.raised := by
  obtain ⟨fs, hfs⟩ := outlierNoted_raised d ts k
  have hnoted : f ∈ (outlierNoted d ts k).faults.raised := hfs ▸ List.mem_append_left fs h
  rw [sense_eq]
  split
  · exact List.mem_append_left _ hnoted
  · exact hnoted

/-- A sample at the shutdown threshold raises a fatal fault. -/
theorem raised_sense_shutdown (h : (d.thresholds k).2 ≤ goodSample ts k) :
    ∃ f ∈ (d.sense ts k).faults.raised, f.source = 0x15 ∧ f.cls = 2 ∧ f.unit = BitVec.ofNat 16 k := by
  rw [sense_eq, if_pos h]
  exact ⟨_, List.mem_append_right _ List.mem_cons_self, rfl, rfl, rfl⟩

end

/-- The first `n` sensors in order. -/
def sensed (d : Dev) (ts : List Int) (n : Nat) : Dev := (List.range n).foldl (fun (d : Dev) k => d.sense ts k) d

theorem sensed_succ (d : Dev) (ts : List Int) (n : Nat) : sensed d ts (n + 1) = (sensed d ts n).sense ts n := by
  simp [sensed, List.range_succ]

theorem reg_sensed_low (d : Dev) (ts : List Int) (n : Nat) {i m : Nat} (hm : m < 256) (hi : i < 0x7500) :
    (sensed d ts n).reg i m = d.reg i m := by
  induction n with
  | zero => rfl
  | succ n ih => rw [sensed_succ, reg_sense_other _ _ _ hm (by omega), ih]

theorem thresholds_sensed (d : Dev) (ts : List Int) (n k : Nat) : (sensed d ts n).thresholds k = d.thresholds k :=
  thresholds_congr k fun _ hm => reg_sensed_low d ts n hm (by decide)

theorem raised_sensed_shutdown (d : Dev) (ts : List Int) {n k : Nat} (hk : k < n) (h : (d.thresholds k).2 ≤ goodSample ts k) :
    ∃ f ∈ (sensed d ts n).faults.raised, f.source = 0x15 ∧ f.cls = 2 ∧ f.unit = BitVec.ofNat 16 k := by
  induction n with
  | zero => omega
  | succ n ih =>
    rw [sensed_succ]
    by_cases hlast : k = n
    · subst hlast
      exact raised_sense_shutdown _ _ _ (by rwa [thresholds_sensed])
    · obtain ⟨f, hf, hprops⟩ := ih (by omega)
      exact ⟨f, raised_sense _ _ _ hf, hprops⟩

/-- What the first `n` samples leave, where each is good and below its shutdown threshold. -/
structure Sensed (d e : Dev) (ts : List Int) (n : Nat) : Prop where
  frame : OnlyReadings d e
  shown : ∀ k, k < n → e.reg (0x7500 + k) 1 = wrapInt (goodSample ts k) 32
  hot : e.power.hot = true ↔ d.power.hot = true ∨ ∃ k, k < n ∧ (d.thresholds k).1 ≤ goodSample ts k
  other : ∀ i m, m < 256 → ¬(0x7500 ≤ i ∧ i < 0x7500 + n ∧ m = 1) → e.reg i m = d.reg i m

theorem sensed_of_mild (d : Dev) (ts : List Int) (n : Nat)
    (h : ∀ k, k < n → isOutlier ts k = false ∧ goodSample ts k < (d.thresholds k).2) : Sensed d (sensed d ts n) ts n := by
  induction n with
  | zero => exact ⟨.refl d, by simp, by simp [sensed], fun _ _ _ _ => rfl⟩
  | succ n ih =>
    obtain ⟨hframe, hshown, hhot, hother⟩ := ih fun k hk => h k (by omega)
    obtain ⟨hin, hlow⟩ := h n (by omega)
    have hsense := sense_of_mild (sensed d ts n) ts n hin (by rwa [thresholds_sensed])
    rw [thresholds_sensed] at hsense
    have hreg (i : Nat) {m : Nat} (hm : m < 256) := reg_sampled (sensed d ts n) ts n (d.thresholds n).1 i hm
    rw [sensed_succ, hsense]
    refine ⟨hframe.trans rfl, fun k hk => ?_, ?_, fun i m hm hi => ?_⟩
    · rw [hreg _ (by decide)]
      split
      · next hlast => rw [show k = n by omega]
      · exact hshown k (by omega)
    · have hstep : (sampled (sensed d ts n) ts n (d.thresholds n).1).power.hot = true ↔
          (sensed d ts n).power.hot = true ∨ (d.thresholds n).1 ≤ goodSample ts n := by
        change ((sensed d ts n).power.hot || decide _) = true ↔ _
        rw [Bool.or_eq_true, decide_eq_true_eq]
      rw [hstep, hhot, or_assoc, Nat.exists_lt_succ_right]
    · rw [hreg i hm, if_neg (by omega)]
      exact hother i m hm (by omega)

theorem exec_sensorSample {s : State} (halive : s.dev.alive = true) (temps : List (BitVec 32)) :
    exec (.sensorSample temps) s = .next (s.withDev (sensed s.dev (temps.map BitVec.toInt) 80)) :=
  congrArg (fun d => Host.Outcome.next (s.withDev d)) (if_pos halive)

theorem wrapInt_sample (temps : List (BitVec 32)) (k : Nat) :
    wrapInt ((temps.map BitVec.toInt).getD k 0) 32 = (temps.getD k 0).toNat := by
  have hget : (temps.map BitVec.toInt).getD k 0 = (temps.getD k 0).toInt := by
    simp only [List.getD_eq_getElem?_getD, List.getElem?_map]
    cases temps[k]? <;> rfl
  rw [hget, wrapInt, BitVec.toInt_eq_toNat_bmod, Int.bmod_emod]
  have := (temps.getD k 0).isLt
  omega

end Sys2Proof.Proofs
end

section
/-! SUPPORT. Power estimates and the scrub (22 R636, 13 R418). -/

namespace Sys2Proof.Proofs

open Sys2Proof.Machine Sys2Proof.Terms

/-! ### Power estimates (22 R636) -/

/-- Nothing but what the arbiter measures differs: the grants stay, and the time that has passed. -/
structure OnlyEstimates (d e : Dev) : Prop where
  frame : e = { d with power := e.power }
  grants : e.power.grants = d.power.grants
  elapsed : e.power.elapsed = d.power.elapsed

theorem OnlyEstimates.trans {d e f : Dev} (h : OnlyEstimates d e) (h' : OnlyEstimates e f) : OnlyEstimates d f :=
  ⟨by rw [h'.frame, h.frame], h'.grants.trans h.grants, h'.elapsed.trans h.elapsed⟩

theorem OnlyEstimates.grant {d e : Dev} (h : OnlyEstimates d e) (i : Nat) : e.grant i = d.grant i := by
  have hidle : e.idleGrants = d.idleGrants := by rw [h.frame]; rfl
  rw [Dev.grant, Dev.grant, h.grants, hidle]

section
variable (d : Dev) (i x : Nat)

theorem onlyEstimates_estimate : OnlyEstimates d (d.estimate i x) := ⟨rfl, rfl, rfl⟩

theorem energy_estimate (j : Nat) : tget (d.estimate i x).power.energy j 0 =
    if j = i then tget d.power.energy i 0 + x else tget d.power.energy j 0 := tget_tset ..

theorem withholding_estimate (j : Nat) : j ∈ (d.estimate i x).power.withholding ↔
    if j = i then d.grant i * (d.power.elapsed + 65536) < tget d.power.energy i 0 + x else j ∈ d.power.withholding := by
  change j ∈ (if d.grant i * (d.power.elapsed + 65536) < tget d.power.energy i 0 + x then (i :: d.power.withholding).eraseDups
    else d.power.withholding.filter (· ≠ i)) ↔ _
  split
  · next h => by_cases hj : j = i <;> simp [hj, h]
  · next h => by_cases hj : j = i <;> simp [hj, h]

end

/-- The requesters' estimates in order. -/
def estimated (d : Dev) (es : List Nat) : Dev := es.zipIdx.foldl (fun (d : Dev) e => d.estimate e.2 e.1) d

theorem estimated_append (d : Dev) (es : List Nat) (x : Nat) :
    estimated d (es ++ [x]) = (estimated d es).estimate es.length x := by
  simp [estimated, List.zipIdx_append]

/-- What the estimates leave. -/
structure Estimated (d e : Dev) (es : List Nat) : Prop where
  frame : OnlyEstimates d e
  energy : ∀ i, tget e.power.energy i 0 = tget d.power.energy i 0 + es.getD i 0
  withheld : ∀ i x, es[i]? = some x →
    (i ∈ e.power.withholding ↔ d.grant i * (d.power.elapsed + 65536) < tget d.power.energy i 0 + x)

theorem estimated_spec (d : Dev) (es : List Nat) : Estimated d (estimated d es) es := by
  induction es using List.reverseRecOn with
  | nil => exact ⟨⟨rfl, rfl, rfl⟩, fun i => rfl, fun i x h => by simp at h⟩
  | append_singleton es x ih =>
    obtain ⟨hframe, henergy, hwithheld⟩ := ih
    have hlast : tget (estimated d es).power.energy es.length 0 = tget d.power.energy es.length 0 := by simp [henergy]
    rw [estimated_append]
    refine ⟨hframe.trans (onlyEstimates_estimate ..), fun i => ?_, fun i y hy => ?_⟩
    · rw [energy_estimate, hlast]
      split
      · next h => simp [h]
      · next h =>
        rw [henergy]
        obtain hless | hmore := Nat.lt_or_gt_of_ne h
        · simp [List.getD_eq_getElem?_getD, List.getElem?_append_left hless]
        · simp [List.getD_eq_getElem?_getD, List.getElem?_eq_none (l := es) (i := i) (by omega),
            List.getElem?_eq_none (l := es ++ [x]) (i := i) (by simp; omega)]
    · rw [withholding_estimate, hlast, hframe.grant, hframe.elapsed]
      have hi := (List.getElem?_eq_some_iff.mp hy).1
      simp only [List.length_append, List.length_singleton] at hi
      split
      · next h =>
        subst h
        obtain rfl : x = y := by simpa using hy
        rfl
      · next h => exact hwithheld i y (by rwa [List.getElem?_append_left (by omega)] at hy)

/-- The arbiter's clock moves on by the cycles that the estimates cover. -/
def estimatesBegun (d : Dev) : Dev :=
  d.modPower fun x => { x with elapsed := x.elapsed + 1024, tickElapsed := x.tickElapsed + 1024 }

theorem exec_powerEstimate {s : State} (halive : s.dev.alive = true) (es : List Nat) :
    exec (.powerEstimate es) s = .next (s.withDev (estimated (estimatesBegun s.dev) (es.take 273))) :=
  congrArg (fun d => Host.Outcome.next (s.withDev d)) (if_neg (by rw [halive]; decide))

/-! ### The scrub (13 R418) -/

section
variable {d : Dev} {g : Nat}

/-- A granule with no stored error. -/
def GranuleGood (d : Dev) (g : Nat) : Prop := g ∉ d.mem.poison ∧ ∀ u ∈ d.mem.upsets, u.addr / 256 * 256 ≠ g

theorem meetGranule_of_good (h : GranuleGood d g) (blk : Option Block) : d.meetGranule blk g = (d, false) := by
  obtain ⟨hpoison, hupsets⟩ := h
  have hnone : d.mem.upsets.find? (fun u => u.addr / 256 * 256 == g && u.addr < stackEnd) = none :=
    List.find?_eq_none.mpr fun u hu => by simp [hupsets u hu]
  simp [Dev.meetGranule, hpoison, hnone]

theorem Accessed.stackOf {e : Dev} (h : Accessed d e) (a : Nat) : e.stackOf a = d.stackOf a := by
  simp only [Dev.stackOf, h.slabClass]

theorem countGranules_one {sub k : Nat} (hsub : sub ≤ 7) (hk : k < 8) (hstack : d.stackOf g = k) :
    d.countGranules sub [g] = d.bump (0x4200 + k) sub 1 := by
  obtain ⟨before, after, hsplit⟩ := List.append_of_mem (List.mem_range.mpr hk)
  have hnodup : (before ++ k :: after).Nodup := hsplit ▸ List.nodup_range
  rw [List.nodup_append] at hnodup
  obtain ⟨-, hafter, hapart⟩ := hnodup
  have hbumped : (d.bump (0x4200 + k) sub 1).stackOf g = k :=
    ((accessed_bump d 1 (by unfold accessEntry; omega)).stackOf g).trans hstack
  have hskip {e : Dev} {l : List Nat} (he : e.stackOf g = k) (hl : k ∉ l) : l.foldl (fun (d : Dev) k =>
      let n := ([g].filter fun g => d.stackOf g = k).length
      if n = 0 then d else d.bump (0x4200 + k) sub n) e = e :=
    foldl_eq_self fun x hx => by
      have hne : k ≠ x := fun h => hl (h ▸ hx)
      simp [he, hne]
  unfold Dev.countGranules
  rw [hsplit, List.foldl_append, hskip hstack fun h => hapart k h k List.mem_cons_self rfl, List.foldl_cons]
  simp only [hstack, decide_true, List.filter_cons_of_pos, List.filter_nil, List.length_singleton, one_ne_zero, if_false]
  exact hskip hbumped (List.nodup_cons.mp hafter).1

/-- The device once the correctable error of a granule is met. -/
def errorCorrected (d : Dev) (g : Nat) : Dev :=
  (d.bump (0x4200 + d.stackOf g) 1 1).raise
    { source := 0x0D, cls := 0, unit := BitVec.ofNat 16 (d.stackOf g), addr := BitVec.ofNat 48 g, reason := 0, status := 0,
      detail := 0, block := none, forced := false }

/-- The errors of a granule are gone from the list. -/
def cleansed (d : Dev) (g : Nat) : Dev :=
  { d with mem := { d.mem with upsets := d.mem.upsets.filter fun v => v.addr / 256 * 256 ≠ g } }

theorem meetGranule_of_correctable {u : Upset} (hpoison : g ∉ d.mem.poison)
    (hfind : d.mem.upsets.find? (fun u => u.addr / 256 * 256 == g && u.addr < stackEnd) = some u) (hkind : u.kind = .correctable)
    (hcorrect : d.correctAt g = true) (blk : Option Block) :
    d.meetGranule blk g = (errorCorrected (cleansed d g) g, false) := by
  have hcontains : d.mem.poison.contains g = false := by simpa using hpoison
  rw [Dev.meetGranule, if_neg (by rw [hcontains]; decide), hfind]
  exact if_pos ⟨hkind, hcorrect⟩

/-- The device with one correctable error more. -/
def withCorrectable (d : Dev) (g : Nat) : Dev := { d with mem := { d.mem with upsets := d.mem.upsets ++ [⟨g, .correctable⟩] } }

theorem addUpsets_correctable (hcorrect : d.correctAt g = true) : d.addUpsets [⟨g, .correctable⟩] = withCorrectable d g := by
  have hmild : (withCorrectable d g).fatalUpset ⟨g, .correctable⟩ = false := by
    change (_ || (_ && !d.correctAt g)) = false
    rw [hcorrect, Bool.not_true, Bool.and_false, Bool.or_false]
    rfl
  exact if_neg (by rw [← withCorrectable, hmild]; decide)

/-- A correctable error that the scrub finds in a good granule is corrected, and no other is touched. -/
theorem meetGranule_withError (h : GranuleGood d g) (hg : g / 256 * 256 = g) (hstack : g < stackEnd)
    (hcorrect : d.correctAt g = true) : (withCorrectable d g).meetGranule none g = (errorCorrected d g, false) := by
  obtain ⟨hpoison, hupsets⟩ := h
  have hthis : (fun u : Upset => u.addr / 256 * 256 == g && u.addr < stackEnd) ⟨g, .correctable⟩ = true := by
    rw [Bool.and_eq_true, decide_eq_true_eq, beq_iff_eq]
    exact ⟨hg, hstack⟩
  have hnone : d.mem.upsets.find? (fun u => u.addr / 256 * 256 == g && u.addr < stackEnd) = none :=
    List.find?_eq_none.mpr fun u hu => by simp [hupsets u hu]
  have hfind : (withCorrectable d g).mem.upsets.find? (fun u => u.addr / 256 * 256 == g && u.addr < stackEnd) =
      some ⟨g, .correctable⟩ := by
    change (d.mem.upsets ++ [_]).find? _ = _
    rw [List.find?_append, hnone, Option.none_or, List.find?_singleton, if_pos hthis]
  have hcleansed : cleansed (withCorrectable d g) g = d := by
    have hfilter : (d.mem.upsets ++ [(⟨g, .correctable⟩ : Upset)]).filter (fun v => v.addr / 256 * 256 ≠ g) = d.mem.upsets := by
      rw [List.filter_append, List.filter_eq_self.mpr fun u hu => by simpa using hupsets u hu,
        List.filter_cons_of_neg (by simpa using hg), List.filter_nil, List.append_nil]
    change { d with mem := { d.mem with upsets := List.filter _ (d.mem.upsets ++ [_]) } } = d
    rw [hfilter]
  rw [meetGranule_of_correctable (d := withCorrectable d g) hpoison hfind rfl hcorrect none, hcleansed]

/-- A controller's pass, due at a place, moves on behind `here`. -/
def passMoved (d : Dev) (k : Nat) (due : Option Nat) (here : Nat) : Dev :=
  if due ≠ some here then d
  else
    match d.scrubNext (here + 1) with
    | some p => { d with stk := { d.stk with scrubAt := tset d.stk.scrubAt k p } }
    | none => { d with stk := { d.stk with scrubAt := tset d.stk.scrubAt k 0 } }.bump (0x4200 + k) 5 1

theorem scrubMoves_eq (d : Dev) (k a : Nat) : ∃ due here, d.scrubMoves k a = passMoved d k due here := ⟨_, _, rfl⟩

/-- The pass that moves on leaves memory, faults and every count but its own. -/
theorem scrubMoves_frame (d : Dev) (k a : Nat) : (d.scrubMoves k a).mem = d.mem ∧ (d.scrubMoves k a).faults = d.faults ∧
    ∀ i m, m < 256 → m ≠ 5 → (d.scrubMoves k a).reg i m = d.reg i m := by
  obtain ⟨due, here, hmoved⟩ := scrubMoves_eq d k a
  rw [hmoved, passMoved]
  split
  · exact ⟨rfl, rfl, fun _ _ _ _ => rfl⟩
  · split
    · exact ⟨rfl, rfl, fun _ _ _ _ => rfl⟩
    · exact ⟨rfl, rfl, fun i m hm h5 => (reg_bump _ 1 (by decide) hm).trans (if_neg fun h => h5 h.2)⟩

end

/-- The device once a scrub has read its granule. -/
def scrubRead (d : Dev) (g : Nat) (found : Option UpsetKind) : Dev :=
  ((match found with | some e => d.addUpsets [⟨g, e⟩] | none => d).meetGranule none g).1

theorem exec_scrub {s : State} {k addr : Nat} {found : Option UpsetKind} (halive : s.dev.alive = true)
    (hstack : addr / 256 * 256 < stackEnd) (hcorrect : s.dev.correctAt (addr / 256 * 256) = true)
    (hcause : s.dev.stackCause (addr / 256 * 256) = none) (hk : s.dev.stackOf (addr / 256 * 256) = k) :
    exec (.scrub k addr found) s = .next (s.withDev
      (((scrubRead s.dev (addr / 256 * 256) found).countGranules 6 [addr / 256 * 256]).scrubMoves k (addr / 256 * 256))) := by
  refine congrArg (fun d => Host.Outcome.next (s.withDev d)) ((if_neg ?_).trans ?_)
  · simp [halive, hcorrect, hcause, hk, hstack]
  · cases found <;> rfl

section
variable {d : Dev} {g k : Nat}

theorem scrubRead_none (h : GranuleGood d g) : scrubRead d g none = d := congrArg (·.1) (meetGranule_of_good h none)

theorem scrubRead_correctable (h : GranuleGood d g) (hg : g / 256 * 256 = g) (hstack : g < stackEnd)
    (hcorrect : d.correctAt g = true) : scrubRead d g (some .correctable) = errorCorrected d g := by
  change ((d.addUpsets [⟨g, .correctable⟩]).meetGranule none g).1 = _
  rw [addUpsets_correctable hcorrect, meetGranule_withError h hg hstack hcorrect]

theorem stackOf_errorCorrected : (errorCorrected d g).stackOf g = d.stackOf g :=
  ((accessed_bump d 1 (accessEntry_stack d g (by decide))).trans (accessed_raise _ _)).stackOf g

theorem reg_errorCorrected (i : Nat) {m : Nat} (hm : m < 256) : (errorCorrected d g).reg i m =
    if i = 0x4200 + d.stackOf g ∧ m = 1 then counted d (0x4200 + d.stackOf g) 1 1 else d.reg i m :=
  (reg_congr (regs_raise _ _) i m).trans (reg_bump d 1 (by decide) hm)

/-- A granule's read is counted, and the controller's pass moves on. -/
def granuleScrubbed (e : Dev) (k g : Nat) : Dev := (e.countGranules 6 [g]).scrubMoves k g

theorem granuleScrubbed_frame {e : Dev} (hk : k < 8) (hstack : e.stackOf g = k) :
    (granuleScrubbed e k g).mem = e.mem ∧ (granuleScrubbed e k g).faults = e.faults ∧
      ∀ m, m < 256 → m ≠ 5 → (granuleScrubbed e k g).reg (0x4200 + k) m =
        if m = 6 then counted e (0x4200 + k) 6 1 else e.reg (0x4200 + k) m := by
  obtain ⟨hmem, hfaults, hreg⟩ := scrubMoves_frame (e.countGranules 6 [g]) k g
  rw [countGranules_one (by decide) hk hstack] at hmem hfaults hreg
  unfold granuleScrubbed
  rw [countGranules_one (by decide) hk hstack]
  refine ⟨hmem, hfaults, fun m hm h5 => (hreg _ m hm h5).trans ?_⟩
  rw [reg_bump e 1 (by decide) hm]
  simp only [true_and]

end

/-- A warning of a rail that had given none is recorded. -/
theorem raised_railStatus_warning {d : Dev} {j : Nat} {r : RailReading} (hans : r.answered = true) (hwarn : r.warning = true)
    (hshut : r.shutdown = false) (hnew : j ∉ d.power.railWarned) :
    (d.railStatus j r).faults.raised = (d.faultUc 0x16 j 0 0 0 0).faults.raised := by
  simp [Dev.railStatus, hans, hwarn, hshut, hnew]

/-- The record of a rail's warning. -/
def railWarning (d : Dev) (j : Nat) : RaisedFault :=
  { source := 0x16, cls := 1, unit := BitVec.ofNat 16 j, addr := 0, reason := 0, status := 0, detail := 0, block := none,
    forced := false, raisedAt := d.clock }

theorem raised_railRead_warning {d : Dev} {r : RailReading} (poll : Bool) (hans : r.answered = true) (hwarn : r.warning = true)
    (hshut : r.shutdown = false) (hnew : 0 ∉ d.power.railWarned) :
    (railRead poll d 0 r).faults.raised = d.faults.raised ++ [railWarning d 0] := by
  cases poll with
  | true =>
    simp only [railRead, if_true, Dev.pollRail, hans]
    exact raised_railStatus_warning (d := ((d.setReg _ 5 _).setReg _ 6 _).setReg _ 7 _) hans hwarn hshut hnew
  | false =>
    simp only [railRead, Bool.false_eq_true, if_false, Dev.alertRail, hans, if_true]
    exact raised_railStatus_warning (d := d.setReg _ 7 _) hans hwarn hshut hnew

section
variable {d : Dev} {g k : Nat} (hgood : GranuleGood d g) (hk : k < 8) (hon : d.stackOf g = k)
include hgood hk hon

/-- A granule that holds no error is counted as read. -/
theorem scrubbed_none {e : Dev} (he : e = granuleScrubbed (scrubRead d g none) k g) :
    e.mem = d.mem ∧ e.faults = d.faults ∧ e.reg (0x4200 + k) 6 = counted d (0x4200 + k) 6 1 := by
  rw [he, scrubRead_none hgood]
  obtain ⟨hmem, hfaults, hreg⟩ := granuleScrubbed_frame hk hon
  exact ⟨hmem, hfaults, hreg 6 (by decide) (by decide)⟩

/-- A correctable error that is found is counted and raised. -/
theorem scrubbed_correctable (hg : g / 256 * 256 = g) (hstack : g < stackEnd) (hcorrect : d.correctAt g = true) {e : Dev}
    (he : e = granuleScrubbed (scrubRead d g (some .correctable)) k g) : e.mem = d.mem ∧ e.faults = (errorCorrected d g).faults ∧ e.reg (0x4200 + k) 6 = counted d (0x4200 + k) 6 1 ∧
      e.reg (0x4200 + k) 1 = counted d (0x4200 + k) 1 1 := by
  rw [he, scrubRead_correctable hgood hg hstack hcorrect]
  obtain ⟨hmem, hfaults, hreg⟩ := granuleScrubbed_frame hk (stackOf_errorCorrected.trans hon)
  refine ⟨hmem, hfaults, (hreg 6 (by decide) (by decide)).trans ?_, (hreg 1 (by decide) (by decide)).trans ?_⟩
  · rw [if_pos rfl, counted, reg_errorCorrected _ (by decide), if_neg (by omega), counted]
  · rw [if_neg (by decide), reg_errorCorrected _ (by decide), hon, if_pos ⟨rfl, rfl⟩]

end

/-- Settles O47. -/
theorem managementReadings : Obligations.ManagementReadings := by
  refine ⟨fun s i poll rs hrow hphase hquiet => ?_, fun s i poll r hrow hphase hans hwarn hshut hnew => ?_,
    fun s temps halive => ?_, fun s temps k halive hk hhot => ?_, fun s es halive => ?_,
    fun s k addr found halive hk => ?_⟩
  · obtain ⟨hframe, hshown, hother⟩ := railsShown poll s.dev (rs := rs.take 8) fun r hr => hquiet r (List.mem_of_mem_take hr)
    refine ⟨_, exec_railRow hrow hphase, hframe, fun j r hj hr => hshown j r (by rwa [List.getElem?_take_of_lt hj]),
      fun j k hk hi => hother j k hk fun m hm hentry => hi ?_⟩
    have hm8 : m < 8 := by simp only [List.length_take] at hm; omega
    unfold railEntry at hentry
    exact ⟨by omega, by omega, hentry.2⟩
  · exact ⟨_, railWarning s.dev 0, exec_railRow hrow hphase, raised_railRead_warning poll hans hwarn hshut hnew, rfl, rfl, rfl⟩
  · intro ts hin hlow
    have hgood {k : Nat} (hk : k < 80) : goodSample ts k = ts.getD k 0 := by
      simp only [goodSample, hin k hk, Bool.false_eq_true, if_false]
    obtain ⟨hframe, hshown, hhot, hother⟩ := sensed_of_mild s.dev ts 80 fun k hk => ⟨hin k hk, (hgood hk).symm ▸ hlow k hk⟩
    refine ⟨_, exec_sensorSample halive temps, hframe, fun k hk => ?_, hhot.trans ?_, hother⟩
    · rw [← wrapInt_sample temps k, ← hgood hk]
      exact hshown k hk
    · exact or_congr_right (exists_congr fun k => and_congr_right fun hk => by rw [hgood hk])
  · obtain ⟨f, hf, hsource, hcls, hunit⟩ := raised_sensed_shutdown s.dev _ hk hhot
    refine ⟨_, f, exec_sensorSample halive temps, hf, hsource, hcls, ?_⟩
    rw [hunit, BitVec.toNat_ofNat]
    omega
  · obtain ⟨hframe, henergy, hwithheld⟩ := estimated_spec (estimatesBegun s.dev) (es.take 273)
    have hget {i e : Nat} (hi : i < 273) (he : es[i]? = some e) : (es.take 273)[i]? = some e := by
      rwa [List.getElem?_take_of_lt hi]
    refine ⟨_, exec_powerEstimate halive es, hframe.frame, hframe.elapsed, fun i e hi he =>
      ⟨(henergy i).trans ?_, hwithheld i e (hget hi he)⟩⟩
    rw [List.getD_eq_getElem?_getD, hget hi he]
    rfl
  · intro g hstack hcorrect hcause hon hpoison hupsets hfound
    have hrow : exec (.scrub k addr found) s = .next (s.withDev (granuleScrubbed (scrubRead s.dev g found) k g)) :=
      exec_scrub halive hstack hcorrect hcause hon
    have hg : g / 256 * 256 = g := by rw [Nat.mul_div_cancel _ (by decide)]
    generalize g = g at *
    have hgood : GranuleGood s.dev g := ⟨hpoison, hupsets⟩
    obtain ⟨e, he⟩ : ∃ e, e = granuleScrubbed (scrubRead s.dev g found) k g := ⟨_, rfl⟩
    rw [← he] at hrow
    cases found with
    | none =>
      obtain ⟨hmem, hfaults, hread⟩ := scrubbed_none hgood hk hon he
      exact ⟨_, hrow, hmem, hread, fun _ => hfaults, (nomatch ·)⟩
    | some u =>
      cases u with
      | uncorrectable => exact absurd rfl hfound
      | correctable =>
        obtain ⟨hmem, hfaults, hread, hcorr⟩ := scrubbed_correctable hgood hk hon hg hstack hcorrect he
        refine ⟨_, hrow, hmem, hread, (nomatch ·), fun _ => ⟨hcorr, _, congrArg (·.raised) hfaults, rfl, rfl, ?_, ?_⟩⟩
        · change (BitVec.ofNat 16 (s.dev.stackOf g)).toNat = k
          rw [hon, BitVec.toNat_ofNat]
          omega
        · change (BitVec.ofNat 48 g).toNat = g
          rw [BitVec.toNat_ofNat]
          exact Nat.mod_eq_of_lt (hstack.trans (by decide))

end Sys2Proof.Proofs
end

section
/-! SUPPORT. What stopping the tick leaves of the pins, the boot ROM and TICK_RUN (15 R452, 18 R546, R547). -/

namespace Sys2Proof.Proofs

open Sys2Proof.Machine Sys2Proof.Terms

/-- The pins, the boot ROM's state and the shadowed entries are as they were, and so is TICK_RUN, as long as `strict`. -/
structure Aside (strict : Prop) (d e : Dev) : Prop where
  pins : e.pins = d.pins
  boot : e.boot = d.boot
  shadow : e.shadow = d.shadow
  run : strict → e.reg 0x2000 1 = d.reg 0x2000 1

section
variable {q : Prop} {d e f : Dev}

theorem Aside.refl : Aside q d d := ⟨rfl, rfl, rfl, fun _ => rfl⟩

theorem Aside.trans (h : Aside q d e) (h' : Aside q e f) : Aside q d f :=
  ⟨h'.pins.trans h.pins, h'.boot.trans h.boot, h'.shadow.trans h.shadow, fun hq => (h'.run hq).trans (h.run hq)⟩

/-- What leaves the registers alone. -/
theorem aside_of_regs (hpins : e.pins = d.pins) (hboot : e.boot = d.boot) (hshadow : e.shadow = d.shadow)
    (hregs : e.regs = d.regs) : Aside q d e := ⟨hpins, hboot, hshadow, fun _ => reg_congr hregs 0x2000 1⟩

theorem Accessed.aside (h : Accessed d e) : Aside q d e where
  pins := by rw [h.frame]
  boot := by rw [h.frame]
  shadow := by rw [h.frame]
  run _ := h.regs _ _ (by decide) (by unfold accessEntry; omega)

theorem OnlyPort.aside (h : OnlyPort d e) : Aside q d e :=
  aside_of_regs (by rw [h]) h.boot (by rw [h]) h.regs

theorem aside_foldl {α : Type} {f : Dev → α → Dev} {l : List α} (hf : ∀ d, ∀ x ∈ l, Aside q d (f d x)) (d : Dev) :
    Aside q d (l.foldl f d) :=
  foldl_rel (R := Aside q) (fun _ => .refl) (fun _ _ _ => .trans) hf d

theorem Aside.setReg {i k : Nat} {v : Nat} (h : Aside q d e) (hk : k < 256) (hi : i ≠ 0x2000) : Aside q d (e.setReg i k v) :=
  ⟨h.pins, h.boot, h.shadow, fun hq => (Dev.reg_setReg e i k v 0x2000 1 hk (by decide)).trans
    ((if_neg fun heq => hi heq.1.symm).trans (h.run hq))⟩

theorem Aside.modLib {g : Library → Library} (h : Aside q d e) : Aside q d (e.modLib g) := ⟨h.pins, h.boot, h.shadow, h.run⟩

theorem Aside.modSterling {g : Sterling → Sterling} (h : Aside q d e) : Aside q d (e.modSterling g) :=
  ⟨h.pins, h.boot, h.shadow, h.run⟩

theorem Aside.modPower {g : Power → Power} (h : Aside q d e) : Aside q d (e.modPower g) := ⟨h.pins, h.boot, h.shadow, h.run⟩

theorem Aside.modTick {g : Tick → Tick} (h : Aside q d e) : Aside q d (e.modTick g) := ⟨h.pins, h.boot, h.shadow, h.run⟩

theorem Aside.setPset {s : Nat} {x : Machine.PSet} (h : Aside q d e) : Aside q d (e.setPset s x) := ⟨h.pins, h.boot, h.shadow, h.run⟩

theorem Aside.modCluster {c : Nat} {g : Cluster → Cluster} (h : Aside q d e) : Aside q d (e.modCluster c g) :=
  ⟨h.pins, h.boot, h.shadow, h.run⟩

theorem Aside.withMem {m : Memory} (h : Aside q d e) : Aside q d { e with mem := m } := ⟨h.pins, h.boot, h.shadow, h.run⟩

variable (d)

theorem aside_setReg {i k : Nat} (v : Nat) (hk : k < 256) (h : q → ¬(i = 0x2000 ∧ k = 1)) : Aside q d (d.setReg i k v) :=
  ⟨rfl, rfl, rfl, fun hq => (Dev.reg_setReg d i k v 0x2000 1 hk (by decide)).trans
    (if_neg fun heq => h hq ⟨heq.1.symm, heq.2.symm⟩)⟩

theorem aside_bump {i k : Nat} (n : Nat) (hk : k < 256) (h : ¬(i = 0x2000 ∧ k = 1)) : Aside q d (d.bump i k n) :=
  aside_setReg d _ hk fun _ => h

/-! ### The log (15 R477) -/

theorem accessed_ringWrite (base size off : Nat) (bs : List Byte) : Accessed d (d.ringWrite base size off bs) := by
  have hpart (d : Dev) (a : Nat) (xs : List Byte) :
      Accessed d (if d.problemIn .host .write a xs.length = none then d.store none a xs else d) := by
    split
    · exact accessed_store d none a xs
    · exact .refl d
  unfold Dev.ringWrite
  dsimp only
  split
  · exact hpart _ _ _
  · exact (hpart _ _ _).trans (hpart _ _ _)

theorem aside_logAppend (kind source frame : Nat) (payload : List Byte) : Aside q d (d.logAppend kind source frame payload) := by
  unfold Dev.logAppend
  split
  · exact .refl
  · dsimp only
    split
    · exact (aside_setReg d _ (by decide) fun _ => by decide).trans (accessed_faultUc _ _ _ _ _ _ _).aside
    · exact (accessed_ringWrite d _ _ _ _).aside.trans (aside_setReg _ _ (by decide) fun _ => by decide)

theorem aside_logDict (idx sub v : Nat) : Aside q d (d.logDict idx sub v) := by
  unfold Dev.logDict
  split
  · exact .refl
  · exact (accessed_withDraw d _).aside.trans (aside_logAppend _ _ _ _ _)

/-! ### Requests (17 R521-R524) -/

theorem onlyPort_setCtx (k : Nat) (c : StreamCtx) : OnlyPort d (d.setCtx k c) := onlyPort_modPort d _

theorem onlyPort_dropRequest (k : Nat) (id : BitVec 64) : OnlyPort d (d.dropRequest k id) := rfl

theorem onlyPort_sendReply (ep : Endpoint) (version : BitVec 4) (stream id : Nat) (status : BitVec 8) (record data : List Byte) :
    OnlyPort d (d.sendReply ep version stream id status record data) := onlyPort_sendMsg ..

theorem onlyPort_endRequest (k : Nat) (r : Request) : OnlyPort d (d.endRequest k r) := by
  unfold Dev.endRequest
  dsimp only
  split
  · exact onlyPort_dropRequest d _ _
  · exact ((onlyPort_dropRequest d _ _).trans (onlyPort_setCtx _ _ _)).trans (onlyPort_sendReply _ _ _ _ _ _ _ _)

theorem onlyPort_settle (k : Nat) (id : BitVec 64) : OnlyPort d (d.settle k id) := by
  unfold Dev.settle
  split
  · exact .refl
  · split
    · exact .refl
    · dsimp only
      split
      · exact (onlyPort_setCtx d _ _).trans (onlyPort_endRequest _ _ _)
      · exact onlyPort_setCtx d _ _

theorem onlyPort_place (k : Nat) (r : Request) : OnlyPort d (d.place k r) :=
  (onlyPort_setCtx d _ _).trans (onlyPort_settle _ _ _)

theorem aside_assign (k : Nat) (id : BitVec 64) : Aside q d (d.assign k id) := by
  unfold Dev.assign
  split
  · exact .refl
  · exact ((aside_bump d _ (by decide) (by decide)).trans (aside_logAppend _ _ _ _ _)).trans (onlyPort_place _ _ _).aside

theorem aside_assignWaiting : Aside q d d.assignWaiting := by
  unfold Dev.assignWaiting
  split
  · exact .refl
  · exact (onlyPort_modPort d _).aside.trans (aside_foldl (fun d w _ => aside_assign d _ _) _)

theorem aside_takeExt : Aside q d d.takeExt := by
  unfold Dev.takeExt
  split
  · exact .refl
  · exact .modSterling (.setReg (.setReg (.setReg (.modLib .refl) (by decide) (by decide)) (by decide) (by decide)) (by decide)
      (by decide))
  · exact .modSterling (.setReg (.setReg (.setReg (.setReg (.modLib .refl) (by decide) (by decide)) (by decide) (by decide))
      (by decide) (by decide)) (by decide) (by decide))

/-! ### Pending values (15 R453) -/

theorem aside_applyEntry (key v : Nat) (host : Bool) (h : q → key ≠ 0x200001) : Aside q d (d.applyEntry key v host) := by
  unfold Dev.applyEntry
  dsimp only
  split
  · exact .refl
  · have hset : Aside q d (d.setReg (key / 256) (key % 256) v) :=
      aside_setReg d v (Nat.mod_lt _ (by decide)) fun hq heq => h hq (by omega)
    have hring {e : Dev} (he : Aside q d e) (p : Prop) [Decidable p] :
        Aside q d (if p then (e.setReg 0x6000 3 0).setReg 0x6000 4 0 else e) := by
      split
      · exact .setReg (.setReg he (by decide) (by decide)) (by decide) (by decide)
      · exact he
    have hrail {e : Dev} (he : Aside q d e) (p : Prop) [Decidable p] (g : Power → Power) :
        Aside q d (if p then e.modPower g else e) := by
      split
      · exact .modPower he
      · exact he
    split
    · exact (hrail (hring hset _) _ _).trans (aside_logDict _ _ _ _)
    · exact hrail (hring hset _) _ _

theorem aside_applyPset (s : Nat) : Aside q d (d.applyPset s) := by
  unfold Dev.applyPset
  dsimp only
  have hne : 0x5100 + s ≠ 0x2000 := by omega
  split
  · split
    · exact .setReg (.setPset (.setReg (.setReg .refl (by decide) hne) (by decide) hne)) (by decide) hne
    · exact .setPset (.setReg (.setReg .refl (by decide) hne) (by decide) hne)
  · exact .setReg (.setReg (.setReg (.setPset .refl) (by decide) hne) (by decide) hne) (by decide) hne
  · exact .refl

theorem aside_slabsChanged (old : Dev) : Aside q d (d.slabsChanged old) := by
  unfold Dev.slabsChanged
  refine aside_foldl (fun d s _ => ?_) d
  dsimp only
  split
  · exact .refl
  · exact aside_of_regs rfl rfl rfl rfl

theorem aside_applyOwners (c : Nat) (ready : Bool) : Aside q d (d.applyOwners c ready) := by
  unfold Dev.applyOwners
  split
  · exact .refl
  · exact .modCluster .refl

theorem aside_freeBank (c b : Nat) : Aside q d (d.freeBank c b) := aside_of_regs rfl rfl rfl rfl

theorem aside_applyBanks (old : Dev) (c : Nat) : Aside q d (d.applyBanks old c) := by
  have hfreed (p : Dev → Nat → Bool) (d : Dev) :
      Aside q d ((List.range 32).foldl (fun d b => if p d b then d.freeBank c b else d) d) :=
    aside_foldl (fun d b _ => by
      split
      · exact aside_freeBank d _ _
      · exact .refl) d
  have hpowered (want : Dev → Nat → Nat) (d : Dev) : Aside q d ((List.range 32).foldl (fun (d : Dev) b =>
      let s := bankStep (d.bankPower c b) (want d b)
      let d := if s.2 then { d with mem := d.mem.clear (bankAddr c b) 0x20000 } else d
      d.modCluster c fun x => { x with power := tset x.power b s.1 }) d) :=
    aside_foldl (fun d b _ => by
      dsimp only
      split
      · exact .modCluster (.withMem .refl)
      · exact .modCluster .refl) d
  unfold Dev.applyBanks
  dsimp only
  split
  · exact hfreed _ d
  · exact (hfreed _ d).trans (hpowered _ _)

/-! ### Replay, and everything pending (15 R453, R481) -/

theorem aside_arm (kind at_ arg : Nat) (input : Option (List Byte)) : Aside q d (d.arm kind at_ arg input) := by
  unfold Dev.arm
  dsimp only
  split
  · exact .modTick (aside_bump d _ (by decide) (by decide))
  · exact .modTick .refl

theorem aside_startReplay : Aside q d d.startReplay := by
  unfold Dev.startReplay
  dsimp only
  exact .setReg ((accessed_hostRead d _ _).aside.trans (aside_foldl (fun d r _ => aside_arm d _ _ _ _) _)) (by decide) (by decide)

theorem aside_payWrites : Aside q d d.payWrites := by
  unfold Dev.payWrites
  refine (aside_of_regs (d := d) (e := { d with owedWrites := [] }) rfl rfl rfl rfl).trans ?_
  exact aside_foldl (fun d w _ => (accessed_writeAs d _ _ _).aside) _

end

/-- The device once the shadowed entries that take effect have left the list. -/
def shadowTaken (d : Dev) (seeds : Bool) : Dev :=
  let keep (p : Nat × BitVec 64) : Bool := d.spWaits p.1 || (!seeds && p.1 / 256 = 0x2030)
  { d with shadow := d.shadow.filter keep ++ [] }

section
variable {q : Prop} {d : Dev}

/-- Values that apply in order, some of them dropped. -/
theorem aside_applyEntries {α : Type} {l : List α} {key v : α → Nat} {host : Bool} (drop : α → Bool)
    (h : ∀ x ∈ l, q → key x ≠ 0x200001) (d : Dev) :
    Aside q d (l.foldl (fun d x => if drop x then d else d.applyEntry (key x) (v x) host) d) :=
  aside_foldl (fun d x hx => by
    split
    · exact .refl
    · exact aside_applyEntry d _ _ _ (h x hx)) d

theorem aside_regionTable {staged ok : Bool} (old : Dev) (d : Dev) :
    Aside q d (if staged then (if ok then (d.setReg 0x4000 2 0).slabsChanged old else d.setReg 0x4000 2 1) else d) := by
  split
  · split
    · exact (Aside.setReg .refl (by decide) (by decide)).trans (aside_slabsChanged _ _)
    · exact .setReg .refl (by decide) (by decide)
  · exact .refl

theorem aside_replayTurn (old : Dev) (d : Dev) : Aside q d
    (if d.replaying ∧ !old.replaying then d.startReplay else if old.replaying ∧ !d.replaying then d.setReg 0x2060 6 0 else d) := by
  split
  · exact aside_startReplay d
  · split
    · exact .setReg .refl (by decide) (by decide)
    · exact .refl

end

theorem aside_applyShadow (d : Dev) (seeds : Bool) : Aside (d.shadow = []) (shadowTaken d seeds) (d.applyShadow .none seeds) := by
  have hnone (keep : Nat × BitVec 64 → Bool) : ∀ x ∈ d.shadow.filter keep, d.shadow = [] → x.1 ≠ 0x200001 :=
    fun x hx hnil => absurd (List.mem_of_mem_filter hx) (by rw [hnil]; exact List.not_mem_nil)
  have hitems (keep : Nat × Nat → Bool) : ∀ x ∈ Items.none.list.filter keep, d.shadow = [] → x.1 ≠ 0x200001 :=
    fun _ hx => absurd hx List.not_mem_nil
  unfold Dev.applyShadow
  dsimp only
  refine .trans ?_ (aside_replayTurn d _)
  refine .trans ?_ (aside_foldl (fun e c _ => ?_) _)
  swap
  · split
    · exact aside_applyBanks e _ _
    · exact .refl
  refine .trans ?_ (aside_foldl (fun e p _ => aside_applyOwners e _ _) _)
  refine .trans ?_ (aside_regionTable d _)
  refine .trans ?_ (aside_foldl (fun e p _ => aside_applyPset e _) _)
  refine .trans ?_ (aside_foldl (fun e p _ => (accessed_faultUc e _ _ _ _ _ _).aside) _)
  refine .trans ?_ (aside_applyEntries (key := fun x : Nat × Nat => x.1) (v := fun x => x.2) (host := false) _ (hitems _) _)
  refine .trans ?_ (aside_applyEntries (key := fun x : Nat × BitVec 64 => x.1) (v := fun x => x.2.toNat) (host := true) _ (hnone _) _)
  exact aside_setReg _ _ (by decide) fun _ => by decide

theorem pins_shadowTaken (d : Dev) (seeds : Bool) : (shadowTaken d seeds).pins = d.pins := rfl

theorem applyNow_pins (d : Dev) : d.applyNow.pins = d.pins :=
  ((aside_applyShadow d false).trans (aside_payWrites _)).pins

theorem applyNow_boot (d : Dev) : d.applyNow.boot = d.boot :=
  ((aside_applyShadow d false).trans (aside_payWrites _)).boot

theorem applyNow_run {d : Dev} (h : d.shadow = []) : d.applyNow.reg 0x2000 1 = d.reg 0x2000 1 :=
  ((aside_applyShadow d false).trans (aside_payWrites _)).run h

/-! ### TICK_RUN becomes 0 (15 R465, 18 R547) -/

/-- The device with TICK_RUN cleared, its waiting requests assigned and its waiting extension taken. -/
def tickCleared (d : Dev) : Dev :=
  let master := d.isMaster
  let d := (d.setReg 0x2000 1 0).setReg 0x2000 3 0
  let d := d.modTick fun t => { t with
    holdOnly := t.holdOnly || master, next := none, readySent := false, chosen := none, missing := [],
    starved := false, accepted := none }
  (d.modPower fun x => { x with grants := [] }).assignWaiting.takeExt

theorem stopTick_of_running {d : Dev} (h : d.tickRun = true) :
    d.stopTick = if (tickCleared d).frameDone then (tickCleared d).applyNow else tickCleared d :=
  if_neg (by rw [h]; decide)

theorem stopTick_of_stopped {d : Dev} (h : d.tickRun = false) : d.stopTick = d := if_pos (by rw [h]; rfl)

theorem aside_tickCleared (d : Dev) : Aside True ((d.setReg 0x2000 1 0).setReg 0x2000 3 0) (tickCleared d) :=
  ((Aside.modPower (.modTick .refl)).trans (aside_assignWaiting _)).trans (aside_takeExt _)

theorem tickCleared_run (d : Dev) : (tickCleared d).reg 0x2000 1 = 0 := by
  rw [(aside_tickCleared d).run trivial, Dev.reg_setReg _ _ _ _ _ _ (by decide) (by decide), if_neg (by decide),
    Dev.reg_setReg_same, Nat.zero_mod]

theorem stopTick_pins (d : Dev) : d.stopTick.pins = d.pins := by
  cases h : d.tickRun with
  | false => rw [stopTick_of_stopped h]
  | true =>
    rw [stopTick_of_running h]
    split
    · exact (applyNow_pins _).trans (aside_tickCleared d).pins
    · exact (aside_tickCleared d).pins

theorem stopTick_boot (d : Dev) : d.stopTick.boot = d.boot := by
  cases h : d.tickRun with
  | false => rw [stopTick_of_stopped h]
  | true =>
    rw [stopTick_of_running h]
    split
    · exact (applyNow_boot _).trans (aside_tickCleared d).boot
    · exact (aside_tickCleared d).boot

/-- With no shadowed entry, nothing sets TICK_RUN again. -/
theorem stopTick_tickRun {d : Dev} (hshadow : d.shadow = []) : d.stopTick.tickRun = false := by
  cases h : d.tickRun with
  | false => rwa [stopTick_of_stopped h]
  | true =>
    have hzero : d.stopTick.reg 0x2000 1 = 0 := by
      rw [stopTick_of_running h]
      split
      · exact (applyNow_run ((aside_tickCleared d).shadow.trans hshadow)).trans (tickCleared_run d)
      · exact tickCleared_run d
    rw [Dev.tickRun, hzero]
    rfl

end Sys2Proof.Proofs
end

section
/-! SUPPORT. Fatal faults from outside, the end of a trap, and JTAG (21 R605, R615, 22 R644, R651). -/

namespace Sys2Proof.Proofs

open Sys2Proof.Machine Sys2Proof.Terms

/-- Each row of a fatal fault raises it, once. -/
theorem exec_fatalRow {s : State} {i : Instr} {src unit : Nat} (hrow : fatalRow i = some (src, unit))
    (halive : s.dev.alive = true) (hreset : s.dev.pins.resetN = true) :
    exec i s = .next (s.withDev (s.dev.faultFatal src unit)) := by
  have hset (f : Dev → Dev) (h : f s.dev = s.dev.faultFatal src unit) :
      s.onDev f = .next (s.withDev (s.dev.faultFatal src unit)) := by
    rw [State.onDev, h]
  cases i
  case railOutOfTolerance j => cases hrow; exact hset _ (if_pos ⟨halive, hreset⟩)
  case refclkLoss => cases hrow; exact hset _ (if_pos halive)
  case managementWatchdogExpiry => cases hrow; exact hset _ (if_pos halive)
  case sterlingInternalError => cases hrow; exact hset _ (if_pos halive)
  all_goals cases hrow

section
variable {s : State}

theorem trapExit_of_free (h : s.dev.tick.loadHeld = false) : s.dev.trapExit =
    { s.dev with faults := { s.dev.faults with trap := false } } := by
  have htick : { s.dev.tick with loadHeld := false } = s.dev.tick := by rw [← h]
  have hsame : ((s.dev.modFaults fun x => { x with trap := false }).modTick fun t => { t with loadHeld := false }) =
      { s.dev with faults := { s.dev.faults with trap := false }, tick := { s.dev.tick with loadHeld := false } } := rfl
  rw [Dev.trapExit]
  dsimp only
  rw [if_neg (by rw [h]; decide), hsame, htick]

theorem trapExit_of_held (h : s.dev.tick.loadHeld = true) : s.dev.trapExit =
    { s.dev with faults := { s.dev.faults with trap := false }, tick := { s.dev.tick with loadHeld := false } }.loadHeader :=
  if_pos h

variable (hpowered : s.dev.phase ≠ .unpowered)
include hpowered

/-- A powered device loads a JTAG instruction and does what it asks. -/
theorem onDev_jtagLoad (i : JtagInstr) (f : Dev → Dev) : (s.onDev fun d => d.jtagLoad i f) =
    .next (s.withDev (f { s.dev with pins := { s.dev.pins with jtag := i } })) :=
  congrArg (fun d => Host.Outcome.next (s.withDev d)) (if_neg hpowered)

end

/-- What clearing the store leaves of the count of failed exchanges. -/
theorem clearSterling_spec (d : Dev) : d.clearSterling.sterling.sessions = [] ∧ d.clearSterling.sterling.exchanges = [] ∧
    d.clearSterling.sterling.identitySeed = [] ∧ d.clearSterling.pins = d.pins ∧ d.clearSterling.boot = d.boot ∧
    d.clearSterling.exchOpen = d.exchOpen ∧ d.clearSterling.reg 0x5800 8 =
      counted d 0x5800 8 (d.exchanges.filter fun e => !e.2.state.failed).length :=
  ⟨rfl, rfl, rfl, rfl, rfl, rfl, (reg_bump d _ (by decide) (by decide)).trans (if_pos ⟨rfl, rfl⟩)⟩

/-- Settles O45. -/
theorem foreignEvents : Obligations.ForeignEvents := by
  refine ⟨⟨fun s i src unit hrow halive hreset => ⟨_, rfl, rfl, rfl, exec_fatalRow hrow halive hreset⟩, fun s => ?_⟩,
    fun s hpowered => ?_⟩
  · intro d
    exact ⟨fun h => congrArg (fun d => Host.Outcome.next (s.withDev d)) (trapExit_of_free h),
      fun h => congrArg (fun d => Host.Outcome.next (s.withDev d)) (trapExit_of_held h)⟩
  · have hload := onDev_jtagLoad hpowered
    refine ⟨hload _ _, hload _ _, fun cells => hload _ _, fun hstopped => (hload _ _).trans ?_,
      fun hshadow => ⟨_, hload _ _, ?_, ?_, ?_⟩, _, hload _ _, ?_⟩
    · exact congrArg (fun d => Host.Outcome.next (s.withDev d)) (stopTick_of_stopped hstopped)
    · exact congrArg (·.jtag) (stopTick_pins _)
    · exact congrArg (·.jtagOpened) (stopTick_boot _)
    · exact stopTick_tickRun hshadow
    · obtain ⟨hsessions, hexchanges, hseed, hpins, hboot, hopen, hcount⟩ := clearSterling_spec
        (Dev.testMode { s.dev with pins := { s.dev.pins with jtag := .privateTest } })
      refine ⟨(congrArg (·.jtag) hpins).trans (congrArg (·.jtag) (stopTick_pins _)),
        (congrArg (·.jtagOpened) hboot).trans (congrArg (·.jtagOpened) (stopTick_boot _)), hsessions, hexchanges, hseed,
        fun hstopped => ?_⟩
      have htest : Dev.testMode { s.dev with pins := { s.dev.pins with jtag := .privateTest } } =
          { s.dev with pins := { s.dev.pins with jtag := .privateTest }, boot := { s.dev.boot with jtagOpened := true } } :=
        stopTick_of_stopped hstopped
      rw [htest] at hopen hcount
      change (Dev.clearSterling (Dev.testMode _)).exchOpen = _ ∧ (Dev.clearSterling (Dev.testMode _)).reg _ _ = _
      rw [htest]
      exact ⟨hopen, hcount⟩

end Sys2Proof.Proofs
end

section
/-! SUPPORT. A command of a request runs, and the writes of dictionary entries (17 R522, 18 R543-R550). -/

namespace Sys2Proof.Proofs

open Sys2Proof.Machine Sys2Proof.Terms

/-! ### Running a command (17 R522) -/

section
variable {s : State} {k : Nat} {r : Request} {c : HostCmd} {mine : HostCmd → Bool}
  {f : Dev → Request → Option (Dev × CmdOut)} {e : Dev} {o : CmdOut}

theorem onlyPort_ran (e : Dev) (k : Nat) (r : Request) (c : HostCmd) (o : CmdOut) :
    OnlyPort e ((e.putRequest k (r.took c o)).settle k r.reqId) :=
  (onlyPort_setCtx e _ _).trans (onlyPort_settle _ _ _)

theorem runCmd_of_some {d : Dev} (hmine : mine c = true) (hf : f d r = some (e, o)) :
    d.runCmd k (some (r, c)) mine f = (e.putRequest k (r.took c o)).settle k r.reqId := by
  simp only [Dev.runCmd, hmine, hf, Bool.not_true, Bool.false_eq_true, if_false]

theorem runCmd_of_none {d : Dev} (hmine : mine c = true) (hf : f d r = none) : d.runCmd k (some (r, c)) mine f = d := by
  simp only [Dev.runCmd, hmine, hf, Bool.not_true, Bool.false_eq_true, if_false]

/-- A row that runs its context's next command, with its effect and its outcome. -/
theorem ranTo_of_runCmd {i : Instr} {next : Option (Request × HostCmd)}
    (hrow : exec i s = .next (s.withDev (s.dev.runCmd k next mine f))) (hnext : next = some (r, c)) (hmine : mine c = true)
    (hf : f s.dev r = some (e, o)) : ∃ t, exec i s = .next t ∧ ranTo s t k r c e o := by
  rw [hnext, runCmd_of_some hmine hf] at hrow
  exact ⟨_, hrow, rfl, onlyPort_ran e k r c o⟩

/-- A row whose command must wait leaves the machine as it is. -/
theorem exec_of_runCmd_waits {i : Instr} {next : Option (Request × HostCmd)}
    (hrow : exec i s = .next (s.withDev (s.dev.runCmd k next mine f))) (hnext : next = some (r, c)) (hmine : mine c = true)
    (hf : f s.dev r = none) : exec i s = .next s := by
  rw [hnext, runCmd_of_none hmine hf] at hrow
  exact hrow

end

/-! ### The write command (18 R543) -/

section
variable {d : Dev} {f : Fuses} {r : Request} {addr len v : Nat} {act : Dev → Option Dev} (hfirst : r.replayed = false)
include hfirst

theorem writeCmd_of_accepted (h : d.writeAbort f r.ep addr len v = 0) :
    d.writeCmd f r addr len v act = (act d).map fun d => (d.bump 0x1020 2 1, ⟨stOk, 0, []⟩) := by
  simp only [Dev.writeCmd, hfirst, Bool.false_eq_true, if_false, h]

theorem writeCmd_of_refused {code : Nat} (h : d.writeAbort f r.ep addr len v = code) (hcode : code ≠ 0) :
    d.writeCmd f r addr len v act = some (((d.bump 0x1020 3 1).setReg 0x1020 4 code).setReg 0x1020 5 (addr % 2 ^ 24),
      ⟨stAborted, code, []⟩) := by
  rw [Dev.writeCmd, if_neg (by rw [hfirst]; decide), h]
  split
  · exact absurd rfl hcode
  · rfl

end

/-! ### The rows of single entries -/

theorem setWidth_eq_ofNat (v : BitVec 64) : v.setWidth 32 = BitVec.ofNat 32 v.toNat := (BitVec.ofNat_toNat 32 v).symm

/-- A removal shows in no write of TICK_RUN, so that it does not matter when that is read. -/
theorem removeExt_eq (d : Dev) : d.removeExt =
    let e := ((d.setReg 0xA300 1 2).modLib fun x => { x with waiting := some none }).logDict 0xA300 2 0
    if d.tickRun then e else e.takeExt := by
  have haside : Aside True d (((d.setReg 0xA300 1 2).modLib fun x => { x with waiting := some none }).logDict 0xA300 2 0) :=
    (Aside.modLib (.setReg .refl (by decide) (by decide))).trans (aside_logDict _ _ _ _)
  have hrun : (((d.setReg 0xA300 1 2).modLib fun x => { x with waiting := some none }).logDict 0xA300 2 0).tickRun = d.tickRun := by
    rw [Dev.tickRun, haside.run trivial, Dev.tickRun]
  rw [Dev.removeExt]
  dsimp only
  rw [hrun]

/-- Each row of an entry runs the write of that entry, with its effect. -/
theorem exec_writeRow {s : State} {i : Instr} {k idx sub v : Nat} {f : Dev → Option Dev}
    (hrow : writeRow s.fuses i = some (k, idx, sub, v, f)) : exec i s = .next (s.runWrite k idx sub v f) := by
  cases i
  case libExtLoad x a =>
    rw [writeRow] at hrow
    split at hrow
    · cases hrow
    · next ha => cases hrow; exact if_neg ha
  case reqAdmit x a w =>
    rw [writeRow] at hrow
    split at hrow
    · next ha =>
      cases hrow
      refine (if_pos ha).trans ?_
      simp only [Nat.div_add_mod']
    · cases hrow
  case spOwnSet x c w =>
    cases hrow
    have hchange : (BitVec.ofNat 32 w.toNat, BitVec.ofNat 8 (bitsAt w.toNat 32 5)) =
        (w.setWidth 32, BitVec.ofNat 8 (w.toNat / 2 ^ 32 % 32)) := by
      rw [setWidth_eq_ofNat, ownerCode_eq]
    change execSpOwnSet k c w s = _
    simp only [execSpOwnSet, Dev.queueOwner, hchange]
  case psetCommit => cases hrow; rfl
  case psetWithdraw => cases hrow; rfl
  case libExtRemove x =>
    cases hrow
    change Host.Outcome.next (s.runWrite k 0xA300 2 0 fun d => some d.removeExt) = _
    simp only [removeExt_eq]
  case shareCloseTag => cases hrow; rfl
  case counterSet => cases hrow; rfl
  case lossCmd => cases hrow; rfl
  case errClear => cases hrow; rfl
  case force => cases hrow; rfl
  case ownerEnrol => cases hrow; rfl
  case secverRaise => cases hrow; rfl
  case attestRequest => cases hrow; rfl
  case tickRunStart => cases hrow; rfl
  case tickRunStop => cases hrow; rfl
  case portMode => cases hrow; rfl
  case nickelSubmitShort => cases hrow; rfl
  case nickelSubmitLong => cases hrow; rfl
  all_goals cases hrow

/-- Settles O53. -/
theorem dictionaryWrites : Obligations.DictionaryWrites := by
  intro s k r c hnext hop hfirst
  refine ⟨fun i idx sub v f hrow haddr hlen hdata => ?_, fun v hdata => ?_⟩
  · have hmine : (fun c : HostCmd => c.op = 4 && c.addr.toNat = idx * 256 + sub && c.len = 8 && beNat c.data = v) c = true := by
      simp [hop, haddr, hlen, hdata]
    refine ⟨fun hok => ⟨fun e he => ?_, fun hwait => ?_⟩, fun code hcode hne => ?_⟩
    · exact ranTo_of_runCmd (exec_writeRow hrow) hnext hmine (by rw [writeCmd_of_accepted hfirst hok, he]; rfl)
    · exact exec_of_runCmd_waits (exec_writeRow hrow) hnext hmine (by rw [writeCmd_of_accepted hfirst hok, hwait]; rfl)
    · exact ranTo_of_runCmd (exec_writeRow hrow) hnext hmine (writeCmd_of_refused hfirst hcode hne)
  · intro idx sub hrow
    have hmine : (fun x : HostCmd => x.op = 4 && x.addr = c.addr && x.len = c.len && beNat (x.data.take 8) = v.toNat &&
        !(c.len = 8 && ownRow idx sub v.toNat)) c = true := by
      simp only [hop, hdata, decide_true, Bool.true_and, Bool.not_eq_true']
      simpa using hrow
    refine ⟨fun hok => ⟨fun e he => ?_, fun hwait => ?_⟩, fun code hcode hne => ?_⟩
    · exact ranTo_of_runCmd rfl hnext hmine (by rw [writeCmd_of_accepted hfirst hok, he]; rfl)
    · exact exec_of_runCmd_waits rfl hnext hmine (by rw [writeCmd_of_accepted hfirst hok, hwait]; rfl)
    · exact ranTo_of_runCmd rfl hnext hmine (writeCmd_of_refused hfirst hcode hne)

end Sys2Proof.Proofs
end

section
/-! SUPPORT. A host's read over memory that is not in canonical form: the read goes granule by granule and the range read at
once is cut off by a cell of its second granule (17 R530). -/

namespace Sys2Proof.Proofs

open Sys2Proof.Machine Sys2Proof.Terms

/-- A read of two bytes over a granule boundary. -/
def boundaryRead : HostCmd := { op := 2, cont := false, len := 2, addr := 0x1FFF, data := [] }

/-- The request whose one command is that read. -/
def boundaryRequest : Request :=
  { ep := .mac 2, prio := 1, version := 2, msg := 1, reqId := 6, count := 1, bulk := false, complete := true, assigned := true,
    cmds := [boundaryRead], done := 0, ran := 0, failIndex := none, failStatus := 0, abortCode := 0, execFrame := 0,
    execTick := 0, reads := [], raw := [], replayed := false }

/-- A device in service that holds that request, over a memory whose two cells do not rise. -/
def boundaryReader : Dev :=
  { Dev.fresh with
    phase := .service
    mem := { Memory.empty with cells := [(0x2000, 5), (0x1FFF, 2)] }
    port := { Dev.fresh.port with contexts := [(0, { requests := [boundaryRequest], window := [], highest := 6 })] } }

theorem boundaryReader_next : boundaryReader.nextCmd 0 = some (boundaryRequest, boundaryRead) := by decide

theorem boundaryReader_problem : boundaryReader.problemIn .host .read 0x1FFF 2 = none := by decide

theorem boundaryReader_hostRead : (boundaryReader.hostRead 0x1FFF 2).2.1 = [2, 5] := by decide

theorem boundaryReader_read : boundaryReader.mem.read 0x1FFF 2 = [0, 5] := by decide

/-- Refutes O52: MEM_READ reads its range granule by granule, and over cells that do not rise the range read at once misses a
byte that the granule's own read finds. -/
theorem not_requestCommands : ¬ Obligations.RequestCommands := by
  intro h
  obtain ⟨hread, -⟩ := h { State.reset with dev := boundaryReader } 0 boundaryRequest boundaryRead
  obtain ⟨hquiet, -, hmoved⟩ := hread boundaryReader_next rfl (by decide) boundaryReader_problem []
  obtain ⟨t, e, bs, bad, -, hhost, -, hbytes, -⟩ := hmoved (by rw [hquiet fun _ => rfl])
  rw [hquiet fun _ => rfl] at hhost
  have hpieces : bs = [2, 5] := (congrArg (fun x => x.2.1) hhost).symm.trans boundaryReader_hostRead
  have hwhole : bs = [0, 5] := hbytes.trans boundaryReader_read
  exact absurd (hpieces.symm.trans hwhole) (by decide)

end Sys2Proof.Proofs
end

section
/-! SUPPORT. A fill record over memory that is not in canonical form: the DMA engine reads it granule by granule, and the record
read at once is cut off by a cell of its second granule (15 R475). -/

namespace Sys2Proof.Proofs

open Sys2Proof.Machine Sys2Proof.Terms

/-- A frame whose barrier has passed. -/
def barrierPassed : FrameRun :=
  { number := 1, tick := 1, genTick := 7, barrier := true, barrierAt := 0, complete := false, overrun := false, esSat := false,
    poison := false, satSkip := false, coresStopped := 0, poisonWrites := 0, refusals := 0, faultsUc := 0 }

/-- A device whose fill list begins with the last byte of a granule, over a memory whose two cells do not rise. -/
def boundaryFiller : Dev :=
  { Dev.fresh with
    mem := { Memory.empty with cells := [(0x2000, 5), (0x1FFF, 2)] }
    tick := { Dev.fresh.tick with frame := some barrierPassed, fillList := 0x1FFF, fillCount := 1 } }

theorem exec_fill (s : State) : exec .fill s = .next (s.withDev s.dev.startFill) := rfl

theorem boundaryFiller_read : (boundaryFiller.mem.read 0x1FFF 64).head? = some 0 := by decide

theorem boundaryFiller_record :
    (boundaryFiller.startFill.tick.fill.bind fun x => x.bytes.head?) = some 2 := by decide

theorem boundaryFiller_dmaMay : dmaMay boundaryFiller .read 0 0x1FFF 64 := by unfold dmaMay; decide

theorem nothingWaits_boundaryFiller : nothingWaits boundaryFiller := by
  intro c
  refine ⟨rfl, fun b => ?_⟩
  have hon : boundaryFiller.bankPower c b = .on := rfl
  simp [hon]

/-- Refutes O40: FILL reads its record granule by granule, and over cells that do not rise the record read at once misses a
byte that the granule's own read finds. -/
theorem not_fillsRun : ¬ Obligations.FillsRun := by
  rintro ⟨hstart, -⟩
  obtain ⟨u, x, hexec, hfill, -, hbytes, -⟩ := hstart { State.reset with dev := boundaryFiller } barrierPassed rfl rfl
    (by decide) rfl boundaryFiller_dmaMay (by unfold errorFree; decide) nothingWaits_boundaryFiller
  have hstep := exec_fill { State.reset with dev := boundaryFiller }
  have hu := Host.Outcome.next.inj (hstep.symm.trans hexec)
  have hrecord : (u.dev.tick.fill.bind fun x => x.bytes.head?) = some 2 := hu ▸ boundaryFiller_record
  have hpieces : x.bytes.head? = some 2 := by rwa [hfill] at hrecord
  have hwhole : x.bytes.head? = some 0 := (congrArg List.head? hbytes).trans boundaryFiller_read
  exact absurd (hpieces.symm.trans hwhole) (by decide)

end Sys2Proof.Proofs
end

section
/-! SUPPORT. A write that nothing refuses lays its bytes down, granule by granule (10 R320, 13 R408); a read leaves them. -/

namespace Sys2Proof.Proofs

open Sys2Proof.Machine Sys2Proof.Terms

theorem mem_pieces_le {a n p : Nat} (h : p ∈ pieces a n) : a ≤ p := by
  unfold pieces at h
  split at h
  · exact absurd h List.not_mem_nil
  · obtain rfl | h := List.mem_cons.1 h
    · exact Nat.le_refl _
    · obtain ⟨i, -, rfl⟩ := List.mem_map.1 h
      omega

/-- Every byte of a range lies in the granule of one of its pieces. -/
theorem exists_piece_iff {a n x : Nat} :
    (∃ p ∈ pieces a n, p ≤ x ∧ x < p / 256 * 256 + 256 ∧ x < a + n) ↔ a ≤ x ∧ x < a + n := by
  refine ⟨fun ⟨p, hp, hle, _, hlt⟩ => ⟨(mem_pieces_le hp).trans hle, hlt⟩, fun ⟨hle, hlt⟩ => ?_⟩
  have hn : n ≠ 0 := by omega
  rw [pieces, if_neg hn]
  by_cases hfirst : x / 256 = a / 256
  · exact ⟨a, List.mem_cons_self, hle, by omega, hlt⟩
  · refine ⟨x / 256 * 256, List.mem_cons_of_mem _ (List.mem_map.2 ⟨x / 256 - a / 256 - 1, List.mem_range.2 ?_, ?_⟩),
      ?_, ?_, hlt⟩ <;> omega

/-- The bytes after the pieces of a range have been stored. -/
theorem byte_storePieces (a : Nat) (bs : List Byte) (x : Nat) (l : List Nat) (hl : ∀ p ∈ l, a ≤ p) (d : Dev) :
    (l.foldl (fun d p => d.store none p ((bs.drop (p - a)).take (p / 256 * 256 + 256 - p))) d).mem.byte x =
      if ∃ p ∈ l, p ≤ x ∧ x < p / 256 * 256 + 256 ∧ x < a + bs.length then bs.getD (x - a) 0 else d.mem.byte x := by
  induction l generalizing d with
  | nil => simp
  | cons p l ih =>
    have hp := hl p List.mem_cons_self
    rw [List.foldl_cons, ih (fun q hq => hl q (List.mem_cons_of_mem _ hq)), Dev.byte_store]
    by_cases hrest : ∃ q ∈ l, q ≤ x ∧ x < q / 256 * 256 + 256 ∧ x < a + bs.length
    · rw [if_pos hrest, if_pos]
      obtain ⟨q, hq, hx⟩ := hrest
      exact ⟨q, List.mem_cons_of_mem _ hq, hx⟩
    · rw [if_neg hrest]
      by_cases hhere : p ≤ x ∧ x < p / 256 * 256 + 256 ∧ x < a + bs.length
      · rw [if_pos (by rw [List.length_take, List.length_drop]; omega), if_pos ⟨p, List.mem_cons_self, hhere⟩]
        rw [List.getD_eq_getElem?_getD, List.getD_eq_getElem?_getD, List.getElem?_take, if_pos (by omega),
          List.getElem?_drop]
        congr 2
        omega
      · rw [if_neg (by rw [List.length_take, List.length_drop]; omega), if_neg]
        rintro ⟨q, hq, hx⟩
        obtain rfl | hq := List.mem_cons.1 hq
        · exact hhere hx
        · exact hrest ⟨q, hq, hx⟩

/-- A unit's write that nothing refuses and no bank delays. -/
theorem laidDown_writeAs {d : Dev} {r : Requester} {a : Nat} {bs : List Byte} (h : d.problemIn r .write a bs.length = none) :
    laidDown d (d.writeAs r a bs) a bs := by
  intro x
  obtain ⟨hwait, -⟩ | ⟨p, -, hp, -⟩ | ⟨-, hmade⟩ := d.writeAs_cases r a bs
  · exact absurd (hwait.symm.trans h) (nomatch ·)
  · exact absurd (hp.symm.trans h) (nomatch ·)
  · rw [hmade, byte_storePieces a bs x _ (fun p => mem_pieces_le)]
    simp only [exists_piece_iff]

theorem laidDown_hostWrite {d : Dev} {a : Nat} {bs : List Byte} (h : d.problemIn .host .write a bs.length = none) :
    laidDown d (d.hostWrite a bs) a bs := laidDown_writeAs h

/-- The host's reads leave every byte. -/
theorem cells_hostRead (d : Dev) (a n : Nat) : (d.hostRead a n).1.mem.cells = d.mem.cells := by
  have hpieces (l : List Nat) (x : Dev × List Byte × Bool) :
      (l.foldl (fun (x : Dev × List Byte × Bool) p =>
        let k := min (p / 256 * 256 + 256) (a + n) - p
        match x.1.problemAt .host .read p with
        | some q => (if x.2.2 then x.1 else x.1.noteProblem .host .read q, x.2.1 ++ zeroBytes k, true)
        | none =>
          let (d, bs, bad) := x.1.fetch none p k
          (d, x.2.1 ++ bs, x.2.2 || bad)) x).1.mem.cells = x.1.mem.cells := by
    induction l generalizing x with
    | nil => rfl
    | cons p l ih =>
      rw [List.foldl_cons, ih]
      dsimp only
      split
      · dsimp only
        split
        · rfl
        · rw [Dev.noteProblem_mem]
      · exact Dev.fetch_cells ..
  exact hpieces _ _

/-! ### What stands against an access -/

/-- The entries that an access asks for: the region table's, and the mode and division of a scratchpad. -/
def mapEntry (i k : Nat) : Prop := 0x4100 ≤ i ∧ i < 0x4120 ∧ 1 ≤ k ∧ k ≤ 4 ∨ 0x3100 ≤ i ∧ i < 0x3200 ∧ (k = 1 ∨ k = 2)

/-- Two devices of which an access asks the same: the map's entries, the cores' halves, the banks, the slabs being
initialised. -/
structure SameMap (d e : Dev) : Prop where
  regs : ∀ i k, mapEntry i k → e.reg i k = d.reg i k
  frame : ∀ n, (e.core n).frame = (d.core n).frame
  half : ∀ n, (e.core n).half = (d.core n).half
  owners : ∀ c, (e.cluster c).owners = (d.cluster c).owners
  power : ∀ c, (e.cluster c).power = (d.cluster c).power
  handovers : ∀ c, (e.cluster c).handovers = (d.cluster c).handovers
  stk : e.stk = d.stk

/-- Only the dictionary and parts that no access asks for differ. -/
theorem sameMap_of_regs {d e : Dev} (hregs : ∀ i k, mapEntry i k → e.reg i k = d.reg i k) (hcores : e.cores = d.cores)
    (hclusters : e.clusters = d.clusters) (hstk : e.stk = d.stk) : SameMap d e where
  regs := hregs
  frame n := by rw [Dev.core, hcores, Dev.core]
  half n := by rw [Dev.core, hcores, Dev.core]
  owners c := by rw [Dev.cluster, hclusters, Dev.cluster]
  power c := by rw [Dev.cluster, hclusters, Dev.cluster]
  handovers c := by rw [Dev.cluster, hclusters, Dev.cluster]
  stk := hstk

theorem SameMap.refl (d : Dev) : SameMap d d := sameMap_of_regs (fun _ _ _ => rfl) rfl rfl rfl

theorem SameMap.trans {d e f : Dev} (h : SameMap d e) (h' : SameMap e f) : SameMap d f where
  regs i k hk := (h'.regs i k hk).trans (h.regs i k hk)
  frame n := (h'.frame n).trans (h.frame n)
  half n := (h'.half n).trans (h.half n)
  owners c := (h'.owners c).trans (h.owners c)
  power c := (h'.power c).trans (h.power c)
  handovers c := (h'.handovers c).trans (h.handovers c)
  stk := h'.stk.trans h.stk

theorem Accessed.sameMap {d e : Dev} (h : Accessed d e) : SameMap d e :=
  sameMap_of_regs (fun i k hk => h.regs i k (by unfold mapEntry at hk; omega) (by unfold mapEntry at hk; unfold accessEntry; omega))
    h.cores h.clusters h.stk

theorem sameMap_setReg (d : Dev) {i k : Nat} (v : Nat) (hk : k < 256) (h : ¬mapEntry i k) : SameMap d (d.setReg i k v) :=
  sameMap_of_regs (fun j m hm => by
    rw [d.reg_setReg i k v j m hk (by unfold mapEntry at hm; omega), if_neg]
    rintro ⟨rfl, rfl⟩
    exact h hm) rfl rfl rfl

theorem sameMap_bump (d : Dev) {i k : Nat} (n : Nat) (hk : k < 256) (h : ¬mapEntry i k) : SameMap d (d.bump i k n) :=
  sameMap_setReg d _ hk h

/-- Such devices answer every access alike. -/
theorem SameMap.problemAt {d e : Dev} (h : SameMap d e) (r : Requester) (k : AccessKind) (a : Nat) :
    e.problemAt r k a = d.problemAt r k a := by
  unfold Dev.problemAt
  cases hregion : regionOf a with
  | stack =>
    have hslab : e.slabClass (a / 0x200000000) = d.slabClass (a / 0x200000000) := by
      refine findSome?_congr fun r hr => ?_
      have hr := List.mem_range.mp hr
      have hreg {k : Nat} (hk : 1 ≤ k ∧ k ≤ 4) : e.reg (0x4100 + r) k = d.reg (0x4100 + r) k :=
        h.regs _ _ (by unfold mapEntry; omega)
      simp only [hreg (k := 1) (by decide), hreg (k := 2) (by decide), hreg (k := 3) (by decide), hreg (k := 4) (by decide)]
    simp only [Dev.stackCause, hslab, h.stk]
  | bank c off =>
    have hc := regionOf_bank_lt hregion
    have hdivision : e.division c = d.division c := by
      rw [Dev.division, h.regs _ 1 (by unfold mapEntry; omega), h.regs _ 2 (by unfold mapEntry; omega), Dev.division]
    dsimp only
    unfold Dev.bankProblem Dev.bankPower Dev.handoverOf Dev.bankOwner
    rw [hdivision, h.owners, h.power, h.handovers]
  | core n off => simp only [h.frame, h.half]
  | nowhere => rfl

theorem SameMap.problemIn {d e : Dev} (h : SameMap d e) (r : Requester) (k : AccessKind) (a n : Nat) :
    e.problemIn r k a n = d.problemIn r k a n := by
  simp only [Dev.problemIn, h.problemAt]

end Sys2Proof.Proofs
end

section
/-! SUPPORT. Nickel jobs: what reading a record and carrying its job out leaves of the device, and the end of a job
(19 R566, R573, R577). -/

namespace Sys2Proof.Proofs

open Sys2Proof.Machine Sys2Proof.Terms

/-! ### A job's reads -/

theorem Accessed.modNickel {d e : Dev} (h : Accessed d e) (f : Nickel → Nickel) : Accessed (d.modNickel f) (e.modNickel f) where
  frame := by rw [h.frame]; rfl
  regs := h.regs

theorem Accessed.nickel {d e : Dev} (h : Accessed d e) : e.nickel = d.nickel := by rw [h.frame]

/-- A device that a job has read from: its stored errors in the slots and in memory may have been met, its bytes stay. -/
structure JobRead (d e : Dev) : Prop where
  accessed : Accessed (d.modNickel fun x => { x with badSlots := e.nickel.badSlots }) e
  cells : e.mem.cells = d.mem.cells

theorem JobRead.refl (d : Dev) : JobRead d d := ⟨.refl d, rfl⟩

theorem JobRead.trans {d e f : Dev} (h : JobRead d e) (h' : JobRead e f) : JobRead d f where
  accessed := (h.accessed.modNickel fun x => { x with badSlots := f.nickel.badSlots }).trans h'.accessed
  cells := h'.cells.trans h.cells

theorem jobRead_of_accessed {d e : Dev} (h : Accessed d e) (hcells : e.mem.cells = d.mem.cells) : JobRead d e where
  accessed := by rw [h.nickel]; exact h
  cells := hcells

theorem jobRead_hostRead (d : Dev) (a n : Nat) : JobRead d (d.hostRead a n).1 :=
  jobRead_of_accessed (accessed_hostRead d a n) (cells_hostRead d a n)

theorem jobRead_meetSlots (d : Dev) (addr unit : Nat) (ks : List Nat) : JobRead d (d.meetSlots addr unit ks).1 := by
  refine foldl_rel (R := fun x y : Dev × Bool => JobRead x.1 y.1) (fun x => .refl x.1) (fun _ _ _ => .trans)
    (fun x b _ => ?_) (d, false)
  split
  · exact .refl _
  split
  · have hdrop : JobRead x.1 (x.1.modNickel fun y => { y with badSlots := y.badSlots.filter (· ≠ b) }) := ⟨.refl _, rfl⟩
    exact hdrop.trans (jobRead_of_accessed (accessed_faultCorr _ 0x14 unit addr 0) (Dev.faultCorr_mem _ 0x14 unit addr 0 ▸ rfl))
  · dsimp only
    split
    · exact .refl _
    · exact jobRead_of_accessed (accessed_faultUc _ 0x14 unit addr 0 stAborted 0) (by rw [Dev.faultUc_mem])

theorem jobRead_ite {α : Type} {c : Prop} [Decidable c] {d : Dev} {x y : Dev × α} (hx : JobRead d x.1) (hy : JobRead d y.1) :
    JobRead d (if c then x else y).1 := by
  split
  · exact hx
  · exact hy

theorem jobRead_runJob (d : Dev) (addr : Nat) (firmware short : Bool) : JobRead d (d.runJob addr firmware short).1 := by
  have hrecord := jobRead_hostRead d addr 64
  have hslots (r : NickelRec) := hrecord.trans (jobRead_meetSlots (d.hostRead addr 64).1 addr (bit firmware) r.reads)
  have hmsg (r : NickelRec) : JobRead d (if r.op = 0x02 ∨ r.bytes = 0 then
      (((d.hostRead addr 64).1.meetSlots addr (bit firmware) r.reads).1, ([], false))
      else ((d.hostRead addr 64).1.meetSlots addr (bit firmware) r.reads).1.hostRead r.msg r.bytes).1 :=
    jobRead_ite (hslots r) ((hslots r).trans (jobRead_hostRead _ r.msg r.bytes))
  exact jobRead_ite hrecord (jobRead_ite (hslots _) (jobRead_ite (hmsg _) (jobRead_ite (hmsg _) (hmsg _))))

/-! ### The start of a job -/

theorem problemAt_ne_wait {d : Dev} (h : nothingWaits d) (r : Requester) (k : AccessKind) (a : Nat) :
    d.problemAt r k a ≠ some .wait := by
  unfold Dev.problemAt
  split
  · cases d.stackCause a <;> simp
  next c off _ =>
    obtain ⟨hfree, hpower⟩ := h c
    unfold Dev.bankProblem
    dsimp only
    split
    · simp
    · simp
    next hwaking => exact absurd hwaking (hpower _)
    · have hnone : d.handoverOf c (off / 0x20000) = none := by unfold Dev.handoverOf; rw [hfree]; rfl
      rw [hnone]
      dsimp only
      split
      · simp
      · split <;> simp
  · dsimp only
    split
    · simp
    · split <;> simp
  · simp

theorem hostWaits_eq_false {d : Dev} (h : nothingWaits d) (a n : Nat) : d.hostWaits a n = false := by
  unfold Dev.hostWaits
  rw [List.any_eq_false]
  intro p _
  simpa using problemAt_ne_wait h .host .read p

/-- The first byte of a range read at once is the byte read alone, or zero where a cell further on is listed first. -/
theorem head_readRun (a n : Nat) (l : List Host.Cell) :
    (readRun (n + 1) a (l.filter fun c => a ≤ c.1 && c.1 < a + (n + 1))).headD 0 =
      (readRun 1 a (l.filter fun c => a ≤ c.1 && c.1 < a + 1)).headD 0 ∨
    (readRun (n + 1) a (l.filter fun c => a ≤ c.1 && c.1 < a + (n + 1))).headD 0 = 0 := by
  induction l with
  | nil => exact .inl rfl
  | cons c l ih =>
    by_cases hhere : c.1 = a
    · rw [List.filter_cons_of_pos (by simp [hhere]), List.filter_cons_of_pos (by simp [hhere])]
      simp [readRun, hhere]
    · by_cases hin : a ≤ c.1 ∧ c.1 < a + (n + 1)
      · rw [List.filter_cons_of_pos (by simpa using hin)]
        simp [readRun, hhere]
      · rw [List.filter_cons_of_neg (by simpa using hin), List.filter_cons_of_neg (by simp; omega)]
        exact ih

theorem leNat_mod_256 (bs : List Byte) : leNat bs % 256 = (bs.headD 0).toNat := by
  cases bs with
  | nil => rfl
  | cons b r =>
    rw [leNat, Nat.add_mul_mod_self_left, Nat.mod_eq_of_lt b.isLt]
    rfl

theorem leNat_read_one (m : Memory) (a : Nat) : leNat (m.read a 1) = ((m.read a 1).headD 0).toNat := by
  rw [← leNat_mod_256, Nat.mod_eq_of_lt]
  have h := leNat_lt (m.read a 1)
  rwa [Memory.read_length] at h

/-- The operation of a record is the one that its first byte names, or none. -/
theorem op_parse_read (m : Memory) (a : Nat) :
    (NickelRec.parse (m.read a 64)).op = leNat (m.read a 1) ∨ (NickelRec.parse (m.read a 64)).op = 0 := by
  have hop : (NickelRec.parse (m.read a 64)).op = ((m.read a 64).headD 0).toNat := by
    rw [← leNat_mod_256]
    exact (bitsAt_eq _ 0 8).trans (by rw [Nat.pow_zero, Nat.div_one]; rfl)
  rw [hop, leNat_read_one]
  obtain h | h := head_readRun a 63 m.cells
  · exact .inl (congrArg BitVec.toNat h)
  · exact .inr (congrArg BitVec.toNat h)

theorem exec_nickelRow {s : State} {i : Instr} {op : Nat} (hrow : nickelRow i = some op) :
    exec i s = .next (s.withDev (s.dev.startNickel (· = op))) := by
  unfold nickelRow at hrow
  split at hrow
  all_goals cases hrow <;> rfl

/-- The device once the next job has started. -/
def jobStarted (d : Dev) (addr : Nat) (fw short yields : Bool) : Dev :=
  (if yields then (d.runJob addr fw short).1.bump 0xA000 8 1 else (d.runJob addr fw short).1).modNickel fun x => { x with
    run := some (d.runJob addr fw short).2,
    yielded := if yields then x.run.map fun j => { j with yields := j.yields + 1 } else x.yielded,
    shortQ := if short then x.shortQ.tail else x.shortQ, longQ := if short then x.longQ else x.longQ.tail }

section
variable (d : Dev) (addr : Nat) (fw short yields : Bool)

theorem jobRead_jobStarted : ∃ e bad, JobRead d e ∧ jobStarted d addr fw short yields =
    { e with regs := (jobStarted d addr fw short yields).regs, nickel := { d.nickel with
      run := some (d.runJob addr fw short).2,
      yielded := if yields then d.nickel.run.map fun j => { j with yields := j.yields + 1 } else d.nickel.yielded,
      shortQ := if short then d.nickel.shortQ.tail else d.nickel.shortQ,
      longQ := if short then d.nickel.longQ else d.nickel.longQ.tail, badSlots := bad } } := by
  have hread := jobRead_runJob d addr fw short
  refine ⟨(d.runJob addr fw short).1, (d.runJob addr fw short).1.nickel.badSlots, hread, ?_⟩
  have hnickel := hread.accessed.nickel
  generalize (d.runJob addr fw short).1.nickel.badSlots = bad at hnickel
  have hcounted : (if yields then (d.runJob addr fw short).1.bump 0xA000 8 1 else (d.runJob addr fw short).1).nickel =
      { d.nickel with badSlots := bad } := by
    split <;> exact hnickel
  unfold jobStarted
  rw [Dev.modNickel, hcounted]
  cases yields <;> rfl

end

theorem startNickel_of_next {d : Dev} {op addr : Nat} {fw short yields : Bool} (hnext : d.nextJob = some ((addr, fw), short, yields))
    (hquiet : nothingWaits d) (hop : leNat (d.mem.read addr 1) = op) :
    d.startNickel (· = op) = jobStarted d addr fw short yields := by
  unfold Dev.startNickel
  rw [hnext]
  refine if_neg ?_
  rintro (⟨hops, huses⟩ | hwaits | ⟨-, hwaits⟩)
  · obtain h | h := op_parse_read d.mem addr
    · exact absurd (h.trans hop) (of_decide_eq_false ((Bool.not_eq_true' _).mp hops))
    · refine huses ?_
      rw [show (NickelRec.parse (d.rd addr 64)).op = 0 from h]
      rfl
  · rw [hostWaits_eq_false hquiet] at hwaits
    exact Bool.false_ne_true hwaits
  · rw [hostWaits_eq_false hquiet] at hwaits
    exact Bool.false_ne_true hwaits

/-! ### The end of a job -/

/-- The device once a job's output has been stored and the job counted; its status record is still to be written. -/
def jobClosed (d : Dev) (j : NickelJob) (k : Nat) (v : BitVec 1024) : Dev :=
  let e := (({ d with nickel := { d.nickel with run := none } } : Dev).setSlot k v.toNat).bump 0xA000 6 1
  if j.refused then e.bump 0xA000 7 1 else e

section
variable (d : Dev) (j : NickelJob) (k : Nat) (v : BitVec 1024)

theorem nickel_jobClosed : (jobClosed d j k v).nickel = { d.nickel with
    run := none, slots := tset d.nickel.slots k (BitVec.ofNat 1024 v.toNat),
    pairs := d.nickel.pairs.filter fun p => p.1 ≠ k && p.2 ≠ k,
    badSlots := d.nickel.badSlots.filter fun b => b.1 / 16 ≠ k } := by
  unfold jobClosed
  dsimp only
  split <;> rfl

theorem mem_jobClosed : (jobClosed d j k v).mem = d.mem := by unfold jobClosed; dsimp only; split <;> rfl

theorem cores_jobClosed : (jobClosed d j k v).cores = d.cores := by unfold jobClosed; dsimp only; split <;> rfl

theorem sameMap_jobClosed : SameMap d (jobClosed d j k v) := by
  have hslot : SameMap d (({ d with nickel := { d.nickel with run := none } } : Dev).setSlot k v.toNat) :=
    sameMap_of_regs (fun _ _ _ => rfl) rfl rfl rfl
  have hcount (e : Dev) (i : Nat) (hi : i < 256) : SameMap e (e.bump 0xA000 i 1) :=
    sameMap_bump e 1 hi (by unfold mapEntry; omega)
  unfold jobClosed
  dsimp only
  split
  · exact (hslot.trans (hcount _ 6 (by decide))).trans (hcount _ 7 (by decide))
  · exact hslot.trans (hcount _ 6 (by decide))

end

/-- With no job running and none yielded, nothing resumes. -/
theorem modNickel_resume_of_idle {d : Dev} (hrun : d.nickel.run = none) (hyielded : d.nickel.yielded = none) :
    d.modNickel (fun x => { x with run := x.yielded, yielded := none }) = d := by
  have hsame : { d.nickel with run := d.nickel.yielded, yielded := none } = d.nickel := by
    generalize d.nickel = n at hrun hyielded
    cases n with
    | mk slots pairs shortQ longQ run yielded sealedWork owed badSlots =>
      obtain rfl : run = none := hrun
      obtain rfl : yielded = none := hyielded
      rfl
  exact congrArg (fun n => ({ d with nickel := n } : Dev)) hsame

/-- A job with an output, no memory write and no job yielded to it. -/
theorem nickelDone_of_output {d : Dev} {j : NickelJob} {k : Nat} {v : BitVec 1024} (hrun : d.nickel.run = some j)
    (hout : j.out = some (k, v)) (hclear : j.clearTo = none) (hpair : j.pair = none) (hstore : j.store = none)
    (hyielded : d.nickel.yielded = none) : d.nickelDone = (jobClosed d j k v).writeNickelStatus j := by
  have hnickel := (accessed_writeNickelStatus (jobClosed d j k v) j).nickel.trans (nickel_jobClosed d j k v)
  have hresumed : ((jobClosed d j k v).writeNickelStatus j).modNickel (fun x => { x with run := x.yielded, yielded := none }) =
      (jobClosed d j k v).writeNickelStatus j :=
    modNickel_resume_of_idle (congrArg Nickel.run hnickel) ((congrArg Nickel.yielded hnickel).trans hyielded)
  unfold Dev.nickelDone
  rw [hrun]
  dsimp only
  rw [hclear, hout, hpair, hstore]
  exact (ite_congr rfl (fun _ => hresumed) (fun _ => rfl)).trans (ite_self _)

/-- The status record of a job, its flags and the reserved bits over them in one byte (19 R566). -/
def nickelFields (d : Dev) (j : NickelJob) : List (Nat × Nat × Nat) :=
  [(0, 8, j.status.toNat), (8, 8, j.flags.toNat), (32, 32, j.yields), (64, 64, d.counter), (128, 32, j.stated),
    (160, 32, max (d.clock - j.startedAt) j.stated)]

theorem writeNickelStatus_of_placed {d : Dev} {j : NickelJob} {a : Nat} (haddr : j.statusAddr = some a) (halign : a % 64 = 0)
    (hmap : mapRange a 64 = true) : d.writeNickelStatus j = d.hostWrite a (mkRecord 64 (nickelFields d j)) := by
  have hfields : fieldsValue [(0, 8, j.status.toNat), (8, 4, j.flags.toNat), (32, 32, j.yields), (64, 64, d.counter),
      (128, 32, j.stated), (160, 32, max (d.clock - j.startedAt) j.stated)] = fieldsValue (nickelFields d j) := by
    refine fieldsValue_cons_congr _ ?_
    simp only [fieldsValue, List.map_cons]
    rw [Nat.mod_eq_of_lt (show j.flags.toNat < 2 ^ 4 from j.flags.isLt),
      Nat.mod_eq_of_lt (show j.flags.toNat < 2 ^ 8 from j.flags.isLt.trans (by decide))]
  unfold Dev.writeNickelStatus
  rw [haddr]
  dsimp only
  rw [if_neg (by rw [hmap]; simp [halign]), mkRecord_eq, mkRecord_eq, hfields]

theorem mkRecord_length (n : Nat) (fields : List (Nat × Nat × Nat)) : (mkRecord n fields).length = n := leBytes_length n _

theorem nickelFields_fit (d : Dev) (j : NickelJob) : FieldsFit 0 (nickelFields d j) := by simp [FieldsFit, nickelFields]

theorem nickelRecord_status (d : Dev) (j : NickelJob) : (mkRecord 64 (nickelFields d j)).getD 0 0 = j.status := by
  rw [mkRecord_byte (at_ := 0) (w := 8) (v := j.status.toNat) (by decide) (nickelFields_fit d j) (by simp [nickelFields])
    (by decide) (by decide)]
  simp

theorem nickelRecord_flags (d : Dev) (j : NickelJob) : ((mkRecord 64 (nickelFields d j)).getD 1 0).toNat = j.flags.toNat := by
  rw [mkRecord_byte (at_ := 8) (w := 8) (v := j.flags.toNat) (by decide) (nickelFields_fit d j) (by simp [nickelFields])
    (by decide) (by decide), BitVec.toNat_ofNat, Nat.sub_self, Nat.pow_zero, Nat.div_one]
  exact Nat.mod_eq_of_lt (j.flags.isLt.trans (by decide))

theorem slot_of_nickel {d e : Dev} {k : Nat} {v : BitVec 1024} (h : e.nickel.slots = tset d.nickel.slots k (.ofNat 1024 v.toNat))
    (m : Nat) : e.slot m = if m = k then v.toNat else d.slot m := by
  rw [Dev.slot, h, tget_tset]
  split
  · rw [BitVec.ofNat_toNat, BitVec.setWidth_eq]
  · rfl

/-- Settles O41: reading a record and carrying its job out only reads; the end of a job stores its output and lays down its
record. -/
theorem nickelJobs : Obligations.NickelJobs := by
  refine ⟨?_, ?_⟩
  · intro s i op addr fw short yields hrow hquiet hnext hop
    refine ⟨_, (exec_nickelRow hrow).trans (congrArg (fun d => Host.Outcome.next (s.withDev d))
      (startNickel_of_next hnext hquiet hop)), ?_⟩
    obtain ⟨e, bad, hread, hstarted⟩ := jobRead_jobStarted s.dev addr fw short yields
    dsimp only [State.withDev]
    rw [hstarted]
    exact ⟨rfl, rfl, rfl, rfl, rfl, hread.accessed.cores, hread.accessed.clusters, fun a => Memory.byte_congr hread.cells a⟩
  · intro s j k v a hrun hout hclear hpair hstore hyielded haddr halign hmap hfree
    have hclosed := nickel_jobClosed s.dev j k v
    obtain ⟨d, hd⟩ : ∃ d, d = jobClosed s.dev j k v := ⟨_, rfl⟩
    have hmem : d.mem = s.dev.mem := hd ▸ mem_jobClosed s.dev j k v
    have hcores : d.cores = s.dev.cores := hd ▸ cores_jobClosed s.dev j k v
    have hmay : d.problemIn .host .write a 64 = none := by rw [hd, (sameMap_jobClosed s.dev j k v).problemIn, hfree]
    rw [← hd] at hclosed
    have hlaid : laidDown d (d.hostWrite a (mkRecord 64 (nickelFields d j))) a (mkRecord 64 (nickelFields d j)) :=
      laidDown_hostWrite (by rw [mkRecord_length, hmay])
    have haccess := accessed_hostWrite d a (mkRecord 64 (nickelFields d j))
    have hdone : s.dev.nickelDone = d.hostWrite a (mkRecord 64 (nickelFields d j)) := by
      rw [nickelDone_of_output hrun hout hclear hpair hstore hyielded, ← hd, writeNickelStatus_of_placed haddr halign hmap]
    refine ⟨_, rfl, ?_⟩
    dsimp only [State.withDev]
    rw [hdone]
    generalize d.hostWrite a (mkRecord 64 (nickelFields d j)) = f at hlaid haccess
    have hnickel := haccess.nickel.trans hclosed
    have hbyte (i : Nat) (hi : i < 64) : f.mem.byte (a + i) = (mkRecord 64 (nickelFields d j)).getD i 0 := by
      rw [hlaid, if_pos (by rw [mkRecord_length]; omega), Nat.add_sub_cancel_left]
    refine ⟨congrArg Nickel.run hnickel, slot_of_nickel (congrArg Nickel.slots hnickel), fun p hp => ?_, ?_, ?_,
      haccess.cores.trans hcores, fun x hx => ?_⟩
    · rw [congrArg Nickel.pairs hnickel] at hp
      obtain ⟨hmem, hapart⟩ := List.mem_filter.1 hp
      simp only [ne_eq, decide_not, Bool.and_eq_true, Bool.not_eq_true', decide_eq_false_iff_not] at hapart
      exact ⟨hapart.1, hapart.2, hmem⟩
    · exact (hbyte 0 (by decide)).trans (nickelRecord_status d j)
    · exact (congrArg BitVec.toNat (hbyte 1 (by decide))).trans (nickelRecord_flags d j)
    · rw [hlaid, if_neg (by rw [mkRecord_length]; exact hx), hmem]

end Sys2Proof.Proofs
end

section
/-! SUPPORT. The security version: programming its fuses one by one brings their number to the value asked for (20 R603). -/

namespace Sys2Proof.Proofs

open Sys2Proof.Machine Sys2Proof.Terms

theorem foldl_add_eq_sum (f : Nat → Nat) (n : Nat) : (List.range n).foldl (fun k i => k + f i) 0 = ∑ i ∈ Finset.range n, f i := by
  induction n with
  | zero => rfl
  | succ n ih => rw [List.range_succ, List.foldl_append, ih, Finset.sum_range_succ]; rfl

/-- The number of bits programmed. -/
def programmed (w : BitVec 63) : Nat := ∑ i ∈ Finset.range 63, bit (w.getLsbD i)

theorem secverCount_eq (f : Fuses) : secverCount f = programmed f.secver := foldl_add_eq_sum _ 63

theorem programmed_all {w : BitVec 63} (h : ∀ i, i < 63 → w.getLsbD i = true) : programmed w = 63 := by
  rw [programmed, Finset.sum_congr rfl fun i hi => by rw [h i (Finset.mem_range.1 hi)]]
  rfl

theorem programmed_set {w : BitVec 63} {i : Nat} (hi : i < 63) (hfree : w.getLsbD i = false) :
    programmed (w ||| (1#63 <<< i)) = programmed w + 1 := by
  have hmem : i ∈ Finset.range 63 := Finset.mem_range.2 hi
  have hnew : bit ((w ||| (1#63 <<< i)).getLsbD i) = bit (w.getLsbD i) + 1 := by
    have hset : (w ||| (1#63 <<< i)).getLsbD i = true := by simp [hi]
    rw [hset, hfree]
    rfl
  have hothers : ∑ j ∈ (Finset.range 63).erase i, bit ((w ||| (1#63 <<< i)).getLsbD j) =
      ∑ j ∈ (Finset.range 63).erase i, bit (w.getLsbD j) := by
    refine Finset.sum_congr rfl fun j hj => ?_
    have hne := Finset.ne_of_mem_erase hj
    have hclear : (1#63 <<< i).getLsbD j = false := by
      simp only [BitVec.getLsbD_shiftLeft, BitVec.getLsbD_one]
      have : j < i ∨ i < j := by omega
      simp
      omega
    rw [BitVec.getLsbD_or, hclear, Bool.or_false]
  rw [programmed, programmed, ← Finset.add_sum_erase _ _ hmem, ← Finset.add_sum_erase _ _ hmem, hnew, hothers]
  omega

/-- One fuse of the row: it is programmed while fewer than `v` are. -/
def raiseBit (v : Nat) (w : BitVec 63) (i : Nat) : BitVec 63 :=
  if programmed w < v ∧ !w.getLsbD i then w ||| (1#63 <<< i) else w

theorem raiseBits_eq (w : BitVec 63) (v : Nat) : raiseBits w v = (List.range 63).foldl (raiseBit v) w := by
  unfold raiseBits raiseBit programmed
  simp only [foldl_add_eq_sum]

/-- After the fuses below `k` have had their turn: no more are programmed than asked for, and where fewer are, all below `k`
are. -/
structure RaisedTo (v k : Nat) (w x : BitVec 63) : Prop where
  grown : programmed w ≤ programmed x
  bound : programmed x ≤ max v (programmed w)
  full : programmed x < v → ∀ i, i < k → x.getLsbD i = true

theorem raisedTo_step {v k : Nat} {w x : BitVec 63} (hk : k < 63) (h : RaisedTo v k w x) :
    RaisedTo v (k + 1) w (raiseBit v x k) := by
  obtain ⟨hgrown, hbound, hfull⟩ := h
  unfold raiseBit
  by_cases hset : programmed x < v ∧ x.getLsbD k = false
  · rw [if_pos (by simpa using hset)]
    have hcount := programmed_set hk hset.2
    refine ⟨by omega, by omega, fun hlt i hi => ?_⟩
    rw [BitVec.getLsbD_or]
    obtain rfl | hi : i = k ∨ i < k := by omega
    · simp [hk]
    · rw [hfull (by omega) i hi, Bool.true_or]
  · rw [if_neg (by simpa using hset)]
    refine ⟨hgrown, hbound, fun hlt i hi => ?_⟩
    obtain rfl | hi : i = k ∨ i < k := by omega
    · by_contra hclear
      exact hset ⟨hlt, by simpa using hclear⟩
    · exact hfull hlt i hi

theorem raisedTo_foldl {v k : Nat} (hk : k ≤ 63) (w : BitVec 63) : RaisedTo v k w ((List.range k).foldl (raiseBit v) w) := by
  induction k with
  | zero => exact ⟨Nat.le_refl _, Nat.le_max_right _ _, fun _ i hi => absurd hi (Nat.not_lt_zero i)⟩
  | succ k ih =>
    rw [List.range_succ, List.foldl_append]
    exact raisedTo_step (by omega) (ih (by omega))

theorem programmed_raiseBits {v : Nat} (hv : v ≤ 63) (w : BitVec 63) : programmed (raiseBits w v) = max v (programmed w) := by
  obtain ⟨hgrown, hbound, hfull⟩ := raisedTo_foldl (v := v) (Nat.le_refl 63) w
  rw [← raiseBits_eq] at hgrown hbound hfull
  have hreached : v ≤ programmed (raiseBits w v) := by
    by_contra hlt
    have hall := programmed_all (hfull (by omega))
    omega
  omega

end Sys2Proof.Proofs
end

section
/-! SUPPORT. Work that ends later than the write that asked for it: derivations, fuses, reports, extension copies (02 R48,
20 R594, R600, R603). -/

namespace Sys2Proof.Proofs

open Sys2Proof.Machine Sys2Proof.Terms

/-! ### Derivations (02 R45, R48) -/

/-- What the checks of a set's values come to. -/
def derivationOutcome (v : PSetVals) : BitVec 8 × BitVec 8 :=
  (v.fault.map fun f => (BitVec.ofNat 8 f.1, BitVec.ofNat 8 f.2)).getD (0, 0xFF)

/-- The device once the checks of a set's commit have their outcome. -/
def derived (d : Dev) (p : Nat) (v : PSetVals) : Dev :=
  d.setPset p { d.pset p with waiting := some (.commit v (some (derivationOutcome v))) }

section
variable (d : Dev) (p : Nat) (v : PSetVals)

theorem derivationDone_of_waiting (h : (d.pset p).waiting = some (.commit v none)) :
    d.derivationDone p = if d.immediate then (derived d p v).applyPset p else derived d p v := by
  unfold Dev.derivationDone
  rw [h]
  rfl

theorem pset_derived : (derived d p v).pset p = { d.pset p with waiting := some (.commit v (some (derivationOutcome v))) } := by
  rw [derived, Dev.pset_setPset, if_pos rfl]

theorem pset_derived_other {j : Nat} (hj : j ≠ p) : (derived d p v).pset j = d.pset j := by
  rw [derived, Dev.pset_setPset, if_neg hj]

end

/-- The device once the outcome of a set's checks shows. -/
def outcomeShown (d : Dev) (p : Nat) (out : BitVec 8 × BitVec 8) : Dev :=
  (d.setReg (0x5100 + p) 3 out.1.toNat).setReg (0x5100 + p) 4 out.2.toNat

section
variable {d : Dev} {p : Nat} {v : PSetVals} {out : BitVec 8 × BitVec 8}

theorem reg_outcomeShown : (outcomeShown d p out).reg (0x5100 + p) 3 = out.1.toNat := by
  rw [outcomeShown, Dev.reg_setReg _ _ _ _ _ _ (by decide) (by decide), if_neg (by simp),
    Dev.reg_setReg_same, Nat.mod_eq_of_lt (out.1.isLt.trans (by decide))]

theorem reg_setPset (d : Dev) (p : Nat) (x : Machine.PSet) (i k : Nat) : (d.setPset p x).reg i k = d.reg i k := rfl

theorem applyPset_of_passed (h : (d.pset p).waiting = some (.commit v (some out))) (hcode : out.1 = 0) :
    d.applyPset p = ((outcomeShown d p out).setPset p { live := some v, waiting := none }).setReg (0x5100 + p) 0x0B
      (outcomeShown d p out).tickNumber := by
  obtain ⟨code, at_⟩ := out
  unfold Dev.applyPset
  dsimp only
  rw [h]
  exact if_pos hcode

theorem applyPset_of_failed (h : (d.pset p).waiting = some (.commit v (some out))) (hcode : out.1 ≠ 0) :
    d.applyPset p = (outcomeShown d p out).setPset p { d.pset p with waiting := none } := by
  obtain ⟨code, at_⟩ := out
  unfold Dev.applyPset
  dsimp only
  rw [h]
  exact if_neg hcode

end

/-! ### Extension copies (20 R594) -/

/-- An image that a copy reads: its header, then its code. -/
def extRead (d : Dev) (a : Nat) : Dev × List Byte × Bool :=
  (d.hostRead a 256).1.hostRead (a + 256) (codeLen (d.hostRead a 256).2.1)

/-- The image lies in the stacks, is not too long and is delivered well. -/
def extFits (d : Dev) (a : Nat) : Bool :=
  inStack a 256 && !(d.hostRead a 256).2.2 && decide (256 + codeLen (d.hostRead a 256).2.1 ≤ 2 ^ 18) &&
    inStack a (256 + codeLen (d.hostRead a 256).2.1) && !(extRead d a).2.2

/-- The device once a copy has failed. -/
def extFailed (d : Dev) : Dev := (d.modLib fun x => { x with loading := none }).setReg 0xA300 1 3

/-- The device once a copy's image waits to take effect. -/
def extWaiting (d : Dev) (e : ExtImage) : Dev := d.modLib fun x => { x with loading := none, waiting := some (some e) }

section
variable {d : Dev} {a : Nat} {h : BitVec 256} (hload : d.lib.loading = some (a, h))
include hload

theorem extCopyDone_of_failed (hbad : extFits d a = false ∨ extCheck h ((d.hostRead a 256).2.1 ++ (extRead d a).2.1) = none) :
    ∃ e, Accessed d e ∧ d.extCopyDone = extFailed e := by
  unfold Dev.extCopyDone
  rw [hload]
  dsimp only
  unfold extFits extRead at hbad
  have hheader := accessed_hostRead d a 256
  generalize d.hostRead a 256 = x at hbad hheader
  split
  · exact ⟨d, .refl d, rfl⟩
  next hin =>
  split
  · exact ⟨x.1, hheader, rfl⟩
  next hlong =>
  have hcode := hheader.trans (accessed_hostRead x.1 (a + 256) (codeLen x.2.1))
  generalize x.1.hostRead (a + 256) (codeLen x.2.1) = y at hbad hcode
  have hnone : (if y.2.2 = true then none else extCheck h (x.2.1 ++ y.2.1)) = none := by
    obtain hbad | hbad := hbad
    · refine if_pos ?_
      simp_all
    · rw [hbad, ite_self]
  rw [hnone]
  exact ⟨y.1, hcode, rfl⟩

theorem extCopyDone_of_passed (hfits : extFits d a = true) {x : ExtImage}
    (hcheck : extCheck h ((d.hostRead a 256).2.1 ++ (extRead d a).2.1) = some x) :
    ∃ e, Accessed d e ∧ d.extCopyDone = if e.tickRun then extWaiting e x else (extWaiting e x).takeExt := by
  unfold extFits at hfits
  simp only [Bool.and_eq_true, Bool.not_eq_true', decide_eq_true_eq] at hfits
  obtain ⟨⟨⟨⟨hin, hgood⟩, hshort⟩, hwhole⟩, hcode⟩ := hfits
  refine ⟨(extRead d a).1, (accessed_hostRead d a 256).trans (accessed_hostRead ..), ?_⟩
  unfold Dev.extCopyDone
  rw [hload]
  dsimp only
  have hform : ¬((d.hostRead a 256).2.2 = true ∨ 2 ^ 18 < 256 + codeLen (d.hostRead a 256).2.1 ∨
      (!inStack a (256 + codeLen (d.hostRead a 256).2.1)) = true) := by
    rw [hgood, hwhole]
    simp only [Bool.false_eq_true, Bool.not_true, false_or, or_false]
    exact Nat.not_lt.2 hshort
  rw [if_neg (by simp [hin]), if_neg hform]
  have hsome : (if (extRead d a).2.2 = true then none else extCheck h ((d.hostRead a 256).2.1 ++ (extRead d a).2.1)) = some x := by
    rw [if_neg (by simp [hcode]), hcheck]
  unfold extRead at hsome ⊢
  rw [hsome]
  rfl

end

/-! ### Every event of deferred work -/

theorem reg_extFailed (d : Dev) : (extFailed d).reg 0xA300 1 = 3 := Dev.reg_setReg_same _ _ _ _

theorem takeExt_extWaiting (d : Dev) (x : ExtImage) : (extWaiting d x).takeExt.lib =
    { d.lib with loading := none, waiting := none, inService := some x } := rfl

theorem inService_extWaiting (d : Dev) (x : ExtImage) : (extWaiting d x).lib.inService = d.lib.inService := rfl

theorem reg_takeExt_extWaiting (d : Dev) (x : ExtImage) : (extWaiting d x).takeExt.reg 0xA300 1 = 1 := by
  have hother (e : Dev) (k v : Nat) (hk : k < 256) (hne : 1 ≠ k) : (e.setReg 0xA300 k v).reg 0xA300 1 = e.reg 0xA300 1 := by
    rw [e.reg_setReg _ _ _ _ _ hk (by decide), if_neg fun h => hne h.2]
  have htaken : (extWaiting d x).takeExt.reg 0xA300 1 = ((((((extWaiting d x).modLib fun y => { y with
      waiting := none, inService := some x }).setReg 0xA300 1 1).setReg 0xA300 3 (leNat (x.digest.take 8))).setReg 0xA300 4
      x.routines.length).setReg 0xA300 6 (extWaiting d x).tickNumber).reg 0xA300 1 := rfl
  rw [htaken, hother _ 6 _ (by decide) (by decide), hother _ 4 _ (by decide) (by decide),
    hother _ 3 _ (by decide) (by decide), Dev.reg_setReg_same]
  rfl

theorem attestReport_of_made {d : Dev} {a : Nat} (hat : d.boot.attestAt = some a) (hmade : d.boot.attestReport ≠ []) :
    d.attestReport = ((d.hostWrite (a + 64) d.boot.attestReport).bump 0xA120 6 1).modBoot fun b =>
      { b with attestAt := none, attestData := [], attestReport := [] } := by
  unfold Dev.attestReport
  rw [hat]
  exact if_neg hmade

theorem sealedJobs_of_one {d : Dev} {w : SealedWork} (f : Fuses) (hrun : d.nickel.run = none) (hwork : d.nickel.sealedWork = [w]) :
    d.sealedJobs f = (d.modNickel fun x => { x with sealedWork := [] }).sealedStep f w := by
  unfold Dev.sealedJobs
  dsimp only
  rw [hrun, hwork]
  rfl

theorem ownerKeyHash_or_zero (w : BitVec 256) (h : Nat) (hzero : w = 0) : (w ||| BitVec.ofNat 256 h).toNat = h % 2 ^ 256 := by
  rw [hzero, BitVec.toNat_or]
  simp

/-! ### Fuses (20 R602, R603) -/

/-- The state once the owner's key hash is in the fuses. -/
def ownerProgrammed (s : State) (h : List Byte) : State :=
  { s with
    fuses := { s.fuses with ownerKeyHash := s.fuses.ownerKeyHash ||| BitVec.ofNat 256 (leNat h) },
    dev := s.dev.modBoot fun b => { b with ownerProgramming := none } }

/-- The state once as many bits of the security version are programmed as asked for. -/
def secverProgrammed (s : State) (v : Nat) : State :=
  { s with fuses := { s.fuses with secver := raiseBits s.fuses.secver v },
           dev := s.dev.modBoot fun b => { b with secverProgramming := none } }

theorem exec_ownerProgramDone {s : State} {h : List Byte} (hprog : s.dev.boot.ownerProgramming = some h) :
    exec .ownerProgramDone s = .next (ownerProgrammed s h) := by
  show execOwnerProgramDone s = _
  unfold execOwnerProgramDone
  rw [hprog]
  rfl

theorem exec_secverProgramDone {s : State} {v : Nat} (hprog : s.dev.boot.secverProgramming = some v) :
    exec .secverProgramDone s = .next (secverProgrammed s v) := by
  show execSecverProgramDone s = _
  unfold execSecverProgramDone
  rw [hprog]
  rfl

/-! ### Sealed jobs (20 R596, R598) -/

/-- The device as sealed work begins: none waits any more, and the job is counted. -/
def sealedBegun (d : Dev) : Dev := (d.modNickel fun x => { x with sealedWork := [] }).bump 0xA000 9 1

/-- A report speaks of no entry that the work of signing it counts in. -/
theorem reportFields_sealedBegun (d : Dev) (f : Fuses) (data : List Byte) :
    (sealedBegun d).reportFields f data = d.reportFields f data := by
  have hreg (i k : Nat) (hi : i ≠ 0xA000) (hk : k < 256) : (sealedBegun d).reg i k = d.reg i k :=
    (reg_bump _ 1 (by decide) hk).trans (if_neg fun h => hi h.1)
  unfold Dev.reportFields Dev.counter Dev.tickNumber
  rw [hreg 0xA100 4 (by decide) (by decide), hreg 0xA100 5 (by decide) (by decide), hreg 0x2020 1 (by decide) (by decide),
    hreg 0x2000 9 (by decide) (by decide)]
  rfl

theorem sealedStep_hostReport (d : Dev) (f : Fuses) :
    (d.modNickel fun x => { x with sealedWork := [] }).sealedStep f .hostReport =
      (sealedBegun d).modBoot fun b => { b with attestReport := (sealedBegun d).reportOf f b.attestData } := rfl

theorem reportOf_sealedBegun (d : Dev) (f : Fuses) (data : List Byte) : (sealedBegun d).reportOf f data =
    d.reportFields f data ++
      edSignMsg d.sterling.identitySeed d.sterling.identityPub (ascii "CREUC-AT1" ++ d.reportFields f data) := by
  unfold Dev.reportOf
  rw [reportFields_sealedBegun]
  rfl

/-- Deriving the identity key sets it in the store, and shows the public key in the dictionary. -/
theorem deriveIdentity_spec (d : Dev) : d.deriveIdentity.sterling.identityPub = edPublic identitySeedOf ∧
    d.deriveIdentity.nickel = d.nickel := by
  have hshown (e : Dev) (pub : List Byte) (l : List Nat) :
      (l.foldl (fun (d : Dev) k => d.setReg 0xA120 (k + 1) (leNat ((pub.drop (8 * k)).take 8))) e).sterling = e.sterling ∧
      (l.foldl (fun (d : Dev) k => d.setReg 0xA120 (k + 1) (leNat ((pub.drop (8 * k)).take 8))) e).nickel = e.nickel := by
    induction l generalizing e with
    | nil => exact ⟨rfl, rfl⟩
    | cons k l ih => exact ih (e.setReg 0xA120 (k + 1) (leNat ((pub.drop (8 * k)).take 8)))
  unfold Dev.deriveIdentity
  obtain ⟨hsterling, hnickel⟩ := hshown (d.modSterling fun x =>
    { x with identitySeed := identitySeedOf, identityPub := edPublic identitySeedOf }) (edPublic identitySeedOf) (List.range 4)
  exact ⟨congrArg Sterling.identityPub hsterling, hnickel⟩

/-- Settles O54: each event ends its work as it was asked for, and touches nothing that the statement keeps. -/
theorem deferredWork : Obligations.DeferredWork := by
  intro s
  refine ⟨fun p v hwait => ⟨fun himm => ?_, fun himm hfault => ?_, fun code at_ himm hfault hcode => ?_⟩, fun h hprog => ?_,
    fun v hprog hv => ?_, fun a hat hmade hfree _ => ?_, fun hrun => ⟨fun hwork => ?_, fun hwork => ?_⟩, ?_⟩
  · have hdone : s.dev.derivationDone p = derived s.dev p v := by
      rw [derivationDone_of_waiting s.dev p v hwait, if_neg (by rw [himm]; decide)]
    refine ⟨s.withDev (derived s.dev p v), derivationOutcome v, congrArg (fun d => Host.Outcome.next (s.withDev d)) hdone,
      pset_derived s.dev p v, fun hfault => ?_, fun j hj => pset_derived_other s.dev p v hj, rfl⟩
    rw [derivationOutcome, hfault]
    rfl
  · have hout : derivationOutcome v = (0, 0xFF) := by rw [derivationOutcome, hfault]; rfl
    have hdone : s.dev.derivationDone p = _ :=
      (derivationDone_of_waiting s.dev p v hwait).trans ((if_pos himm).trans
        (applyPset_of_passed (congrArg Machine.PSet.waiting (pset_derived s.dev p v)) (by rw [hout])))
    refine ⟨_, congrArg (fun d => Host.Outcome.next (s.withDev d)) hdone, ?_, ?_, fun j hj => ?_⟩
    · exact (Dev.pset_setPset _ p p _).trans (if_pos rfl)
    · refine (Dev.reg_setReg _ _ _ _ _ _ (by decide) (by decide)).trans ((if_neg fun h => absurd h.2 (by decide)).trans ?_)
      exact (reg_setPset _ _ _ _ _).trans (reg_outcomeShown.trans (by rw [hout]; rfl))
    · exact (Dev.pset_setPset _ p j _).trans ((if_neg hj).trans (pset_derived_other s.dev p v hj))
  · have hout : derivationOutcome v = (.ofNat 8 code, .ofNat 8 at_) := by rw [derivationOutcome, hfault]; rfl
    have hfailed : (derivationOutcome v).1 ≠ 0 := by
      rw [hout]
      intro hzero
      exact hcode (by simpa using congrArg BitVec.toNat hzero)
    have hdone : s.dev.derivationDone p = _ :=
      (derivationDone_of_waiting s.dev p v hwait).trans ((if_pos himm).trans
        (applyPset_of_failed (congrArg Machine.PSet.waiting (pset_derived s.dev p v)) hfailed))
    refine ⟨_, congrArg (fun d => Host.Outcome.next (s.withDev d)) hdone, ?_, ?_, fun j hj => ?_⟩
    · exact (Dev.pset_setPset _ p p _).trans ((if_pos rfl).trans (by rw [pset_derived]))
    · exact (reg_setPset _ _ _ _ _).trans (reg_outcomeShown.trans (by rw [hout, BitVec.toNat_ofNat]))
    · exact (Dev.pset_setPset _ p j _).trans ((if_neg hj).trans (pset_derived_other s.dev p v hj))
  · exact ⟨_, exec_ownerProgramDone hprog, kept_enrolled _ _, ownerKeyHash_or_zero _ _, rfl, rfl⟩
  · refine ⟨_, exec_secverProgramDone hprog, kept_raised _ _, ?_, rfl, rfl⟩
    have hraised : (secverProgrammed s v).fuses.secver = raiseBits s.fuses.secver v := rfl
    rw [secverCount_eq, secverCount_eq, hraised]
    exact programmed_raiseBits hv _
  · have hdone := attestReport_of_made hat hmade
    have haccess := accessed_hostWrite s.dev (a + 64) s.dev.boot.attestReport
    have hlaid := laidDown_hostWrite hfree
    generalize s.dev.hostWrite (a + 64) s.dev.boot.attestReport = e at hdone haccess hlaid
    refine ⟨_, congrArg (fun d => Host.Outcome.next (s.withDev d)) hdone, hlaid, rfl, ?_⟩
    refine (reg_bump e 1 (by decide) (by decide)).trans ((if_pos ⟨rfl, rfl⟩).trans ?_)
    rw [counted, counted, haccess.regs _ _ (by decide) (by unfold accessEntry; omega)]
  · exact ⟨_, congrArg (fun d => Host.Outcome.next (s.withDev d))
      ((sealedJobs_of_one s.fuses hrun hwork).trans (sealedStep_hostReport s.dev s.fuses)),
      reportOf_sealedBegun s.dev s.fuses _, rfl, rfl⟩
  · obtain ⟨hpub, hnickel⟩ := deriveIdentity_spec (sealedBegun s.dev)
    exact ⟨_, congrArg (fun d => Host.Outcome.next (s.withDev d)) (sealedJobs_of_one s.fuses hrun hwork), hpub,
      congrArg Nickel.sealedWork hnickel⟩
  · intro a h hload x y fits
    refine ⟨fun hbad => ?_, fun e hfits hcheck => ?_⟩
    · obtain ⟨f, haccess, hdone⟩ := extCopyDone_of_failed hload hbad
      refine ⟨_, congrArg (fun d => Host.Outcome.next (s.withDev d)) hdone, ?_, reg_extFailed f⟩
      show ({ f.lib with loading := none } : Library) = _
      rw [haccess.frame]
    · obtain ⟨f, haccess, hdone⟩ := extCopyDone_of_passed hload hfits hcheck
      have hrun : f.tickRun = s.dev.tickRun := by
        rw [Dev.tickRun, haccess.regs _ _ (by decide) (by unfold accessEntry; omega), Dev.tickRun]
      have hlib : f.lib = s.dev.lib := by rw [haccess.frame]
      rw [hrun] at hdone
      cases hrunning : s.dev.tickRun with
      | true =>
        rw [if_pos hrunning] at hdone
        exact ⟨_, congrArg (fun d => Host.Outcome.next (s.withDev d)) hdone, rfl,
          fun _ => ⟨rfl, (inService_extWaiting f e).trans (congrArg Library.inService hlib)⟩, (nomatch ·)⟩
      | false =>
        rw [if_neg (by rw [hrunning]; decide)] at hdone
        exact ⟨_, congrArg (fun d => Host.Outcome.next (s.withDev d)) hdone, congrArg Library.loading (takeExt_extWaiting f e),
          (nomatch ·), fun _ => ⟨congrArg Library.inService (takeExt_extWaiting f e), reg_takeExt_extWaiting f e⟩⟩

end Sys2Proof.Proofs
end

section
/-! SUPPORT. What the work of cores, clusters and calls leaves of the device: a signal to a core, down to the abort of the calls
that its program fault stops (08 R284, 10 R322). -/

namespace Sys2Proof.Proofs

open Sys2Proof.Machine Sys2Proof.Terms

/-- Entries in which the units count: those of cores, clusters and streams, and those of accesses. -/
def unitEntry (i k : Nat) : Prop := 0x3000 ≤ i ∧ i < 0x4000 ∨ accessEntry i k

/-- What a frame has of its boundary and its barrier: the frame's work counts in the rest of its record. -/
def frameMark (f : FrameRun) : BitVec 64 × BitVec 64 × BitVec 64 × Bool × Nat × Bool :=
  (f.number, f.tick, f.genTick, f.barrier, f.barrierAt, f.complete)

/-- A device that differs in what its units hold and store, in the current frame's counts, and in what has been counted and
recorded of them. -/
structure UnitWork (d e : Dev) : Prop where
  frame : e = { d with draw := e.draw, mem := e.mem, regs := e.regs, cores := e.cores, clusters := e.clusters, stk := e.stk,
                       tick := { d.tick with frame := e.tick.frame }, faults := { d.faults with raised := e.faults.raised },
                       owedWrites := e.owedWrites }
  regs : ∀ i k, k < 256 → ¬unitEntry i k → e.reg i k = d.reg i k
  mark : e.tick.frame.map frameMark = d.tick.frame.map frameMark

theorem UnitWork.refl (d : Dev) : UnitWork d d := ⟨rfl, fun _ _ _ _ => rfl, rfl⟩

theorem UnitWork.trans {a b c : Dev} (h : UnitWork a b) (h' : UnitWork b c) : UnitWork a c where
  frame := by rw [h'.frame, h.frame]
  regs i k hk hi := (h'.regs i k hk hi).trans (h.regs i k hk hi)
  mark := h'.mark.trans h.mark

theorem Accessed.unitWork {d e : Dev} (h : Accessed d e) : UnitWork d e where
  frame := by rw [h.frame]
  regs i k hk hi := h.regs i k hk fun h' => hi (.inr h')
  mark := by rw [h.tick]

theorem unitWork_foldl {α : Type} {f : Dev → α → Dev} {l : List α} (hf : ∀ d, ∀ x ∈ l, UnitWork d (f d x)) (d : Dev) :
    UnitWork d (l.foldl f d) :=
  foldl_rel (R := UnitWork) .refl (fun _ _ _ => .trans) hf d

section
variable {d e : Dev} (h : UnitWork d e)
include h

theorem UnitWork.port : e.port = d.port := by rw [h.frame]

theorem UnitWork.psets : e.psets = d.psets := by rw [h.frame]

theorem UnitWork.tick : e.tick = { d.tick with frame := e.tick.frame } := by rw [h.frame]

theorem UnitWork.sameSending : SameSending d e :=
  ⟨by rw [h.port], by rw [h.port], by rw [h.port], by
    rw [Dev.linkUp, h.regs _ _ (by decide) (by unfold unitEntry accessEntry; omega), Dev.linkUp]⟩

theorem UnitWork.peerEndpoint {n : Nat} (hn : 0x8400 ≤ n) : e.peerEndpoint n = d.peerEndpoint n := by
  have hreg (k : Nat) (hk : k ≤ 6) : e.reg n k = d.reg n k :=
    h.regs _ _ (by omega) (by unfold unitEntry accessEntry; omega)
  unfold Dev.peerEndpoint
  rw [hreg 1 (by decide), hreg 2 (by decide), hreg 3 (by decide), hreg 4 (by decide), hreg 5 (by decide), hreg 6 (by decide)]

end

/-! ### Parts of a unit's work -/

section
variable (d : Dev)

theorem unitWork_modFrame {f : FrameRun → FrameRun} (hf : ∀ x, frameMark (f x) = frameMark x) : UnitWork d (d.modFrame f) where
  frame := rfl
  regs _ _ _ _ := rfl
  mark := by
    change (d.tick.frame.map f).map frameMark = _
    rw [Option.map_map]
    exact congrArg (fun g => d.tick.frame.map g) (funext hf)

theorem unitWork_countPoison (b : Bool) : UnitWork d (d.countPoison b) := unitWork_modFrame d fun _ => rfl

theorem unitWork_countRefusal : UnitWork d d.countRefusal := unitWork_modFrame d fun _ => rfl

theorem unitWork_setCore (n : Nat) (c : Core) : UnitWork d (d.setCore n c) := ⟨rfl, fun _ _ _ _ => rfl, rfl⟩

theorem unitWork_modCore (n : Nat) (f : Core → Core) : UnitWork d (d.modCore n f) := unitWork_setCore d n _

theorem unitWork_setCluster (c : Nat) (x : Cluster) : UnitWork d (d.setCluster c x) := ⟨rfl, fun _ _ _ _ => rfl, rfl⟩

theorem unitWork_modCluster (c : Nat) (f : Cluster → Cluster) : UnitWork d (d.modCluster c f) := unitWork_setCluster d c _

theorem unitWork_bump {i k : Nat} (n : Nat) (hk : k < 256) (h : unitEntry i k) : UnitWork d (d.bump i k n) where
  frame := rfl
  regs _ _ hm hj := (reg_bump d n hk hm).trans (if_neg (by rintro ⟨rfl, rfl⟩; exact hj h))
  mark := rfl

theorem unitWork_withDraw (n : Nat) : UnitWork d { d with draw := n } := (accessed_withDraw d n).unitWork

/-! ### The abort of a call (03 R100-R102, 08 R284) -/

theorem unitWork_writeDesc (a : Nat) (bs : List Byte) (st : BitVec 8) : UnitWork d (d.writeDesc a bs st).1 := by
  have hcount : UnitWork d (if fld bs 160 1 = 1 then d.countPoison true else d) := by
    split
    · exact unitWork_countPoison d true
    · exact .refl d
  unfold Dev.writeDesc
  generalize (if fld bs 160 1 = 1 then d.countPoison true else d) = c at hcount
  refine hcount.trans ?_
  dsimp only
  split
  · split
    · exact (accessed_noteProblem ..).unitWork
    · exact (accessed_store ..).unitWork
  · exact (accessed_store ..).unitWork

theorem unitWork_tearUnits (v : Nat) (units : List Pieces) : UnitWork d (d.tearUnits v units) := by
  refine (unitWork_foldl (fun d u _ => (accessed_putPieces d u).unitWork) d).trans (unitWork_foldl (fun d u _ => ?_) _)
  exact unitWork_foldl (fun d p _ => (unitWork_withDraw d _).trans (accessed_wr _ _ _).unitWork) d

theorem unitWork_putSides (e : Effect) : UnitWork d (d.putSides e) :=
  (accessed_putPieces d e.work).unitWork.trans (unitWork_foldl (fun d u _ => (accessed_putPieces d u).unitWork) _)

theorem unitWork_abortEffect (v : Nat) (e : Effect) : UnitWork d (d.abortEffect v e) := by
  have htorn := (unitWork_putSides d e).trans (unitWork_tearUnits _ (min v e.units.length) e.units)
  unfold Dev.abortEffect
  split
  · exact htorn.trans (unitWork_writeDesc ..)
  · exact htorn

theorem unitWork_abortBr (e : Effect) : UnitWork d (d.abortBr e) := by
  unfold Dev.abortBr
  split
  · exact .refl d
  · refine ((unitWork_tearUnits d 0 e.units).trans (unitWork_foldl (fun d k _ => ?_) _)).trans (unitWork_writeDesc ..)
    exact (unitWork_withDraw d _).trans (accessed_wr _ _ _).unitWork

theorem unitWork_recorded (recorded : Bool) (src unit addr : Nat) :
    UnitWork d (if recorded then d else d.faultUc src unit addr 0 stAborted 0) := by
  split
  · exact .refl d
  · exact (accessed_faultUc ..).unitWork

theorem unitWork_tearCall (g : GangCall) (v : Nat) (recorded : Bool) : UnitWork d (d.tearCall g v recorded) := by
  unfold Dev.tearCall
  dsimp only
  split
  · exact (unitWork_recorded d recorded _ _ _).trans (unitWork_abortBr _ _)
  · split
    · exact (unitWork_recorded d recorded _ _ _).trans (unitWork_abortEffect _ _ _)
    · exact unitWork_abortEffect _ _ _

theorem unitWork_markAborted (cs : List Nat) : UnitWork d (d.markAborted cs) :=
  unitWork_foldl (fun d c _ => unitWork_modCluster d c _) d

theorem unitWork_abortOne (c : Nat) (units : Option Nat) (recorded : Bool) : UnitWork d (d.abortOne c units recorded) := by
  unfold Dev.abortOne
  split
  · exact .refl d
  next g _ =>
    split
    · exact .refl d
    have htorn (full : GangCall) (v : Nat) {e : Dev} (h : UnitWork d e) :
        UnitWork d (if g.ran then e.tearCall full v recorded else e) := by
      split
      · exact h.trans (unitWork_tearCall ..)
      · exact h
    refine UnitWork.trans ?_ (unitWork_markAborted _ _)
    cases units with
    | some k => exact htorn _ _ (.refl d)
    | none =>
      have hdrawn (n : Nat) : UnitWork d (if g.ran then d.drawUnits n else (0, d)).2 := by
        split
        · exact unitWork_withDraw d _
        · exact .refl d
      exact htorn _ _ (hdrawn _)

theorem unitWork_abortCall (c : Nat) : UnitWork d (d.abortCall c) :=
  (unitWork_abortOne d c none false).trans (unitWork_foldl (fun d k _ => unitWork_abortOne d k none false) _)

theorem unitWork_abortCoreCall (n : Nat) : UnitWork d (d.abortCoreCall n) := by
  unfold Dev.abortCoreCall
  dsimp only
  split
  · exact .refl d
  · split
    · exact unitWork_abortCall d _
    · exact (unitWork_modCluster d _ _).trans (unitWork_foldl (fun d k _ => unitWork_abortOne d k none false) _)

/-! ### Program faults and signals (08 R256, R284) -/

theorem unitWork_stopCore (n : Nat) (why : CoreStop) : UnitWork d (d.stopCore n why) :=
  (unitWork_modCore d n _).trans (unitWork_modFrame _ fun _ => rfl)

theorem unitWork_programFault (n : Nat) (p : Program) (reason : BitVec 8) (pc : Nat) :
    UnitWork d (d.programFault n p reason pc) := by
  unfold Dev.programFault
  dsimp only
  split
  · exact .refl d
  · exact (((unitWork_abortCoreCall d n).trans (unitWork_stopCore _ n _)).trans
      (unitWork_bump _ 1 (by decide) (.inl (by decide)))).trans (accessed_faultUc ..).unitWork

theorem unitWork_deviceSignal (n : Nat) (e : BitVec 4) : UnitWork d (d.deviceSignal n e) := by
  unfold Dev.deviceSignal
  dsimp only
  split
  · split
    · exact unitWork_setCore d n _
    · exact unitWork_programFault ..
  · exact unitWork_setCore d n _

/-- The status record of a transfer, and its event (11 R356). -/
theorem unitWork_endTransfer (desc : List Byte) (status : BitVec 8) (done bad first granules : Nat) :
    UnitWork d (d.endTransfer desc status done bad first granules) := by
  have hcount : UnitWork d (if status = stPoison then d.countPoison false else d) := by
    split
    · exact unitWork_countPoison d false
    · exact .refl d
  unfold Dev.endTransfer
  generalize (if status = stPoison then d.countPoison false else d) = c at hcount
  have hwritten := hcount.trans (accessed_hostWrite c (fld desc 192 48) (c.statusBytes status done bad first granules)).unitWork
  dsimp only
  refine hwritten.trans ?_
  split
  · exact unitWork_deviceSignal ..
  · exact .refl _

end

end Sys2Proof.Proofs
end

section
/-! SUPPORT. Messages of other devices: who is heard, what is stored for a peer, and the answer (16 R491, R498, 17 R530). -/

namespace Sys2Proof.Proofs

open Sys2Proof.Machine Sys2Proof.Terms

/-! ### Who is heard -/

section
variable {d : Dev} {src : BitVec 16} {ep : Endpoint} {f : Dev → Dev}

theorem fromPeer_of_heard (hphase : d.phase = .service) (h : d.hears src ep = true) : d.fromPeer src ep f = f d := by
  unfold Dev.fromPeer
  rw [if_neg (by simp [hphase]), if_pos h]

theorem fromPeer_of_unheard (hphase : d.phase = .service) (h : d.hears src ep = false) : d.fromPeer src ep f =
    if src.toNat ∈ d.tick.lost then d.bump 0x2070 5 1 else d.bump 0x8000 0x12 1 := by
  unfold Dev.fromPeer
  rw [if_neg (by simp [hphase]), if_neg (by simp [h])]
  simp only [List.contains_iff_mem]

theorem peerEndpoint_of_heard (h : d.hears src ep = true) : d.peerEndpoint (0x8400 + src.toNat) = some ep := by
  unfold Dev.hears at h
  simp only [Bool.and_eq_true, decide_eq_true_eq] at h
  exact h.2

theorem exec_peerRow {s : State} {i : Instr} (hrow : peerRow i = some (src, ep)) (hsrc : src ≠ 0xFFFF) :
    ∃ f, exec i s = .next (s.withDev (s.dev.fromPeer src ep f)) := by
  unfold peerRow at hrow
  split at hrow
  case h_3 msg st =>
    cases hrow
    refine ⟨_, congrArg (fun d => Host.Outcome.next (s.withDev d)) (if_neg ?_)⟩
    exact fun h => hsrc h.2.1
  all_goals cases hrow
  all_goals exact ⟨_, rfl⟩

end

/-! ### The answer -/

theorem peerEndpoint_of_regs {d e : Dev} {n : Nat} (h : ∀ k, k ≤ 6 → e.reg n k = d.reg n k) : e.peerEndpoint n = d.peerEndpoint n := by
  unfold Dev.peerEndpoint
  rw [h 1 (by decide), h 2 (by decide), h 3 (by decide), h 4 (by decide), h 5 (by decide), h 6 (by decide)]

/-- A message to a device goes to its endpoint; only the port changes. -/
theorem sendPeer_of_endpoint {d : Dev} {n : Nat} {ep : Endpoint} (h : d.peerEndpoint (0x8400 + n) = some ep) (t : Traffic)
    (kind : BitVec 8) (body : List Byte) : d.sendPeer n t kind body = d.sendMarked ep t 3 kind 2 (BitVec.ofNat 16 n) body [] := by
  unfold Dev.sendPeer Dev.sendPeerMarked
  rw [h]

/-- What the answer to a peer rests on: the same sending side, and the same entries of the peers. -/
structure AnswersAs (d e : Dev) : Prop where
  sending : SameSending d e
  endpoint : ∀ n, 0x8400 ≤ n → e.peerEndpoint n = d.peerEndpoint n

section
variable {d e f : Dev}

theorem AnswersAs.trans (h : AnswersAs d e) (h' : AnswersAs e f) : AnswersAs d f where
  sending := h.sending.trans h'.sending
  endpoint n hn := (h'.endpoint n hn).trans (h.endpoint n hn)

theorem UnitWork.answersAs (h : UnitWork d e) : AnswersAs d e := ⟨h.sameSending, fun _ hn => h.peerEndpoint hn⟩

theorem answersAs_consume (d : Dev) (ep : Endpoint) (cls : BitVec 4) (kind : BitVec 8) : AnswersAs d (d.consume ep cls kind) where
  sending := sameSending_consume d ep cls kind
  endpoint n _ := peerEndpoint_of_regs fun k _ => (onlyPort_consume d ep cls kind).reg n k

/-- Parts of the device that no message leaves by. -/
theorem answersAs_of_regs (hport : e.port = d.port) (hregs : ∀ i k, 0x8000 ≤ i → k < 256 → e.reg i k = d.reg i k) :
    AnswersAs d e where
  sending := ⟨by rw [hport], by rw [hport], by rw [hport], by
    rw [Dev.linkUp, hregs _ _ (by decide) (by decide), Dev.linkUp]⟩
  endpoint _ hn := peerEndpoint_of_regs fun k hk => hregs _ k (by omega) (by omega)

theorem sentOne_answerPeer {n : Nat} {ep : Endpoint} (h : AnswersAs d e) (hopen : linkOpen d)
    (hep : d.peerEndpoint (0x8400 + n) = some ep) (msg : BitVec 32) (st : BitVec 8) :
    sentOne d (e.answerPeer n msg st) ep 3 3 (doneBody msg st) := by
  refine h.sending.sentOne ?_
  unfold Dev.answerPeer
  rw [sendPeer_of_endpoint ((h.endpoint _ (Nat.le_add_right _ _)).trans hep)]
  exact sentOne_sendMarked _ _ _ _ _ _ _ _ _ (h.sending.linkOpen hopen)

end

theorem onlyPort_answerPeer (d : Dev) (n : Nat) (msg : BitVec 32) (st : BitVec 8) : OnlyPort d (d.answerPeer n msg st) := by
  unfold Dev.answerPeer Dev.sendPeer Dev.sendPeerMarked
  split
  · exact onlyPort_sendMarked ..
  · exact .refl

/-! ### What is stored for a peer -/

section
variable {d : Dev} {a : Nat} {data : List Byte}

theorem peerStore_of_outside (h : inStack a data.length = false) (bad : List Nat) : d.peerStore a data bad = (d, stBounds) := by
  unfold Dev.peerStore
  rw [h]
  rfl

theorem peerStore_of_free (hin : inStack a data.length = true) (hfree : d.problemIn .host .write a data.length = none) :
    d.peerStore a data [] = ((d.hostWrite a data).poisonGranules a [], stOk) := by
  unfold Dev.peerStore
  rw [hin, hfree]
  rfl

theorem accessed_stored (d : Dev) (a : Nat) (data : List Byte) : Accessed d ((d.hostWrite a data).poisonGranules a []) :=
  (accessed_hostWrite d a data).withMem _

theorem laidDown_stored (hfree : d.problemIn .host .write a data.length = none) :
    laidDown d ((d.hostWrite a data).poisonGranules a []) a data := laidDown_hostWrite hfree

end

/-- Laying bytes down goes through what changes no memory. -/
theorem laidDown_congr {d d' e e' : Dev} {a : Nat} {bs : List Byte} (h : laidDown d e a bs) (hd : d.mem = d'.mem)
    (he : e'.mem = e.mem) : laidDown d' e' a bs := by
  intro x
  rw [he, h x, hd]

end Sys2Proof.Proofs
end

section
/-! SUPPORT. Every message between devices (16 R491, 17 R530-R533). -/

namespace Sys2Proof.Proofs

open Sys2Proof.Machine Sys2Proof.Terms

section
variable {d : Dev} {src : BitVec 16} {ep : Endpoint} (hphase : d.phase = .service) (hhears : d.hears src ep = true)
include hphase hhears

theorem peerReady_of_master (frame : BitVec 64) (hmaster : d.isMaster = true) : d.peerReady src ep frame =
    (d.consume ep 3 1).modTick fun t => { t with readyFrom := (t.readyFrom ++ [(src.toNat, frame.toNat)]).eraseDups } := by
  have hport := onlyPort_consume d ep 3 1
  have hsame : (d.consume ep 3 1).isMaster = true := by rw [Dev.isMaster, hport.reg, hport.boot]; exact hmaster
  exact (fromPeer_of_heard hphase hhears).trans (if_pos hsame)

theorem peerWrite_of_heard (msg : BitVec 32) (a : Nat) (data : List Byte) (bad : List Nat) :
    d.peerWrite src ep msg a data bad = ((d.consume ep 3 2).peerStore a data bad).1.answerPeer src.toNat msg
      ((d.consume ep 3 2).peerStore a data bad).2 := fromPeer_of_heard hphase hhears

theorem peerDone_of_heard (hsrc : src ≠ 0xFFFF) (msg : BitVec 32) (st : BitVec 8) :
    d.peerDone src ep msg st = (d.consume ep 3 3).answered (some src.toNat) msg st :=
  (if_neg fun h => hsrc h.2.1).trans (fromPeer_of_heard hphase hhears)

theorem collStep_of_unfired (id : BitVec 64) (step : Nat) (data : List Byte) (hnone : ∀ r ∈ d.tick.colls, r.collId ≠ id) :
    d.collStep src ep id step data = (d.consume ep 3 4).modTick fun t => { t with
      collEarly := t.collEarly ++ [{ src := src.toNat, collId := id, step := step, data := data }] } := by
  have hcolls : (d.consume ep 3 4).tick.colls = d.tick.colls := by rw [(onlyPort_consume d ep 3 4).tick]
  have hfind : ((d.consume ep 3 4).tick.colls.find? fun r => r.collId = id) = none := by
    rw [hcolls, List.find?_eq_none]
    exact fun r hr => by simpa using hnone r hr
  refine (fromPeer_of_heard hphase hhears).trans ?_
  dsimp only [Dev.modTick]
  rw [hfind]

/-- Data of an image under way, in its slot and not refused. -/
theorem ckptData_of_running {area : Nat} {seq : BitVec 64} (off : Nat) {data : List Byte} (htakes : d.areaTakes area src = true)
    (hrun : tfind d.tick.replicas area = some { seq := seq, refused := false }) (hoff : 256 ≤ off)
    (hfits : off + data.length ≤ (d.slotOf area seq).2) (hin : inStack ((d.slotOf area seq).1 + off) data.length = true)
    (hfree : d.problemIn .host .write ((d.slotOf area seq).1 + off) data.length = none) :
    d.ckptData src ep area seq off data =
      ((d.consume ep 3 5).hostWrite ((d.slotOf area seq).1 + off) data).poisonGranules ((d.slotOf area seq).1 + off) [] := by
  have hport := onlyPort_consume d ep 3 5
  refine (fromPeer_of_heard hphase hhears).trans ?_
  generalize d.consume ep 3 5 = e at hport
  have htakes' : e.areaTakes area src = true := by simp only [Dev.areaTakes, hport.reg]; exact htakes
  have hslot : e.slotOf area seq = d.slotOf area seq := by simp only [Dev.slotOf, hport.reg]
  have hfree' : e.problemIn .host .write ((d.slotOf area seq).1 + off) data.length = none := by rw [hport]; exact hfree
  have hrun' : ((tfind e.tick.replicas area).bind fun r => if r.seq = seq then some r else none) =
      some { seq := seq, refused := false } := by rw [hport.tick, hrun]; exact if_pos rfl
  refine (if_pos htakes').trans ?_
  unfold Dev.imagePart
  dsimp only
  rw [hrun', hslot]
  refine (if_neg (by simp)).trans ((if_neg (by omega)).trans ?_)
  simp only [Option.isNone_some, Bool.false_eq_true, if_false]
  rw [peerStore_of_free hin hfree']
  exact if_pos rfl

/-- A valid header of an image under way. -/
theorem ckptEnd_of_running {area : Nat} {seq : BitVec 64} (msg : BitVec 32) {hdr : List Byte} (htakes : d.areaTakes area src = true)
    (hrun : tfind d.tick.replicas area = some { seq := seq, refused := false }) (hlen : hdr.length = 256)
    (hvalid : imageValid hdr = true) (hin : inStack (d.slotOf area seq).1 256 = true)
    (hfree : d.problemIn .host .write (d.slotOf area seq).1 256 = none) :
    d.ckptEnd src ep msg area seq hdr =
      (((((d.consume ep 3 6).modTick fun t => { t with replicas := tdel t.replicas area }).hostWrite (d.slotOf area seq).1
        hdr).poisonGranules (d.slotOf area seq).1 []).setReg (0x2080 + area) (4 + seq.toNat % 2) seq.toNat).answerPeer src.toNat
        msg stOk := by
  have hport := onlyPort_consume d ep 3 6
  refine (fromPeer_of_heard hphase hhears).trans ?_
  generalize d.consume ep 3 6 = e at hport
  have htakes' : e.areaTakes area src = true := by simp only [Dev.areaTakes, hport.reg]; exact htakes
  have hrun' : ((tfind e.tick.replicas area).bind fun r => if r.seq = seq then some r else none) =
      some { seq := seq, refused := false } := by rw [hport.tick, hrun]; exact if_pos rfl
  have hslot : (e.modTick fun t => { t with replicas := tdel t.replicas area }).slotOf area seq = d.slotOf area seq := by
    simp only [Dev.slotOf, Dev.reg, Dev.modTick_regs, hport.regs]
  have hfree' : (e.modTick fun t => { t with replicas := tdel t.replicas area }).problemIn .host .write
      (d.slotOf area seq).1 hdr.length = none := by rw [hport, hlen]; exact hfree
  refine (if_neg (by rw [htakes']; decide)).trans ?_
  unfold Dev.closeImage
  dsimp only
  rw [hrun']
  dsimp only [Option.map, Option.getD, Option.isNone]
  rw [if_neg (by simp [hlen])]
  simp only [Bool.false_eq_true, if_false]
  rw [hslot, peerStore_of_free (by rw [hlen]; exact hin) hfree']
  dsimp only
  rw [if_pos ⟨rfl, hvalid⟩]

end

theorem xfers_endXfer (d : Dev) (x : PortXfer) (st : BitVec 8) : (d.endXfer x st).tick.xfers = d.tick.xfers.filter (· ≠ x) := by
  have hwork := unitWork_endTransfer (d.modTick fun t => { t with xfers := t.xfers.filter (· ≠ x) }) x.desc
    (if st ≠ stAborted ∧ x.status = stPoison then stPoison else st) 0 0 0xFFFFFFFF x.granules
  exact congrArg Tick.xfers hwork.tick

theorem answered_of_xfer {d : Dev} {from_ : Option Nat} {msg : BitVec 32} {x : PortXfer} (st : BitVec 8)
    (h : (d.tick.xfers.find? fun x => x.msg = msg && some x.dev = from_) = some x) :
    d.answered from_ msg st = d.endXfer x st := by
  unfold Dev.answered
  rw [h]

theorem tfind_tdel {α : Type} (t : Tbl α) (k : Nat) : tfind (tdel t k) k = none := by
  induction t with
  | nil => rfl
  | cons p r ih =>
    by_cases hp : p.1 = k
    · rw [tdel, List.filter_cons_of_neg (by simp [hp])]
      exact ih
    · rw [tdel, List.filter_cons_of_pos (by simp [hp]), tfind, if_neg hp]
      exact ih

/-- Settles O58: a message that is heard reaches its handler with the port as its only trace, what it stores is laid down as a
host's write, and the answer goes to the endpoint it was heard from. -/
theorem peerMessages : Obligations.PeerMessages := by
  intro s hphase
  refine ⟨fun i src ep hrow hsrc hunheard => ?_, fun src ep hhears => ⟨fun frame hmaster => ?_, fun msg a data hopen =>
    ⟨fun hin hfree => ?_, fun hout bad => ?_⟩, fun msg st x hsrc hfind => ⟨?_, ?_⟩, fun id step data hnone => ?_,
    fun area seq htakes hrun => ?images⟩⟩
  · obtain ⟨f, hexec⟩ := exec_peerRow hrow hsrc
    rw [hexec, fromPeer_of_unheard hphase hunheard]
  · have hport := onlyPort_consume s.dev ep 3 1
    refine ⟨_, congrArg (fun d => Host.Outcome.next (s.withDev d)) (peerReady_of_master hphase hhears frame hmaster),
      fun p => ?_, hport.mem, hport.regs⟩
    refine List.mem_eraseDups.trans ?_
    rw [hport.tick, List.mem_append, List.mem_singleton, or_comm]
  · have hport := onlyPort_consume s.dev ep 3 2
    have hfree' : (s.dev.consume ep 3 2).problemIn .host .write a data.length = none := by rw [hport]; exact hfree
    have hstored := accessed_stored (s.dev.consume ep 3 2) a data
    have hlaid := laidDown_stored hfree'
    have hwrite : s.dev.peerWrite src ep msg a data [] =
        (((s.dev.consume ep 3 2).hostWrite a data).poisonGranules a []).answerPeer src.toNat msg stOk := by
      rw [peerWrite_of_heard hphase hhears, peerStore_of_free hin hfree']
    have hanswers := (answersAs_consume s.dev ep 3 2).trans hstored.unitWork.answersAs
    generalize (((s.dev.consume ep 3 2).hostWrite a data).poisonGranules a []) = e at hstored hlaid hwrite hanswers
    have hanswer := onlyPort_answerPeer e src.toNat msg stOk
    refine ⟨_, congrArg (fun d => Host.Outcome.next (s.withDev d)) hwrite, laidDown_congr hlaid hport.mem hanswer.mem, ?_,
      sentOne_answerPeer hanswers hopen (peerEndpoint_of_heard hhears) msg stOk⟩
    show (e.answerPeer src.toNat msg stOk).cores = s.dev.cores
    rw [hanswer, hstored.cores, hport]
  · have hwrite : s.dev.peerWrite src ep msg a data bad = (s.dev.consume ep 3 2).answerPeer src.toNat msg stBounds := by
      rw [peerWrite_of_heard hphase hhears, peerStore_of_outside hout]
    exact ⟨_, congrArg (fun d => Host.Outcome.next (s.withDev d)) hwrite,
      (onlyPort_answerPeer _ src.toNat msg stBounds).mem.trans (onlyPort_consume s.dev ep 3 2).mem,
      sentOne_answerPeer (answersAs_consume s.dev ep 3 2) hopen (peerEndpoint_of_heard hhears) msg stBounds⟩
  · refine congrArg (fun d => Host.Outcome.next (s.withDev d)) ((peerDone_of_heard hphase hhears hsrc msg st).trans
      (answered_of_xfer st ?_))
    rw [(onlyPort_consume s.dev ep 3 3).tick]
    exact hfind
  · rw [xfers_endXfer, (onlyPort_consume s.dev ep 3 3).tick]
  · have hport := onlyPort_consume s.dev ep 3 4
    refine ⟨_, congrArg (fun d => Host.Outcome.next (s.withDev d)) (collStep_of_unfired hphase hhears id step.toNat data hnone),
      hport.mem, hport.regs, ?_⟩
    show ({ (s.dev.consume ep 3 4).tick with collEarly := _ } : Tick) = _
    rw [hport.tick]
  intro slot
  refine ⟨fun off data hoff hfits hin hfree => ?_, fun msg hdr hlen hvalid hin hfree hopen => ?_⟩
  · have hport := onlyPort_consume s.dev ep 3 5
    have hfree' : (s.dev.consume ep 3 5).problemIn .host .write (slot.1 + off) data.length = none := by rw [hport]; exact hfree
    exact ⟨_, congrArg (fun d => Host.Outcome.next (s.withDev d))
      (ckptData_of_running hphase hhears off htakes hrun hoff hfits hin hfree),
      laidDown_congr (laidDown_stored hfree') hport.mem rfl, (accessed_stored _ _ _).tick.trans hport.tick⟩
  · have hport := onlyPort_consume s.dev ep 3 6
    obtain ⟨d, hd⟩ : ∃ d, d = (s.dev.consume ep 3 6).modTick fun t => { t with replicas := tdel t.replicas area } := ⟨_, rfl⟩
    have hfree' : d.problemIn .host .write slot.1 hdr.length = none := by rw [hd, hport, hlen]; exact hfree
    have hdone := ckptEnd_of_running hphase hhears msg htakes hrun hlen hvalid hin hfree
    rw [← hd] at hdone
    have hmem : d.mem = s.dev.mem := by rw [hd]; exact hport.mem
    have hreplicas : tfind d.tick.replicas area = none := by rw [hd]; exact tfind_tdel _ _
    have hconsumed : AnswersAs s.dev d := by
      rw [hd]
      exact (answersAs_consume s.dev ep 3 6).trans (answersAs_of_regs rfl fun _ _ _ _ => rfl)
    have hstored := accessed_stored d slot.1 hdr
    have hlaid := laidDown_stored hfree'
    change s.dev.ckptEnd src ep msg area seq hdr = (((d.hostWrite slot.1 hdr).poisonGranules slot.1 []).setReg _ _ _).answerPeer
      _ _ _ at hdone
    generalize (d.hostWrite slot.1 hdr).poisonGranules slot.1 [] = e at hstored hlaid hdone
    have hshown : (e.setReg (0x2080 + area) (4 + seq.toNat % 2) seq.toNat).reg (0x2080 + area) (4 + seq.toNat % 2) = seq.toNat := by
      rw [Dev.reg_setReg_same, Nat.mod_eq_of_lt seq.isLt]
    have harea : area < 4 := by
      unfold Dev.areaTakes at htakes
      simp only [Bool.and_eq_true, decide_eq_true_eq] at htakes
      exact htakes.1.1
    have hanswers : AnswersAs s.dev (e.setReg (0x2080 + area) (4 + seq.toNat % 2) seq.toNat) :=
      (hconsumed.trans hstored.unitWork.answersAs).trans (answersAs_of_regs rfl fun i k hi hk => by
        rw [Dev.reg_setReg _ _ _ _ _ _ (by omega) hk, if_neg (by omega)])
    have hanswer := onlyPort_answerPeer (e.setReg (0x2080 + area) (4 + seq.toNat % 2) seq.toNat) src.toNat msg stOk
    refine ⟨_, congrArg (fun d => Host.Outcome.next (s.withDev d)) hdone, laidDown_congr hlaid hmem hanswer.mem,
      (hanswer.reg _ _).trans hshown, ?_, sentOne_answerPeer hanswers hopen (peerEndpoint_of_heard hhears) msg stOk⟩
    exact (congrArg (fun t => tfind (Tick.replicas t) area) (hanswer.tick.trans hstored.tick)).trans hreplicas

end Sys2Proof.Proofs
end

section
/-! SUPPORT. Tick symbols: the checksum's range, and the reading of a symbol (11 R363, 15 R463). -/

namespace Sys2Proof.Proofs

open Sys2Proof.Machine Sys2Proof.Terms

theorem crcBit_lt {c : Nat} (h : c < 2 ^ 32) : crcBit c < 2 ^ 32 := by
  unfold crcBit
  split
  · exact Nat.xor_lt_two_pow (by omega) (by decide)
  · omega

theorem crcByte_lt {c : Nat} (h : c < 2 ^ 32) (b : Byte) : crcByte c b < 2 ^ 32 := by
  have hbits (l : List Nat) (c : Nat) (h : c < 2 ^ 32) : l.foldl (fun c _ => crcBit c) c < 2 ^ 32 := by
    induction l generalizing c with
    | nil => exact h
    | cons _ l ih => exact ih _ (crcBit_lt h)
  exact hbits _ _ (Nat.xor_lt_two_pow h (b.isLt.trans (by decide)))

theorem crc32c_lt (bs : List Byte) : crc32c bs < 2 ^ 32 := by
  have hbytes (c : Nat) (h : c < 2 ^ 32) : bs.foldl crcByte c < 2 ^ 32 := by
    induction bs generalizing c with
    | nil => exact h
    | cons b bs ih => exact ih _ (crcByte_lt h b)
  exact Nat.xor_lt_two_pow (hbytes _ (by decide)) (by decide)

/-- The fields of a symbol, from its low end: SYNC, CRC, sixteen zero bits, kind, tick. -/
theorem symbol_fields {t k c : Nat} (ht : t < 2 ^ 64) (hk : k < 4) (hc : c < 2 ^ 32) :
    let v := (BitVec.ofNat 128 (t * 2 ^ 64 + k * 2 ^ 56 + c * 2 ^ 8 + 0x1B)).toNat
    bitsAt v 0 8 = 0x1B ∧ bitsAt v 64 64 = t ∧ bitsAt v 56 8 = k ∧ bitsAt v 40 16 = 0 ∧ bitsAt v 8 32 = c := by
  intro v
  have hv : v = t * 2 ^ 64 + k * 2 ^ 56 + c * 2 ^ 8 + 0x1B := by
    show (BitVec.ofNat 128 _).toNat = _
    rw [BitVec.toNat_ofNat]
    omega
  simp only [bitsAt_eq, hv]
  omega

theorem readSymbol_tickSymbol (n : Nat) (k : EdgeKind) : readSymbol (tickSymbol n k) = some (n % 2 ^ 64, some k) := by
  have hcode : k.code < 4 := by cases k <;> decide
  have hkind : edgeKind k.code = some k := by cases k <;> rfl
  obtain ⟨hsync, htick, hcode', hzero, hcrc⟩ := symbol_fields (Nat.mod_lt n (Nat.two_pow_pos 64)) hcode
    (crc32c_lt (beBytes 11 (n % 2 ^ 64 * 2 ^ 24 + k.code * 2 ^ 16)))
  change bitsAt (tickSymbol n k).toNat 0 8 = _ at hsync
  change bitsAt (tickSymbol n k).toNat 64 64 = _ at htick
  change bitsAt (tickSymbol n k).toNat 56 8 = _ at hcode'
  change bitsAt (tickSymbol n k).toNat 40 16 = _ at hzero
  change bitsAt (tickSymbol n k).toNat 8 32 = symbolCrc (n % 2 ^ 64) k.code at hcrc
  unfold readSymbol
  dsimp only
  rw [hsync, htick, hcode', hzero, hcrc, if_neg (by decide), if_pos ⟨rfl, rfl⟩, hkind]

end Sys2Proof.Proofs
end

section
/-! SUPPORT. The tick: symbols heard and sent, readiness, loss of the tick, and waking banks (10 R331, 15 R459-R465). -/

namespace Sys2Proof.Proofs

open Sys2Proof.Machine Sys2Proof.Terms

/-! ### Symbols that arrive -/

/-- With no request waiting there is none to assign. -/
theorem onlyPort_assignWaiting {d : Dev} (h : d.port.waiting = []) : OnlyPort d d.assignWaiting := by
  unfold Dev.assignWaiting
  split
  · exact .refl
  · rw [h]
    exact onlyPort_modPort d _

/-- The device once it has left the running state, before waiting requests are assigned. -/
def leftRunning (d : Dev) (state : Nat) (reason : BitVec 8) : Dev :=
  ((d.setReg 0x2000 3 state).modTick fun t => { t with accepted := none }).faultUc 0x0F 0 0 reason 0 0

theorem leaveRunning_spec {d : Dev} {state : Nat} (reason : BitVec 8) (hstate : state < 2 ^ 64) (hwaiting : d.port.waiting = []) :
    (d.leaveRunning state reason).reg 0x2000 3 = state ∧ (d.leaveRunning state reason).tick.accepted = none ∧
      (d.leaveRunning state reason).tickNumber = d.tickNumber ∧
      ∃ f, (d.leaveRunning state reason).faults.raised = d.faults.raised ++ [f] ∧ f.source = 0x0F ∧ f.reason = reason := by
  have hport : OnlyPort (leftRunning d state reason) (d.leaveRunning state reason) := onlyPort_assignWaiting hwaiting
  have hreg (k : Nat) (hk : k < 256) : (leftRunning d state reason).reg 0x2000 k = if k = 3 then state else d.reg 0x2000 k := by
    refine (d.reg_setReg 0x2000 3 state 0x2000 k (by decide) hk).trans ?_
    rw [Nat.mod_eq_of_lt hstate]
    simp only [true_and]
  refine ⟨(hport.reg _ _).trans (hreg 3 (by decide)), congrArg Tick.accepted hport.tick, ?_, ?_⟩
  · exact (hport.reg _ _).trans (hreg 9 (by decide))
  · have hfaults : (d.leaveRunning state reason).faults = (leftRunning d state reason).faults := by rw [hport]
    rw [hfaults]
    exact ⟨_, rfl, rfl, rfl⟩

/-- COUNTER as a symbol finds it is noted. -/
def symbolNoted (d : Dev) : Dev := d.setReg 0x2000 0x0C d.counter

section
variable (d : Dev)

theorem reg_symbolNoted {k : Nat} (hk : k < 256) : (symbolNoted d).reg 0x2000 k = if k = 0x0C then d.counter else d.reg 0x2000 k := by
  refine (d.reg_setReg 0x2000 0x0C d.counter 0x2000 k (by decide) hk).trans ?_
  rw [Dev.counter, Nat.mod_eq_of_lt (reg_lt d 0x2020 1)]
  simp only [true_and]

theorem tickRun_symbolNoted : (symbolNoted d).tickRun = d.tickRun := by
  rw [Dev.tickRun, reg_symbolNoted d (by decide), if_neg (by decide), Dev.tickRun]

theorem tickNumber_symbolNoted : (symbolNoted d).tickNumber = d.tickNumber :=
  (reg_symbolNoted d (by decide)).trans (if_neg (by decide))

theorem isFollower_symbolNoted : (symbolNoted d).isFollower = d.isFollower := by
  rw [Dev.isFollower, reg_symbolNoted d (by decide), if_neg (by decide), Dev.isFollower]
  rfl

end

section
variable {d : Dev} {w : BitVec 128} {n : Nat} {k : EdgeKind} (hsymbol : readSymbol w = some (n, some k)) (hrun : d.tickRun = true)
  (haccepted : d.tick.accepted = none) (hrepeat : noRepeat d)
include hsymbol hrun haccepted hrepeat

theorem symbolIn_of_running (hstate : d.reg 0x2000 3 = 1 ∨ d.reg 0x2000 3 = 5) : d.symbolIn w =
    if (!d.tick.adopted && d.isFollower) = true ∨ n = (d.tickNumber + 1) % 2 ^ 64 then (symbolNoted d).takeSymbol n k
    else (symbolNoted d).leaveRunning 2 3 := by
  have hlistens : d.listens = true := by
    unfold Dev.listens
    rw [hrun]
    simpa using hstate
  have hfirst : ((symbolNoted d).tickRun && !(symbolNoted d).tick.adopted && (symbolNoted d).isFollower) = true ∨
      n = ((symbolNoted d).tickNumber + 1) % 2 ^ 64 ↔
      (!d.tick.adopted && d.isFollower) = true ∨ n = (d.tickNumber + 1) % 2 ^ 64 := by
    rw [tickRun_symbolNoted, isFollower_symbolNoted, tickNumber_symbolNoted, hrun, Bool.true_and]
    exact Iff.rfl
  unfold Dev.symbolIn
  rw [if_neg hrepeat, hsymbol]
  dsimp only
  rw [if_neg (by simp [hlistens, haccepted])]
  exact if_congr hfirst rfl (if_pos ((tickRun_symbolNoted d).trans hrun))

end

/-! ### The deadline (15 R459-R461) -/

/-- What the deadline of a running device raises and counts: an overrun of the frame, a checkpoint that is late. -/
structure DeadlineNoted (d e : Dev) : Prop where
  frame : e = { d with regs := e.regs, tick := { d.tick with frame := e.tick.frame }, faults := e.faults }
  regs : ∀ i k, k < 256 → ¬(i = 0x2000 ∧ k = 0x0D) → e.reg i k = d.reg i k

theorem DeadlineNoted.refl (d : Dev) : DeadlineNoted d d := ⟨rfl, fun _ _ _ _ => rfl⟩

theorem DeadlineNoted.trans {a b c : Dev} (h : DeadlineNoted a b) (h' : DeadlineNoted b c) : DeadlineNoted a c where
  frame := by rw [h'.frame, h.frame]
  regs i k hk hi := (h'.regs i k hk hi).trans (h.regs i k hk hi)

theorem deadlineNoted_faultUc (d : Dev) (src unit addr : Nat) (reason status : BitVec 8) (detail : Nat) :
    DeadlineNoted d (d.faultUc src unit addr reason status detail) := by
  unfold Dev.faultUc Dev.raise
  dsimp only
  split
  · split
    · exact .refl d
    · exact ⟨rfl, fun _ _ _ _ => rfl⟩
  · exact ⟨rfl, fun _ _ _ _ => rfl⟩

theorem deadlineNoted_overrun (d : Dev) : DeadlineNoted d d.overrun := by
  unfold Dev.overrun
  split
  · split
    · exact .refl d
    · have hcounted : DeadlineNoted d (d.bump 0x2000 0x0D 1) :=
        ⟨rfl, fun i k hk hi => (reg_bump d 1 (by decide) hk).trans (if_neg hi)⟩
      exact (hcounted.trans (deadlineNoted_faultUc ..)).trans ⟨rfl, fun _ _ _ _ => rfl⟩
  · exact .refl d

theorem DeadlineNoted.missingReady {d e : Dev} (h : DeadlineNoted d e) : e.missingReady = d.missingReady := by
  have hreg (i k : Nat) (hi : i ≠ 0x2000 ∨ k ≠ 0x0D) (hk : k < 256) : e.reg i k = d.reg i k := h.regs i k hk (by omega)
  have hframe : e.tick = { d.tick with frame := e.tick.frame } := by rw [h.frame]
  have hnext : e.nextFrame = d.nextFrame := by
    rw [Dev.nextFrame, Dev.frameNumber, hreg _ _ (by decide) (by decide), hreg _ _ (by decide) (by decide), hframe]
    rfl
  unfold Dev.missingReady
  refine List.filter_congr fun n hn => ?_
  rw [List.mem_range] at hn
  rw [hnext, Dev.systemDevice, hreg _ _ (by decide) (by decide), Dev.isMember, hreg _ _ (.inl (by decide)) (by omega), hframe]
  rfl

/-- What the deadline raises before the master chooses. -/
def deadlineNoted (d : Dev) : Dev :=
  if d.tick.holdLeft = 0 && (d.tick.ckpts.any fun c => c.sending) then
    (match d.overrun.tick.ckpts.find? fun c => c.sending with
     | some c => d.overrun.faultUc 0x10 (fld (d.overrun.rd (c.descs.headD 0) 64) 64 10) (c.descs.headD 0) 3 0 0
     | none => d.overrun)
  else d.overrun

theorem deadlineNoted_spec (d : Dev) : DeadlineNoted d (deadlineNoted d) := by
  have hover := deadlineNoted_overrun d
  unfold deadlineNoted
  split
  · split
    · exact hover.trans (deadlineNoted_faultUc ..)
    · exact hover
  · exact hover

/-- The edge that the master chooses (15 R460). -/
def edgeChoice (d : Dev) (hold : Prop) [Decidable hold] : EdgeKind :=
  if hold then .hold else if d.missingReady = [] then .enter else .skip

theorem deadline_of_running {d : Dev} (hrun : d.tickRun = true) (hstate : d.reg 0x2000 3 = 1) (hmaster : d.isMaster = true) :
    ∃ chosen missing starved, d.deadline = (deadlineNoted d).modTick (fun t => { t with
        chosen := some chosen, missing := missing, starved := starved, holdLeft := t.holdLeft - 1 }) ∧
      chosen = edgeChoice d (d.tick.holdLeft ≠ 0) ∧ missing = d.missingReady := by
  have hnoted := deadlineNoted_spec d
  have hmaster' : (deadlineNoted d).isMaster = true := by
    rw [Dev.isMaster, hnoted.regs _ _ (by decide) (by decide), hnoted.frame]
    exact hmaster
  have hchoice : edgeChoice (deadlineNoted d) ((deadlineNoted d).tick.holdLeft ≠ 0) = edgeChoice d (d.tick.holdLeft ≠ 0) := by
    have hhold : (deadlineNoted d).tick.holdLeft = d.tick.holdLeft := by rw [hnoted.frame]
    unfold edgeChoice
    rw [hnoted.missingReady]
    simp only [hhold]
  refine ⟨edgeChoice (deadlineNoted d) ((deadlineNoted d).tick.holdLeft ≠ 0), (deadlineNoted d).missingReady,
    d.frameDone && d.tick.next.isNone && d.tick.ckpts = [] && d.injected d.nextFrame && d.faults.raised = [], ?_,
    hchoice, hnoted.missingReady⟩
  have hrunning : d.runningDeadline = (deadlineNoted d).modTick fun t => { t with
      chosen := if (deadlineNoted d).isMaster then
        some (edgeChoice (deadlineNoted d) ((deadlineNoted d).tick.holdLeft ≠ 0)) else none
      missing := (deadlineNoted d).missingReady
      starved := d.frameDone && d.tick.next.isNone && d.tick.ckpts = [] && d.injected d.nextFrame && d.faults.raised = []
      holdLeft := t.holdLeft - 1 } := rfl
  unfold Dev.deadline
  rw [if_pos ⟨hrun, hstate⟩, hrunning, if_pos hmaster']

/-! ### READY (15 R459) -/

theorem deviceReady_of_ready {d : Dev} (hrun : d.tickRun = true) (hstate : d.reg 0x2000 3 = 1 ∨ d.reg 0x2000 3 = 5)
    (hsent : d.tick.readySent = false) (hready : d.ready = true) :
    d.deviceReady = if d.isMaster then d.modTick fun t => { t with readySent := true }
      else (d.modTick fun t => { t with readySent := true }).sendPeer (d.reg 0x8010 1) .control 1 (leBytes 8 d.nextFrame) :=
  if_neg (by simp [hrun, hstate, hsent, hready])

theorem onlyPort_sendPeer (d : Dev) (n : Nat) (t : Traffic) (kind : BitVec 8) (body : List Byte) :
    OnlyPort d (d.sendPeer n t kind body) := by
  unfold Dev.sendPeer Dev.sendPeerMarked
  split
  · exact onlyPort_sendMarked ..
  · exact .refl

/-! ### Every event of the tick -/

theorem tick_accepted_of_adopted {t : Tick} (h : t.adopted = true) (k : EdgeKind) :
    { t with adopted := true, accepted := some k } = { t with accepted := some k } := by
  rw [← h]

/-- The symbol of an edge, taken by a device that follows the numbering. -/
theorem takeSymbol_of_adopted {d : Dev} (hrun : d.tickRun = true) (hadopted : d.tick.adopted = true) (n : Nat) (k : EdgeKind) :
    d.takeSymbol n k = { d.setReg 0x2000 3 1 with tick := { d.tick with accepted := some k } } := by
  unfold Dev.takeSymbol
  dsimp only
  rw [if_pos hadopted, if_pos hrun]
  exact congrArg (fun t => ({ d.setReg 0x2000 3 1 with tick := t } : Dev)) (tick_accepted_of_adopted hadopted k)

/-- The number of the tick before the one that a symbol names. -/
def tickBefore (n : Nat) : Nat := (n + 2 ^ 64 - 1) % 2 ^ 64

theorem tickBefore_next (n : Nat) : (tickBefore n % 2 ^ 64 + 1) % 2 ^ 64 = n % 2 ^ 64 := by unfold tickBefore; omega

/-- The first symbol that a follower hears sets the number of the tick before it. -/
theorem takeSymbol_of_new {d : Dev} (hrun : d.tickRun = true) (hadopted : d.tick.adopted = false) (n : Nat) (k : EdgeKind) :
    d.takeSymbol n k = ((d.setReg 0x2000 9 (tickBefore n)).setReg 0x2000 3 1).modTick fun t =>
      { t with adopted := true, accepted := some k } := by
  have hrun' : (d.setReg 0x2000 9 (tickBefore n)).tickRun = true := by
    rw [Dev.tickRun, d.reg_setReg _ _ _ _ _ (by decide) (by decide), if_neg (by decide)]
    exact hrun
  unfold Dev.takeSymbol
  rw [if_neg (by rw [hadopted]; decide)]
  have hbefore : (n + 2 ^ 64 - 1) % 2 ^ 64 = tickBefore n := rfl
  rw [hbefore]
  dsimp only
  rw [if_pos hrun']

theorem reg_numbered (d : Dev) (v : Nat) (f : Tick → Tick) :
    (((d.setReg 0x2000 9 v).setReg 0x2000 3 1).modTick f).reg 0x2000 3 = 1 ∧
      (((d.setReg 0x2000 9 v).setReg 0x2000 3 1).modTick f).tickNumber = v % 2 ^ 64 := by
  have hreg (i : Nat) (hi : i < 256) := (d.setReg 0x2000 9 v).reg_setReg 0x2000 3 1 0x2000 i (by decide) hi
  exact ⟨(hreg 3 (by decide)).trans (if_pos ⟨rfl, rfl⟩),
    (hreg 9 (by decide)).trans ((if_neg (by decide)).trans (Dev.reg_setReg_same _ _ _ _))⟩

section
variable {s : State} {w : BitVec 128} {n : Nat} {k : EdgeKind} (hsymbol : readSymbol w = some (n, some k))
  (hrun : s.dev.tickRun = true) (haccepted : s.dev.tick.accepted = none) (hrepeat : noRepeat s.dev)
include hsymbol hrun haccepted hrepeat

theorem heard_next (hstate : s.dev.reg 0x2000 3 = 1) (hadopted : s.dev.tick.adopted = true)
    (hnext : n = (s.dev.tickNumber + 1) % 2 ^ 64) : ∃ t, exec (.tickSymbol w) s = .next t ∧
      t.dev.tick = { s.dev.tick with accepted := some k } ∧ t.dev.reg 0x2000 3 = 1 ∧
      t.dev.tickNumber = s.dev.tickNumber ∧ t.dev.reg 0x2000 0x0C = s.dev.counter ∧ t.dev.faults = s.dev.faults := by
  have htaken := (symbolIn_of_running hsymbol hrun haccepted hrepeat (.inl hstate)).trans ((if_pos (.inr hnext)).trans
    (takeSymbol_of_adopted ((tickRun_symbolNoted s.dev).trans hrun) hadopted _ k))
  have hreg (i : Nat) (hi : i < 256) := (symbolNoted s.dev).reg_setReg 0x2000 3 1 0x2000 i (by decide) hi
  exact ⟨_, congrArg (fun d => Host.Outcome.next (s.withDev d)) htaken, rfl, (hreg 3 (by decide)).trans (if_pos ⟨rfl, rfl⟩),
    (hreg 9 (by decide)).trans ((if_neg (by decide)).trans (tickNumber_symbolNoted s.dev)),
    (hreg 0x0C (by decide)).trans ((if_neg (by decide)).trans (reg_symbolNoted s.dev (by decide))), rfl⟩

theorem heard_other (hwaiting : s.dev.port.waiting = []) (hstate : s.dev.reg 0x2000 3 = 1)
    (hadopted : s.dev.tick.adopted = true) (hother : n ≠ (s.dev.tickNumber + 1) % 2 ^ 64) :
    ∃ t f, exec (.tickSymbol w) s = .next t ∧ t.dev.reg 0x2000 3 = 2 ∧ t.dev.tick.accepted = none ∧
      t.dev.tickNumber = s.dev.tickNumber ∧ t.dev.faults.raised = s.dev.faults.raised ++ [f] ∧ f.source = 0x0F ∧
      f.reason = 3 := by
  have hleft := (symbolIn_of_running hsymbol hrun haccepted hrepeat (.inl hstate)).trans
    (if_neg (by rw [hadopted]; simpa using hother))
  obtain ⟨hthree, hnone, hnumber, f, hraised, hsource, hreason⟩ :=
    leaveRunning_spec (d := symbolNoted s.dev) 3 (state := 2) (by decide) hwaiting
  exact ⟨_, f, congrArg (fun d => Host.Outcome.next (s.withDev d)) hleft, hthree, hnone,
    hnumber.trans (tickNumber_symbolNoted s.dev), hraised, hsource, hreason⟩

theorem heard_first (hstate : s.dev.reg 0x2000 3 = 5) (hnew : s.dev.tick.adopted = false)
    (hfollower : s.dev.isFollower = true) : ∃ t, exec (.tickSymbol w) s = .next t ∧ t.dev.tick.accepted = some k ∧
      t.dev.tick.adopted = true ∧ t.dev.reg 0x2000 3 = 1 ∧ (t.dev.tickNumber + 1) % 2 ^ 64 = n % 2 ^ 64 := by
  have htaken := (symbolIn_of_running hsymbol hrun haccepted hrepeat (.inr hstate)).trans
    ((if_pos (.inl (by rw [hnew, hfollower]; rfl))).trans
      (takeSymbol_of_new ((tickRun_symbolNoted s.dev).trans hrun) hnew _ k))
  have hnext := tickBefore_next n
  generalize tickBefore n = v at htaken hnext
  obtain ⟨hthree, hnumber⟩ := reg_numbered (symbolNoted s.dev) v fun t => { t with adopted := true, accepted := some k }
  refine ⟨_, congrArg (fun d => Host.Outcome.next (s.withDev d)) htaken, rfl, rfl, hthree, ?_⟩
  rw [State.withDev_dev, hnumber, hnext]

end

/-- Settles O55: a symbol that reads back is taken or refused by its number alone, and each event of the tick changes the few
fields that it speaks of. -/
theorem tickSymbols : Obligations.TickSymbols := by
  refine ⟨readSymbol_tickSymbol, ?hear, ?emit, ?deadline, ?ready, ?lost, ?wake⟩
  case hear =>
    intro s n k hrun haccepted hrepeat hwaiting
    have hsymbol := readSymbol_tickSymbol n k
    exact ⟨fun hstate hadopted => ⟨fun hnext => heard_next hsymbol hrun haccepted hrepeat hstate hadopted hnext,
      fun hother => heard_other hsymbol hrun haccepted hrepeat hwaiting hstate hadopted hother⟩,
      fun hstate hnew hfollower => by
        obtain ⟨t, hexec, haccept, hadopt, hthree, hnumber⟩ :=
          heard_first hsymbol hrun haccepted hrepeat hstate hnew hfollower
        exact ⟨t, hexec, haccept, hadopt, hthree, hnumber.trans (Nat.mod_mod n _)⟩⟩
  case emit =>
    intro s k h
    refine congrArg (fun d => Host.Outcome.next (s.withDev d)) ?_
    obtain ⟨honly, rfl⟩ | ⟨honly, hrun, hstate, hmaster, hchosen⟩ := h
    · exact if_pos honly
    · refine (if_neg (by rw [honly]; decide)).trans ((if_pos ⟨hrun, hstate, hmaster⟩).trans ?_)
      rw [hchosen]
      rfl
  case deadline =>
    intro s hrun hstate hmaster
    obtain ⟨chosen, missing, starved, hdone, hchosen, hmissing⟩ := deadline_of_running hrun hstate hmaster
    have hframe := (deadlineNoted_spec s.dev).frame
    generalize deadlineNoted s.dev = e at hdone hframe
    refine ⟨_, congrArg (fun d => Host.Outcome.next (s.withDev d)) hdone, congrArg some hchosen, hmissing, ?_, ?_, ?_⟩
    · show e.tick.holdLeft - 1 = _
      rw [hframe]
    · show e.mem = _
      rw [hframe]
    · show e.cores = _
      rw [hframe]
  case ready =>
    intro s hrun hstate hsent hready
    have hdone := deviceReady_of_ready hrun hstate hsent hready
    cases hmaster : s.dev.isMaster with
    | true =>
      rw [if_pos hmaster] at hdone
      exact ⟨_, congrArg (fun d => Host.Outcome.next (s.withDev d)) hdone, rfl, fun _ => rfl, fun _ h => nomatch h⟩
    | false =>
      rw [if_neg (by rw [hmaster]; decide)] at hdone
      have hport := onlyPort_sendPeer (s.dev.modTick fun t => { t with readySent := true }) (s.dev.reg 0x8010 1) .control 1
        (leBytes 8 s.dev.nextFrame)
      refine ⟨_, congrArg (fun d => Host.Outcome.next (s.withDev d)) hdone, hport.tick, (nomatch ·), fun ep _ hopen hep => ?_⟩
      have hsame : SameSending s.dev (s.dev.modTick fun t => { t with readySent := true }) := sameSending_of_port rfl rfl
      refine hsame.sentOne ?_
      change sentOne _ (Dev.sendPeer (s.dev.modTick fun t => { t with readySent := true }) (s.dev.reg 0x8010 1) .control 1
        (leBytes 8 s.dev.nextFrame)) ep 3 1 _
      rw [sendPeer_of_endpoint (d := s.dev.modTick fun t => { t with readySent := true }) hep]
      exact sentOne_sendMarked _ _ _ _ _ _ _ _ _ (hsame.linkOpen hopen)
  case lost =>
    intro s hrun hfollower hstate hwaiting
    have hleft : s.dev.tickLost = s.dev.leaveRunning 3 4 := if_pos ⟨hrun, hfollower, hstate⟩
    obtain ⟨hthree, hnone, -, f, hraised, hsource, hreason⟩ := leaveRunning_spec (d := s.dev) 4 (state := 3) (by decide) hwaiting
    exact ⟨_, f, congrArg (fun d => Host.Outcome.next (s.withDev d)) hleft, hthree, hnone, hraised, hsource, hreason⟩
  case wake =>
    intro s c b hwaking
    refine ⟨s.dev.modCluster c fun x => { x with power := tset x.power b .on },
      congrArg (fun d => Host.Outcome.next (s.withDev d)) (if_pos hwaking), rfl, fun y => ?_, fun x hx => ?_⟩
    · rw [Dev.bankPower, Dev.cluster_modCluster_same, tget_tset]
      rfl
    · rw [Dev.modCluster, Dev.cluster_setCluster, if_neg hx]

end Sys2Proof.Proofs
end

section
/-! SUPPORT. The tables of sessions and exchanges, and the messages of share mode (07 R195-R205, R213-R232). -/

namespace Sys2Proof.Proofs

open Sys2Proof.Machine Sys2Proof.Terms

theorem tfind_tdel_other {α : Type} (t : Tbl α) {k m : Nat} (h : m ≠ k) : tfind (tdel t k) m = tfind t m := by
  induction t with
  | nil => rfl
  | cons p r ih =>
    by_cases hp : p.1 = k
    · rw [tdel, List.filter_cons_of_neg (by simp [hp]), tfind, if_neg fun hm => h (hm.symm.trans hp)]
      exact ih
    · rw [tdel, List.filter_cons_of_pos (by simp [hp]), tfind, tfind]
      exact if_congr Iff.rfl rfl ih

theorem tget_tdel_other {α : Type} (t : Tbl α) {k m : Nat} (h : m ≠ k) (v : α) : tget (tdel t k) m v = tget t m v :=
  (tget_filter (fun j => decide (j ≠ k)) t m v).trans (if_pos (decide_eq_true h))

theorem counted_congr {d e : Dev} {i k : Nat} (h : e.reg i k = d.reg i k) (n : Nat) : counted e i k n = counted d i k n := by
  rw [counted, h, counted]

/-! ### Sessions -/

section
variable {d e : Dev}

theorem session_congr (h : e.sterling = d.sterling) (n : Nat) : e.session n = d.session n := by
  rw [Dev.session, h, Dev.session]

theorem session_putSession (d : Dev) (n m : Nat) (x : Session) :
    (d.putSession n x).session m = if m = n then some x else d.session m := tfind_tset ..

theorem session_putSession_same (d : Dev) (n : Nat) (x : Session) : (d.putSession n x).session n = some x :=
  (session_putSession d n n x).trans (if_pos rfl)

/-- The device without a session. -/
def withoutSession (d : Dev) (n : Nat) : Dev := d.modSterling fun x => { x with sessions := tdel x.sessions n }

theorem session_withoutSession (d : Dev) (n : Nat) : (withoutSession d n).session n = none := tfind_tdel ..

theorem session_withoutSession_other (d : Dev) {n m : Nat} (h : m ≠ n) : (withoutSession d n).session m = d.session m :=
  tfind_tdel_other _ h

/-! ### Exchanges -/

theorem exchange_congr (hst : e.sterling.exchanges = d.sterling.exchanges) (hopen : e.exchOpen = d.exchOpen) (k : Nat) :
    e.exchange k = d.exchange k := by
  rw [Dev.exchange, hst, hopen, Dev.exchange]

theorem exchange_putExchange_same (d : Dev) (k : Nat) (y : Exchange) : (d.putExchange k y).exchange k = some y := by
  have hopen : tfind (tset d.exchOpen k y.toExchOpen) k = some y.toExchOpen := (tfind_tset ..).trans (if_pos rfl)
  have hsecret : tget (tset d.sterling.exchanges k y.toExchSecret) k ExchSecret.lost = y.toExchSecret := tget_tset_same ..
  change (tfind (tset d.exchOpen k y.toExchOpen) k).map (fun o =>
    ({ tget (tset d.sterling.exchanges k y.toExchSecret) k ExchSecret.lost, o with } : Exchange)) = some y
  rw [hopen, hsecret]
  rfl

theorem exchange_putExchange_other (d : Dev) {k j : Nat} (h : j ≠ k) (y : Exchange) :
    (d.putExchange k y).exchange j = d.exchange j := by
  have hopen : tfind (tset d.exchOpen k y.toExchOpen) j = tfind d.exchOpen j := (tfind_tset ..).trans (if_neg h)
  have hsecret : tget (tset d.sterling.exchanges k y.toExchSecret) j ExchSecret.lost =
      tget d.sterling.exchanges j ExchSecret.lost := tget_tset_other _ _ _ h
  change (tfind (tset d.exchOpen k y.toExchOpen) j).map (fun o =>
    ({ tget (tset d.sterling.exchanges k y.toExchSecret) j ExchSecret.lost, o with } : Exchange)) = _
  rw [hopen, hsecret, Dev.exchange]

/-! ### What a message sent changes -/

/-- Nothing but the port and the table of sessions differs. -/
def ShareSent (d e : Dev) : Prop :=
  e = { d with port := e.port, sterling := { d.sterling with sessions := e.sterling.sessions } }

theorem ShareSent.regs (h : ShareSent d e) : e.regs = d.regs := by rw [h]

theorem ShareSent.mem (h : ShareSent d e) : e.mem = d.mem := by rw [h]

theorem ShareSent.exchange (h : ShareSent d e) (k : Nat) : e.exchange k = d.exchange k :=
  exchange_congr (by rw [h]) (by rw [h]) k

theorem OnlyPort.shareSent (h : OnlyPort d e) : ShareSent d e := by
  rw [ShareSent, h]

theorem ShareSent.trans {f : Dev} (h : ShareSent d e) (h' : ShareSent e f) : ShareSent d f := by
  rw [ShareSent, h', h]

theorem shareSent_putSession (d : Dev) (n : Nat) (x : Session) : ShareSent d (d.putSession n x) := rfl

theorem onlyPort_sendShare (d : Dev) (ep : Endpoint) (kind : BitVec 8) (body : List Byte) :
    OnlyPort d (d.sendShare ep kind body) := onlyPort_sendMsg ..

theorem sentOne_sendShare (h : linkOpen d) (ep : Endpoint) (kind : BitVec 8) (body : List Byte) :
    sentOne d (d.sendShare ep kind body) ep 2 kind body := sentOne_sendMsg _ _ _ _ _ _ _ _ h

end

section
variable (d : Dev) {n : Nat} {x : Session} (hx : d.session n = some x) (kind slot round serial : Nat) (body : List Byte)

/-- A protected message as it leaves. -/
def sealedMsg (n : Nat) (x : Session) (kind slot round serial : Nat) (body : List Byte) : List Byte :=
  shareHeader kind n slot round x.seqOut.toNat serial body.length ++
    aeadSeal x.keyOut (shareNonce x.seqOut.toNat) (shareHeader kind n slot round x.seqOut.toNat serial body.length) body

include hx in
theorem shareSend_sealed (h : x.live = true ∨ kind = 3) : d.shareSend n kind slot round serial body =
    ((d.putSession n { x with seqOut := x.seqOut + 1 }).sendShare x.ep (BitVec.ofNat 8 kind)
      (sealedMsg n x kind slot round serial body), sealedMsg n x kind slot round serial body) := by
  unfold Dev.shareSend
  rw [hx]
  exact if_pos h

include hx in
theorem shareSend_clear (h : ¬(x.live = true ∨ kind = 3)) : d.shareSend n kind slot round serial body =
    (d.sendShare x.ep (BitVec.ofNat 8 kind) (shareHeader kind n slot round 0 serial body.length ++ body),
      shareHeader kind n slot round 0 serial body.length ++ body) := by
  unfold Dev.shareSend
  rw [hx]
  exact if_neg h

theorem shareSent_shareSend (n : Nat) : ShareSent d (d.shareSend n kind slot round serial body).1 := by
  unfold Dev.shareSend
  split
  · rfl
  · split
    · exact (shareSent_putSession d n _).trans (onlyPort_sendShare ..).shareSent
    · exact (onlyPort_sendShare ..).shareSent

end

end Sys2Proof.Proofs
end

section
/-! SUPPORT. Share sessions (07 R195-R204). -/

namespace Sys2Proof.Proofs

open Sys2Proof.Machine Sys2Proof.Terms

/-! ### SH_HELLO -/

section
variable {d : Dev} (hphase : d.phase = .service) (ep : Endpoint) {body : List Byte}
include hphase

theorem helloIn_of_length (h : body.length ≠ 72) : d.helloIn ep body = (d.consume ep 2 1).bump 0x5800 9 1 := by
  unfold Dev.helloIn
  rw [if_neg (not_not.mpr hphase)]
  exact if_pos h

theorem helloIn_of_badPoint (h : body.length = 72) (hkey : helloKey body = none) :
    d.helloIn ep body = (d.consume ep 2 1).abortHello ep stNotOnCurve := by
  unfold Dev.helloIn
  rw [if_neg (not_not.mpr hphase), hkey]
  exact if_neg (not_not.mpr h)

theorem helloIn_of_free {n : Nat} (h : body.length = 72) (hkey : (helloKey body).isSome = true) (hn : n < 512)
    (hfree : d.session n = none) (hlow : ∀ j, j < n → d.session j ≠ none) :
    d.helloIn ep body = (d.consume ep 2 1).createSession ep body n := by
  have hsession := session_congr (onlyPort_consume d ep 2 1).sterling
  have hfind : ((List.range 512).find? fun j => ((d.consume ep 2 1).session j).isNone) = some n := by
    rw [List.find?_range_eq_some]
    exact ⟨by rw [hsession, hfree]; rfl, List.mem_range.mpr hn, fun j hj => by
      rw [hsession, Bool.not_eq_true', Option.isNone_eq_false_iff, Option.isSome_iff_ne_none]; exact hlow j hj⟩
  unfold Dev.helloIn
  rw [if_neg (not_not.mpr hphase)]
  dsimp only
  rw [if_neg (not_not.mpr h), if_neg (by rw [Option.isNone_eq_false_iff.mpr hkey]; exact Bool.false_ne_true), hfind]

end

/-- A session created: unbound, under its tag, and its handshake waits as a sealed job. -/
theorem createSession_spec (d : Dev) (ep : Endpoint) {body : List Byte} (h : body.length = 72) (n : Nat) :
    ∃ x, (d.createSession ep body n).session n = some x ∧ x.live = false ∧ x.ep = ep ∧ x.hello = body ∧
      x.reported = false ∧ x.tag.toNat = leNat (body.drop 64) ∧
      (d.createSession ep body n).nickel.sealedWork = d.nickel.sealedWork ++ [.handshake n] ∧
      ∀ j, j ≠ n → (d.createSession ep body n).session j = d.session j := by
  have htag : leNat (body.drop 64) < 2 ^ 64 := by
    have hlt := leNat_lt (body.drop 64)
    rwa [List.length_drop, h] at hlt
  refine ⟨_, session_putSession_same d.drawRandom.2 n _, rfl, rfl, rfl, rfl, ?_, rfl, fun j hj => ?_⟩
  · exact (BitVec.toNat_ofNat ..).trans (Nat.mod_eq_of_lt htag)
  · exact (session_putSession d.drawRandom.2 n j _).trans (if_neg hj)

/-! ### SH_REPORT and BIND_TIMEOUT -/

section
variable {d : Dev} {n : Nat} {x : Session} (hx : d.session n = some x) (hlive : x.live = false)
include hx hlive

theorem sendReport_eq (hunsent : x.reported = false) (hmade : x.report ≠ []) : d.sendReport n =
    (d.putSession n { x with reported := true }).sendShare x.ep 2 (shareHeader 2 n 0 0 0 0 x.report.length ++ x.report) := by
  unfold Dev.sendReport
  rw [hx]
  dsimp only
  rw [if_neg (by simp [hlive, hunsent, hmade]),
    shareSend_clear _ (session_putSession_same d n _) _ _ _ _ _ (by simp [hlive])]
  rfl

theorem bindTimeout_eq (hsent : x.reported = true) : d.bindTimeout n = withoutSession d n := by
  unfold Dev.bindTimeout
  rw [hx]
  exact if_neg (by simp [hlive, hsent])

end

/-! ### SH_BIND -/

/-- The plaintext of an SH_BIND, where it is one. -/
def boundPlain (m : ShareMsg) (x : Session) : Option (List Byte) :=
  if m.kind = 3 ∧ m.version = 1 ∧ m.seq = 0 then plainOf m x else none

section
variable {d : Dev} {m : ShareMsg} {x : Session} (hphase : d.phase = .service) (hx : d.session m.session.toNat = some x)
include hphase hx

theorem bindIn_of_misplaced (hfield : m.slot ≠ 0 ∨ m.round ≠ 0 ∨ m.serial ≠ 0) :
    d.bindIn m = (d.consume m.ep 2 3).bump 0x5800 9 1 := by
  unfold Dev.bindIn
  rw [if_neg (not_not.mpr hphase)]
  dsimp only
  rw [session_congr (onlyPort_consume d m.ep 2 3).sterling, hx]
  exact if_pos (.inr (.inr hfield))

variable (hlive : x.live = false) (hsent : x.reported = true) (hslot : m.slot = 0) (hround : m.round = 0)
  (hserial : m.serial = 0)
include hlive hsent hslot hround hserial

theorem bindIn_of_none (hplain : boundPlain m x = none) :
    d.bindIn m = (withoutSession (d.consume m.ep 2 3) m.session.toNat).bump 0x5800 9 1 := by
  unfold Dev.bindIn
  rw [if_neg (not_not.mpr hphase)]
  dsimp only
  rw [session_congr (onlyPort_consume d m.ep 2 3).sterling, hx]
  dsimp only
  rw [if_neg (by simp [hlive, hsent, hslot, hround, hserial]), ← boundPlain, hplain]
  rfl

theorem bindIn_of_some {p : List Byte} (hplain : boundPlain m x = some p) : d.bindIn m =
    if p = x.transcript ∧ m.bodyLen = 64 then (d.consume m.ep 2 3).bindSession m.session.toNat x m.ep
    else withoutSession (d.consume m.ep 2 3) m.session.toNat := by
  unfold Dev.bindIn
  rw [if_neg (not_not.mpr hphase)]
  dsimp only
  rw [session_congr (onlyPort_consume d m.ep 2 3).sterling, hx]
  dsimp only
  rw [if_neg (by simp [hlive, hsent, hslot, hround, hserial]), ← boundPlain, hplain]
  rfl

end

/-- No other live session has the tag. -/
def tagIsOwn (d : Dev) (n : Nat) (x : Session) : Prop :=
  ∀ j y, d.session j = some y → j ≠ n → ¬(y.live = true ∧ y.tag = x.tag)

theorem tfind_of_mem_nodup {α : Type} {t : Tbl α} (h : (t.map (·.1)).Nodup) {p : Nat × α} (hp : p ∈ t) :
    tfind t p.1 = some p.2 := by
  induction t with
  | nil => exact absurd hp List.not_mem_nil
  | cons q r ih =>
    rw [List.map_cons, List.nodup_cons] at h
    obtain rfl | hr := List.mem_cons.mp hp
    · exact if_pos rfl
    · exact (if_neg fun hq : q.1 = p.1 => h.1 (hq ▸ List.mem_map_of_mem hr)).trans (ih h.2 hr)

/-- A session as SH_BIND leaves it, before the device binds too. -/
def boundSession (x : Session) (ep : Endpoint) : Session := { x with live := true, ep := ep, accepted := [0] }

theorem bindSession_eq {d : Dev} {n : Nat} {x : Session} (ep : Endpoint) (hown : tagIsOwn d n x)
    (hkeys : (d.sterling.sessions.map (·.1)).Nodup) : d.bindSession n x ep =
      ((d.putSession n (boundSession x ep)).putSession n { boundSession x ep with seqOut := x.seqOut + 1 }).sendShare ep 3
        (sealedMsg n x 3 0 0 0 x.transcript) := by
  have holds : (d.sterling.sessions.filter fun p => p.1 ≠ n && p.2.live && p.2.tag = x.tag) = [] := by
    refine List.filter_eq_nil_iff.mpr fun p hp hold => ?_
    simp only [ne_eq, decide_not, Bool.and_eq_true, Bool.not_eq_true', decide_eq_false_iff_not, decide_eq_true_eq] at hold
    obtain ⟨⟨hn, hlive⟩, htag⟩ := hold
    exact hown p.1 p.2 (tfind_of_mem_nodup hkeys hp) hn ⟨hlive, htag⟩
  unfold Dev.bindSession
  rw [holds]
  exact congrArg Prod.fst (shareSend_sealed (d.putSession n (boundSession x ep)) (session_putSession_same d n _) 3 0 0 0
    x.transcript (.inl rfl))

/-! ### O59 -/

/-- Settles O59: each row's effect is one operation on the table of sessions, and at most one message. -/
theorem shareSessions : Obligations.ShareSessions := by
  intro s hphase hopen
  refine ⟨fun ep body => ⟨fun hlen => ?_, fun hlen hkey => ?_, fun n hlen hkey hn hfree hlow => ?_⟩,
    fun n x hx hlive => ⟨fun hunsent hmade => ?_, fun hsent => ?_⟩, fun m x hx hlive hsent => ⟨fun hfield => ?_,
      fun hslot hround hserial => ⟨fun hkind hver hseq hlen hplain hown hkeys => ?_, fun hnone => ?_,
        fun p hkind hver hseq hplain hbad => ?_⟩⟩⟩
  · exact congrArg (fun d => Host.Outcome.next (s.withDev d)) (helloIn_of_length hphase ep hlen)
  · refine ⟨_, congrArg (fun d => Host.Outcome.next (s.withDev d)) (helloIn_of_badPoint hphase ep hlen hkey), ?_, ?_⟩
    · exact (onlyPort_sendShare ..).sterling.trans (onlyPort_consume s.dev ep 2 1).sterling
    · exact (sameSending_consume s.dev ep 2 1).sentOne (sentOne_sendShare ((sameSending_consume s.dev ep 2 1).linkOpen hopen) ..)
  · have hport := onlyPort_consume s.dev ep 2 1
    obtain ⟨x, hx, hlive, hep, hhello, hrep, htag, hwork, hother⟩ := createSession_spec (s.dev.consume ep 2 1) ep hlen n
    exact ⟨_, x, congrArg (fun d => Host.Outcome.next (s.withDev d)) (helloIn_of_free hphase ep hlen hkey hn hfree hlow), hx,
      hlive, hep, hhello, hrep, htag, hwork.trans (by rw [hport]),
      fun j hj => (hother j hj).trans (session_congr hport.sterling j)⟩
  · refine ⟨_, congrArg (fun d => Host.Outcome.next (s.withDev d)) (sendReport_eq hx hlive hunsent hmade), ?_, ?_⟩
    · exact (session_congr (onlyPort_sendShare ..).sterling n).trans (session_putSession_same ..)
    · exact sentOne_sendShare (d := s.dev.putSession n { x with reported := true }) hopen ..
  · exact ⟨_, congrArg (fun d => Host.Outcome.next (s.withDev d)) (bindTimeout_eq hx hlive hsent),
      session_withoutSession s.dev n, fun j hj => session_withoutSession_other s.dev hj, rfl⟩
  · exact congrArg (fun d => Host.Outcome.next (s.withDev d)) (bindIn_of_misplaced hphase hx hfield)
  · have hport := onlyPort_consume s.dev m.ep 2 3
    have hbind : s.dev.bindIn m = _ := (bindIn_of_some hphase hx hlive hsent hslot hround hserial
      ((if_pos ⟨hkind, hver, hseq⟩).trans hplain)).trans ((if_pos ⟨rfl, hlen⟩).trans (bindSession_eq m.ep
        (fun j y hy => hown j y ((session_congr hport.sterling j).symm.trans hy)) (by rwa [hport.sterling])))
    refine ⟨_, congrArg (fun d => Host.Outcome.next (s.withDev d)) hbind, ?_, ?_⟩
    · exact (session_congr (onlyPort_sendShare ..).sterling _).trans (session_putSession_same ..)
    · have hsame := (sameSending_consume s.dev m.ep 2 3).trans (sameSending_of_port
        (d := s.dev.consume m.ep 2 3) (e := ((s.dev.consume m.ep 2 3).putSession m.session.toNat
          (boundSession x m.ep)).putSession m.session.toNat { boundSession x m.ep with seqOut := x.seqOut + 1 }) rfl rfl)
      exact hsame.sentOne (sentOne_sendShare (hsame.linkOpen hopen) ..)
  · have hplain : boundPlain m x = none := by
      unfold boundPlain
      split
      · exact hnone.resolve_left (not_not.mpr ‹_›)
      · rfl
    refine ⟨_, congrArg (fun d => Host.Outcome.next (s.withDev d))
      (bindIn_of_none hphase hx hlive hsent hslot hround hserial hplain), session_withoutSession _ _, ?_⟩
    exact (reg_bump _ 1 (by decide) (by decide)).trans ((if_pos ⟨rfl, rfl⟩).trans
      (counted_congr ((onlyPort_consume s.dev m.ep 2 3).reg 0x5800 9) 1))
  · refine ⟨_, congrArg (fun d => Host.Outcome.next (s.withDev d))
      ((bindIn_of_some hphase hx hlive hsent hslot hround hserial ((if_pos ⟨hkind, hver, hseq⟩).trans hplain)).trans
        (if_neg fun h => hbad.elim (· h.1) (· h.2))), session_withoutSession _ _⟩

end Sys2Proof.Proofs
end

section
/-! SUPPORT. Share exchanges: how they fail, close and go on (07 R200, R210-R212, R221-R232). -/

namespace Sys2Proof.Proofs

open Sys2Proof.Machine Sys2Proof.Terms

theorem mem_of_tfind {α : Type} {t : Tbl α} {k : Nat} {v : α} (h : tfind t k = some v) : (k, v) ∈ t := by
  induction t with
  | nil => exact nomatch h
  | cons p r ih =>
    obtain ⟨j, w⟩ := p
    by_cases hj : j = k
    · obtain rfl := Option.some.inj ((if_pos hj).symm.trans h)
      exact hj ▸ List.mem_cons_self
    · exact List.mem_cons_of_mem _ (ih ((if_neg hj).symm.trans h))

theorem Accessed.exchange {d e : Dev} (h : Accessed d e) (k : Nat) : e.exchange k = d.exchange k :=
  exchange_congr (by rw [h.frame]) (by rw [h.frame]) k

/-! ### An exchange that fails -/

/-- An exchange as its failing leaves it. -/
def goneExchange (y : Exchange) (viaPeer : Bool) : Exchange :=
  { y with state := if viaPeer then .failedPeer else .failedOther }

theorem failed_gone (y : Exchange) (viaPeer : Bool) : (goneExchange y viaPeer).state.failed = true := by
  cases viaPeer <;> rfl

section
variable {d : Dev} {k : Nat} {y : Exchange} (hy : d.exchange k = some y) (viaPeer : Bool) (kind : Nat)
include hy

theorem failExchange_of_failed (h : y.state.failed = true) : d.failExchange k viaPeer kind = d := by
  unfold Dev.failExchange
  rw [hy]
  exact if_pos h

/-- An exchange fails, is counted, and through the key holder an SH_ABORT is sent and a fault raised. -/
theorem failExchange_frame (h : y.state.failed = false) : ∃ g,
    ShareSent ((d.putExchange k (goneExchange y viaPeer)).bump 0x5800 8 1) g ∧ Accessed g (d.failExchange k viaPeer kind) ∧
      (d.failExchange k viaPeer kind).mem = g.mem := by
  unfold Dev.failExchange
  rw [hy]
  dsimp only
  rw [if_neg (by simp [h])]
  cases viaPeer with
  | false => exact ⟨_, OnlyPort.refl.shareSent, Accessed.refl _, rfl⟩
  | true =>
    exact ⟨_, shareSent_shareSend ((d.putExchange k (goneExchange y true)).bump 0x5800 8 1) 0x1F k y.round y.serial.toNat [stPeerFail]
      y.session, accessed_faultUc .., Dev.faultUc_mem ..⟩

theorem exchange_failExchange (h : y.state.failed = false) :
    (d.failExchange k viaPeer kind).exchange k = some (goneExchange y viaPeer) := by
  obtain ⟨g, hsent, hacc, -⟩ := failExchange_frame hy viaPeer kind h
  exact (hacc.exchange k).trans ((hsent.exchange k).trans (exchange_putExchange_same d k _))

theorem reg_failExchange (h : y.state.failed = false) :
    (d.failExchange k viaPeer kind).reg 0x5800 8 = counted d 0x5800 8 1 := by
  obtain ⟨g, hsent, hacc, -⟩ := failExchange_frame hy viaPeer kind h
  calc _ = g.reg 0x5800 8 := hacc.regs _ _ (by decide) (by unfold accessEntry; omega)
    _ = _ := reg_congr hsent.regs _ _
    _ = _ := (reg_bump _ 1 (by decide) (by decide)).trans (if_pos ⟨rfl, rfl⟩)

end

section
variable (d : Dev) (k : Nat) (viaPeer : Bool) (kind : Nat)

/-- Failing an exchange changes that exchange, or nothing. -/
theorem failExchange_cases (P : Dev → Prop) (hsame : P d)
    (hfails : ∀ y g, d.exchange k = some y → ShareSent ((d.putExchange k (goneExchange y viaPeer)).bump 0x5800 8 1) g →
      Accessed g (d.failExchange k viaPeer kind) → (d.failExchange k viaPeer kind).mem = g.mem →
      P (d.failExchange k viaPeer kind)) : P (d.failExchange k viaPeer kind) := by
  cases hy : d.exchange k with
  | none =>
    unfold Dev.failExchange
    rwa [hy]
  | some y =>
    cases hfailed : y.state.failed with
    | true => rwa [failExchange_of_failed hy viaPeer kind hfailed]
    | false =>
      obtain ⟨g, hsent, hacc, hmem⟩ := failExchange_frame hy viaPeer kind hfailed
      exact hfails y g hy hsent hacc hmem

theorem mem_failExchange : (d.failExchange k viaPeer kind).mem = d.mem :=
  failExchange_cases d k viaPeer kind (fun e => e.mem = d.mem) rfl fun _ _ _ hsent _ hmem => hmem.trans hsent.mem

theorem exchange_failExchange_other {j : Nat} (hj : j ≠ k) : (d.failExchange k viaPeer kind).exchange j = d.exchange j :=
  failExchange_cases d k viaPeer kind (fun e => e.exchange j = d.exchange j) rfl fun _ _ _ hsent hacc _ =>
    (hacc.exchange j).trans ((hsent.exchange j).trans (exchange_putExchange_other d hj _))

end

/-! ### A session that closes -/

section
variable (viaPeer : Bool) (kind : Nat)

theorem exchange_foldl_of_failed {d : Dev} {k : Nat} {y : Exchange} (l : List Nat) (hy : d.exchange k = some y)
    (h : y.state.failed = true) : (l.foldl (fun d j => d.failExchange j viaPeer kind) d).exchange k = some y := by
  induction l generalizing d with
  | nil => exact hy
  | cons j l ih =>
    refine ih ?_
    by_cases hj : k = j
    · exact hj ▸ (congrArg (·.exchange k) (failExchange_of_failed hy viaPeer kind h)).trans hy
    · exact (exchange_failExchange_other d j viaPeer kind hj).trans hy

theorem exchange_foldl_of_mem {d : Dev} {k : Nat} {y : Exchange} {l : List Nat} (hk : k ∈ l) (hy : d.exchange k = some y)
    (h : y.state.failed = false) :
    (l.foldl (fun d j => d.failExchange j viaPeer kind) d).exchange k = some (goneExchange y viaPeer) := by
  induction l generalizing d with
  | nil => exact absurd hk List.not_mem_nil
  | cons j l ih =>
    by_cases hj : k = j
    · subst hj
      exact exchange_foldl_of_failed viaPeer kind l (exchange_failExchange hy viaPeer kind h) (failed_gone y viaPeer)
    · exact ih ((List.mem_cons.mp hk).resolve_left hj) ((exchange_failExchange_other d j viaPeer kind hj).trans hy)

variable (d : Dev) (n : Nat)

/-- Fail every exchange of a session. -/
def exchangesFailed : Dev :=
  ((d.exchanges.filter fun e => e.2.session = n).map (·.1)).foldl (fun d k => d.failExchange k viaPeer kind) d

theorem closeSession_eq : d.closeSession n viaPeer kind = withoutSession (exchangesFailed viaPeer kind d n) n := rfl

theorem session_closeSession : (d.closeSession n viaPeer kind).session n = none := session_withoutSession _ n

theorem mem_closeSession : (d.closeSession n viaPeer kind).mem = d.mem :=
  foldl_rel (R := fun d e : Dev => e.mem = d.mem) (fun _ => rfl) (fun _ _ _ h h' => h'.trans h)
    (fun d k _ => mem_failExchange d k viaPeer kind) d

theorem exchange_closeSession {d : Dev} {k : Nat} {y : Exchange} (hy : d.exchange k = some y)
    (h : y.state.failed = false) : (d.closeSession y.session viaPeer kind).exchange k = some (goneExchange y viaPeer) := by
  refine exchange_foldl_of_mem viaPeer kind ?_ hy h
  obtain ⟨o, ho, rfl⟩ := Option.map_eq_some_iff.mp hy
  exact List.mem_map.mpr ⟨_, List.mem_filter.mpr ⟨List.mem_map.mpr ⟨_, mem_of_tfind ho, rfl⟩, decide_eq_true rfl⟩, rfl⟩

end

/-! ### The spill, and the next message -/

section
variable {d : Dev} {slot : Nat} {y : Exchange} (hy : d.exchange slot = some y) (kind : Nat)
include hy

/-- The spilled blocks hold and nothing but what an access touches has changed, or one does not and the session closes. -/
theorem spillCheck_cases : (d.spillCheck slot kind).2 = true ∧ Accessed d (d.spillCheck slot kind).1 ∨
    (d.spillCheck slot kind).2 = false ∧ ∃ g, Accessed d g ∧
      (d.spillCheck slot kind).1 = g.closeSession y.session false kind := by
  unfold Dev.spillCheck
  rw [hy]
  dsimp only
  generalize hfold : List.foldl _ _ _ = found
  have hacc : Accessed d found.1 := by
    rw [← hfold]
    refine foldl_rel (R := fun p q : Dev × Option Nat => Accessed p.1 q.1) (fun _ => Accessed.refl _)
      (fun _ _ _ => Accessed.trans) (fun p b _ => ?_) (d, none)
    split
    · exact Accessed.refl _
    · exact accessed_fetch ..
  split
  · exact .inl ⟨rfl, hacc⟩
  · exact .inr ⟨rfl, _, hacc.trans (accessed_faultUc ..), rfl⟩

theorem accessed_spillCheck (h : (d.spillCheck slot kind).2 = true) : Accessed d (d.spillCheck slot kind).1 := by
  obtain ⟨-, hacc⟩ | ⟨hlost, -⟩ := spillCheck_cases hy kind
  · exact hacc
  · exact nomatch h.symm.trans hlost

theorem nextMessage_of_error (h : (d.spillCheck slot kind).2 = true) {body : List Byte}
    (hrun : (d.spillCheck slot kind).1.runShare y = .error body) : d.nextMessage slot kind =
      (d.spillCheck slot kind).1.exchangeSend slot { y with state := .inRound, round := y.round + 1 } 0x12 (y.round + 1)
        body := by
  unfold Dev.nextMessage
  rw [show d.spillCheck slot kind = ((d.spillCheck slot kind).1, true) from Prod.ext rfl h]
  dsimp only
  rw [((accessed_spillCheck hy kind h).exchange slot).trans hy]
  dsimp only
  rw [hrun]

theorem nextMessage_of_ok (h : (d.spillCheck slot kind).2 = true) {z : List Nat}
    (hrun : (d.spillCheck slot kind).1.runShare y = .ok z) : d.nextMessage slot kind =
      { (d.spillCheck slot kind).1 with draw := (d.spillCheck slot kind).1.draw + z.length }.exchangeSend slot
        { y with state := .awaitingIn } 0x14 0
        ((finalValues (ExRec.parse y.record) y.sigma z).flatMap (leBytes 8)) := by
  unfold Dev.nextMessage
  rw [show d.spillCheck slot kind = ((d.spillCheck slot kind).1, true) from Prod.ext rfl h]
  dsimp only
  rw [((accessed_spillCheck hy kind h).exchange slot).trans hy]
  dsimp only
  rw [hrun]

end

theorem nextMessage_of_lost {d : Dev} {slot kind : Nat} (h : (d.spillCheck slot kind).2 = false) :
    d.nextMessage slot kind = (d.spillCheck slot kind).1 := by
  unfold Dev.nextMessage
  rw [show d.spillCheck slot kind = ((d.spillCheck slot kind).1, false) from Prod.ext rfl h]

theorem exchange_exchangeSend (d : Dev) (slot : Nat) (y : Exchange) (kind round : Nat) (body : List Byte) : ∃ msg,
    (d.exchangeSend slot y kind round body).exchange slot =
      some { y with lastMsg := msg, lastKind := BitVec.ofNat 8 kind, resends := 0 } :=
  ⟨_, exchange_putExchange_same ..⟩

/-- An exchange that is not failed goes on after a message of it is taken. -/
theorem carriesOn_nextMessage {s : State} {i : Instr} {d : Dev} {slot kind : Nat} {y : Exchange}
    (hexec : exec i s = .next (s.withDev (d.nextMessage slot kind))) (hy : d.exchange slot = some y)
    (hstate : y.state.failed = false) : carriesOn s i d slot kind y := by
  refine ⟨fun hkept => ?_, fun hlost => ?_⟩
  · cases hrun : (d.spillCheck slot kind).1.runShare y with
    | error body =>
      obtain ⟨msg, hz⟩ := exchange_exchangeSend (d.spillCheck slot kind).1 slot
        { y with state := .inRound, round := y.round + 1 } 0x12 (y.round + 1) body
      exact ⟨_, _, hexec, (congrArg (·.exchange slot) (nextMessage_of_error hy kind hkept hrun)).trans hz, rfl,
        fun _ _ => ⟨rfl, rfl, rfl⟩, fun _ h => nomatch h⟩
    | ok z =>
      obtain ⟨msg, hz⟩ := exchange_exchangeSend
        { (d.spillCheck slot kind).1 with draw := (d.spillCheck slot kind).1.draw + z.length } slot
        { y with state := .awaitingIn } 0x14 0 ((finalValues (ExRec.parse y.record) y.sigma z).flatMap (leBytes 8))
      exact ⟨_, _, hexec, (congrArg (·.exchange slot) (nextMessage_of_ok hy kind hkept hrun)).trans hz, rfl,
        fun _ h => (nomatch h), fun _ _ => ⟨rfl, rfl⟩⟩
  · obtain ⟨hkept, -⟩ | ⟨-, g, hacc, hclosed⟩ := spillCheck_cases hy kind
    · exact nomatch hkept.symm.trans hlost
    · have hnext := (nextMessage_of_lost hlost).trans hclosed
      exact ⟨_, _, hexec, (congrArg (·.exchange slot) hnext).trans
        (exchange_closeSession false kind ((hacc.exchange slot).trans hy) hstate), rfl,
        (congrArg (·.session y.session) hnext).trans (session_closeSession false kind g y.session)⟩

end Sys2Proof.Proofs
end

section
/-! SUPPORT. The messages and timers of share exchanges (07 R203, R221-R232). -/

namespace Sys2Proof.Proofs

open Sys2Proof.Machine Sys2Proof.Terms

/-! ### A message of a live session -/

section
variable {d : Dev} {m : ShareMsg} {x : Session} {awaited : Bool} (F : Dev → List Byte → Dev) (hphase : d.phase = .service)
  (hx : d.session m.session.toNat = some x) (hlive : x.live = true)
include hphase hx hlive

theorem shareTake_of_dropped (h : ¬(m.seq ∉ x.accepted ∧ awaited = true) ∨ plainOf m x = none) :
    d.shareTake m awaited F = (d.consume m.ep 2 m.kind).bump 0x5800 9 1 := by
  unfold Dev.shareTake
  rw [if_neg (not_not.mpr hphase)]
  dsimp only
  rw [session_congr (onlyPort_consume d m.ep 2 m.kind).sterling, hx]
  dsimp only
  split
  · rfl
  · rename_i htaken
    have hplain : plainOf m x = none := h.resolve_left fun hn => hn (by
      simp only [hlive, Bool.not_true, Bool.false_eq_true, false_or, not_or, Bool.not_eq_true, Bool.not_eq_false',
        List.contains_eq_mem, decide_eq_false_iff_not] at htaken
      exact htaken)
    rw [hplain]
    rfl

theorem shareTake_of_taken (hseq : m.seq ∉ x.accepted) (hawaited : awaited = true) {p : List Byte}
    (hplain : plainOf m x = some p) : d.shareTake m awaited F =
      if m.version = 1 then F (shareTaken d m x) p
      else if m.kind = 0x20 then (shareTaken d m x).shareDrop
      else (shareTaken d m x).failExchange m.slot.toNat true m.kind.toNat := by
  unfold Dev.shareTake
  rw [if_neg (not_not.mpr hphase)]
  dsimp only
  rw [session_congr (onlyPort_consume d m.ep 2 m.kind).sterling, hx]
  dsimp only
  rw [if_neg (by simp [hlive, hawaited, hseq]), hplain]
  rfl

end

theorem shareSent_shareTaken (d : Dev) (m : ShareMsg) (x : Session) : ShareSent d (shareTaken d m x) :=
  (onlyPort_consume d m.ep 2 m.kind).shareSent.trans (shareSent_putSession ..)

theorem state_of_awaits {d : Dev} {m : ShareMsg} {inState : ExchState → Bool} (h : d.awaits m inState = true) {y : Exchange}
    (hy : d.exchange m.slot.toNat = some y) : inState y.state = true := by
  unfold Dev.awaits at h
  rw [hy] at h
  simp only [Bool.and_eq_true] at h
  exact h.1.2

/-- An exchange under way has not failed. -/
theorem failed_of_open {st : ExchState} (h : st.open_ = true) : st.failed = false := by
  cases st with
  | failedPeer => exact nomatch h
  | failedOther => exact nomatch h
  | _ => rfl

/-- Each row of an exchange's or session's messages takes its message where it is of its kind and awaited. -/
theorem exec_shareRow {s : State} {i : Instr} {m : ShareMsg} {kind : BitVec 8} {awaited : Bool} {x : Session}
    (hrow : shareRow s.dev i = some (m, kind, awaited)) (hx : s.dev.session m.session.toNat = some x) (hlive : x.live = true) :
    ∃ F, exec i s = .next (s.withDev (s.dev.shareTake m (m.kind = kind && awaited) F)) := by
  unfold shareRow at hrow
  split at hrow
  case h_1 => cases hrow; exact ⟨_, rfl⟩
  case h_2 => cases hrow; exact ⟨_, rfl⟩
  case h_3 => cases hrow; exact ⟨_, rfl⟩
  case h_4 =>
    cases hrow
    refine ⟨_, congrArg (fun d => Host.Outcome.next (s.withDev d)) ((if_neg fun h => ?_).trans rfl)⟩
    exact absurd h.2.1 (by simp [hx, hlive])
  case h_5 =>
    cases hrow
    exact ⟨_, by rw [← Bool.and_assoc, ← Bool.and_assoc]; rfl⟩
  case h_6 => exact nomatch hrow

/-- What is awaited is an exchange that has not failed, but for SH_CLOSE. -/
theorem shareRow_awaited {d : Dev} {i : Instr} {m : ShareMsg} {kind : BitVec 8} {awaited : Bool}
    (hrow : shareRow d i = some (m, kind, awaited)) (hawaited : awaited = true) (hi : i ≠ .shClose m) :
    kind ≠ 0x20 ∧ ∀ y, d.exchange m.slot.toNat = some y → y.state.failed = false := by
  unfold shareRow at hrow
  split at hrow
  case h_1 =>
    cases hrow
    exact ⟨by decide, fun y hy => failed_of_open (by rw [of_decide_eq_true (state_of_awaits hawaited hy)]; rfl)⟩
  case h_2 =>
    cases hrow
    exact ⟨by decide, fun y hy => failed_of_open (by rw [of_decide_eq_true (state_of_awaits hawaited hy)]; rfl)⟩
  case h_3 =>
    cases hrow
    exact ⟨by decide, fun y hy => failed_of_open (by rw [of_decide_eq_true (state_of_awaits hawaited hy)]; rfl)⟩
  case h_4 =>
    cases hrow
    exact ⟨by decide, fun y hy => failed_of_open (state_of_awaits hawaited hy)⟩
  case h_5 => cases hrow; exact absurd rfl hi
  case h_6 => exact nomatch hrow

/-! ### Parts -/

/-- SH_IN, once taken, whose part has not arrived before. -/
theorem partIn_spec (d : Dev) (m : ShareMsg) {y : Exchange} (arrived : Tbl (BitVec 16 × List Byte)) (hstate : y.state = .awaitingIn) :
    ∃ z, (if arrived.length = (ExRec.parse y.record).outParts then
        (d.putExchange m.slot.toNat { y with arrived := arrived, state := .complete }).bump 0x5800 7 1
      else d.putExchange m.slot.toNat { y with arrived := arrived, resends := 0 }).exchange m.slot.toNat = some z ∧
        z.arrived = arrived ∧ (z.state = .complete ↔ arrived.length = (ExRec.parse y.record).outParts) := by
  split
  · exact ⟨_, exchange_putExchange_same .., rfl, iff_of_true rfl ‹_›⟩
  · exact ⟨_, exchange_putExchange_same .., rfl, iff_of_false (fun h => nomatch hstate.symm.trans h) ‹_›⟩

/-! ### Each message, once taken -/

/-- A message that a live session takes. -/
structure Taken (d : Dev) (m : ShareMsg) (x : Session) (p : List Byte) : Prop where
  phase : d.phase = .service
  session : d.session m.session.toNat = some x
  live : x.live = true
  fresh : m.seq ∉ x.accepted
  plain : plainOf m x = some p
  version : m.version = 1

section
variable {d : Dev} {m : ShareMsg} {x : Session} {p : List Byte} (h : Taken d m x p)
include h

theorem Taken.shareTake {awaited : Bool} (hawaited : awaited = true) (F : Dev → List Byte → Dev) :
    d.shareTake m awaited F = F (shareTaken d m x) p :=
  (shareTake_of_taken F h.phase h.session h.live h.fresh hawaited h.plain).trans (if_pos h.version)

theorem Taken.ackIn (hkind : m.kind = 0x11) (hawaited : (d.awaits m fun s => s = .awaitingAck) = true) : d.ackIn m =
    if p ≠ [] ∨ m.bodyLen ≠ 0 then (shareTaken d m x).failExchange m.slot.toNat true 0x11
    else (shareTaken d m x).nextMessage m.slot.toNat 0x11 :=
  h.shareTake (by simp [hkind, hawaited]) _

theorem Taken.closeIn (hkind : m.kind = 0x20) (hslot : (m.slot = 0 && m.round = 0 && m.serial = 0) = true) :
    d.closeIn m = (shareTaken d m x).closeSession m.session.toNat true 0x20 :=
  h.shareTake (by rw [Bool.and_assoc, Bool.and_assoc, ← Bool.and_assoc (decide (m.slot = 0)), hslot]; simp [hkind]) _

theorem Taken.abortIn (hkind : m.kind = 0x1F) (hawaited : d.awaits m ExchState.open_ = true) :
    d.abortIn m = (shareTaken d m x).failExchange m.slot.toNat true 0x1F :=
  (if_neg fun hn => absurd hn.2.1 (by simp [h.session, h.live])).trans (h.shareTake (by simp [hkind, hawaited]) _)

theorem Taken.partIn (hkind : m.kind = 0x15) (hawaited : (d.awaits m fun s => s = .awaitingIn) = true) {y : Exchange}
    (hy : (shareTaken d m x).exchange m.slot.toNat = some y) (hlen : p.length = m.bodyLen.toNat) (hok : partOk y p = true)
    (hnew : tfind y.arrived (fld p 0 16) = none) :
    let arrived := tset y.arrived (fld p 0 16) (BitVec.ofNat 16 (fld p 32 16), p)
    d.partIn m = if arrived.length = (ExRec.parse y.record).outParts then
        ((shareTaken d m x).putExchange m.slot.toNat { y with arrived := arrived, state := .complete }).bump 0x5800 7 1
      else (shareTaken d m x).putExchange m.slot.toNat { y with arrived := arrived, resends := 0 } := by
  refine (h.shareTake (by simp [hkind, hawaited]) _).trans ?_
  dsimp only
  rw [hy]
  dsimp only
  rw [if_neg (by simp [hlen, hok]), hnew]
  rfl

theorem Taken.replyIn (hkind : m.kind = 0x13) (hawaited : (d.awaits m fun s => s = .inRound) = true) {y : Exchange}
    (hy : (shareTaken d m x).exchange m.slot.toNat = some y) (hlen : p.length = m.bodyLen.toNat)
    (hround : p.length = (shareTaken d m x).roundLength y) :
    d.replyIn m = ((shareTaken d m x).putExchange m.slot.toNat
      { y with transcriptIn := y.transcriptIn ++ [p] }).nextMessage m.slot.toNat 0x13 := by
  refine (h.shareTake (by simp [hkind, hawaited]) _).trans ?_
  rw [hy]
  exact if_neg fun hbad => hbad.elim (· hlen) (· hround)

end

/-! ### Timers -/

section
variable {d : Dev} {slot : Nat} {y : Exchange} (hy : d.exchange slot = some y)
include hy

theorem roundTimeout_of_resends {x : Session} (hreplay : d.replaying = false)
    (hstate : y.state = .awaitingAck ∨ y.state = .inRound ∨ y.state = .awaitingIn) (hleft : y.resends < d.reg 0x5800 4)
    (hx : d.session y.session = some x) : d.roundTimeout slot =
      (d.sendShare x.ep y.lastKind y.lastMsg).putExchange slot { y with resends := y.resends + 1 } := by
  unfold Dev.roundTimeout
  rw [hy]
  dsimp only
  rw [if_neg (by simp [hreplay, hstate]), if_pos hleft, hx]

theorem roundTimeout_of_spent (hreplay : d.replaying = false)
    (hstate : y.state = .awaitingAck ∨ y.state = .inRound ∨ y.state = .awaitingIn) (hspent : d.reg 0x5800 4 ≤ y.resends) :
    d.roundTimeout slot = d.failExchange slot true y.lastKind.toNat := by
  unfold Dev.roundTimeout
  rw [hy]
  dsimp only
  rw [if_neg (by simp [hreplay, hstate]), if_neg (Nat.not_lt.mpr hspent)]

theorem deadlineTick_of_due (hreplay : d.replaying = false) (hstate : y.state.open_ = true) (hdue : y.deadline ≤ d.tickNumber) :
    d.deadlineTick slot = d.failExchange slot true y.lastKind.toNat := by
  unfold Dev.deadlineTick
  rw [hy]
  exact if_neg (by simp [hreplay, hstate, hdue])

theorem slotRelease_of_due (hdue : y.deadline + 16 ≤ d.tickNumber) : d.slotRelease slot = d.releaseSlot slot := by
  unfold Dev.slotRelease
  rw [hy]
  exact if_pos hdue

end

theorem exchange_releaseSlot (d : Dev) (slot : Nat) : (d.releaseSlot slot).exchange slot = none :=
  Option.map_eq_none_iff.mpr (tfind_tdel ..)

theorem exchange_releaseSlot_other (d : Dev) {slot j : Nat} (h : j ≠ slot) : (d.releaseSlot slot).exchange j = d.exchange j := by
  change (tfind (tdel d.exchOpen slot) j).map (fun o =>
    ({ tget (tdel d.sterling.exchanges slot) j ExchSecret.lost, o with } : Exchange)) = _
  rw [tfind_tdel_other _ h, tget_tdel_other _ h, Dev.exchange]

/-! ### O60 -/

section
variable {s : State} {m : ShareMsg} {x : Session}

/-- SH_IN of a part that has not arrived before. -/
theorem exec_shIn {p : List Byte} {y : Exchange} (h : Taken s.dev m x p) (hkind : m.kind = 0x15)
    (hawaited : (s.dev.awaits m fun s => s = .awaitingIn) = true) (hy : s.dev.exchange m.slot.toNat = some y)
    (hlen : p.length = m.bodyLen.toNat) (hok : partOk y p = true) (hnew : tfind y.arrived (fld p 0 16) = none) :
    ∃ t z, exec (.shIn m) s = .next t ∧ t.dev.exchange m.slot.toNat = some z ∧
      z.arrived = tset y.arrived (fld p 0 16) (BitVec.ofNat 16 (fld p 32 16), p) ∧
      (z.state = .complete ↔ (tset y.arrived (fld p 0 16) (BitVec.ofNat 16 (fld p 32 16), p)).length =
        (ExRec.parse y.record).outParts) := by
  have hpart := h.partIn hkind hawaited (((shareSent_shareTaken s.dev m x).exchange _).trans hy) hlen hok hnew
  obtain ⟨z, hz, harrived, hstate⟩ := partIn_spec (shareTaken s.dev m x) m
    (tset y.arrived (fld p 0 16) (BitVec.ofNat 16 (fld p 32 16), p)) (of_decide_eq_true (state_of_awaits hawaited hy))
  exact ⟨_, z, congrArg (fun d => Host.Outcome.next (s.withDev d)) hpart, hz, harrived, hstate⟩

end

/-- Settles O60: each message, once taken, is one operation on its exchange or session, and so is each timer. -/
theorem shareExchanges : Obligations.ShareExchanges := by
  refine ⟨fun s i m kind awaited x hphase hrow hx hlive => ⟨fun hdrop => ?_, fun p hkind hfresh hawaited hplain => ?_⟩,
    fun s slot y hy => ⟨fun x hreplay hstate => ⟨fun hleft hx hopen => ?_, fun hspent => ?_⟩,
      fun hreplay hstate hdue => ?_, fun hdue => ?_⟩⟩
  · obtain ⟨F, hexec⟩ := exec_shareRow hrow hx hlive
    refine hexec.trans (congrArg (fun d => Host.Outcome.next (s.withDev d)) (shareTake_of_dropped F hphase hx hlive
      (hdrop.imp_left fun hn ht => hn ?_)))
    obtain ⟨hfresh, hawaited⟩ := ht
    obtain ⟨hkind, hawaited⟩ := (Bool.and_eq_true ..).mp hawaited
    exact ⟨of_decide_eq_true hkind, hfresh, hawaited⟩
  · have hsent := shareSent_shareTaken s.dev m x
    have htake : ∀ hver : m.version = 1, Taken s.dev m x p := fun hver => ⟨hphase, hx, hlive, hfresh, hplain, hver⟩
    obtain ⟨F, hexec⟩ := exec_shareRow hrow hx hlive
    have hrun := shareTake_of_taken (awaited := m.kind = kind && awaited) F hphase hx hlive hfresh
      (by simp [hkind, hawaited]) hplain
    refine ⟨fun hver hi => ?_, fun hver hi y hy => ?_, fun hver => ⟨fun hi => ?_, fun y hy => ⟨fun hi => ?_,
      fun hi hlen hok hnew => ?_, fun hi hbody => ?_, fun hi hp hbody => ?_, fun hi hlen hround => ?_⟩⟩⟩
    · subst hi
      cases hrow
      rw [if_neg hver, if_pos hkind] at hrun
      exact hexec.trans (congrArg (fun d => Host.Outcome.next (s.withDev d)) hrun)
    · obtain ⟨hk, hstate⟩ := shareRow_awaited hrow hawaited hi
      rw [if_neg hver, if_neg (hkind ▸ hk)] at hrun
      have hy' := (hsent.exchange m.slot.toNat).trans hy
      exact ⟨_, hexec.trans (congrArg (fun d => Host.Outcome.next (s.withDev d)) hrun),
        exchange_failExchange hy' true m.kind.toNat (hstate y hy), (reg_failExchange hy' true m.kind.toNat (hstate y hy)).trans
          (counted_congr (reg_congr hsent.regs _ _) 1)⟩
    · subst hi
      cases hrow
      exact ⟨_, congrArg (fun d => Host.Outcome.next (s.withDev d)) ((htake hver).closeIn hkind hawaited),
        session_closeSession .., (mem_closeSession ..).trans hsent.mem⟩
    · subst hi
      cases hrow
      have hy' := (hsent.exchange m.slot.toNat).trans hy
      have hstate := failed_of_open (state_of_awaits hawaited hy)
      exact ⟨_, congrArg (fun d => Host.Outcome.next (s.withDev d)) ((htake hver).abortIn hkind hawaited),
        exchange_failExchange hy' true 0x1F hstate, (reg_failExchange hy' true 0x1F hstate).trans
          (counted_congr (reg_congr hsent.regs _ _) 1)⟩
    · subst hi
      cases hrow
      exact exec_shIn (htake hver) hkind hawaited hy hlen hok hnew
    · subst hi
      have hstate := (shareRow_awaited hrow hawaited (by simp)).2 y hy
      cases hrow
      exact ⟨_, congrArg (fun d => Host.Outcome.next (s.withDev d)) (((htake hver).ackIn hkind hawaited).trans (if_pos hbody)),
        exchange_failExchange ((hsent.exchange _).trans hy) true 0x11 hstate⟩
    · subst hi
      have hstate := (shareRow_awaited hrow hawaited (by simp)).2 y hy
      cases hrow
      exact carriesOn_nextMessage (congrArg (fun d => Host.Outcome.next (s.withDev d))
        (((htake hver).ackIn hkind hawaited).trans (if_neg fun h => h.elim (· hp) (· hbody))))
        ((hsent.exchange _).trans hy) hstate
    · subst hi
      have hstate := (shareRow_awaited hrow hawaited (by simp)).2 y hy
      cases hrow
      exact carriesOn_nextMessage (congrArg (fun d => Host.Outcome.next (s.withDev d))
        ((htake hver).replyIn hkind hawaited ((hsent.exchange _).trans hy) hlen hround))
        (exchange_putExchange_same ..) hstate
  · refine ⟨_, congrArg (fun d => Host.Outcome.next (s.withDev d)) (roundTimeout_of_resends hy hreplay hstate hleft hx),
      exchange_putExchange_same .., ?_⟩
    exact sentOne_of_sent (e := s.dev.sendShare x.ep y.lastKind y.lastMsg) rfl (sentOne_sendShare hopen ..)
  · exact ⟨_, congrArg (fun d => Host.Outcome.next (s.withDev d)) (roundTimeout_of_spent hy hreplay hstate hspent),
      exchange_failExchange hy true y.lastKind.toNat (by obtain h | h | h := hstate <;> rw [h] <;> rfl)⟩
  · have hfail := failed_of_open hstate
    exact ⟨_, congrArg (fun d => Host.Outcome.next (s.withDev d)) (deadlineTick_of_due hy hreplay hstate hdue),
      exchange_failExchange hy true y.lastKind.toNat hfail, reg_failExchange hy true y.lastKind.toNat hfail⟩
  · exact ⟨_, congrArg (fun d => Host.Outcome.next (s.withDev d)) (slotRelease_of_due hy hdue), exchange_releaseSlot s.dev slot,
      fun j hj => exchange_releaseSlot_other s.dev hj, rfl⟩

end Sys2Proof.Proofs
end

section
/-! SUPPORT. A job of a cluster number beyond the device's clusters: its count is the entry of another index, which is narrower
than a count (12 R384). -/

namespace Sys2Proof.Proofs

open Sys2Proof.Machine Sys2Proof.Terms

/-- A MAP that has passed its checks, with no rows left to write and its record at address 0. -/
def emptyJob : VeRun := VeRun.of 0 [] 0

/-- A device that runs the job in cluster 9216, whose JOBS_DONE would be the 16-bit entry 3 of 0x5800, at its largest value. -/
def strayJob : Dev := (Dev.fresh.setCluster 9216 { Cluster.fresh with veRun := some emptyJob }).setReg 0x5800 3 65535

theorem exec_veJobDone (c : Nat) (s : State) : exec (.veJobDone c) s = .next (s.withDev (s.dev.jobDone c)) := rfl

theorem strayJob_count : (strayJob.jobDone 9216).reg 0x5800 3 = 65535 := by decide +kernel

theorem strayJob_mayWrite : strayJob.problemIn (.vector 9216 0) .write 0 64 = none := by decide

/-- Refutes O37: the statement holds a count of 64 bits at every cluster number, but at 9216 the entry that VE_JOB_DONE counts in
has 16 bits, and stays at 65535. -/
theorem not_vectorJobs : ¬ Obligations.VectorJobs := by
  rintro ⟨-, hdone⟩
  obtain ⟨t, hexec, -, -, hcount, -⟩ := hdone { State.reset with dev := strayJob } 9216 emptyJob rfl rfl (by decide)
    (fun b hb => absurd hb List.not_mem_nil) strayJob_mayWrite (fun h => absurd h (by decide))
  have hu := Host.Outcome.next.inj ((exec_veJobDone 9216 { State.reset with dev := strayJob }).symm.trans hexec)
  have hstays : t.dev.reg 0x5800 3 = 65535 := hu ▸ strayJob_count
  have hgrows : t.dev.reg 0x5800 3 = 65536 := (hcount (.inl rfl)).trans (by decide)
  exact absurd (hstays.symm.trans hgrows) (by decide)

end Sys2Proof.Proofs
end

section
/-! SUPPORT. What a command of an update unit leaves of the device while it runs (14 R424, R427). -/

namespace Sys2Proof.Proofs

open Sys2Proof.Machine Sys2Proof.Terms

/-- A device that a command has run on: it may differ in its stored data, the free values drawn, its registers and faults, and
in what the tick keeps of scale records and of the frame. -/
def CommandRun (d e : Dev) : Prop :=
  e = { d with draw := e.draw, mem := e.mem, regs := e.regs, tick := e.tick,
               faults := { d.faults with raised := e.faults.raised }, owedWrites := e.owedWrites }

theorem CommandRun.refl (d : Dev) : CommandRun d d := rfl

theorem CommandRun.trans {a b c : Dev} (h : CommandRun a b) (h' : CommandRun b c) : CommandRun a c := by
  rw [CommandRun, h', h]

theorem CommandRun.cores {d e : Dev} (h : CommandRun d e) : e.cores = d.cores := by rw [h]

theorem CommandRun.clusters {d e : Dev} (h : CommandRun d e) : e.clusters = d.clusters := by rw [h]

theorem CommandRun.updUnit {d e : Dev} (h : CommandRun d e) (m : Nat) : e.updUnit m = d.updUnit m := by rw [h]; rfl

theorem Accessed.commandRun {d e : Dev} (h : Accessed d e) : CommandRun d e := by
  rw [CommandRun, h.frame]

theorem commandRun_foldl {α : Type} {f : Dev → α → Dev} {l : List α} (hf : ∀ d, ∀ x ∈ l, CommandRun d (f d x)) (d : Dev) :
    CommandRun d (l.foldl f d) :=
  foldl_rel (R := CommandRun) .refl (fun _ _ _ => .trans) hf d

/-- The same of a fold that carries its device in a larger value. -/
theorem commandRun_foldl_of {α β : Type} (dev : β → Dev) {f : β → α → β} {l : List α}
    (hf : ∀ b, ∀ x ∈ l, CommandRun (dev b) (dev (f b x))) (b : β) : CommandRun (dev b) (dev (l.foldl f b)) :=
  foldl_rel (R := fun p q => CommandRun (dev p) (dev q)) (fun p => .refl (dev p)) (fun _ _ _ => .trans) hf b

section
variable (d : Dev)

theorem commandRun_modTick (f : Tick → Tick) : CommandRun d (d.modTick f) := rfl

theorem commandRun_modFrame (f : FrameRun → FrameRun) : CommandRun d (d.modFrame f) := rfl

theorem commandRun_setReg (i k v : Nat) : CommandRun d (d.setReg i k v) := rfl

theorem commandRun_bump (i k n : Nat) : CommandRun d (d.bump i k n) := rfl

theorem commandRun_fetch (blk : Option Block) (a n : Nat) : CommandRun d (d.fetch blk a n).1 := (accessed_fetch ..).commandRun

theorem commandRun_wr (a : Nat) (bs : List Byte) : CommandRun d (d.wr a bs) := rfl

theorem commandRun_withMem (m : Memory) : CommandRun d { d with mem := m } := rfl

theorem commandRun_fetchPieces (ps : List (Nat × Nat)) : CommandRun d (d.fetchPieces ps).1 :=
  commandRun_foldl_of (fun x : Dev × List (List Byte) × Bool => x.1) (fun _ _ _ => commandRun_fetch ..) (d, [], false)

theorem commandRun_markedBlocks (blk : Option Block) (r : Requester) (t : Tensor) : CommandRun d (d.markedBlocks blk r t).1 := by
  unfold Dev.markedBlocks
  split
  · exact .refl d
  · refine commandRun_foldl_of (fun x : Dev × List Nat => x.1) (fun x p _ => ?_) (d, [])
    dsimp only
    split
    · exact (accessed_noteProblem ..).commandRun
    · exact commandRun_fetch ..

/-! ### Rows and matrices -/

theorem commandRun_readRow (t : Tensor) (idx : List Nat) : CommandRun d (d.readRow t idx).1 := by
  have hrow := commandRun_fetch d none (t.elemAddr t.base 0 0 idx) t.rb
  by_cases hbs : t.bs = true
  · have h := hrow.trans (commandRun_fetch _ none (t.scaleAddr t.base 0 0 idx) t.nb0)
    simpa only [Dev.readRow, hbs, if_true] using h
  · simpa only [Dev.readRow, hbs, Bool.false_eq_true, if_false] using hrow

theorem commandRun_loadRow (r : UpdRec) (t : Tensor) (idx : List Nat) : CommandRun d (d.loadRow r t idx).1 :=
  commandRun_readRow ..

end

section
variable (w : UpdWork) (r : UpdRec)

theorem commandRun_put (ps : Pieces) : CommandRun w.dev (w.put ps).dev := commandRun_foldl (fun _ _ _ => commandRun_wr ..) w.dev

theorem commandRun_load (t : Tensor) (idx : List Nat) : CommandRun w.dev (w.load r t idx).1.dev :=
  commandRun_loadRow w.dev r t idx

theorem commandRun_loadOpt (t : Option Tensor) (idx : List Nat) : CommandRun w.dev (w.loadOpt r t idx).1.dev := by
  cases t with
  | none => exact .refl _
  | some t => exact commandRun_load w r t idx

theorem commandRun_store (t : Option Tensor) (idx : List Nat) (xs : List FVal) : CommandRun w.dev (w.store t idx xs).dev := by
  cases t with
  | none => exact .refl _
  | some t => exact commandRun_put w _

theorem commandRun_loadMat (t : Tensor) : CommandRun w.dev (w.loadMat r t).1.dev :=
  commandRun_foldl_of (fun x : UpdWork × Mat => x.1.dev) (fun _ _ _ => commandRun_load ..) (w, [])

theorem commandRun_loadMatOpt (t : Option Tensor) : CommandRun w.dev (w.loadMatOpt r t).1.dev := by
  cases t with
  | none => exact .refl _
  | some t => exact commandRun_loadMat w r t

theorem commandRun_storeMat (t : Option Tensor) (a : Mat) : CommandRun w.dev (w.storeMat t a).dev :=
  commandRun_foldl_of (fun x : UpdWork => x.dev) (fun _ _ _ => commandRun_store ..) w

theorem commandRun_readSides (g : Tensor) (es : List (Nat × Nat)) : CommandRun w.dev (w.readSides r g es).dev :=
  commandRun_fetchPieces ..

/-! ### The work of a clear command, by operation -/

variable (t : UpdTensors)

theorem commandRun_elementwise (adam : Bool) : CommandRun w.dev (w.elementwise r t adam).dev := by
  refine commandRun_foldl_of (fun x : UpdWork => x.dev) (fun x idx _ => ?_) w
  exact (((((((commandRun_loadOpt x r t.param idx).trans (commandRun_load _ r t.grad idx)).trans
    (commandRun_loadOpt _ r t.state0 idx)).trans (commandRun_loadOpt _ r t.state1 idx)).trans
    (commandRun_store _ t.param idx _)).trans (commandRun_store _ t.state0 idx _)).trans (commandRun_store _ t.state1 idx _))

theorem commandRun_pstat : CommandRun w.dev (w.pstat r t).dev :=
  ((((commandRun_loadMat w r t.grad).trans (commandRun_loadMatOpt _ r t.state0)).trans
    (commandRun_loadMatOpt _ r t.state1)).trans (commandRun_storeMat _ t.state0 _)).trans (commandRun_storeMat _ t.state1 _)

theorem commandRun_proot : CommandRun w.dev (w.proot r t).dev := by
  have hfirst (y : UpdWork × Mat × Mat) (h : CommandRun w.dev y.1.dev) (xm : Mat × Mat) : CommandRun w.dev
      (if r.final then ((y.1.storeMat t.state0 xm.1).storeMat t.state1 xm.2).storeMat t.param xm.1
        else (y.1.storeMat t.state0 xm.1).storeMat t.state1 xm.2).dev := by
    have hstored := (h.trans (commandRun_storeMat y.1 t.state0 xm.1)).trans (commandRun_storeMat _ t.state1 xm.2)
    split
    · exact hstored.trans (commandRun_storeMat ..)
    · exact hstored
  unfold UpdWork.proot
  refine hfirst (if r.i0 = 0 then _ else _) ?_ _
  split
  · exact commandRun_loadMat w r t.grad
  · exact (commandRun_loadMatOpt w r t.state0).trans (commandRun_loadMatOpt _ r t.state1)

theorem commandRun_cholesky : CommandRun w.dev (w.cholesky r t).dev :=
  (commandRun_loadMat w r t.grad).trans (commandRun_storeMat _ t.param _)

theorem commandRun_psgdm : CommandRun w.dev (w.psgdm r t).dev :=
  ((((((commandRun_loadMat w r t.grad).trans (commandRun_loadMatOpt _ r t.state1)).trans
    (commandRun_loadMatOpt _ r t.aux)).trans (commandRun_loadMatOpt _ r t.param)).trans
    (commandRun_loadMatOpt _ r t.state0)).trans (commandRun_storeMat _ t.param _)).trans (commandRun_storeMat _ t.state0 _)

/-- The row-step word of a list entry, as met. -/
def rowStepRead (w : UpdWork) (ta : Tensor) (row : Nat) : UpdWork :=
  { w with dev := (w.dev.fetch none (rowStepAddr ta row) 4).1,
           bad := if (w.dev.fetch none (rowStepAddr ta row) 4).2.2 then w.bad ++ [(ta.addr, rowStepBlock ta row)] else w.bad }

theorem commandRun_embRow (e : Nat × Nat) : CommandRun w.dev (w.embRow r t e).dev := by
  cases hp : t.param with
  | none => simpa only [UpdWork.embRow, hp] using CommandRun.refl w.dev
  | some tp =>
    cases hx : t.aux with
    | none => simpa only [UpdWork.embRow, hp, hx] using CommandRun.refl w.dev
    | some ta =>
      have hstep : CommandRun w.dev (rowStepRead w ta e.2).dev := commandRun_fetch ..
      have hloads (i : List Nat) (j : List Nat) := (((hstep.trans (commandRun_load _ r tp i)).trans
        (commandRun_load _ r t.grad j)).trans (commandRun_loadOpt _ r t.state0 i)).trans (commandRun_loadOpt _ r t.state1 i)
      simp only [UpdWork.embRow, hp, hx]
      split
      · exact hstep
      · exact ((((hloads _ _).trans (commandRun_store _ (some tp) _ _)).trans (commandRun_store _ t.state0 _ _)).trans
          (commandRun_store _ t.state1 _ _)).trans (commandRun_put _ _)

theorem commandRun_work (es : List (Nat × Nat)) : CommandRun w.dev (w.run r t es).dev := by
  unfold UpdWork.run
  split
  · exact commandRun_elementwise w r t false
  · exact commandRun_elementwise w r t true
  · exact commandRun_pstat w r t
  · split
    · exact commandRun_cholesky w r t
    · exact commandRun_proot w r t
  · exact commandRun_psgdm w r t
  · exact commandRun_foldl_of (fun x : UpdWork => x.dev) (fun x e _ => commandRun_embRow x r t e) w

end

/-! ### Reading only -/

/-- A device that a command has only read from: no byte of memory differs. -/
structure CommandRead (d e : Dev) : Prop where
  run : CommandRun d e
  cells : e.mem.cells = d.mem.cells

theorem CommandRead.refl (d : Dev) : CommandRead d d := ⟨.refl d, rfl⟩

theorem CommandRead.trans {a b c : Dev} (h : CommandRead a b) (h' : CommandRead b c) : CommandRead a c :=
  ⟨h.run.trans h'.run, h'.cells.trans h.cells⟩

section
variable (d : Dev) (r : UpdRec)

theorem commandRead_veTensor (a : Nat) : CommandRead d (d.veTensor a).1 := by
  unfold Dev.veTensor
  split
  · exact ⟨commandRun_fetch .., Dev.fetch_cells ..⟩
  · exact .refl d

/-- The tensor of a role, where the command has the role. -/
def roleRead (d : Dev) (on : Bool) (a : Nat) : Dev × Option Tensor × Bool :=
  if on then ((d.veTensor a).1, some (d.veTensor a).2.1,
    (d.veTensor a).2.2 && (d.veTensor a).1.descAccess .host [a] = some none)
  else (d, none, true)

theorem commandRead_roleRead (on : Bool) (a : Nat) : CommandRead d (roleRead d on a).1 := by
  cases on
  · exact .refl d
  · exact commandRead_veTensor d a

theorem updTensors_fst : (d.updTensors r).1 =
    (roleRead (roleRead (roleRead (roleRead (d.veTensor r.grad).1 r.roles.1 r.param).1 r.roles.2.1 r.state0).1 r.roles.2.2.1
      r.state1).1 r.roles.2.2.2 r.aux).1 := rfl

theorem commandRead_updTensors : CommandRead d (d.updTensors r).1 := by
  rw [updTensors_fst]
  exact ((((commandRead_veTensor d r.grad).trans (commandRead_roleRead ..)).trans (commandRead_roleRead ..)).trans
    (commandRead_roleRead ..)).trans (commandRead_roleRead ..)

theorem commandRead_noteScales (g : Tensor) : CommandRead d (d.noteScales r g) := by
  unfold Dev.noteScales
  split
  · exact ⟨commandRun_modTick .., rfl⟩
  · exact .refl d

theorem commandRead_satSkip : CommandRead d d.satSkip := ⟨(commandRun_bump ..).trans (commandRun_modFrame ..), rfl⟩

/-- A clear command reads, and computes on a copy of the memory. -/
theorem commandRead_runClear (m : Nat) : CommandRead d (d.runClear m r).dev := by
  unfold Dev.runClear
  dsimp only
  have htensors := commandRead_updTensors d r
  generalize d.updTensors r = x at htensors
  split
  · exact htensors
  · have hnoted := htensors.trans (commandRead_noteScales x.1 r x.2.grad)
    split
    · exact hnoted.trans (commandRead_satSkip _)
    · refine hnoted.trans ⟨?_, rfl⟩
      exact (((commandRun_readSides _ r x.2.grad _).trans (commandRun_work _ r x.2 _)).trans
        (commandRun_foldl_of (fun y : Dev × List (Nat × List Nat) => y.1) (fun _ _ _ => commandRun_markedBlocks ..)
          (_, []))).trans (commandRun_withMem _ _)

/-! ### ENC_AXPY -/

theorem commandRun_axpyOperand (a : Nat) : CommandRun d (d.axpyOperand a).1 := by
  unfold Dev.axpyOperand
  split
  · unfold Dev.readOperand
    split
    · exact commandRun_fetch ..
    · exact .refl d
  · exact .refl d

theorem commandRun_readLimb (t : CtDesc) (p i : Nat) : CommandRun d (d.readLimb t p i).1 := by
  have h := commandRun_fetchPieces d (t.limbPieces t.logN p i)
  unfold Dev.readLimb
  generalize d.fetchPieces (t.limbPieces t.logN p i) = x at h
  dsimp only
  split <;> exact h

theorem commandRun_readPolys (t : CtDesc) (l : Nat) : CommandRun d (d.readPolys t l).1 :=
  commandRun_foldl_of (fun x : Dev × List (List (List Nat)) × Bool => x.1) (fun x _ _ =>
    commandRun_foldl_of (fun y : Dev × List (List Nat) × Bool => y.1) (fun _ _ _ => commandRun_readLimb ..) (x.1, [], x.2.2))
    (d, [], false)

theorem commandRun_writeDesc (a : Nat) (bs : List Byte) (st : BitVec 8) : CommandRun d (d.writeDesc a bs st).1 := by
  obtain ⟨t, h⟩ := accessed_writeDesc d a bs st
  exact (commandRun_modTick d fun _ => t).trans h.commandRun

/-- Free words in place of the result's, or the result's. -/
theorem commandRun_limbs (free : Bool) (v : PSetVals) (polys level n : Nat) (out : Polys) :
    CommandRun d (if free then d.freeLimbs v polys level n else (d, out)).1 := by
  cases free
  · exact .refl d
  · exact (accessed_withDraw ..).commandRun

theorem commandRun_runAxpy (m : Nat) : CommandRun d (d.runAxpy m r).dev := by
  unfold Dev.runAxpy
  dsimp only
  have hops := ((commandRun_axpyOperand d r.grad).trans (commandRun_axpyOperand _ r.state0)).trans
    (commandRun_axpyOperand _ r.param)
  split
  · split
    · exact hops.trans (commandRun_writeDesc ..)
    · exact hops
  · split
    · exact hops.trans (commandRead_satSkip _).run
    · refine CommandRun.trans ?_ (commandRun_limbs ..)
      exact (hops.trans (commandRun_readPolys ..)).trans (commandRun_readPolys ..)

end

end Sys2Proof.Proofs
end

section
/-! SUPPORT. Update commands: their start, what one that ran lays down, and its end (14 R421-R424, R428). -/

namespace Sys2Proof.Proofs

open Sys2Proof.Machine Sys2Proof.Terms

/-! ### Pieces laid down -/

theorem byte_putPieces (d : Dev) (u : Pieces) (x : Nat) : (d.putPieces u).mem.byte x = laid u d.mem.byte x := by
  unfold Dev.putPieces laid
  induction u generalizing d with
  | nil => rfl
  | cons p u ih => rw [List.foldl_cons, ih, List.foldl_cons, Dev.byte_store]

theorem laid_append (u v : Pieces) (old : Nat → Byte) (x : Nat) : laid (u ++ v) old x = laid v (laid u old) x :=
  List.foldl_append ..

theorem laid_congr {old old' : Nat → Byte} {x : Nat} (h : old x = old' x) (u : Pieces) : laid u old x = laid u old' x := by
  rw [laid, h, laid]

theorem byte_foldl_putPieces (d : Dev) (units : List Pieces) (x : Nat) :
    (units.foldl (fun d u => d.putPieces u) d).mem.byte x = laid units.flatten d.mem.byte x := by
  induction units generalizing d with
  | nil => rfl
  | cons u units ih =>
    rw [List.foldl_cons, ih, List.flatten_cons, laid_append]
    exact laid_congr (byte_putPieces d u x) _

/-! ### A signal that lands -/

theorem deviceSignal_of_lands {d : Dev} {n : Nat} {e : BitVec 4} (h : signalLands d n e) :
    d.deviceSignal n e = d.setCore n (setEvent (d.core n) e.toNat (tget (d.core n).events e.toNat 0 + 1)) := by
  obtain ⟨hframe, hroom⟩ := h
  unfold Dev.deviceSignal
  dsimp only
  rw [if_pos hframe, signal?_of_lt hroom]

/-- A record's signal, where it asks for one. -/
def signalled (d : Dev) (on : Bool) (n : Nat) (e : BitVec 4) : Dev := if on then d.deviceSignal n e else d

section
variable {d : Dev} {on : Bool} {n : Nat} {e : BitVec 4} (h : on = true → signalLands d n e)
include h

theorem signalled_frame : signalled d on n e = { d with cores := (signalled d on n e).cores } := by
  unfold signalled
  split
  · rw [deviceSignal_of_lands (h ‹_›)]
    rfl
  · rfl

theorem eventCount_signalled (k : Nat) : eventCount ((signalled d on n e).core n) k =
    eventCount (d.core n) k + if on = true ∧ k = e.toNat then 1 else 0 := by
  unfold signalled
  split
  · rename_i hon
    rw [deviceSignal_of_lands (h hon), Dev.core_setCore_same, eventCount_setEvent]
    by_cases hk : k = e.toNat
    · subst hk
      rw [if_pos rfl, if_pos ⟨hon, rfl⟩]
      have hroom := (h hon).2
      rw [eventCount] at hroom ⊢
      rw [BitVec.toNat_add]
      exact Nat.mod_eq_of_lt (show _ + 1 < 2 ^ 4 by omega)
    · rw [if_neg hk, if_neg fun hn => hk hn.2, Nat.add_zero]
  · rename_i hoff
    rw [if_neg fun hn => hoff hn.1, Nat.add_zero]

end

theorem signalLands_congr {d d' : Dev} {n : Nat} {e : BitVec 4} (hcores : d'.cores = d.cores) (h : signalLands d n e) :
    signalLands d' n e := by
  rw [signalLands, Dev.core, hcores, ← Dev.core]
  exact h

/-! ### The start of a command -/

theorem descAccess_ne_none {d : Dev} (h : nothingWaits d) (who : Requester) (as : List Nat) : d.descAccess who as ≠ none := by
  unfold Dev.descAccess
  dsimp only
  split
  · exact nofun
  · rw [if_neg]
    · exact nofun
    · rw [List.any_eq_true]
      rintro ⟨a, -, hwait⟩
      have hwait := of_decide_eq_true hwait
      have hat := problemAt_ne_wait h who .read a
      unfold Dev.problemAt at hat
      split at hwait
      · rename_i c off hregion
        rw [hregion] at hat
        exact hat hwait
      · exact nomatch hwait

/-- A command that a unit holds once it has started. -/
def commandHeld (d : Dev) (at_ : Nat) (bytes : List Byte) (w : UpdDone) : UpdRun :=
  { UpdRun.of at_ bytes d.clock with
    outs := w.outs, units := w.units, marks := w.marks, spoils := w.spoils, effect := w.effect, status := w.status,
    satSkip := w.satSkip, blocksDone := w.blocks, rowsBad := w.rowsBad, nonfinite := w.nonfinite, stated := w.stated }

/-- The device after a command has run on it, with its refusal counted and raised. -/
def commandCounted (m at_ : Nat) (w : UpdDone) : Dev :=
  if w.status ≠ stOk && w.status ≠ stPoison && !w.satSkip then
    ((w.dev.bump (0x9100 + m) 4 1).faultUc 0x0C m at_ 0 w.status 0).countRefusal
  else w.dev

theorem commandRun_counted (m at_ : Nat) (w : UpdDone) : CommandRun w.dev (commandCounted m at_ w) := by
  unfold commandCounted
  split
  · exact ((commandRun_bump ..).trans (accessed_faultUc ..).commandRun).trans (commandRun_modFrame ..)
  · exact .refl _

theorem mem_commandCounted (m at_ : Nat) (w : UpdDone) : (commandCounted m at_ w).mem = w.dev.mem := by
  unfold commandCounted
  split
  · exact Dev.faultUc_mem ..
  · rfl

/-- The unit holds the command, and its list moves on by one. -/
def commandTaken (d : Dev) (m at_ : Nat) (w : UpdDone) : Dev :=
  (commandCounted m at_ w).setUpdUnit m { d.updUnit m with
    next := (d.updUnit m).next + 1,
    run := some (commandHeld (commandCounted m at_ w) at_ (d.mem.read at_ 128) w) }

theorem startUpdate_of_due {d : Dev} {m : Nat} {kind : UpdRec → Bool} {ups : List Upset} {f : Dev → UpdRec → UpdDone} {at_ : Nat}
    {r : UpdRec} (hat : at_ = (d.updUnit m).list + 128 * (d.updUnit m).next) (hr : r = UpdRec.parse (d.mem.read at_ 128))
    (hkind : kind r = true) (hopen : d.frameOpen = true) (hhalted : (d.updUnit m).halted = false)
    (hrun : (d.updUnit m).run = none) (howed : (d.updUnit m).owed = []) (hleft : (d.updUnit m).next < (d.updUnit m).count)
    (hpower : d.power.withholding.contains (264 + m) = false) (hholds : d.faults.holds (.update m) = false)
    (hquiet : nothingWaits d) (hmet : startMet d r.start r.startCore r.startEvt) :
    d.startUpdate m kind ups f = commandTaken d m at_ (f ((startTaken d r.start r.startCore r.startEvt).addUpsets ups) r) := by
  subst hat hr
  refine if_neg ?_
  simp only [hopen, hhalted, hrun, howed, hpower, hholds, Bool.not_true, Bool.false_eq_true, Option.isSome_none,
    ne_eq, not_true_eq_false, false_or, not_or, Nat.not_le]
  refine ⟨hleft, by rw [show kind (UpdRec.parse (d.rd _ 128)) = true from hkind]; exact Bool.false_ne_true,
    descAccess_ne_none hquiet _ _, ?_⟩
  rintro ⟨hstart, hwait⟩
  obtain hn | ⟨hframe, hcount⟩ := hmet
  · exact hn hstart
  · refine hwait.elim (· hframe) fun hzero => ?_
    exact absurd (congrArg BitVec.toNat hzero) (Nat.pos_iff_ne_zero.mp hcount)

/-- Each row of a command list starts the next command of its operation, and its run keeps memory but for ENC_AXPY's. -/
theorem exec_updateRow {s : State} {i : Instr} {m : Nat} {ups : List Upset} {p : UpdRec → Prop} {f : Dev → UpdRec → UpdDone}
    (hrow : updateRow i = some (m, ups, p, f)) : ∃ kind : UpdRec → Bool, (∀ r, p r → kind r = true) ∧
      exec i s = .next (s.withDev (s.dev.startUpdate m kind ups f)) ∧ (∀ d r, CommandRun d (f d r).dev) ∧
      ∀ d r, p r → r.op ≠ 0x10 → CommandRead d (f d r).dev := by
  unfold updateRow at hrow
  split at hrow
  case h_8 =>
    cases hrow
    exact ⟨_, fun r h => decide_eq_true h, rfl, fun d r => commandRun_runAxpy d r m, fun _ _ h hn => absurd h hn⟩
  case h_9 => exact nomatch hrow
  all_goals
    cases hrow
    exact ⟨_, fun r h => by simp [h], rfl, fun d r => (commandRead_runClear d r m).run, fun d r _ _ => commandRead_runClear d r m⟩

theorem addUpsets_setCore (d : Dev) (n : Nat) (c : Core) (ups : List Upset) :
    (d.setCore n c).addUpsets ups = (d.addUpsets ups).setCore n c := by
  unfold Dev.addUpsets
  induction ups generalizing d with
  | nil => rfl
  | cons u ups ih =>
    rw [List.foldl_cons, List.foldl_cons, ← ih]
    dsimp only
    by_cases hfatal : { d with mem := { d.mem with upsets := d.mem.upsets ++ [u] } }.fatalUpset u = true
    · rw [if_pos hfatal]
      exact congrArg (List.foldl _ · ups) (if_pos hfatal)
    · rw [if_neg hfatal]
      exact congrArg (List.foldl _ · ups) (if_neg hfatal)

theorem mem_addUpsets_startTaken (d : Dev) (start core e : Nat) (ups : List Upset) :
    ((startTaken d start core e).addUpsets ups).mem = (d.addUpsets ups).mem := by
  unfold startTaken
  split
  · exact (congrArg Dev.mem (addUpsets_setCore ..)).trans rfl
  · rfl

theorem clusters_startTaken (d : Dev) (start core e : Nat) : (startTaken d start core e).clusters = d.clusters := by
  unfold startTaken
  split <;> rfl

theorem updUnit_startTaken (d : Dev) (start core e m : Nat) : (startTaken d start core e).updUnit m = d.updUnit m := by
  unfold startTaken
  split <;> rfl

/-! ### The end of a command -/

/-- An access, and what it adds to the frame's marks. -/
def AccessedMarked (d e : Dev) : Prop := ∃ t, Accessed { d with tick := t } e

theorem Accessed.marked {d e : Dev} (h : Accessed d e) : AccessedMarked d e := ⟨d.tick, h⟩

theorem AccessedMarked.trans {a b c : Dev} (h : AccessedMarked a b) (h' : AccessedMarked b c) : AccessedMarked a c := by
  obtain ⟨t, h⟩ := h
  obtain ⟨u, h'⟩ := h'
  exact ⟨u, (h.withTick u).trans h'⟩

theorem accessedMarked_foldl {α : Type} {f : Dev → α → Dev} {l : List α} (hf : ∀ d, ∀ x ∈ l, AccessedMarked d (f d x)) (d : Dev) :
    AccessedMarked d (l.foldl f d) :=
  foldl_rel (R := AccessedMarked) (fun d => (Accessed.refl d).marked) (fun _ _ _ => .trans) hf d

theorem AccessedMarked.commandRun {d e : Dev} (h : AccessedMarked d e) : CommandRun d e := by
  obtain ⟨t, h⟩ := h
  exact (commandRun_modTick d fun _ => t).trans h.commandRun

theorem AccessedMarked.sameMap {d e : Dev} (h : AccessedMarked d e) : SameMap d e := by
  obtain ⟨t, h⟩ := h
  exact (sameMap_of_regs (d := d) (e := { d with tick := t }) (fun _ _ _ => rfl) rfl rfl rfl).trans h.sameMap

theorem accessedMarked_countPoison (d : Dev) (b : Bool) : AccessedMarked d (d.countPoison b) := ⟨_, .refl _⟩

theorem accessedMarked_spoil (d : Dev) (r : Requester) (o : Nat × List Byte) (blocks : List Nat) :
    AccessedMarked d (d.spoil r o blocks) := by
  refine (accessed_foldl (fun d b _ => ?_) d).marked.trans ((accessed_writeAs ..).marked.trans (accessedMarked_countPoison ..))
  unfold Dev.markBlock
  split
  · exact .refl d
  · exact accessed_writeAs ..

theorem accessedMarked_putUpdate (d : Dev) (j : UpdRun) : AccessedMarked d (d.putUpdate j) := by
  refine ((accessed_foldl (f := fun d u => d.putPieces u) (l := j.units) (fun d u _ => accessed_putPieces d u) d).marked.trans
    ?_).trans (accessed_finishEffect _ _ _)
  refine accessedMarked_foldl (fun d x _ => ?_) _
  split
  · exact (Accessed.refl d).marked
  · exact accessedMarked_spoil ..

/-- A clear command that marks no block lays down its units. -/
theorem byte_putUpdate {d : Dev} {j : UpdRun} (heffect : j.effect = .nothing) (hspoils : ∀ z ∈ j.outs.zip j.spoils, z.2 = [])
    (x : Nat) : (d.putUpdate j).mem.byte x = laid j.units.flatten d.mem.byte x := by
  have hmarks (e : Dev) : (j.outs.zip j.spoils).foldl (fun (d : Dev) x => if x.2 = [] then d
      else d.spoil .host x.1 x.2.eraseDups) e = e := foldl_eq_self fun z hz => if_pos (hspoils z hz)
  unfold Dev.putUpdate
  dsimp only
  rw [heffect, hmarks]
  exact byte_foldl_putPieces d j.units x

/-- The device once a command's writes are made and counted. -/
def commandMade (d : Dev) (m : Nat) (j : UpdRun) : Dev :=
  if j.ran then ((d.putUpdate j).bump (0x9100 + m) 3 1).bump (0x9100 + m) 5 j.rowsBad.length else d

/-- The device once a command has ended, its record still to be written. -/
def commandClosed (d : Dev) (m : Nat) (j : UpdRun) : Dev :=
  ((commandMade d m j).bump (0x9100 + m) 6 (max ((commandMade d m j).clock - j.startedAt) j.stated)).setUpdUnit m
    { d.updUnit m with run := none }

section
variable (d : Dev) (m : Nat) (j : UpdRun)

theorem commandRun_made : CommandRun d (commandMade d m j) := by
  unfold commandMade
  split
  · exact ((accessedMarked_putUpdate d j).commandRun.trans (commandRun_bump ..)).trans (commandRun_bump ..)
  · exact .refl d

theorem sameMap_commandMade : SameMap d (commandMade d m j) := by
  unfold commandMade
  split
  · exact ((accessedMarked_putUpdate d j).sameMap.trans (sameMap_bump _ _ (by decide) (by unfold mapEntry; omega))).trans
      (sameMap_bump _ _ (by decide) (by unfold mapEntry; omega))
  · exact .refl d

theorem sameMap_commandClosed : SameMap d (commandClosed d m j) :=
  ((sameMap_commandMade d m j).trans (sameMap_bump _ _ (by decide) (by unfold mapEntry; omega))).trans
    (sameMap_of_regs (fun _ _ _ => rfl) rfl rfl rfl)

theorem cores_commandClosed : (commandClosed d m j).cores = d.cores := (commandRun_made d m j).cores

theorem updUnit_commandClosed : (commandClosed d m j).updUnit m = { d.updUnit m with run := none } :=
  (Dev.updUnit_setUpdUnit ..).trans (if_pos rfl)

theorem mem_commandClosed : (commandClosed d m j).mem = if j.ran then (d.putUpdate j).mem else d.mem := by
  change (commandMade d m j).mem = _
  unfold commandMade
  split <;> rfl

/-- The record of a command, the reserved bits over SAT_SKIP in one byte with it (14 R428). -/
def commandFields : List (Nat × Nat × Nat) :=
  [(0, 8, j.status.toNat), (8, 8, bit j.satSkip), (32, 32, j.blocksDone), (64, 32, j.rowsBad.length),
    (96, 32, j.nonfinite), (128, 64, d.tickNumber), (192, 32, d.tickCycle)]

theorem commandFields_fit : FieldsFit 0 (commandFields d j) := by simp [FieldsFit, commandFields]

theorem commandRecord_status : (mkRecord 64 (commandFields d j)).getD 0 0 = j.status := by
  rw [mkRecord_byte (at_ := 0) (w := 8) (v := j.status.toNat) (by decide) (commandFields_fit d j) (by simp [commandFields])
    (by decide) (by decide)]
  simp

theorem commandRecord_skip : (mkRecord 64 (commandFields d j)).getD 1 0 = if j.satSkip then 1 else 0 := by
  rw [mkRecord_byte (at_ := 8) (w := 8) (v := bit j.satSkip) (by decide) (commandFields_fit d j) (by simp [commandFields])
    (by decide) (by decide)]
  cases j.satSkip <;> rfl

/-- The record as the unit writes it. -/
theorem mkRecord_commandFields : mkRecord 64 [(0, 8, j.status.toNat), (8, 1, bit j.satSkip), (32, 32, j.blocksDone),
    (64, 32, j.rowsBad.length), (96, 32, j.nonfinite), (128, 64, d.tickNumber), (192, 32, d.tickCycle)] =
    mkRecord 64 (commandFields d j) := by
  rw [mkRecord_eq, mkRecord_eq]
  refine congrArg _ (fieldsValue_cons_congr _ ?_)
  simp only [fieldsValue, List.map_cons]
  cases j.satSkip <;> rfl

/-- The record laid down. -/
def commandRecorded : Dev := d.store none (UpdRec.parse j.bytes).status (mkRecord 64 (commandFields d j))

theorem writeUpdStatus_of_free (hfree : d.problemIn .host .write (UpdRec.parse j.bytes).status 64 = none) :
    d.writeUpdStatus m j = signalled (if j.status = stPoison then (commandRecorded d j).countPoison false else commandRecorded d j)
      (UpdRec.parse j.bytes).doneEn (UpdRec.parse j.bytes).startCore (UpdRec.parse j.bytes).doneEvt := by
  unfold Dev.writeUpdStatus
  dsimp only
  rw [mkRecord_commandFields]
  unfold Dev.writeRecord
  rw [mkRecord_length, hfree]
  rfl

end

theorem updateDone_of_running {d : Dev} {m : Nat} {j : UpdRun} (hrun : (d.updUnit m).run = some j)
    (hholds : d.faults.holds (.update m) = false) : d.updateDone m = (commandClosed d m j).writeUpdStatus m j := by
  unfold Dev.updateDone
  dsimp only
  rw [hrun]
  exact if_neg (by rw [hholds]; exact Bool.false_ne_true)

/-! ### O38 -/

/-- A command that has ended: the unit is free, its record stands behind what it made, and its event has counted. -/
theorem updateDone_spec {d : Dev} {m : Nat} {j : UpdRun} (hrun : (d.updUnit m).run = some j)
    (hholds : d.faults.holds (.update m) = false) (hfree : d.problemIn .host .write (UpdRec.parse j.bytes).status 64 = none)
    (hsignal : (UpdRec.parse j.bytes).doneEn = true →
      signalLands d (UpdRec.parse j.bytes).startCore (UpdRec.parse j.bytes).doneEvt) :
    (d.updateDone m).updUnit m = { d.updUnit m with run := none } ∧
      (d.updateDone m).mem = (commandRecorded (commandClosed d m j) j).mem ∧
      ∀ k, eventCount ((d.updateDone m).core (UpdRec.parse j.bytes).startCore) k =
        eventCount (d.core (UpdRec.parse j.bytes).startCore) k +
          if (UpdRec.parse j.bytes).doneEn = true ∧ k = (UpdRec.parse j.bytes).doneEvt.toNat then 1 else 0 := by
  have hclosed := (updateDone_of_running hrun hholds).trans (writeUpdStatus_of_free (commandClosed d m j) m j
    (((sameMap_commandClosed d m j).problemIn ..).trans hfree))
  have hrecord : Accessed (commandClosed d m j) (commandRecorded (commandClosed d m j) j) := accessed_store ..
  rw [hclosed]
  have hmarked : ∃ g, (if j.status = stPoison then (commandRecorded (commandClosed d m j) j).countPoison false
      else commandRecorded (commandClosed d m j) j) = g ∧ g.mem = (commandRecorded (commandClosed d m j) j).mem ∧
      g.cores = d.cores ∧ g.updUnit m = { d.updUnit m with run := none } := by
    have hcores := hrecord.cores.trans (cores_commandClosed d m j)
    have hunit : (commandRecorded (commandClosed d m j) j).updUnit m = _ :=
      (congrArg (tget · m UpdUnit.fresh) (congrArg Dev.upd hrecord.frame)).trans (updUnit_commandClosed d m j)
    split
    · exact ⟨_, rfl, rfl, hcores, hunit⟩
    · exact ⟨_, rfl, rfl, hcores, hunit⟩
  obtain ⟨g, hg, hmem, hcores, hunit⟩ := hmarked
  rw [hg]
  have hlands := fun h => signalLands_congr hcores (hsignal h)
  refine ⟨?_, ?_, fun k => ?_⟩
  · rw [signalled_frame hlands]
    exact hunit
  · rw [signalled_frame hlands]
    exact hmem
  · rw [eventCount_signalled hlands, Dev.core, hcores, ← Dev.core]

/-- Settles O38: a command starts by a run that leaves units, clusters and cores alone, and ends by its writes, its record and
its signal. -/
theorem updateCommands : Obligations.UpdateCommands := by
  refine ⟨?_, ?_⟩
  · intro s i m ups p f hrow x at_ r w hp hopen hhalted hrun howed hleft hpower hholds hquiet hmet
    obtain ⟨kind, hkind, hexec, hruns, hreads⟩ := exec_updateRow (s := s) hrow
    have hstart := startUpdate_of_due (d := s.dev) (ups := ups) (f := f) rfl rfl (hkind r hp) hopen hhalted hrun howed hleft
      hpower hholds hquiet hmet
    have hups := (accessed_addUpsets (startTaken s.dev r.start r.startCore r.startEvt) ups).commandRun
    have hall : CommandRun (startTaken s.dev r.start r.startCore r.startEvt) (commandCounted m at_ w) :=
      (hups.trans (hruns _ r)).trans (commandRun_counted m at_ w)
    have hunit : ((commandTaken s.dev m at_ w).updUnit m) = _ := (Dev.updUnit_setUpdUnit ..).trans (if_pos rfl)
    refine ⟨_, commandHeld (commandCounted m at_ w) at_ (s.dev.mem.read at_ 128) w,
      hexec.trans (congrArg (fun d => Host.Outcome.next (s.withDev d)) hstart), congrArg UpdUnit.run hunit,
      congrArg UpdUnit.next hunit, rfl, rfl, rfl, rfl, rfl, rfl, rfl, rfl, rfl, fun k hk => ?_, mem_commandCounted m at_ w, ?_,
      hall.cores, fun hclear a => ?_⟩
    · refine (Dev.updUnit_setUpdUnit ..).trans ((if_neg hk).trans ?_)
      exact (hall.updUnit k).trans (updUnit_startTaken ..)
    · exact hall.clusters.trans (clusters_startTaken ..)
    · calc _ = w.dev.mem.byte a := congrArg (·.byte a) (mem_commandCounted m at_ w)
        _ = _ := Memory.byte_congr (hreads _ r hp hclear).cells a
        _ = _ := congrArg (·.byte a) (mem_addUpsets_startTaken ..)
  · intro s m j hrun hholds r hfree hsignal
    obtain ⟨hunit, hmem, hcount⟩ := updateDone_spec hrun hholds hfree hsignal
    have hbyte (a : Nat) : (s.dev.updateDone m).mem.byte a = if r.status ≤ a ∧ a < r.status + 64
        then (mkRecord 64 (commandFields (commandClosed s.dev m j) j)).getD (a - r.status) 0
        else (commandClosed s.dev m j).mem.byte a := by
      rw [hmem, commandRecorded, Dev.byte_store, mkRecord_length]
    refine ⟨_, rfl, hunit, ?_, ?_, fun heffect hspoils a ha => ?_, hcount⟩
    · exact (hbyte _).trans ((if_pos (by omega)).trans (by rw [Nat.sub_self, commandRecord_status]))
    · exact (hbyte _).trans ((if_pos (by omega)).trans (by rw [Nat.add_sub_cancel_left, commandRecord_skip]))
    · refine (hbyte a).trans ((if_neg ha).trans ?_)
      have hran : j.ran = true ↔ j.status = 0 ∨ j.status = 0x40 := by
        unfold UpdRun.ran
        rw [Bool.or_eq_true, decide_eq_true_iff, decide_eq_true_iff]
        rfl
      rw [mem_commandClosed]
      by_cases h : j.ran = true
      · rw [if_pos h, if_pos (hran.mp h), byte_putUpdate heffect hspoils]
      · rw [if_neg h, if_neg fun hs => h (hran.mpr hs)]

end Sys2Proof.Proofs
end

section
/-! SUPPORT. What moving blocks and stopping a stream leaves of the device (11 R371-R374). -/

namespace Sys2Proof.Proofs

open Sys2Proof.Machine Sys2Proof.Terms

/-- Entries that no stream counts in: those below the units', and PORT_STATE. -/
def fixedEntry (i k : Nat) : Prop := k < 256 ∧ (i < 0x3000 ∨ i = 0x8000 ∧ k = 2)

/-- A device that differs in what its units hold and store, in the current frame's counts, and in entries that its streams count
in. -/
structure BlockWork (d e : Dev) : Prop where
  frame : e = { d with draw := e.draw, mem := e.mem, regs := e.regs, cores := e.cores, clusters := e.clusters, stk := e.stk,
                       tick := { d.tick with frame := e.tick.frame }, faults := { d.faults with raised := e.faults.raised },
                       owedWrites := e.owedWrites }
  regs : ∀ i k, fixedEntry i k → e.reg i k = d.reg i k
  mark : e.tick.frame.map frameMark = d.tick.frame.map frameMark

theorem BlockWork.refl (d : Dev) : BlockWork d d := ⟨rfl, fun _ _ _ => rfl, rfl⟩

theorem BlockWork.trans {a b c : Dev} (h : BlockWork a b) (h' : BlockWork b c) : BlockWork a c where
  frame := by rw [h'.frame, h.frame]
  regs i k hi := (h'.regs i k hi).trans (h.regs i k hi)
  mark := h'.mark.trans h.mark

theorem UnitWork.blockWork {d e : Dev} (h : UnitWork d e) : BlockWork d e where
  frame := h.frame
  regs i k hi := h.regs i k hi.1 (by unfold fixedEntry at hi; unfold unitEntry accessEntry; omega)
  mark := h.mark

theorem Accessed.blockWork {d e : Dev} (h : Accessed d e) : BlockWork d e := h.unitWork.blockWork

theorem blockWork_foldl {α : Type} {f : Dev → α → Dev} {l : List α} (hf : ∀ d, ∀ x ∈ l, BlockWork d (f d x)) (d : Dev) :
    BlockWork d (l.foldl f d) :=
  foldl_rel (R := BlockWork) .refl (fun _ _ _ => .trans) hf d

section
variable (d : Dev)

theorem blockWork_setReg {i k : Nat} (v : Nat) (hk : k < 256) (h : ¬fixedEntry i k) : BlockWork d (d.setReg i k v) where
  frame := rfl
  regs j m hj := by
    rw [d.reg_setReg i k v j m hk hj.1, if_neg]
    rintro ⟨rfl, rfl⟩
    exact h hj
  mark := rfl

theorem blockWork_bump {i k : Nat} (n : Nat) (hk : k < 256) (h : ¬fixedEntry i k) : BlockWork d (d.bump i k n) :=
  blockWork_setReg d _ hk h

theorem blockWork_modCluster (c : Nat) (f : Cluster → Cluster) : BlockWork d (d.modCluster c f) :=
  (unitWork_modCluster d c f).blockWork

theorem blockWork_withStk (s : Stacks) : BlockWork d { d with stk := s } := ⟨rfl, fun _ _ _ => rfl, rfl⟩

end

/-! ### Folds that a bank may break off -/

theorem foldl_bind_none {α β : Type} (g : α → β → Option β) (l : List α) :
    l.foldl (fun acc p => acc.bind (g p)) none = none := by
  induction l with
  | nil => rfl
  | cons p l ih => exact ih

/-- A relation of every step is one of a fold that ends. -/
theorem rel_of_foldl_bind {α β : Type} {R : β → β → Prop} (hrefl : ∀ x, R x x) (htrans : ∀ x y z, R x y → R y z → R x z)
    {g : α → β → Option β} (hg : ∀ p x y, g p x = some y → R x y) (l : List α) {x y : β}
    (h : l.foldl (fun acc p => acc.bind (g p)) (some x) = some y) : R x y := by
  induction l generalizing x with
  | nil => exact Option.some.inj h ▸ hrefl x
  | cons p l ih =>
    rw [List.foldl_cons, Option.bind_some] at h
    cases hstep : g p x with
    | none =>
      rw [hstep, foldl_bind_none] at h
      exact nomatch h
    | some z =>
      rw [hstep] at h
      exact htrans _ _ _ (hg p x z hstep) (ih h)

/-! ### Movers -/

/-- The step of a mover's read: one granule's part. -/
theorem accessed_refused (m : Mover) (r : Requester) (k : AccessKind) (p : Problem) : Accessed m.dev (m.refused r k p).dev := by
  unfold Mover.refused
  dsimp only
  split
  · exact .refl _
  · exact accessed_noteProblem ..

section
variable {m : Mover} {c a : Nat}

theorem accessed_moverRead {n : Nat} {x : Mover × List Byte} (h : m.read c a n = some x) : Accessed m.dev x.1.dev := by
  refine rel_of_foldl_bind (R := fun x y : Mover × List Byte => Accessed x.1.dev y.1.dev) (fun x => .refl _)
    (fun _ _ _ => .trans) (fun p x y hstep => ?_) _ h
  dsimp only at hstep
  split at hstep
  · exact nomatch hstep
  · exact Option.some.inj hstep ▸ accessed_refused ..
  · exact Option.some.inj hstep ▸ accessed_fetch ..

theorem accessed_moverWrite {bs : List Byte} {n : Mover} (h : m.write c a bs = some n) : Accessed m.dev n.dev := by
  obtain ⟨x, hx, rfl⟩ := Option.map_eq_some_iff.mp h
  refine rel_of_foldl_bind (R := fun x y : Mover × List Byte => Accessed x.1.dev y.1.dev) (fun x => .refl _)
    (fun _ _ _ => .trans) (fun p x y hstep => ?_) _ hx
  dsimp only at hstep
  split at hstep
  · exact nomatch hstep
  · exact Option.some.inj hstep ▸ accessed_refused ..
  · exact Option.some.inj hstep ▸ accessed_store ..

theorem accessed_moverFetch {n : Nat} {x : Mover × Option (List Byte)} (h : m.fetch c a n = some x) : Accessed m.dev x.1.dev := by
  obtain ⟨y, hy, rfl⟩ := Option.map_eq_some_iff.mp h
  have hread : Accessed m.dev y.1.dev := accessed_moverRead (m := { m with bad := false }) hy
  exact hread

theorem accessed_side {bs : List Byte} {n : Mover} (h : m.side c a bs = some n) : Accessed m.dev n.dev := by
  obtain ⟨y, hy, rfl⟩ := Option.map_eq_some_iff.mp h
  have hwrite : Accessed m.dev y.dev := accessed_moverWrite hy
  exact hwrite

theorem accessed_marked {t : Tensor} {j : Nat} {x : Mover × Bool} (h : m.marked c t j = some x) : Accessed m.dev x.1.dev := by
  unfold Mover.marked at h
  split at h
  · exact Option.some.inj h ▸ .refl _
  · obtain ⟨y, hy, rfl⟩ := Option.map_eq_some_iff.mp h
    exact accessed_moverRead hy

theorem accessed_mark {t : Tensor} {j : Nat} {n : Mover} (h : m.mark c t j = some n) : Accessed m.dev n.dev := by
  unfold Mover.mark at h
  split at h
  · exact Option.some.inj h ▸ .refl _
  · obtain ⟨x, hx, hside⟩ := Option.bind_eq_some_iff.mp h
    exact (accessed_moverFetch hx).trans (accessed_side hside)

theorem accessed_part {p : MovePart} {n : Mover} (h : m.part c p = some n) : Accessed m.dev n.dev := by
  obtain ⟨x, hx, hend⟩ := Option.bind_eq_some_iff.mp h
  obtain ⟨y, hwrite, rfl⟩ := Option.map_eq_some_iff.mp hend
  obtain ⟨z, hz, rfl⟩ := Option.map_eq_some_iff.mp hx
  have hread : Accessed m.dev z.1.dev := by
    refine rel_of_foldl_bind (R := fun x y : Mover × List (List Byte) => Accessed x.1.dev y.1.dev) (fun x => .refl _)
      (fun _ _ _ => .trans) (fun p x y hstep => ?_) _ hz
    obtain ⟨w, hw, rfl⟩ := Option.map_eq_some_iff.mp hstep
    exact accessed_moverRead hw
  refine hread.trans (rel_of_foldl_bind (R := fun x y : Mover × List Byte => Accessed x.1.dev y.1.dev) (fun x => .refl _)
    (fun _ _ _ => .trans) (fun p x y hstep => ?_) _ hwrite)
  obtain ⟨w, hw, rfl⟩ := Option.map_eq_some_iff.mp hstep
  exact accessed_moverWrite hw

theorem blockWork_closeBlock {s t : Tensor} {b : MoveBlock} {n : Mover} (h : m.closeBlock c s t b = some n) :
    BlockWork m.dev n.dev := by
  obtain ⟨x, hx, hclose⟩ := Option.bind_eq_some_iff.mp h
  have hmarks : BlockWork m.dev x.dev := by
    refine rel_of_foldl_bind (R := fun x y : Mover => BlockWork x.dev y.dev) (fun x => .refl _)
      (fun _ _ _ => .trans) (fun p x y hstep => ?_) _ hx
    obtain ⟨w, hw, rfl⟩ := Option.map_eq_some_iff.mp hstep
    exact (accessed_marked hw).blockWork
  split at hclose
  · obtain ⟨w, hw, rfl⟩ := Option.map_eq_some_iff.mp hclose
    exact (hmarks.trans (accessed_mark hw).blockWork).trans
      (blockWork_bump _ 1 (by decide) (by unfold fixedEntry; omega))
  · exact Option.some.inj hclose ▸ hmarks

end

/-! ### Blocks -/

/-- A fold that carries its device in a larger value. -/
theorem blockWork_foldl_of {α β : Type} (dev : β → Dev) {f : β → α → β} {l : List α}
    (hf : ∀ b, ∀ x ∈ l, BlockWork (dev b) (dev (f b x))) (b : β) : BlockWork (dev b) (dev (l.foldl f b)) :=
  foldl_rel (R := fun p q => BlockWork (dev p) (dev q)) (fun p => .refl (dev p)) (fun _ _ _ => .trans) hf b

theorem blockWork_grantPrefetch (d : Dev) (c : Nat) (owed : Tbl Nat) : BlockWork d (d.grantPrefetch c owed).1 :=
  blockWork_foldl_of (fun x : Dev × Tbl Nat => x.1) (fun x _ _ =>
    (blockWork_modCluster x.1 c _).trans (blockWork_withStk _ _)) (d, [])

theorem blockWork_partsGo (c : Nat) (regulated : Bool) (m : Mover) (ps : List MovePart) (owed : Option (Tbl Nat)) :
    BlockWork m.dev (partsGo c regulated m ps owed).mover.dev := by
  induction ps generalizing m owed with
  | nil => exact .refl _
  | cons p ps ih =>
    have hgrant : BlockWork m.dev (if regulated then m.dev.grantPrefetch c (owed.getD (m.dev.partCost p)) else (m.dev, [])).1 := by
      split
      · exact blockWork_grantPrefetch ..
      · exact .refl _
    unfold partsGo
    dsimp only
    generalize (if regulated then m.dev.grantPrefetch c (owed.getD (m.dev.partCost p)) else (m.dev, [])) = x at hgrant ⊢
    split
    · exact hgrant
    · split
      · exact hgrant
      · rename_i hpart
        exact (hgrant.trans (accessed_part hpart).blockWork).trans (ih _ none)

theorem blockWork_blocksGo (c : Nat) (regulated : Bool) (m : Mover) (x : StreamRun) (bs : List MoveBlock) :
    BlockWork m.dev (blocksGo c regulated m x bs).1.dev := by
  induction bs generalizing m x with
  | nil => exact .refl _
  | cons b bs ih =>
    have hparts := blockWork_partsGo c regulated { m with bad := x.blockBad || b.bad } b.parts x.owed
    unfold blocksGo
    dsimp only
    split
    · exact ih m _
    · split
      · exact hparts
      · split
        · exact hparts
        · rename_i hclose
          exact (hparts.trans (blockWork_closeBlock hclose)).trans (ih _ _)

section
variable (d : Dev) (c : Nat)

theorem blockWork_advance (x : StreamRun) : BlockWork d (d.advance c x).1 := by
  have hblocks := blockWork_blocksGo c x.prefetch (x.mover d) x x.todo
  unfold Dev.advance
  dsimp only
  split
  · exact hblocks.trans (blockWork_bump _ 1 (by decide) (by unfold fixedEntry; omega))
  · exact hblocks

theorem blockWork_setStream (old new : StreamRun) : BlockWork d (d.setStream c old new) := blockWork_modCluster d c _

theorem blockWork_countPoison (b : Bool) : BlockWork d (d.countPoison b) := (unitWork_countPoison d b).blockWork

/-! ### The end of a stream -/

theorem blockWork_writeStreamStatus (old x : StreamRun) : BlockWork d (d.writeStreamStatus c old x) := by
  unfold Dev.writeStreamStatus
  dsimp only
  split
  · exact blockWork_setStream ..
  · rename_i m hside
    have hwritten : BlockWork d (m.dev.setStream c old { x.after m with phase := .finished }) :=
      (accessed_side hside).blockWork.trans (blockWork_setStream ..)
    generalize m.dev.setStream c old { x.after m with phase := .finished } = e at hwritten
    have hmarked : BlockWork d (if x.status = stPoison then e.countPoison false else e) := by
      split
      · exact hwritten.trans (blockWork_countPoison ..)
      · exact hwritten
    generalize (if x.status = stPoison then e.countPoison false else e) = g at hmarked
    have hcounted (p : Prop) [Decidable p] : BlockWork d (if p then g.bump (0x3200 + c) 6 1 else g) := by
      split
      · exact hmarked.trans (blockWork_bump _ 1 (by decide) (by unfold fixedEntry; omega))
      · exact hmarked
    split
    · exact (hcounted _).trans (unitWork_deviceSignal ..).blockWork
    · exact hcounted _

theorem blockWork_mixPieces (ps : Pieces) : BlockWork d (d.mixPieces ps) :=
  blockWork_foldl (fun d _ _ => (accessed_withDraw d _).blockWork.trans (accessed_wr ..).blockWork) d

theorem blockWork_getD_side {m : Mover} (a : Nat) (bs : List Byte) : BlockWork m.dev ((m.side c a bs).getD m).dev := by
  cases h : m.side c a bs with
  | none => exact .refl _
  | some n => exact (accessed_side h).blockWork

theorem blockWork_spoil (x : StreamRun) (m : Mover) (bs : List MoveBlock) : BlockWork m.dev (x.spoil m c bs).1.dev := by
  have hmarks : BlockWork m.dev (bs.foldl (fun (m : Mover) b => { (m.mark c x.ends.2 b.block).getD m with bad := false }) m).dev :=
    blockWork_foldl_of (fun n : Mover => n.dev) (fun n b _ => by
      dsimp only
      cases h : n.mark c x.ends.2 b.block with
      | none => exact .refl _
      | some k => exact (accessed_mark h).blockWork) m
  exact ((hmarks.trans (blockWork_getD_side c (x.dstAt + 121) [1])).trans
    (blockWork_bump _ bs.length (by decide) (by unfold fixedEntry; omega))).trans (blockWork_countPoison ..)

theorem blockWork_stopStream (s : StreamRun) : BlockWork d (d.stopStream c s).1 := by
  unfold Dev.stopStream
  dsimp only
  split
  · exact blockWork_setStream ..
  split
  · exact blockWork_setStream ..
  have hmoved : BlockWork d (blocksGo c false (s.mover (d.drawUnits s.todo.length).2) s
      (s.todo.take (d.drawUnits s.todo.length).1)).1.dev.drawWord.2 :=
    ((accessed_withDraw d (d.draw + 1)).blockWork.trans (blockWork_blocksGo c false (s.mover (d.drawUnits s.todo.length).2) s
      (s.todo.take (d.drawUnits s.todo.length).1))).trans (accessed_withDraw _ _).blockWork
  split
  · refine BlockWork.trans ?_ (blockWork_setStream ..)
    refine BlockWork.trans ?_ (blockWork_getD_side ..)
    dsimp only
    split
    · exact (hmoved.trans (unitWork_tearUnits ..).blockWork).trans (blockWork_countPoison ..)
    · exact hmoved.trans (unitWork_tearUnits ..).blockWork
  · refine BlockWork.trans ?_ (blockWork_setStream ..)
    refine BlockWork.trans ?_ (blockWork_spoil ..)
    exact hmoved.trans (blockWork_foldl (fun d u _ => blockWork_mixPieces d u) _)

theorem blockWork_abortStream (s : StreamRun) : BlockWork d (d.abortStream c s) :=
  (blockWork_stopStream d c s).trans (blockWork_writeStreamStatus ..)

end

/-- Every running prefetch stream stops, and nothing of the tick or the port with it. -/
theorem blockWork_stopPrefetch (d : Dev) : BlockWork d d.stopPrefetch :=
  blockWork_foldl (fun d p _ => blockWork_foldl (fun d s _ => by
    split
    · exact blockWork_abortStream ..
    · exact .refl d) d) d

end Sys2Proof.Proofs
end

section
/-! SUPPORT. Launches: port transfers, replay inputs and the launch of checkpoints (15 R469, R481, 16 R484, 17 R531). -/

namespace Sys2Proof.Proofs

open Sys2Proof.Machine Sys2Proof.Terms

/-! ### A launch fires -/

/-- The device without the launch that has fired. -/
def launchFired (d : Dev) (l : Launch) : Dev := { d with tick := { d.tick with launches := d.tick.launches.erase l } }

theorem fireLaunch_of_due {d : Dev} {l : Launch} {kind : BitVec 8} (h : d.dueLaunch = some l) (hkind : l.kind = kind) :
    d.fireLaunch kind = some (l, launchFired d l) := by
  unfold Dev.fireLaunch
  rw [h]
  exact if_pos hkind

theorem nothingWaits_launchFired {d : Dev} (h : nothingWaits d) (l : Launch) : nothingWaits (launchFired d l) := h

theorem sameSending_launchFired (d : Dev) (l : Launch) : SameSending d (launchFired d l) := sameSending_of_port rfl rfl

theorem Accessed.sending {d e : Dev} (h : Accessed d e) : SameSending d e := h.unitWork.sameSending

/-! ### Port transfers -/

theorem accessed_readMarked (d : Dev) (a n : Nat) : Accessed d (d.readMarked a n).1 :=
  foldl_rel (R := fun x y : Dev × List Byte × List Nat => Accessed x.1 y.1) (fun x => .refl x.1) (fun _ _ _ => .trans)
    (fun _ _ _ => accessed_hostRead ..) (d, [], [])

theorem portTx_eq {d : Dev} {l : Launch} (hdue : d.dueLaunch = some l) (hkind : l.kind = 1) (hquiet : nothingWaits d)
    (ups : List Upset) : d.portTx ups =
      if ((launchFired d l).hostRead l.arg 64).2.2 then ((launchFired d l).hostRead l.arg 64).1
      else if ((launchFired d l).hostRead l.arg 64).1.xferOk ((launchFired d l).hostRead l.arg 64).2.1 then
        ((launchFired d l).hostRead l.arg 64).1.sendXfer ((launchFired d l).hostRead l.arg 64).2.1 ups
      else ((launchFired d l).hostRead l.arg 64).1.endTransfer ((launchFired d l).hostRead l.arg 64).2.1 stBounds 0 0
        0xFFFFFFFF 0 := by
  unfold Dev.portTx
  rw [fireLaunch_of_due hdue hkind]
  have hwaits := hostWaits_eq_false (nothingWaits_launchFired hquiet l)
  refine if_neg ?_
  rw [hwaits, hwaits]
  exact fun h => h.elim Bool.false_ne_true fun h => Bool.false_ne_true h.2

section
variable {d : Dev} {b : List Byte} {ep : Endpoint} (hopen : linkOpen d) (hep : d.peerEndpoint (0x8400 + fld b 112 10) = some ep)
  (ups : List Upset)
include hopen hep

/-- The transfer goes out, and waits for its answer. -/
theorem sendXfer_of_open (y : Dev × List Byte × List Nat)
    (hy : y = (d.addUpsets ups).readMarked (fld b 0 48) (fld b 128 48)) :
    d.sendXfer b ups = (y.1.sendMarked ep .bulk 3 2 2 (BitVec.ofNat 16 (fld b 112 10))
      (leBytes 8 (fld b 64 48) ++ leBytes 8 (fld b 128 48) ++ y.2.1) (y.2.2.map (· + 16))).modTick fun t =>
        { t with xfers := t.xfers ++ [{ msg := d.port.nextMsg, dev := fld b 112 10, desc := b,
                                        status := if y.2.2 = [] then stOk else stPoison,
                                        granules := fld b 128 48 / 256 }] } := by
  have hread : Accessed d y.1 := hy ▸ (accessed_addUpsets d ups).trans (accessed_readMarked ..)
  unfold Dev.sendXfer
  dsimp only
  rw [if_neg (by rw [hopen.1, hep]; simp), ← hy, ← hread.unitWork.port]
  unfold Dev.sendPeerMarked
  rw [hread.unitWork.peerEndpoint (by omega), hep]

end

/-! ### Replay inputs -/

theorem replayInput_eq {d : Dev} {l : Launch} {r : List Byte} (hdue : d.dueLaunch = some l) (hkind : l.kind = 3)
    (hinput : l.input = some r) (hr : logKind r ≠ 7) : d.replayInput =
      (launchFired d l).modTick fun t => { t with replayInputs := t.replayInputs ++ [r] } := by
  unfold Dev.replayInput
  rw [fireLaunch_of_due hdue hkind]
  dsimp only
  rw [hinput]
  exact if_neg hr

/-! ### The launch of checkpoints -/

theorem le_foldl_max {α : Type} (f : α → Nat) (l : List α) (n : Nat) : n ≤ l.foldl (fun n a => max n (f a)) n := by
  induction l generalizing n with
  | nil => exact le_rfl
  | cons a l ih => exact (le_max_left n (f a)).trans (ih _)

theorem le_foldl_max_of_mem {α : Type} (f : α → Nat) {l : List α} {a : α} (h : a ∈ l) (n : Nat) :
    f a ≤ l.foldl (fun n a => max n (f a)) n := by
  induction l generalizing n with
  | nil => exact absurd h List.not_mem_nil
  | cons b l ih =>
    obtain rfl | h := List.mem_cons.mp h
    · exact (le_max_right n (f a)).trans (le_foldl_max f l _)
    · exact ih h _

/-- The checkpoint launches of one cycle. -/
def launchesOf (d : Dev) (l : Launch) : List Launch := d.tick.launches.filter fun x => x.kind = 2 && x.fire = l.fire

/-- A checkpoint as it is launched. -/
def launchedCkpt (d : Dev) (l : Launch) : CkptRun :=
  { descs := (launchesOf d l).map (·.arg), sending := false, awaiting := [], sizes := [],
    seq := BitVec.ofNat 64 (d.ckptDesc (((launchesOf d l).map (·.arg)).headD 0)).seq, startedAt := 0 }

/-- The device once a cycle's checkpoints have been launched; CKPT_STATE does not show it yet. -/
def ckptLaunched (d : Dev) (l : Launch) : Dev :=
  d.modTick fun t => { t with
    launches := t.launches.filter fun x => !(x.kind = 2 && x.fire = l.fire),
    holdLeft := max t.holdLeft (((launchesOf d l).map (·.arg)).foldl (fun n a => max n (d.ckptDesc a).holdEdges) 0),
    ckpts := t.ckpts ++ [launchedCkpt d l] }

theorem checkpoint_eq {d : Dev} {l : Launch} (hdue : d.dueLaunch = some l) (hkind : l.kind = 2) (hstate : d.reg 0x2000 3 = 1) :
    d.checkpoint = (ckptLaunched d l).showCkpt 1 := by
  unfold Dev.checkpoint Dev.fireCheckpoint
  rw [hdue]
  dsimp only
  rw [if_pos hkind]
  exact if_neg (not_not.mpr hstate)

theorem reg_showCkpt (d : Dev) {done : Nat} (hdone : done < 2 ^ 64) : (d.showCkpt done).reg 0x2070 6 =
    if d.tick.ckpts.any fun c => c.sending then 2 else if d.tick.ckpts = [] then done else 1 := by
  unfold Dev.showCkpt
  rw [Dev.reg_setReg_same, Nat.mod_eq_of_lt]
  split
  · decide
  · split
    · exact hdone
    · decide

theorem reg_ckptLaunched (d : Dev) (l : Launch) : ((ckptLaunched d l).showCkpt 1).reg 0x2070 6 =
    if d.tick.ckpts.any fun x => x.sending then 2 else 1 := by
  rw [reg_showCkpt _ (by decide)]
  change (if (d.tick.ckpts ++ [launchedCkpt d l]).any _ then 2 else if d.tick.ckpts ++ [launchedCkpt d l] = [] then 1 else 1) = _
  rw [List.any_append, ite_self]
  have hnew : [launchedCkpt d l].any (fun c => c.sending) = false := rfl
  rw [hnew, Bool.or_false]

end Sys2Proof.Proofs
end

section
/-! SUPPORT. Launches: a collective begins (17 R532, log entry 55). -/

namespace Sys2Proof.Proofs

open Sys2Proof.Machine Sys2Proof.Terms

/-! ### A message to each of several peers -/

/-- The control message that leaves for a peer over an open link. -/
def peerMsg (d : Dev) (ep : Endpoint) (n : Nat) (kind : BitVec 8) (body : List Byte) : OutMsg :=
  { ep := ep, prio := d.prioOf .control, cls := 3, kind := kind, number := d.port.nextMsg, version := 2,
    dst := BitVec.ofNat 16 n, body := body, bad := [] }

theorem sendPeer_control {d : Dev} (hopen : linkOpen d) {n : Nat} {ep : Endpoint} (hep : d.peerEndpoint (0x8400 + n) = some ep)
    (kind : BitVec 8) (body : List Byte) : d.sendPeer n .control kind body =
      (d.modPort fun x => { x with nextMsg := x.nextMsg + 1 }).emit (peerMsg d ep n kind body) := by
  rw [sendPeer_of_endpoint hep, sendMarked_of_linkOpen _ _ _ _ _ _ _ _ _ hopen]
  rfl

/-- Over an open link one message leaves to each device of a list, in its order. -/
theorem sendPeer_each {kind : BitVec 8} {body : List Byte} {ns : List Nat} {d e : Dev} (hopen : linkOpen d)
    (hns : ∀ n ∈ ns, n < 1024 ∧ (d.peerEndpoint (0x8400 + n)).isSome = true)
    (he : e = ns.foldl (fun (d : Dev) n => d.sendPeer n .control kind body) d) :
    OnlyPort d e ∧ ∃ ms : List OutMsg, e.port.sent = d.port.sent ++ ms ∧ ms.map (fun m => m.dst.toNat) = ns ∧
      ∀ m ∈ ms, m.cls = 3 ∧ m.kind = kind ∧ m.body = body := by
  induction ns generalizing d with
  | nil => exact ⟨he ▸ .refl, [], by rw [he]; exact (List.append_nil _).symm, rfl, fun m hm => absurd hm List.not_mem_nil⟩
  | cons n ns ih =>
    obtain ⟨ep, hep⟩ := Option.isSome_iff_exists.mp (hns n List.mem_cons_self).2
    have hsend := sendPeer_control hopen hep kind body
    have hport := onlyPort_sendPeer d n .control kind body
    obtain ⟨hrest, ms, hsent, hdst, hms⟩ := ih (d := d.sendPeer n .control kind body)
      ⟨hport.linkUp.trans hopen.1, by rw [hsend]; exact hopen.2⟩
      (fun k hk => by
        rw [peerEndpoint_of_regs (d := d) fun j _ => hport.reg _ j]
        exact hns k (List.mem_cons_of_mem n hk)) he
    refine ⟨hport.trans hrest, peerMsg d ep n kind body :: ms, hsent.trans ?_, ?_, ?_⟩
    · rw [hsend]
      exact List.append_assoc d.port.sent [_] ms
    · refine congrArg₂ List.cons ?_ hdst
      exact (BitVec.toNat_ofNat n 16).trans (Nat.mod_eq_of_lt (by have := (hns n List.mem_cons_self).1; omega))
    · intro m hm
      obtain rfl | hm := List.mem_cons.mp hm
      · exact ⟨rfl, rfl, rfl⟩
      · exact hms m hm

/-! ### The launch of a collective -/

theorem collWaits_eq_false {d : Dev} (h : nothingWaits d) (l : Launch) : d.collWaits l = false := by
  unfold Dev.collWaits
  simp only [hostWaits_eq_false h, Bool.false_or, List.any_eq_false]
  exact fun _ _ => Bool.false_ne_true

/-- The tensor descriptor of a collective as its launch reads it. -/
def collTensorRead (d : Dev) (b : List Byte) : Dev × List Byte × Bool :=
  if descPlaced (collTensor b) 128 then d.hostRead (collTensor b) 128 else (d, zeroBytes 128, true)

/-- The digest that goes to the members. -/
def collDigested (y : Dev × List Byte × Bool) (b : List Byte) : Dev × List Byte :=
  if y.2.2 then (y.1, zeroBytes 64) else y.1.collDigest b (Tensor.parse (collTensor b) y.2.1)

/-- A run as its launch begins it. -/
def begunColl (d : Dev) (l : Launch) (b tb digest : List Byte) (members : List Nat) : CollRun :=
  { collId := l.at_, desc := b, tensor := collTensor b, tensorDesc := tb, members := members, digest := digest,
    digests := [(d.systemDevice, digest)], nextStep := 0, elems := [], blocks := [] }

/-- The device with a run begun, before a message of it has left. -/
def withColl (d : Dev) (r : CollRun) : Dev := d.modTick fun t => { t with colls := t.colls ++ [r] }

theorem accessed_collTensorRead (d : Dev) (b : List Byte) : Accessed d (collTensorRead d b).1 := by
  unfold collTensorRead
  split
  · exact accessed_hostRead ..
  · exact .refl d

theorem accessed_collRecords (d : Dev) (op scales n : Nat) : Accessed d (d.collRecords op scales n).1 := by
  unfold Dev.collRecords
  split
  · exact accessed_hostRead ..
  · exact .refl d

theorem accessed_collDigested (y : Dev × List Byte × Bool) (b : List Byte) : Accessed y.1 (collDigested y b).1 := by
  unfold collDigested
  split
  · exact .refl _
  · unfold Dev.collDigest
    split
    · exact accessed_collRecords ..
    · exact .refl _

theorem Accessed.isMember {d e : Dev} (h : Accessed d e) (n : Nat) : e.isMember n = d.isMember n := by
  unfold Dev.isMember
  by_cases hn : n < 1024
  · rw [h.regs _ _ (by omega) (by unfold accessEntry; omega)]
  · rw [decide_eq_false hn, Bool.false_and, Bool.false_and]

/-- The members of a launch that has been read. -/
theorem members_hostRead (d : Dev) (l : Launch) (a n : Nat) :
    (List.range 1024).filter ((launchFired d l).hostRead a n).1.isMember = (List.range 1024).filter d.isMember :=
  List.filter_congr fun k _ => (accessed_hostRead (launchFired d l) a n).isMember k

theorem Accessed.systemDevice {d e : Dev} (h : Accessed d e) : e.systemDevice = d.systemDevice :=
  h.regs _ _ (by decide) (by unfold accessEntry; omega)

theorem systemDevice_hostRead (d : Dev) (l : Launch) (a n : Nat) :
    ((launchFired d l).hostRead a n).1.systemDevice = d.systemDevice :=
  (accessed_hostRead (launchFired d l) a n).systemDevice

section
variable {d : Dev} {l : Launch} (hdue : d.dueLaunch = some l) (hkind : l.kind = 4) (hquiet : nothingWaits d)
include hdue hkind hquiet

theorem collective_of_bad (hbad : ((launchFired d l).hostRead l.arg 64).2.2 = true) :
    d.collective = ((launchFired d l).hostRead l.arg 64).1 := by
  unfold Dev.collective
  rw [fireLaunch_of_due hdue hkind]
  dsimp only
  rw [if_neg (by rw [collWaits_eq_false (nothingWaits_launchFired hquiet l)]; exact Bool.false_ne_true), if_pos hbad]

theorem collective_of_absent (hbad : ((launchFired d l).hostRead l.arg 64).2.2 = false)
    (habsent : d.systemDevice ∉ (List.range 1024).filter d.isMember) : d.collective =
      ((launchFired d l).hostRead l.arg 64).1.endTransfer ((launchFired d l).hostRead l.arg 64).2.1 stBounds 0 0 0xFFFFFFFF 0 := by
  unfold Dev.collective
  rw [fireLaunch_of_due hdue hkind]
  dsimp only
  rw [if_neg (by rw [collWaits_eq_false (nothingWaits_launchFired hquiet l)]; exact Bool.false_ne_true),
    if_neg (by rw [hbad]; exact Bool.false_ne_true), members_hostRead, systemDevice_hostRead, if_pos]
  rw [Bool.not_eq_true', ← Bool.not_eq_true, List.contains_iff_mem]
  exact habsent

/-- A collective that begins: its digest goes to the other members, and the run is carried on with what has arrived. -/
theorem collective_of_member (hbad : ((launchFired d l).hostRead l.arg 64).2.2 = false) {b : List Byte}
    (hb : ((launchFired d l).hostRead l.arg 64).2.1 = b) {members : List Nat}
    (hmembers : members = (List.range 1024).filter d.isMember) (hself : d.systemDevice ∈ members)
    {y : Dev × List Byte × Bool} (hy : y = collTensorRead ((launchFired d l).hostRead l.arg 64).1 b)
    {z : Dev × List Byte} (hz : z = collDigested y b) {r : CollRun} (hr : r = begunColl z.1 l b y.2.1 z.2 members) :
    d.collective = Dev.advanceColl (3 * members.length + 3)
      ((members.filter (· ≠ (withColl z.1 r).systemDevice)).foldl
        (fun (d : Dev) n => d.sendPeer n .control 4 (collMsg l.at_ 0 z.2)) (withColl z.1 r)) r := by
  unfold Dev.collective
  rw [fireLaunch_of_due hdue hkind]
  dsimp only
  rw [if_neg (by rw [collWaits_eq_false (nothingWaits_launchFired hquiet l)]; exact Bool.false_ne_true),
    if_neg (by rw [hbad]; exact Bool.false_ne_true), members_hostRead, systemDevice_hostRead, ← hmembers, if_neg, hb]
  · subst hr hz hy
    rfl
  · rw [Bool.not_eq_true', Bool.not_eq_false, List.contains_iff_mem]
    exact hself

end

/-- With no message of the run arrived, a run that has only its own digest stays as it is. -/
theorem advanceColl_of_begun {d : Dev} {r : CollRun} (n : Nat) (hdigests : r.digests.length = 1)
    (hmembers : 2 ≤ r.members.length) (hearly : ∀ x ∈ d.tick.collEarly, x.collId ≠ r.collId) :
    Dev.advanceColl n d r = d := by
  cases n with
  | zero => rfl
  | succ n =>
    have hnone : d.nextCollMsg r = none := by
      unfold Dev.nextCollMsg
      rw [List.find?_eq_none]
      intro x hx
      simp [hearly x hx]
    unfold Dev.advanceColl
    dsimp only
    rw [if_neg (by omega), hnone]

end Sys2Proof.Proofs
end

section
/-! SUPPORT. Launches: the start of a checkpoint (16 R486, R487, R492, log entry 54). -/

namespace Sys2Proof.Proofs

open Sys2Proof.Machine Sys2Proof.Terms

/-! ### The checks -/

theorem accessed_ckptStatus (d : Dev) (a : Nat) (st : BitVec 8) (n g : Nat) : Accessed d (d.ckptStatus a st n g) := by
  unfold Dev.ckptStatus
  split
  · exact .refl d
  · exact accessed_hostWrite ..

theorem accessed_ckptExtents (d : Dev) (a : Nat) : Accessed d (d.ckptExtents a).1 := by
  unfold Dev.ckptExtents
  have hdesc : Accessed d (if mapRange a 64 then d.hostRead a 64 else (d, [], true)).1 := by
    split
    · exact accessed_hostRead ..
    · exact .refl d
  generalize (if mapRange a 64 then d.hostRead a 64 else (d, [], true)) = x at hdesc ⊢
  dsimp only
  split
  · exact hdesc
  · exact hdesc.trans (accessed_hostRead ..)

theorem accessed_ckptChecks (d : Dev) (as : List Nat) : Accessed d (d.ckptChecks as).1 := by
  refine foldl_rel (R := fun x y : Dev × List (Nat × List (Nat × Nat)) × Option Nat => Accessed x.1 y.1) (fun x => .refl x.1)
    (fun _ _ _ => .trans) (fun x a _ => ?_) (d, [], none)
  have h := accessed_ckptExtents x.1 a
  split
  · exact .refl _
  · split
    · next he =>
      rw [he] at h
      exact h
    · next he =>
      rw [he] at h
      exact h

/-! ### The start -/

/-- A checkpoint of which a descriptor has failed a check; CKPT_STATE does not show it yet. -/
def ckptRefused (d : Dev) (c : CkptRun) : Dev :=
  (c.descs.foldl (fun (d : Dev) a => d.ckptStatus a stBounds 0 0) d).modTick fun t => { t with ckpts := t.ckpts.filter (· ≠ c) }

/-- A checkpoint as it begins to send. -/
def startedCkpt (d : Dev) (c : CkptRun) : CkptRun := { c with sending := true, startedAt := d.clock }

/-- The device as a checkpoint begins to send. -/
def ckptStarted (d : Dev) (c n : CkptRun) : Dev := ((d.stopPrefetch).setReg 0x2070 6 2).setCkpt c n

section
variable {d : Dev} {c : CkptRun} {rest : List CkptRun} {ups : List Upset} (hckpts : d.tick.ckpts = c :: rest)
  (hsending : c.sending = false) (hdone : d.frameDone = true) (hfree : d.ckptWaits c.descs = false)
  {x : Dev × List (Nat × List (Nat × Nat)) × Option Nat} (hx : x = (d.addUpsets ups).ckptChecks c.descs)
include hckpts hsending hdone hfree hx

theorem checkpointStart_of_failed {a : Nat} (ha : x.2.2 = some a) :
    d.checkpointStart ups = ((ckptRefused x.1 c).showCkpt 3).ckptFault a 1 := by
  obtain ⟨e, todo, o⟩ := x
  cases ha
  unfold Dev.checkpointStart
  rw [hckpts]
  dsimp only
  rw [if_neg (by rw [hsending, hdone, hfree]; decide), ← hx]
  rfl

theorem checkpointStart_of_passed (hpass : x.2.2 = none) :
    d.checkpointStart ups = (ckptStarted x.1 c (startedCkpt d c)).sendAll (startedCkpt d c) x.2.1 := by
  have hclock : x.1.clock = d.clock := hx ▸ ((accessed_addUpsets d ups).trans (accessed_ckptChecks _ _)).clock
  obtain ⟨e, todo, o⟩ := x
  cases hpass
  unfold Dev.checkpointStart
  rw [hckpts]
  dsimp only
  rw [if_neg (by rw [hsending, hdone, hfree]; decide), ← hx]
  unfold startedCkpt
  rw [← hclock]
  rfl

end

theorem ckpts_refused (d : Dev) (c : CkptRun) : (ckptRefused d c).tick.ckpts = d.tick.ckpts.filter (· ≠ c) := by
  have hfold : Accessed d (c.descs.foldl (fun (d : Dev) a => d.ckptStatus a stBounds 0 0) d) :=
    accessed_foldl (fun d a _ => accessed_ckptStatus d a _ _ _) d
  change (Dev.tick (c.descs.foldl _ d)).ckpts.filter (· ≠ c) = _
  rw [hfold.tick]

theorem reg_refused (d : Dev) (c : CkptRun) (a : Nat) :
    (((ckptRefused d c).showCkpt 3).ckptFault a 1).reg 0x2070 6 =
      if (d.tick.ckpts.filter (· ≠ c)).any fun x => x.sending then 2 else if d.tick.ckpts.filter (· ≠ c) = [] then 3 else 1 := by
  unfold Dev.ckptFault
  rw [(accessed_faultUc ..).regs _ _ (by decide) (by unfold accessEntry; omega), reg_showCkpt _ (by decide), ckpts_refused]

theorem ckpts_started {d : Dev} {c : CkptRun} (n : CkptRun) (h : d.tick.ckpts = [c]) : (ckptStarted d c n).tick.ckpts = [n] := by
  change (d.stopPrefetch.tick.ckpts.map fun x => if x = c then n else x) = _
  rw [show d.stopPrefetch.tick.ckpts = d.tick.ckpts from by rw [(blockWork_stopPrefetch d).frame], h]
  exact congrArg (fun x => [x]) (if_pos rfl)

theorem reg_started (d : Dev) (c n : CkptRun) : (ckptStarted d c n).reg 0x2070 6 = 2 := Dev.reg_setReg_same ..

/-! ### Nothing to send -/

theorem sendAll_of_empty {todo : List (Nat × List (Nat × Nat))} {c : CkptRun} (hempty : ∀ p ∈ todo, p.2 = [])
    (hawaiting : c.awaiting = []) (d : Dev) : ∃ e, Accessed d e ∧ d.sendAll c todo = e.endCkpt c := by
  induction todo generalizing d with
  | nil => exact ⟨d, .refl d, by unfold Dev.sendAll; exact if_pos hawaiting⟩
  | cons p todo ih =>
    obtain ⟨a, es⟩ := p
    obtain ⟨e, he, hall⟩ := ih (fun p hp => hempty p (List.mem_cons_of_mem _ hp)) (d.ckptStatus a stOk 0 0)
    refine ⟨e, (accessed_ckptStatus ..).trans he, ?_⟩
    unfold Dev.sendAll
    exact (if_pos (hempty _ List.mem_cons_self)).trans hall

theorem reg_endCkpt_seq (d : Dev) (c : CkptRun) : (d.endCkpt c).reg 0x2070 7 = c.seq.toNat := by
  unfold Dev.endCkpt
  rw [Dev.reg_setReg _ _ _ _ _ _ (by decide) (by decide), if_neg (by decide), Dev.reg_setReg_same]
  exact Nat.mod_eq_of_lt c.seq.isLt

theorem endCkpt_of_last {d : Dev} {c : CkptRun} (h : d.tick.ckpts = [c]) :
    (d.endCkpt c).tick.ckpts = [] ∧ (d.endCkpt c).reg 0x2070 6 = 0 := by
  have hnone : d.tick.ckpts.filter (· ≠ c) = [] := by
    rw [h]
    simp
  refine ⟨hnone, ?_⟩
  unfold Dev.endCkpt
  rw [Dev.reg_setReg _ _ _ _ _ _ (by decide) (by decide), if_neg (by decide),
    Dev.reg_setReg _ _ _ _ _ _ (by decide) (by decide), if_neg (by decide), reg_showCkpt _ (by decide)]
  change (if (d.tick.ckpts.filter (· ≠ c)).any _ then 2 else if d.tick.ckpts.filter (· ≠ c) = [] then 0 else 1) = 0
  rw [hnone]
  rfl

/-! ### One image -/

theorem Accessed.reachable {d e : Dev} (h : Accessed d e) (c : CkptDesc) : e.reachable c = d.reachable c := by
  unfold Dev.reachable
  rw [h.sending.linkUp, h.isMember, h.systemDevice, h.unitWork.peerEndpoint (by omega), h.unitWork.peerEndpoint (by omega)]

theorem OnlyPort.reachable {d e : Dev} (h : OnlyPort d e) (c : CkptDesc) : e.reachable c = d.reachable c := by
  unfold Dev.reachable Dev.isMember Dev.systemDevice
  rw [h.linkUp, h.reg, h.reg, peerEndpoint_of_regs fun k _ => h.reg _ k, peerEndpoint_of_regs fun k _ => h.reg _ k]

/-- The device once a message has left over an open link. -/
def messageLeft (d : Dev) (m : OutMsg) : Dev := (d.modPort fun x => { x with nextMsg := x.nextMsg + 1 }).emit m

theorem onlyPort_messageLeft (d : Dev) (m : OutMsg) : OnlyPort d (messageLeft d m) := rfl

theorem sent_messageLeft (d : Dev) (m : OutMsg) : (messageLeft d m).port.sent = d.port.sent ++ [m] := rfl

theorem linkOpen_messageLeft {d : Dev} (h : linkOpen d) (m : OutMsg) : linkOpen (messageLeft d m) :=
  ⟨(onlyPort_messageLeft d m).linkUp.trans h.1, h.2⟩

/-- A message of an image leaves for a target that can be reached. -/
theorem sendImage_of_reachable {d : Dev} {c : CkptDesc} (hopen : linkOpen d) (hreach : d.reachable c = true) (kind : BitVec 8)
    (body : List Byte) : ∃ m : OutMsg, d.sendImage c kind body = messageLeft d m ∧ m.cls = 3 ∧ m.kind = kind ∧
      m.number = d.port.nextMsg := by
  unfold Dev.reachable at hreach
  rw [hopen.1, Bool.true_and] at hreach
  unfold Dev.sendImage
  by_cases htarget : c.target = 0
  · rw [if_pos htarget] at hreach ⊢
    simp only [Bool.and_eq_true] at hreach
    obtain ⟨ep, hep⟩ := Option.isSome_iff_exists.mp hreach.2
    rw [sendPeer_of_endpoint hep, sendMarked_of_linkOpen _ _ _ _ _ _ _ _ _ hopen]
    exact ⟨_, rfl, rfl, rfl, rfl⟩
  · rw [if_neg htarget] at hreach ⊢
    obtain ⟨ep, hep⟩ := Option.isSome_iff_exists.mp hreach
    rw [hep]
    dsimp only
    unfold Dev.sendMsg
    rw [sendMarked_of_linkOpen _ _ _ _ _ _ _ _ _ hopen]
    exact ⟨_, rfl, rfl, rfl, rfl⟩

/-- Two messages of an image leave for a target that can be reached. -/
theorem sendImages_of_reachable {d : Dev} {c : CkptDesc} (hopen : linkOpen d) (hreach : d.reachable c = true)
    (body : List Byte) (head : Dev → List Byte) : ∃ (e f : Dev) (m w : OutMsg), e = d.sendImage c 5 body ∧
      f = e.sendImage c 6 (head e) ∧ f.port.sent = d.port.sent ++ [m, w] ∧ m.cls = 3 ∧ m.kind = 5 ∧ w.cls = 3 ∧ w.kind = 6 ∧
      w.number = e.port.nextMsg ∧ OnlyPort d f := by
  obtain ⟨m, hm, hmcls, hmkind, -⟩ := sendImage_of_reachable hopen hreach 5 body
  have hport := onlyPort_messageLeft d m
  obtain ⟨w, hw, hwcls, hwkind, hwnumber⟩ := sendImage_of_reachable (linkOpen_messageLeft hopen m) ((hport.reachable c).trans hreach)
    6 (head (messageLeft d m))
  refine ⟨messageLeft d m, messageLeft (messageLeft d m) w, m, w, hm.symm, hw.symm, ?_, hmcls, hmkind, hwcls, hwkind, hwnumber,
    hport.trans (onlyPort_messageLeft _ w)⟩
  rw [sent_messageLeft, sent_messageLeft, List.append_assoc]
  rfl

theorem accessed_readExtents (d : Dev) (es : List (Nat × Nat)) : Accessed d (d.readExtents es).1 :=
  foldl_rel (R := fun x y : Dev × List Byte × Bool => Accessed x.1 y.1) (fun x => .refl x.1) (fun _ _ _ => .trans)
    (fun x e _ => accessed_hostRead x.1 e.1 e.2) (d, [], false)

/-- The image of one descriptor leaves in two messages. -/
theorem sendDesc_of_reachable {d : Dev} {a : Nat} {es : List (Nat × Nat)} {k : CkptDesc} (hk : k = d.ckptDesc a)
    (hopen : linkOpen d) (hreach : d.reachable k = true) {list : Dev × List Byte × Bool}
    (hlist : list = d.hostRead k.list (16 * k.count)) (hgood : list.2.2 = false) (hread : (list.1.readExtents es).2.2 = false) :
    ∃ e m w, d.sendDesc a es = (e, some w.number) ∧ e.port.sent = d.port.sent ++ [m, w] ∧ m.cls = 3 ∧ m.kind = 5 ∧ w.cls = 3 ∧
      w.kind = 6 ∧ e.tick = d.tick ∧ e.reg 0x2070 6 = d.reg 0x2070 6 := by
  have hacc : Accessed d (list.1.readExtents es).1 := (hlist ▸ accessed_hostRead ..).trans (accessed_readExtents ..)
  have hopen' := hacc.sending.linkOpen hopen
  have hreach' := (hacc.reachable k).trans hreach
  unfold Dev.sendDesc
  dsimp only
  rw [← hk, ← hlist, if_neg (by rw [hreach]; decide), if_neg (by rw [hgood, hread]; decide)]
  generalize list.1.readExtents es = y at hacc hopen' hreach'
  obtain ⟨e, f, m, w, he, hf, hsent, hmcls, hmkind, hwcls, hwkind, hnumber, hport⟩ := sendImages_of_reachable hopen' hreach'
    (leBytes 1 k.area ++ zeroBytes 7 ++ leBytes 8 k.seq ++ leBytes 8 256 ++ list.2.1 ++
      zeroBytes (imageData k.count - 256 - list.2.1.length) ++ y.2.1)
    fun z => leBytes 1 k.area ++ zeroBytes 7 ++ leBytes 8 k.seq ++ imageHeader z.systemDevice k.seq k.count y.2.1.length
      ((z.tick.frame.map fun f => f.number.toNat).getD z.frameNumber) (crc32c y.2.1)
  rw [← he, ← hf, ← hnumber]
  refine ⟨f, m, w, rfl, hsent.trans (by rw [hacc.port]), hmcls, hmkind, hwcls, hwkind, hport.tick.trans hacc.tick, ?_⟩
  rw [hport.reg, hacc.regs 0x2070 6 (by decide) (by unfold accessEntry; omega)]

end Sys2Proof.Proofs
end

section
/-! SUPPORT. Launches fire: the statement (15 R469, R481, 16 R484, 17 R531, R532). -/

namespace Sys2Proof.Proofs

open Sys2Proof.Machine Sys2Proof.Terms

/-- The edges that a descriptor holds. -/
def descHold (d : Dev) (a : Nat) : Nat := (d.ckptDesc a).holdEdges

/-- The edges that the checkpoints of one cycle hold. -/
def heldEdges (d : Dev) (l : Launch) : Nat := ((launchesOf d l).map (·.arg)).foldl (fun n a => max n (descHold d a)) 0

theorem holdLeft_ckptLaunched (d : Dev) (l : Launch) :
    ((ckptLaunched d l).showCkpt 1).tick.holdLeft = max d.tick.holdLeft (heldEdges d l) := rfl

theorem le_heldEdges {d : Dev} {l x : Launch} (h : x ∈ launchesOf d l) : descHold d x.arg ≤ heldEdges d l := by
  have hmem : x.arg ∈ (launchesOf d l).map (·.arg) := List.mem_map.mpr ⟨x, h, rfl⟩
  exact le_foldl_max_of_mem (descHold d) hmem 0

theorem launches_ckptLaunched (d : Dev) (l x : Launch) : x ∈ ((ckptLaunched d l).showCkpt 1).tick.launches ↔
    x ∈ d.tick.launches ∧ ¬(x.kind = 2 ∧ x.fire = l.fire) := by
  change x ∈ d.tick.launches.filter (fun x => !(x.kind = 2 && x.fire = l.fire)) ↔ _
  simp only [List.mem_filter, Bool.not_eq_true', ← Bool.not_eq_true, Bool.and_eq_true, decide_eq_true_eq]

theorem digest_collDigested (y : Dev × List Byte × Bool) (b : List Byte) : (collDigested y b).2 =
    if y.2.2 then zeroBytes 64 else (y.1.collDigest b (Tensor.parse (collTensor b) y.2.1)).2 := by
  unfold collDigested
  exact apply_ite Prod.snd _ _ _

section
variable {s : State} {l : Launch} (hdue : s.dev.dueLaunch = some l)
include hdue

theorem portTx_sends (hkind : l.kind = 1) (hquiet : nothingWaits s.dev) (ups : List Upset) {b : List Byte} {ep : Endpoint}
    {x : Dev × List Byte × Bool} (hx : x = (launchFired s.dev l).hostRead l.arg 64) (hb : b = x.2.1) (hgood : x.2.2 = false)
    (hok : x.1.xferOk b = true) (hopen : linkOpen s.dev) (hep : s.dev.peerEndpoint (0x8400 + fld b 112 10) = some ep)
    {y : Dev × List Byte × List Nat} (hy : y = (x.1.addUpsets ups).readMarked (fld b 0 48) (fld b 128 48)) :
    ∃ t, exec (.portTx ups) s = .next t ∧
      sentOne s.dev t.dev ep 3 2 (leBytes 8 (fld b 64 48) ++ leBytes 8 (fld b 128 48) ++ y.2.1) ∧
      t.dev.tick = { (launchFired s.dev l).tick with xfers := s.dev.tick.xfers ++
        [{ msg := s.dev.port.nextMsg, dev := fld b 112 10, desc := b, status := if y.2.2 = [] then stOk else stPoison,
           granules := fld b 128 48 / 256 }] } ∧
      t.dev.mem = y.1.mem := by
  have hread : Accessed (launchFired s.dev l) x.1 := hx ▸ accessed_hostRead ..
  have hsource : Accessed x.1 y.1 := hy ▸ (accessed_addUpsets x.1 ups).trans (accessed_readMarked ..)
  have hopen' : linkOpen x.1 := hread.sending.linkOpen ((sameSending_launchFired s.dev l).linkOpen hopen)
  have hep' : x.1.peerEndpoint (0x8400 + fld b 112 10) = some ep := (hread.unitWork.peerEndpoint (by omega)).trans hep
  have hrun : s.dev.portTx ups = x.1.sendXfer b ups := by
    rw [portTx_eq hdue hkind hquiet ups, ← hx, if_neg (by rw [hgood]; exact Bool.false_ne_true), ← hb, if_pos hok]
  refine ⟨s.withDev (x.1.sendXfer b ups), congrArg (fun d => Host.Outcome.next (s.withDev d)) hrun, ?_⟩
  change sentOne s.dev (x.1.sendXfer b ups) ep 3 2 _ ∧ (x.1.sendXfer b ups).tick = _ ∧ (x.1.sendXfer b ups).mem = _
  rw [sendXfer_of_open hopen' hep' ups y hy]
  have hport := onlyPort_sendMarked y.1 ep .bulk 3 2 2 (BitVec.ofNat 16 (fld b 112 10))
    (leBytes 8 (fld b 64 48) ++ leBytes 8 (fld b 128 48) ++ y.2.1) (y.2.2.map (· + 16))
  refine ⟨?_, ?_, hport.mem⟩
  · refine (sameSending_launchFired s.dev l).sentOne ((hread.trans hsource).sending.sentOne (sentOne_of_sent rfl ?_))
    exact sentOne_sendMarked _ _ _ _ _ _ _ _ _ (hsource.sending.linkOpen hopen')
  · rw [show x.1.port.nextMsg = s.dev.port.nextMsg from congrArg Port.nextMsg hread.port]
    unfold Dev.modTick
    dsimp only
    rw [hport.tick, (hread.trans hsource).tick]
    rfl

theorem checkpoint_launches (hkind : l.kind = 2) (hstate : s.dev.reg 0x2000 3 = 1) :
    ∃ t c, exec .checkpoint s = .next t ∧
      t.dev.reg 0x2070 6 = (if s.dev.tick.ckpts.any (fun x => x.sending) then 2 else 1) ∧
      t.dev.tick.ckpts = s.dev.tick.ckpts ++ [c] ∧ c.descs = (launchesOf s.dev l).map (·.arg) ∧ c.sending = false ∧
      s.dev.tick.holdLeft ≤ t.dev.tick.holdLeft ∧
      (∀ x ∈ launchesOf s.dev l, (s.dev.ckptDesc x.arg).holdEdges ≤ t.dev.tick.holdLeft) ∧
      (∀ x, x ∈ t.dev.tick.launches ↔ x ∈ s.dev.tick.launches ∧ ¬(x.kind = 2 ∧ x.fire = l.fire)) ∧
      t.dev.mem = s.dev.mem := by
  refine ⟨s.withDev ((ckptLaunched s.dev l).showCkpt 1), launchedCkpt s.dev l,
    congrArg (fun d => Host.Outcome.next (s.withDev d)) (checkpoint_eq hdue hkind hstate), reg_ckptLaunched s.dev l, rfl, rfl, rfl,
    ?_⟩
  change _ ≤ ((ckptLaunched s.dev l).showCkpt 1).tick.holdLeft ∧
    (∀ x ∈ launchesOf s.dev l, _ ≤ ((ckptLaunched s.dev l).showCkpt 1).tick.holdLeft) ∧
    (∀ x, x ∈ ((ckptLaunched s.dev l).showCkpt 1).tick.launches ↔ _) ∧ _
  rw [holdLeft_ckptLaunched]
  exact ⟨le_max_left _ _, fun x hx => (le_heldEdges hx).trans (le_max_right _ _), launches_ckptLaunched s.dev l, rfl⟩

theorem collective_begins (hkind : l.kind = 4) (hquiet : nothingWaits s.dev) {x : Dev × List Byte × Bool}
    (hx : x = (launchFired s.dev l).hostRead l.arg 64) {b : List Byte} (hb : b = x.2.1) (hgood : x.2.2 = false)
    {members : List Nat} (hmembers : members = (List.range 1024).filter s.dev.isMember) (hself : s.dev.systemDevice ∈ members)
    (htwo : 2 ≤ members.length) (hopen : linkOpen s.dev)
    (hpeers : ∀ n ∈ members, (s.dev.peerEndpoint (0x8400 + n)).isSome = true)
    (hearly : ∀ x ∈ s.dev.tick.collEarly, x.collId ≠ l.at_) {y : Dev × List Byte × Bool} (hy : y = collTensorRead x.1 b)
    {digest : List Byte}
    (hdigest : digest = if y.2.2 then zeroBytes 64 else (y.1.collDigest b (Tensor.parse (collTensor b) y.2.1)).2) :
    ∃ t r ms, exec .collective s = .next t ∧ t.dev.tick.colls = s.dev.tick.colls ++ [r] ∧ r.collId = l.at_ ∧
      r.members = members ∧ r.nextStep = 0 ∧ r.desc = b ∧ r.tensorDesc = y.2.1 ∧ r.digest = digest ∧
      r.digests = [(s.dev.systemDevice, digest)] ∧ t.dev.port.sent = s.dev.port.sent ++ ms ∧
      ms.map (fun m => m.dst.toNat) = members.filter (· ≠ s.dev.systemDevice) ∧
      ∀ m ∈ ms, m.cls = 3 ∧ m.kind = 4 ∧ m.body = leBytes 8 l.at_.toNat ++ leBytes 2 0 ++ zeroBytes 6 ++ digest := by
  have hrun := collective_of_member hdue hkind hquiet (hx ▸ hgood) (hx ▸ hb.symm) hmembers hself (hx ▸ hy) (z := collDigested y b)
    rfl rfl
  have hacc : Accessed (launchFired s.dev l) (collDigested y b).1 :=
    ((hx ▸ accessed_hostRead ..).trans (hy ▸ accessed_collTensorRead ..)).trans (accessed_collDigested y b)
  replace hdigest : digest = (collDigested y b).2 := hdigest.trans (digest_collDigested y b).symm
  generalize collDigested y b = z at hrun hacc hdigest
  have hsystem : z.1.systemDevice = s.dev.systemDevice := hacc.systemDevice
  have hr : (begunColl z.1 l b y.2.1 z.2 members).digests = [(s.dev.systemDevice, digest)] := by rw [hdigest, ← hsystem]; rfl
  generalize hbegun : begunColl z.1 l b y.2.1 z.2 members = r at hrun hr
  have hcolls : (withColl z.1 r).tick = { (launchFired s.dev l).tick with colls := s.dev.tick.colls ++ [r] } := by
    unfold withColl Dev.modTick
    dsimp only
    rw [hacc.tick]
    rfl
  have hopen' : linkOpen (withColl z.1 r) :=
    (sameSending_of_port rfl rfl : SameSending z.1 (withColl z.1 r)).linkOpen
      (hacc.sending.linkOpen ((sameSending_launchFired s.dev l).linkOpen hopen))
  have hpeers' (n : Nat) (hn : n ∈ members) :
      n < 1024 ∧ ((withColl z.1 r).peerEndpoint (0x8400 + n)).isSome = true := by
    refine ⟨?_, ?_⟩
    · rw [hmembers] at hn
      exact List.mem_range.mp (List.mem_filter.mp hn).1
    · rw [show (withColl z.1 r).peerEndpoint (0x8400 + n) = s.dev.peerEndpoint (0x8400 + n) from
        hacc.unitWork.peerEndpoint (by omega)]
      exact hpeers n hn
  obtain ⟨hport, ms, hsent, hdst, hms⟩ := sendPeer_each hopen' (kind := 4) (body := collMsg l.at_ 0 z.2)
    (ns := members.filter (· ≠ (withColl z.1 r).systemDevice)) (fun n hn => hpeers' n (List.mem_filter.mp hn).1) rfl
  generalize (members.filter _).foldl _ (withColl z.1 r) = e at hrun hport hsent
  have hstays : s.dev.collective = e := hrun.trans <| advanceColl_of_begun _ (by rw [← hbegun]; rfl) (by rw [← hbegun]; exact htwo) (by
    rw [hport.tick, hcolls, ← hbegun]
    exact hearly)
  refine ⟨s.withDev e, r, ms, congrArg (fun d => Host.Outcome.next (s.withDev d)) hstays, ?_, ?_, ?_, ?_, ?_, ?_, ?_, hr, ?_, ?_,
    ?_⟩
  · change e.tick.colls = _
    rw [hport.tick, hcolls]
  · rw [← hbegun]; rfl
  · rw [← hbegun]; rfl
  · rw [← hbegun]; rfl
  · rw [← hbegun]; rfl
  · rw [← hbegun]; rfl
  · rw [← hbegun, hdigest]; rfl
  · refine hsent.trans (congrArg (· ++ ms) ?_)
    exact congrArg Port.sent hacc.port
  · rw [hdst, ← hsystem]
    rfl
  · rw [hdigest]
    exact hms

end

/-! ### The start of a checkpoint -/

theorem sameSending_ckptStarted (d : Dev) (c n : CkptRun) : SameSending d (ckptStarted d c n) := by
  have hstop := blockWork_stopPrefetch d
  have hport : d.stopPrefetch.port = d.port := by rw [hstop.frame]
  refine ⟨congrArg Port.sent hport, congrArg Port.nextMsg hport, congrArg Port.paused hport, ?_⟩
  unfold Dev.linkUp
  refine congrArg (fun v => decide (v = 2)) ?_
  refine Eq.trans ?_ (hstop.regs 0x8000 2 (by unfold fixedEntry; omega))
  change (d.stopPrefetch.setReg 0x2070 6 2).reg 0x8000 2 = _
  rw [Dev.reg_setReg _ _ _ _ _ _ (by decide) (by decide), if_neg (by decide)]

/-- A checkpoint once the image of a descriptor has left in message `msg`. -/
def sentCkpt (c : CkptRun) (a : Nat) (es : List (Nat × Nat)) (msg : BitVec 32) : CkptRun :=
  { c with awaiting := c.awaiting ++ [(msg, a)], sizes := c.sizes ++ [(a, es.length, total (es.map fun e => e.2 / 256))] }

theorem sendAll_of_one {d e : Dev} {c : CkptRun} {a : Nat} {es : List (Nat × Nat)} {msg : BitVec 32} (hes : es ≠ [])
    (hsend : d.sendDesc a es = (e, some msg)) : d.sendAll c [(a, es)] = e.setCkpt c (sentCkpt c a es msg) := by
  have hwaits : (sentCkpt c a es msg).awaiting ≠ [] := List.append_ne_nil_of_right_ne_nil _ (List.cons_ne_nil _ _)
  unfold Dev.sendAll
  rw [if_neg hes, hsend]
  unfold Dev.sendAll
  exact if_neg hwaits

section
variable {s : State} {c : CkptRun} {rest : List CkptRun} {ups : List Upset} (hckpts : s.dev.tick.ckpts = c :: rest)
  (hsending : c.sending = false) (hdone : s.dev.frameDone = true) (hfree : s.dev.ckptWaits c.descs = false)
  {x : Dev × List (Nat × List (Nat × Nat)) × Option Nat} (hx : x = (s.dev.addUpsets ups).ckptChecks c.descs)

include hx in
theorem accessed_checked : Accessed s.dev x.1 := hx ▸ (accessed_addUpsets s.dev ups).trans (accessed_ckptChecks _ _)

include hckpts hsending hdone hfree hx

theorem checkpointStart_fails (hfail : x.2.2 ≠ none) :
    ∃ t, exec (.checkpointStart ups) s = .next t ∧ t.dev.tick.ckpts = s.dev.tick.ckpts.filter (· ≠ c) ∧
      t.dev.reg 0x2070 6 = (if (s.dev.tick.ckpts.filter (· ≠ c)).any (fun x => x.sending) then 2
        else if s.dev.tick.ckpts.filter (· ≠ c) = [] then 3 else 1) := by
  obtain ⟨a, ha⟩ := Option.ne_none_iff_exists'.mp hfail
  have hrun := checkpointStart_of_failed hckpts hsending hdone hfree hx ha
  have htick : x.1.tick = s.dev.tick := (accessed_checked hx).tick
  rw [← htick]
  refine ⟨s.withDev (((ckptRefused x.1 c).showCkpt 3).ckptFault a 1), congrArg (fun d => Host.Outcome.next (s.withDev d)) hrun, ?_,
    reg_refused x.1 c a⟩
  rw [← ckpts_refused]
  exact congrArg Tick.ckpts (accessed_faultUc ..).tick

theorem checkpointStart_empty (hpass : x.2.2 = none) (hempty : ∀ p ∈ x.2.1, p.2 = []) (hawaiting : c.awaiting = []) :
    ∃ t, exec (.checkpointStart ups) s = .next t ∧ (rest = [] → t.dev.tick.ckpts = [] ∧ t.dev.reg 0x2070 6 = 0) ∧
      t.dev.reg 0x2070 7 = c.seq.toNat := by
  obtain ⟨e, he, hall⟩ := sendAll_of_empty (c := startedCkpt s.dev c) hempty hawaiting
    (ckptStarted x.1 c (startedCkpt s.dev c))
  have hrun := (checkpointStart_of_passed hckpts hsending hdone hfree hx hpass).trans hall
  refine ⟨s.withDev (e.endCkpt (startedCkpt s.dev c)), congrArg (fun d => Host.Outcome.next (s.withDev d)) hrun, fun hlast => ?_,
    reg_endCkpt_seq e _⟩
  refine endCkpt_of_last ?_
  rw [he.tick, ckpts_started _ (by rw [(accessed_checked hx).tick, hckpts, hlast])]

theorem checkpointStart_sends {a : Nat} {es : List (Nat × Nat)} (hpass : x.2.2 = none) (htodo : x.2.1 = [(a, es)]) (hes : es ≠ [])
    (hlast : rest = []) (hopen : linkOpen s.dev) {d : Dev} (hd : d = ckptStarted x.1 c (startedCkpt s.dev c)) {k : CkptDesc}
    (hk : k = d.ckptDesc a) {list : Dev × List Byte × Bool} (hlist : list = d.hostRead k.list (16 * k.count))
    (hreach : d.reachable k = true) (hgood : list.2.2 = false) (hread : (list.1.readExtents es).2.2 = false) :
    ∃ t m w, exec (.checkpointStart ups) s = .next t ∧ t.dev.port.sent = s.dev.port.sent ++ [m, w] ∧
      m.cls = 3 ∧ m.kind = 5 ∧ w.cls = 3 ∧ w.kind = 6 ∧ t.dev.reg 0x2070 6 = 2 ∧
      t.dev.tick.ckpts = [{ startedCkpt s.dev c with
        awaiting := c.awaiting ++ [(w.number, a)],
        sizes := c.sizes ++ [(a, es.length, total (es.map fun e => e.2 / 256))] }] := by
  have hchecked := accessed_checked hx
  have hstarted : SameSending s.dev d := by
    rw [hd]
    exact hchecked.sending.trans (sameSending_ckptStarted x.1 c _)
  obtain ⟨e, m, w, hsend, hsent, hmcls, hmkind, hwcls, hwkind, htick, hreg⟩ :=
    sendDesc_of_reachable hk (hstarted.linkOpen hopen) hreach hlist hgood hread
  have hrun : s.dev.checkpointStart ups = e.setCkpt (startedCkpt s.dev c) (sentCkpt (startedCkpt s.dev c) a es w.number) := by
    rw [checkpointStart_of_passed hckpts hsending hdone hfree hx hpass, ← hd, htodo]
    exact sendAll_of_one hes hsend
  have hone : d.tick.ckpts = [startedCkpt s.dev c] := by
    rw [hd]
    exact ckpts_started _ (by rw [hchecked.tick, hckpts, hlast])
  refine ⟨s.withDev (e.setCkpt (startedCkpt s.dev c) (sentCkpt (startedCkpt s.dev c) a es w.number)), m, w,
    congrArg (fun d => Host.Outcome.next (s.withDev d)) hrun, ?_, hmcls, hmkind, hwcls, hwkind, ?_, ?_⟩
  · exact hsent.trans (congrArg (· ++ [m, w]) hstarted.sent)
  · refine hreg.trans ?_
    rw [hd]
    exact reg_started ..
  · change (e.tick.ckpts.map fun x => if x = startedCkpt s.dev c then _ else x) = _
    rw [htick, hone]
    exact congrArg (fun x => [x]) (if_pos rfl)

end

/-- Settles O57: each launch row takes its launch off the list and does its part, of which the reads of descriptors, tensors and
sources are accesses, and the messages the port's alone. -/
theorem launchesFire : Obligations.LaunchesFire := by
  unfold Obligations.LaunchesFire
  refine ⟨fun s l hdue => ⟨fun hkind hquiet ups => ⟨fun hbad => ?_, fun hgood hbad => ?_, fun ep hgood hok hopen hep => ?_⟩,
    fun hkind hstate => checkpoint_launches hdue hkind hstate, fun hkind r hinput hr => ?_, fun hkind hquiet =>
      ⟨fun hbad => ?_, fun hgood habsent => ?_, fun hgood hself htwo hopen hpeers hearly => ?_⟩⟩,
    fun s c rest ups hckpts hsending hdone hfree => ⟨fun hfail => ?_, fun hpass hempty hawaiting => ?_,
      fun a es hpass htodo hes hlast hopen hreach hgood hread => ?_⟩⟩
  · refine congrArg (fun d => Host.Outcome.next (s.withDev d)) ?_
    exact (portTx_eq hdue hkind hquiet ups).trans (if_pos hbad)
  · refine congrArg (fun d => Host.Outcome.next (s.withDev d)) ?_
    refine (portTx_eq hdue hkind hquiet ups).trans ((if_neg ?_).trans (if_neg ?_))
    · exact fun h => Bool.false_ne_true (hgood.symm.trans h)
    · exact fun h => Bool.false_ne_true (hbad.symm.trans h)
  · exact portTx_sends hdue hkind hquiet ups rfl rfl hgood hok hopen hep rfl
  · exact congrArg (fun d => Host.Outcome.next (s.withDev d)) (replayInput_eq hdue hkind hinput hr)
  · exact congrArg (fun d => Host.Outcome.next (s.withDev d)) (collective_of_bad hdue hkind hquiet hbad)
  · exact congrArg (fun d => Host.Outcome.next (s.withDev d)) (collective_of_absent hdue hkind hquiet hgood habsent)
  · exact collective_begins hdue hkind hquiet rfl rfl hgood rfl hself htwo hopen hpeers hearly rfl rfl
  · exact checkpointStart_fails hckpts hsending hdone hfree rfl hfail
  · exact checkpointStart_empty hckpts hsending hdone hfree rfl hpass hempty hawaiting
  · exact checkpointStart_sends hckpts hsending hdone hfree rfl hpass htodo hes hlast hopen rfl rfl rfl hreach hgood hread

end Sys2Proof.Proofs
end

section
/-! SUPPORT. What an edge, the log and the frame loader leave of the device (15 R450, R455-R457, R477, 22 R657). -/

namespace Sys2Proof.Proofs

open Sys2Proof.Machine Sys2Proof.Terms

/-! ### What is noted of the tick -/

/-- A device that differs in its stored data and what has been counted of accesses, and in entries of the rings and above: all
that the log can touch. -/
structure Noted (d e : Dev) : Prop where
  frame : e = { d with draw := e.draw, mem := e.mem, regs := e.regs, faults := { d.faults with raised := e.faults.raised },
                       owedWrites := e.owedWrites }
  regs : ∀ i k, i < 0x2010 → k < 256 → e.reg i k = d.reg i k

theorem Noted.refl (d : Dev) : Noted d d := ⟨rfl, fun _ _ _ _ => rfl⟩

theorem Noted.trans {a b c : Dev} (h : Noted a b) (h' : Noted b c) : Noted a c where
  frame := by rw [h'.frame, h.frame]
  regs i k hi hk := (h'.regs i k hi hk).trans (h.regs i k hi hk)

theorem Accessed.noted {d e : Dev} (h : Accessed d e) : Noted d e where
  frame := h.frame
  regs i k hi hk := h.regs i k hk (by unfold accessEntry; omega)

theorem noted_foldl {α : Type} {f : Dev → α → Dev} {l : List α} (hf : ∀ d, ∀ x ∈ l, Noted d (f d x)) (d : Dev) :
    Noted d (l.foldl f d) :=
  foldl_rel (R := Noted) .refl (fun _ _ _ => .trans) hf d

/-- An entry that is set leaves the entries of lower indices. -/
theorem reg_setReg_below (d : Dev) {i j m : Nat} (k v : Nat) (hji : j < i) (hm : m < 256) :
    (d.setReg i k v).reg j m = d.reg j m := by
  unfold Dev.reg Dev.setReg
  rw [tget_tset, if_neg (by omega)]

section
variable (d : Dev)

theorem noted_setReg {i : Nat} (k v : Nat) (h : 0x2010 ≤ i) : Noted d (d.setReg i k v) where
  frame := rfl
  regs j m hj hm := reg_setReg_below d k v (by omega) hm

theorem noted_bump {i : Nat} (k n : Nat) (h : 0x2010 ≤ i) : Noted d (d.bump i k n) := noted_setReg d k _ h

theorem noted_logAppend (kind source frame : Nat) (payload : List Byte) : Noted d (d.logAppend kind source frame payload) := by
  unfold Dev.logAppend
  split
  · exact .refl d
  · dsimp only
    split
    · exact (noted_setReg d _ _ (by decide)).trans (accessed_faultUc ..).noted
    · exact (accessed_ringWrite d _ _ _ _).noted.trans (noted_setReg _ _ _ (by decide))

theorem noted_logDict (idx sub v : Nat) : Noted d (d.logDict idx sub v) := by
  unfold Dev.logDict
  split
  · exact .refl d
  · exact (accessed_withDraw d _).noted.trans (noted_logAppend _ _ _ _ _)

/-- A ring entry takes a value. -/
theorem noted_applyEntry_ring {key : Nat} (v : Nat) (host : Bool) (h : key / 256 = 0x2010) : Noted d (d.applyEntry key v host) := by
  unfold Dev.applyEntry
  dsimp only
  rw [h, if_neg (by omega : ¬(0x2010 = 0x6000 ∧ (key % 256 = 1 ∨ key % 256 = 2))),
    if_neg (by omega : ¬(0x7300 ≤ 0x2010 ∧ 0x2010 ≤ 0x7307 ∧ key % 256 = 3))]
  split
  · exact .refl d
  · split
    · exact (noted_setReg d _ v (by decide)).trans (noted_logDict _ _ _ _)
    · exact noted_setReg d _ v (by decide)

end

/-! ### The loader -/

/-- A device that differs in what is noted, in its pending values, and in the header that the loader has read. -/
structure LoaderWork (d e : Dev) : Prop where
  frame : e = { d with draw := e.draw, mem := e.mem, regs := e.regs, shadow := e.shadow,
                       faults := { d.faults with raised := e.faults.raised }, owedWrites := e.owedWrites,
                       tick := { d.tick with next := e.tick.next, badHeader := e.tick.badHeader, loadHeld := e.tick.loadHeld } }
  regs : ∀ k, k < 256 → e.reg 0x2000 k = d.reg 0x2000 k

theorem LoaderWork.refl (d : Dev) : LoaderWork d d := ⟨rfl, fun _ _ => rfl⟩

theorem LoaderWork.trans {a b c : Dev} (h : LoaderWork a b) (h' : LoaderWork b c) : LoaderWork a c where
  frame := by rw [h'.frame, h.frame]
  regs k hk := (h'.regs k hk).trans (h.regs k hk)

theorem Noted.loaderWork {d e : Dev} (h : Noted d e) : LoaderWork d e where
  frame := by rw [h.frame]
  regs k hk := h.regs _ k (by decide) hk

theorem Accessed.loaderWork {d e : Dev} (h : Accessed d e) : LoaderWork d e := h.noted.loaderWork

section
variable {d e : Dev} (h : LoaderWork d e)
include h

theorem LoaderWork.cores : e.cores = d.cores := by rw [h.frame]

theorem LoaderWork.tickFrame : e.tick.frame = d.tick.frame := by rw [h.frame]

theorem LoaderWork.accepted : e.tick.accepted = d.tick.accepted := by rw [h.frame]

theorem LoaderWork.tickNumber : e.tickNumber = d.tickNumber := h.regs 9 (by decide)

theorem LoaderWork.frameNumber : e.frameNumber = d.frameNumber := h.regs 0x0A (by decide)

end

section
variable (d : Dev)

theorem accessed_readList (a n : Nat) : Accessed d (d.readList a n).1 := by
  unfold Dev.readList
  split
  · exact .refl d
  · split
    · exact .refl d
    · exact accessed_hostRead ..

theorem accessed_of_readList {d e : Dev} {a n : Nat} {o : Option (List Byte)} (h : d.readList a n = (e, o)) : Accessed d e := by
  have hread := accessed_readList d a n
  rw [h] at hread
  exact hread

theorem accessed_readLoads (items : List (List Byte)) : Accessed d (d.readLoads items).1 := by
  refine foldl_rel (R := fun x y : Dev × Option (List (Nat × List Byte)) => Accessed x.1 y.1) (fun x => .refl x.1)
    (fun _ _ _ => .trans) (fun x b _ => ?_) (d, some [])
  dsimp only
  split
  · exact .refl _
  · split
    · exact .refl _
    · split
      · next he => exact accessed_of_readList he
      · next he => exact accessed_of_readList he

theorem accessed_checkHeader (addr : Nat) (h : List Byte) : Accessed d (d.checkHeader addr h).1 := by
  unfold Dev.checkHeader
  split
  · exact .refl d
  · rcases h₁ : d.readList (fld h 192 48) (32 * fld h 32 16) with ⟨d₁, loads⟩
    dsimp only
    rcases h₂ : d₁.readList (fld h 256 48) (16 * fld h 240 16) with ⟨d₂, updates⟩
    dsimp only
    rcases h₃ : d₂.readList (fld h 320 48) (64 * fld h 48 8) with ⟨d₃, opens⟩
    dsimp only
    rcases h₄ : d₃.readList (fld h 384 48) (64 * fld h 304 16) with ⟨d₄, fills⟩
    dsimp only
    rcases h₅ : d₄.readList (fld h 448 48) (32 * fld h 56 8) with ⟨d₅, launches⟩
    dsimp only
    rcases h₆ : d₅.readList (fld h 512 48) 1024 with ⟨d₆, power⟩
    dsimp only
    have hreads : Accessed d d₆ := ((((accessed_of_readList h₁).trans (accessed_of_readList h₂)).trans
      (accessed_of_readList h₃)).trans (accessed_of_readList h₄)).trans ((accessed_of_readList h₅).trans (accessed_of_readList h₆))
    split
    · next loads _ _ _ _ _ =>
      split
      · exact hreads
      · have hcopies := accessed_readLoads d₆ (records 32 loads)
        split
        · next he =>
          rw [he] at hcopies
          exact hreads.trans hcopies
        · next he =>
          rw [he] at hcopies
          exact hreads.trans hcopies
    · exact hreads

theorem loaderWork_next (x : Option LoadedHeader) (b : Option (Nat × List Byte)) (held : Bool) :
    LoaderWork d (d.modTick fun t => { t with next := x, badHeader := b, loadHeld := held }) := ⟨rfl, fun _ _ => rfl⟩

theorem loaderWork_loadHeader : LoaderWork d d.loadHeader := by
  unfold Dev.loadHeader
  dsimp only
  split
  · exact .refl d
  · split
    · exact loaderWork_next d _ _ _
    · split
      · next he => exact (accessed_of_readList he).loaderWork
      · next e h he =>
        have hread := accessed_of_readList he
        have hcheck := accessed_checkHeader e (d.reg 0x2010 1 + d.nextFrame % d.reg 0x2010 2 * 128) h
        split
        · exact hread.loaderWork
        · split
          · next hx =>
            rw [hx] at hcheck
            split
            · exact (hread.trans hcheck).loaderWork
            · exact ((hread.trans hcheck).trans (accessed_faultUc ..)).loaderWork.trans (loaderWork_next _ _ _ _)
          · next hx =>
            rw [hx] at hcheck
            exact (((hread.trans hcheck).trans (accessed_foldl (fun d c _ => accessed_hostWrite d _ _) _)).loaderWork.trans
              (loaderWork_next _ _ _ _)).trans (noted_setReg _ _ _ (by decide)).loaderWork

theorem loaderWork_shadow (x : Tbl (BitVec 64)) : LoaderWork d { d with shadow := x } := ⟨rfl, fun _ _ => rfl⟩

theorem loaderWork_loaderEdge : LoaderWork d d.loaderEdge := by
  unfold Dev.loaderEdge
  dsimp only
  split
  · refine (loaderWork_shadow d _).trans (noted_foldl (fun d p hp => ?_) _).loaderWork
    have hring := (List.mem_filter.mp hp).2
    refine noted_applyEntry_ring d _ _ ?_
    simp only [Bool.or_eq_true, decide_eq_true_eq] at hring
    omega
  · exact loaderWork_loadHeader d

end

/-! ### An edge -/

/-- A device that differs in its power figures and in entries above the rings. -/
structure PowerWork (d e : Dev) : Prop where
  frame : e = { d with regs := e.regs, power := e.power }
  regs : ∀ i k, i < 0x7000 → k < 256 → e.reg i k = d.reg i k

theorem PowerWork.refl (d : Dev) : PowerWork d d := ⟨rfl, fun _ _ _ _ => rfl⟩

theorem PowerWork.trans {a b c : Dev} (h : PowerWork a b) (h' : PowerWork b c) : PowerWork a c where
  frame := by rw [h'.frame, h.frame]
  regs i k hi hk := (h'.regs i k hi hk).trans (h.regs i k hi hk)

section
variable (d : Dev)

theorem powerWork_setReg {i : Nat} (k v : Nat) (h : 0x7000 ≤ i) : PowerWork d (d.setReg i k v) where
  frame := rfl
  regs j m hj hm := reg_setReg_below d k v (by omega) hm

theorem powerWork_modPower (f : Power → Power) : PowerWork d (d.modPower f) := ⟨rfl, fun _ _ _ _ => rfl⟩

theorem powerWork_rollPower : PowerWork d d.rollPower := by
  have hwithheld : PowerWork d ((List.range requesters).foldl (fun (d : Dev) i =>
      let w := min (tget d.power.withheldNow i 0) (2 ^ 32 - 1)
      if d.reg (0x7100 + i) 3 = w then d else d.setReg (0x7100 + i) 3 w) d) := by
    refine foldl_rel (R := PowerWork) .refl (fun _ _ _ => .trans) (fun d i _ => ?_) d
    dsimp only
    split
    · exact .refl d
    · exact powerWork_setReg d _ _ (by omega)
  unfold Dev.rollPower
  dsimp only
  refine .trans ?_ (powerWork_modPower _ _)
  split
  · exact hwithheld
  · exact hwithheld.trans (powerWork_setReg _ _ _ (by decide))

/-- An edge advances TICK_NUMBER and takes the accepted symbol; what else it changes are power figures and fault marks. -/
theorem edge_spec : d.edge.tickNumber = (d.tickNumber + 1) % 2 ^ 64 ∧
    (∀ i k, i < 0x7000 → k < 256 → ¬(i = 0x2000 ∧ k = 9) → d.edge.reg i k = d.reg i k) ∧
    d.edge = { d with regs := d.edge.regs, power := d.edge.power, faults := { d.faults with corrRecorded := [] },
                      tick := { d.tick with accepted := none } } := by
  have hhot : PowerWork d (if d.power.hot then d.bump 0x7400 7 1 else d) := by
    split
    · exact powerWork_setReg d _ _ (by decide)
    · exact .refl d
  unfold Dev.edge
  generalize (if d.power.hot then d.bump 0x7400 7 1 else d) = e at hhot ⊢
  have hroll := powerWork_rollPower (e.setReg 0x2000 0x09 (e.tickNumber + 1))
  dsimp only
  generalize (e.setReg 0x2000 0x09 (e.tickNumber + 1)).rollPower = z at hroll ⊢
  have hnumber : e.tickNumber = d.tickNumber := hhot.regs _ _ (by decide) (by decide)
  have hframe : z = { d with regs := z.regs, power := z.power } := by
    rw [hroll.frame, hhot.frame]
    rfl
  refine ⟨?_, fun i k hi hk hne => ?_, ?_⟩
  · change z.reg 0x2000 9 = _
    rw [hroll.regs _ _ (by decide) (by decide), Dev.reg_setReg_same, hnumber]
  · change z.reg i k = _
    rw [hroll.regs i k hi hk, Dev.reg_setReg _ _ _ _ _ _ (by decide) hk, if_neg hne, hhot.regs i k hi hk]
  · conv_lhs => rw [hframe]
    rfl

end

/-! ### Edges that enter no frame -/

section
variable {s : State}

/-- What a HOLD or SKIP edge leaves, from the device as its edge has been taken. -/
theorem edgeTaken_of_loaderWork {d e : Dev} (h : LoaderWork (d.edge.modTick fun t => { t with starved := false, missing := [] }) e) :
    e.tickNumber = (d.tickNumber + 1) % 2 ^ 64 ∧ e.frameNumber = d.frameNumber ∧ e.tick.frame = d.tick.frame ∧
      e.tick.accepted = none ∧ e.cores = d.cores := by
  obtain ⟨hnumber, hregs, hframe⟩ := edge_spec d
  generalize d.edge = x at h hnumber hregs hframe
  refine ⟨h.tickNumber.trans hnumber, h.frameNumber.trans (hregs _ _ (by decide) (by decide) (by decide)), h.tickFrame.trans ?_,
    h.accepted.trans ?_, h.cores.trans ?_⟩
  · change x.tick.frame = _
    rw [hframe]
  · change x.tick.accepted = _
    rw [hframe]
  · change x.cores = _
    rw [hframe]

theorem holdEdge_takes (h : s.dev.tick.accepted = some .hold) :
    ∃ t, exec .holdEdge s = .next t ∧ t.dev.tickNumber = (s.dev.tickNumber + 1) % 2 ^ 64 ∧
      t.dev.frameNumber = s.dev.frameNumber ∧ t.dev.tick.frame = s.dev.tick.frame ∧ t.dev.tick.accepted = none ∧
      t.dev.cores = s.dev.cores := by
  have hrun : s.dev.holdEdge = (s.dev.edge.modTick fun t => { t with starved := false, missing := [] }).loaderEdge :=
    if_neg (not_not.mpr h)
  have hwork := loaderWork_loaderEdge (s.dev.edge.modTick fun t => { t with starved := false, missing := [] })
  rw [← hrun] at hwork
  exact ⟨s.withDev s.dev.holdEdge, rfl, edgeTaken_of_loaderWork hwork⟩

/-- A SKIP counted, recorded and logged on a device whose edge has been taken. -/
def skipNoted (d : Dev) : Dev :=
  let d := d.bump 0x2000 0x0E 1
  let d := if d.tick.starved then d.bump 0x2000 0x0F 1 else d
  let (w, d) := d.skipFault.drawWord
  d.logAppend 0x07 w.toNat d.frameNumber []

theorem accessed_skipFault (d : Dev) : Accessed d d.skipFault := by
  unfold Dev.skipFault
  dsimp only
  split
  · exact .refl d
  · exact accessed_faultUc ..

theorem skipNoted_spec (d : Dev) : (skipNoted d).tick = d.tick ∧ (skipNoted d).cores = d.cores ∧
    (∀ k, k < 0x0E → (skipNoted d).reg 0x2000 k = d.reg 0x2000 k) ∧
    (skipNoted d).reg 0x2000 0x0E = counted d 0x2000 0x0E 1 := by
  obtain ⟨e, he, hwork⟩ : ∃ e, e = (if d.tick.starved then (d.bump 0x2000 0x0E 1).bump 0x2000 0x0F 1
      else d.bump 0x2000 0x0E 1) ∧ Noted e (skipNoted d) :=
    ⟨_, rfl, ((accessed_skipFault _).trans (accessed_withDraw _ _)).noted.trans (noted_logAppend ..)⟩
  have hsame : e.tick = d.tick ∧ e.cores = d.cores := by
    rw [he]
    split <;> exact ⟨rfl, rfl⟩
  have hregs (k : Nat) (hk : k ≤ 0x0E) : e.reg 0x2000 k = (d.bump 0x2000 0x0E 1).reg 0x2000 k := by
    rw [he]
    split
    · rw [reg_bump _ _ (by decide) (by omega), if_neg (by omega)]
    · rfl
  refine ⟨?_, ?_, fun k hk => ?_, ?_⟩
  · rw [← hsame.1, hwork.frame]
  · rw [← hsame.2, hwork.frame]
  · rw [hwork.regs _ _ (by decide) (by omega), hregs k (by omega), reg_bump _ _ (by decide) (by omega), if_neg (by omega)]
  · rw [hwork.regs _ _ (by decide) (by decide), hregs _ (by decide), reg_bump _ _ (by decide) (by decide), if_pos ⟨rfl, rfl⟩]

theorem skipEdge_takes (h : s.dev.tick.accepted = some .skip) :
    ∃ t, exec .skipEdge s = .next t ∧ t.dev.tickNumber = (s.dev.tickNumber + 1) % 2 ^ 64 ∧
      t.dev.frameNumber = s.dev.frameNumber ∧ t.dev.tick.frame = s.dev.tick.frame ∧ t.dev.tick.accepted = none ∧
      t.dev.cores = s.dev.cores ∧ t.dev.reg 0x2000 0x0E = counted s.dev 0x2000 0x0E 1 := by
  have hrun : s.dev.skipEdge = ((skipNoted s.dev.edge).modTick fun t => { t with starved := false, missing := [] }).loaderEdge :=
    if_neg (not_not.mpr h)
  have hwork := loaderWork_loaderEdge ((skipNoted s.dev.edge).modTick fun t => { t with starved := false, missing := [] })
  rw [← hrun] at hwork
  refine ⟨s.withDev s.dev.skipEdge, rfl, ?_⟩
  change s.dev.skipEdge.tickNumber = _ ∧ s.dev.skipEdge.frameNumber = _ ∧ s.dev.skipEdge.tick.frame = _ ∧
    s.dev.skipEdge.tick.accepted = _ ∧ s.dev.skipEdge.cores = _ ∧ s.dev.skipEdge.reg 0x2000 0x0E = _
  generalize s.dev.skipEdge = z at hwork
  obtain ⟨htick, hcores, hkept, hcount⟩ := skipNoted_spec s.dev.edge
  obtain ⟨hnumber, hregs, hframe⟩ := edge_spec s.dev
  generalize skipNoted s.dev.edge = y at hwork htick hcores hkept hcount
  generalize s.dev.edge = x at htick hcores hkept hcount hnumber hregs hframe
  refine ⟨hwork.tickNumber.trans ((hkept 9 (by decide)).trans hnumber), hwork.frameNumber.trans ((hkept 0x0A (by decide)).trans
    (hregs _ _ (by decide) (by decide) (by decide))), hwork.tickFrame.trans ?_, hwork.accepted.trans ?_, hwork.cores.trans ?_,
    (hwork.regs 0x0E (by decide)).trans (hcount.trans ?_)⟩
  · change y.tick.frame = _
    rw [htick, hframe]
  · change y.tick.accepted = _
    rw [htick, hframe]
  · change y.cores = _
    rw [hcores, hframe]
  · exact counted_congr (hregs _ _ (by decide) (by decide) (by decide)) 1

end

end Sys2Proof.Proofs
end

section
/-! SUPPORT. The completion of a frame (15 R458, 17 R529). -/

namespace Sys2Proof.Proofs

open Sys2Proof.Machine Sys2Proof.Terms

section
variable (d : Dev) (f : FrameRun) (record : List Byte)

/-! ### The record -/

theorem noted_writeCompletion : Noted d (d.writeCompletion f record) := by
  unfold Dev.writeCompletion
  dsimp only
  split
  · exact .refl d
  · split
    · exact noted_bump d _ _ (by decide)
    · exact (accessed_hostWrite ..).noted
    · exact (accessed_hostWrite ..).noted.trans (noted_bump _ _ _ (by decide))
    · exact (accessed_store ..).noted

theorem writeCompletion_of_none (h : d.reg 0x8010 4 = 0) : d.writeCompletion f record = d := if_pos h

theorem writeCompletion_of_refused {a : Nat} {cause : Nat} (hcount : d.reg 0x8010 4 ≠ 0)
    (h : d.problemIn .host .write (d.reg 0x8010 3 + f.number.toNat % d.reg 0x8010 4 * 64) 64 = some (.stack a cause)) :
    d.writeCompletion f record = d.bump 0x8010 9 1 := by
  unfold Dev.writeCompletion
  dsimp only
  rw [if_neg hcount, h]

theorem writeCompletion_of_taken (hcount : d.reg 0x8010 4 ≠ 0)
    (h : d.problemIn .host .write (d.reg 0x8010 3 + f.number.toNat % d.reg 0x8010 4 * 64) 64 = none) :
    d.writeCompletion f record = d.store none (d.reg 0x8010 3 + f.number.toNat % d.reg 0x8010 4 * 64) record := by
  unfold Dev.writeCompletion
  dsimp only
  rw [if_neg hcount, h]

theorem onlyPort_sendEvent : OnlyPort d (d.sendEvent record) := by
  unfold Dev.sendEvent
  split
  · exact onlyPort_sendMsg ..
  · exact .refl

end

/-! ### The frame is complete -/

theorem failUnsent_of_none {d : Dev} (h : ∀ p ∈ d.exchanges, p.2.state ≠ .sending) : d.failUnsent = d :=
  foldl_eq_self fun p hp => if_neg (h p hp)

/-- The record written and sent, and the frame marked complete. -/
def frameClosed (d : Dev) (f : FrameRun) : Dev :=
  ((d.writeCompletion f (d.compRecord f)).sendEvent (d.compRecord f)).modFrame fun x => { x with complete := true }

section
variable {d : Dev} {f : FrameRun}

theorem completeFrame_of_done (hframe : d.tick.frame = some f) (hopen : f.complete = false) (hdone : d.frameDone = true)
    (hraised : d.faults.raised = []) : d.completeFrame =
      if (frameClosed d f).failUnsent.tickRun then (frameClosed d f).failUnsent else (frameClosed d f).failUnsent.applyNow := by
  unfold Dev.completeFrame
  rw [hframe]
  exact if_neg (by rw [hopen, hdone, hraised]; decide)

/-- What closing a frame leaves. -/
theorem frameClosed_spec (d : Dev) (f : FrameRun) :
    (∀ i k, i < 0x2010 → k < 256 → (frameClosed d f).reg i k = d.reg i k) ∧
      (frameClosed d f).tick = { d.tick with frame := d.tick.frame.map fun x => { x with complete := true } } ∧
      (frameClosed d f).cores = d.cores ∧ (frameClosed d f).exchanges = d.exchanges ∧
      (frameClosed d f).mem = (d.writeCompletion f (d.compRecord f)).mem := by
  have hwrite := noted_writeCompletion d f (d.compRecord f)
  unfold frameClosed
  generalize d.writeCompletion f (d.compRecord f) = e at hwrite ⊢
  have hsend := onlyPort_sendEvent e (d.compRecord f)
  generalize e.sendEvent (d.compRecord f) = x at hsend ⊢
  refine ⟨fun i k hi hk => (hsend.reg i k).trans (hwrite.regs i k hi hk), ?_, ?_, ?_, hsend.mem⟩
  · unfold Dev.modFrame Dev.modTick
    dsimp only
    rw [hsend, hwrite.frame]
  · change x.cores = _
    rw [hsend, hwrite.frame]
  · change x.exchanges = _
    rw [hsend, hwrite.frame]
    rfl

end

theorem frameComplete_closes {s : State} {f : FrameRun} (hframe : s.dev.tick.frame = some f) (hopen : f.complete = false)
    (hdone : s.dev.frameDone = true) (hraised : s.dev.faults.raised = []) (hrun : s.dev.tickRun = true)
    (hsending : ∀ p ∈ s.dev.exchanges, p.2.state ≠ .sending) {count at_ : Nat} (hcount : count = s.dev.reg 0x8010 4)
    (hat : at_ = s.dev.reg 0x8010 3 + f.number.toNat % count * 64) :
    ∃ t, exec .frameComplete s = .next t ∧ t.dev.tick.frame = some { f with complete := true } ∧
      t.dev.tickNumber = s.dev.tickNumber ∧ t.dev.cores = s.dev.cores ∧
      (count ≠ 0 → s.dev.problemIn .host .write at_ 64 = none → laidDown s.dev t.dev at_ (s.dev.compRecord f)) ∧
      (∀ a cause, count ≠ 0 → s.dev.problemIn .host .write at_ 64 = some (.stack a cause) →
        t.dev.mem = s.dev.mem ∧ t.dev.reg 0x8010 9 = counted s.dev 0x8010 9 1) ∧
      (count = 0 → t.dev.mem = s.dev.mem) := by
  obtain ⟨hregs, htick, hcores, hexchanges, hmem⟩ := frameClosed_spec s.dev f
  have hclosed : s.dev.completeFrame = frameClosed s.dev f := by
    rw [completeFrame_of_done hframe hopen hdone hraised, failUnsent_of_none (by rw [hexchanges]; exact hsending), if_pos]
    rw [← hrun]
    unfold Dev.tickRun
    rw [hregs _ _ (by decide) (by decide)]
  have hstart := hat
  rw [hcount] at hstart
  refine ⟨s.withDev (frameClosed s.dev f), congrArg (fun d => Host.Outcome.next (s.withDev d)) hclosed, ?_,
    hregs _ _ (by decide) (by decide), hcores, fun hc hp x => ?_, fun a cause hc hp => ⟨?_, ?_⟩, fun hc => ?_⟩
  · change (frameClosed s.dev f).tick.frame = _
    rw [htick, hframe]
    rfl
  · change (frameClosed s.dev f).mem.byte x = _
    rw [hmem, writeCompletion_of_taken _ _ _ (hcount ▸ hc) (hstart ▸ hp), hstart]
    exact Dev.byte_store _ _ _ _ x
  · refine hmem.trans ?_
    rw [writeCompletion_of_refused _ _ _ (hcount ▸ hc) (hstart ▸ hp)]
    rfl
  · change (frameClosed s.dev f).reg 0x8010 9 = _
    unfold frameClosed
    rw [writeCompletion_of_refused _ _ _ (hcount ▸ hc) (hstart ▸ hp)]
    exact ((onlyPort_sendEvent _ _).reg _ _).trans ((reg_bump _ _ (by decide) (by decide)).trans (if_pos ⟨rfl, rfl⟩))
  · refine hmem.trans ?_
    rw [writeCompletion_of_none _ _ _ (hcount ▸ hc)]

end Sys2Proof.Proofs
end

section
/-! SUPPORT. What the parts of the boundary sequence leave of the tick (15 R453, R455, R469, 16 R498, 22 R639-R642). -/

namespace Sys2Proof.Proofs

open Sys2Proof.Machine Sys2Proof.Terms

/-! ### What the boundary sequence keeps -/

/-- What the tick holds for the frame to be entered: the header that waits, the accepted symbol, the fill list, replayed inputs. -/
def tickMark (t : Tick) : Option LoadedHeader × Option EdgeKind × Nat × Nat × List (List Byte) :=
  (t.next, t.accepted, t.fillList, t.fillCount, t.replayInputs)

/-- The numbers of the tick and the frame, what the tick holds for the frame to be entered, the pending values, and that no
key stream is open, stay. -/
structure EntryKept (d e : Dev) : Prop where
  numbers : ∀ k, k < 0x10 → e.reg 0x2000 k = d.reg 0x2000 k
  tick : tickMark e.tick = tickMark d.tick
  shadow : e.shadow = d.shadow
  streams : ∀ k, (d.channel k).stream = none → (e.channel k).stream = none

/-- Beyond that the current frame keeps what it has of its boundary and its barrier. -/
structure EdgeWork (d e : Dev) : Prop extends EntryKept d e where
  mark : e.tick.frame.map frameMark = d.tick.frame.map frameMark

section
variable {d e f : Dev}

theorem EntryKept.refl (d : Dev) : EntryKept d d := ⟨fun _ _ => rfl, rfl, rfl, fun _ => id⟩

theorem EntryKept.trans (h : EntryKept d e) (h' : EntryKept e f) : EntryKept d f where
  numbers k hk := (h'.numbers k hk).trans (h.numbers k hk)
  tick := h'.tick.trans h.tick
  shadow := h'.shadow.trans h.shadow
  streams k hk := h'.streams k (h.streams k hk)

theorem EdgeWork.refl (d : Dev) : EdgeWork d d := ⟨.refl d, rfl⟩

theorem EdgeWork.trans (h : EdgeWork d e) (h' : EdgeWork e f) : EdgeWork d f :=
  ⟨h.toEntryKept.trans h'.toEntryKept, h'.mark.trans h.mark⟩

/-- What leaves the registers, the tick, the pending values and the channels alone. -/
theorem edgeWork_of_same (hregs : e.regs = d.regs) (htick : e.tick = d.tick) (hshadow : e.shadow = d.shadow)
    (hchannels : e.channels = d.channels) : EdgeWork d e where
  numbers k _ := reg_congr hregs _ k
  tick := by rw [htick]
  shadow := hshadow
  streams k hk := by
    unfold Dev.channel
    rw [hchannels]
    exact hk
  mark := by rw [htick]

theorem Noted.edgeWork (h : Noted d e) : EdgeWork d e where
  numbers k hk := h.regs _ k (by decide) (by omega)
  tick := by rw [h.frame]
  shadow := by rw [h.frame]
  streams k hk := by rw [h.frame]; exact hk
  mark := by rw [h.frame]

theorem Accessed.edgeWork (h : Accessed d e) : EdgeWork d e := h.noted.edgeWork

theorem OnlyPort.edgeWork (h : OnlyPort d e) : EdgeWork d e :=
  edgeWork_of_same h.regs h.tick (by rw [h]) (by rw [h])

theorem BlockWork.edgeWork (h : BlockWork d e) : EdgeWork d e where
  numbers k hk := h.regs _ k ⟨by omega, .inl (by decide)⟩
  tick := by rw [h.frame]; rfl
  shadow := by rw [h.frame]
  streams k hk := by rw [h.frame]; exact hk
  mark := h.mark

theorem edgeWork_foldl {α : Type} {f : Dev → α → Dev} {l : List α} (hf : ∀ d, ∀ x ∈ l, EdgeWork d (f d x)) (d : Dev) :
    EdgeWork d (l.foldl f d) :=
  foldl_rel (R := EdgeWork) .refl (fun _ _ _ => .trans) hf d

end

section
variable (d : Dev)

theorem edgeWork_setReg {i k : Nat} (v : Nat) (h : 0x2000 < i ∨ i = 0x2000 ∧ 0x10 ≤ k) : EdgeWork d (d.setReg i k v) where
  numbers m hm := by
    unfold Dev.reg Dev.setReg
    rw [tget_tset, if_neg (by omega)]
  tick := rfl
  shadow := rfl
  streams _ := id
  mark := rfl

theorem edgeWork_bump {i k : Nat} (n : Nat) (h : 0x2000 < i ∨ i = 0x2000 ∧ 0x10 ≤ k) : EdgeWork d (d.bump i k n) :=
  edgeWork_setReg d _ h

theorem edgeWork_modTick {g : Tick → Tick} (htick : tickMark (g d.tick) = tickMark d.tick) (hframe : (g d.tick).frame = d.tick.frame) :
    EdgeWork d (d.modTick g) where
  numbers _ _ := rfl
  tick := htick
  shadow := rfl
  streams _ := id
  mark := congrArg _ hframe

theorem edgeWork_setChannel (k : Nat) {x : Channel} (h : (d.channel k).stream = none → x.stream = none) :
    EdgeWork d (d.setChannel k x) where
  numbers _ _ := rfl
  tick := rfl
  shadow := rfl
  streams j hj := by
    rw [Dev.channel_setChannel]
    split
    · next heq => exact h (heq ▸ hj)
    · exact hj
  mark := rfl

/-! ### Until the frame is opened -/

theorem edgeWork_failExchange (slot kind : Nat) : EdgeWork d (d.failExchange slot false kind) := by
  unfold Dev.failExchange
  split
  · exact .refl d
  · split
    · exact .refl d
    · simp only [Bool.false_eq_true, if_false]
      refine .trans ?_ (edgeWork_bump _ _ (.inl (by decide)))
      exact edgeWork_of_same rfl rfl rfl rfl

theorem edgeWork_failUnsent : EdgeWork d d.failUnsent :=
  edgeWork_foldl (fun d p _ => by
    split
    · exact edgeWork_failExchange d _ _
    · exact .refl d) d

theorem entryKept_frameClosed (f : FrameRun) : EntryKept d (frameClosed d f) := by
  obtain ⟨hregs, htick, -, -, -⟩ := frameClosed_spec d f
  have hwrite := (noted_writeCompletion d f (d.compRecord f)).edgeWork.trans (onlyPort_sendEvent _ (d.compRecord f)).edgeWork
  exact ⟨fun k hk => hregs _ _ (by decide) (by omega), by rw [htick]; rfl, hwrite.shadow, hwrite.streams⟩

theorem edgeWork_resumeLog : EdgeWork d d.resumeLog := by
  unfold Dev.resumeLog
  split
  · exact (edgeWork_setReg d _ (.inl (by decide))).trans (edgeWork_modTick _ rfl rfl)
  · exact .refl d

/-- One channel closes. -/
def channelClosed (d : Dev) (k : Nat) : Dev :=
  let d := if d.channel k = Channel.fresh then d else d.setChannel k .fresh
  if d.reg (0x5400 + k) 1 = 0 then d else d.setReg (0x5400 + k) 1 0

theorem closeChannels_eq : d.closeChannels = (List.range 8).foldl channelClosed d := rfl

theorem channelClosed_spec (k : Nat) : EdgeWork d (channelClosed d k) ∧ ((channelClosed d k).channel k).stream = none := by
  unfold channelClosed
  obtain ⟨e, he, hwork, hnone⟩ : ∃ e, e = (if d.channel k = Channel.fresh then d else d.setChannel k .fresh) ∧ EdgeWork d e ∧
      (e.channel k).stream = none := by
    refine ⟨_, rfl, ?_⟩
    split
    · next h => exact ⟨.refl d, by rw [h]; rfl⟩
    · exact ⟨edgeWork_setChannel d k fun _ => rfl, by rw [Dev.channel_setChannel_same]; rfl⟩
  rw [← he]
  dsimp only
  split
  · exact ⟨hwork, hnone⟩
  · exact ⟨hwork.trans (edgeWork_setReg e _ (.inl (by omega))), hnone⟩

theorem edgeWork_closeChannels : EdgeWork d d.closeChannels :=
  edgeWork_foldl (fun d k _ => (channelClosed_spec d k).1) d

theorem closeChannels_closes {k : Nat} (hk : k < 8) : (d.closeChannels.channel k).stream = none := by
  rw [closeChannels_eq]
  have hall (n : Nat) : ∀ k < n, (((List.range n).foldl channelClosed d).channel k).stream = none := by
    induction n with
    | zero => exact fun k hk => absurd hk (Nat.not_lt_zero k)
    | succ n ih =>
      intro k hk
      rw [List.range_succ, List.foldl_append]
      obtain ⟨hwork, hnone⟩ := channelClosed_spec ((List.range n).foldl channelClosed d) n
      obtain rfl | hlt := Nat.lt_succ_iff_lt_or_eq.mp hk |>.symm
      · exact hnone
      · exact hwork.streams k (ih k hlt)
  exact hall 8 k hk

theorem edgeWork_applyPset (s : Nat) : EdgeWork d (d.applyPset s) := by
  have hset (e : Dev) (x : Machine.PSet) : EdgeWork e (e.setPset s x) := edgeWork_of_same rfl rfl rfl rfl
  have hreg (e : Dev) (k v : Nat) : EdgeWork e (e.setReg (0x5100 + s) k v) := edgeWork_setReg e v (.inl (by omega))
  unfold Dev.applyPset
  dsimp only
  split
  · split
    · exact (((hreg _ _ _).trans (hreg _ _ _)).trans (hset _ _)).trans (hreg _ _ _)
    · exact ((hreg _ _ _).trans (hreg _ _ _)).trans (hset _ _)
  · exact (((hset _ _).trans (hreg _ _ _)).trans (hreg _ _ _)).trans (hreg _ _ _)
  · exact .refl d

theorem edgeWork_arm (kind at_ arg : Nat) (input : Option (List Byte)) : EdgeWork d (d.arm kind at_ arg input) := by
  unfold Dev.arm
  dsimp only
  split
  · exact (edgeWork_bump d _ (.inl (by decide))).trans (edgeWork_modTick _ rfl rfl)
  · exact edgeWork_modTick d rfl rfl

theorem edgeWork_startReplay : EdgeWork d d.startReplay := by
  unfold Dev.startReplay
  dsimp only
  exact ((accessed_hostRead d _ _).edgeWork.trans (edgeWork_foldl (fun d r _ => edgeWork_arm d _ _ _ _) _)).trans
    (edgeWork_setReg _ _ (.inl (by decide)))

theorem edgeWork_applyOwners (c : Nat) (ready : Bool) : EdgeWork d (d.applyOwners c ready) := by
  unfold Dev.applyOwners
  split
  · exact .refl d
  · exact edgeWork_of_same rfl rfl rfl rfl

theorem edgeWork_replayTurn (old : Dev) : EdgeWork d
    (if d.replaying ∧ !old.replaying then d.startReplay else if old.replaying ∧ !d.replaying then d.setReg 0x2060 6 0 else d) := by
  split
  · exact edgeWork_startReplay d
  · split
    · exact edgeWork_setReg d _ (.inl (by decide))
    · exact .refl d

/-- With nothing pending, what takes effect at a boundary are parameter sets and owners. -/
theorem edgeWork_applyShadow (hshadow : d.shadow = []) (header : Nat) :
    EdgeWork d (d.applyShadow { header := header, list := [] } true) := by
  unfold Dev.applyShadow
  dsimp only
  rw [hshadow]
  simp only [List.filter_nil, List.map_nil, List.append_nil, List.foldl_nil, List.any_nil, Bool.false_eq_true, if_false]
  have hsame : ({ d with shadow := [] } : Dev) = d := by rw [← hshadow]
  rw [hsame]
  refine .trans ?_ (edgeWork_replayTurn _ d)
  refine .trans ?_ (edgeWork_foldl (fun e c _ => .refl e) _)
  refine .trans ?_ (edgeWork_foldl (fun e p _ => edgeWork_applyOwners e _ _) _)
  exact (edgeWork_setReg d _ (.inr ⟨rfl, le_rfl⟩)).trans (edgeWork_foldl (fun e p _ => edgeWork_applyPset e _) _)

theorem edgeWork_payWrites : EdgeWork d d.payWrites := by
  unfold Dev.payWrites
  exact (edgeWork_of_same (d := d) (e := { d with owedWrites := [] }) rfl rfl rfl rfl).trans
    (edgeWork_foldl (fun d w _ => (accessed_writeAs d w.1 w.2.1 w.2.2).edgeWork) _)

end

end Sys2Proof.Proofs
end

section
/-! SUPPORT. ENTER edges: the boundary sequence (15 R453, R455). -/

namespace Sys2Proof.Proofs

open Sys2Proof.Machine Sys2Proof.Terms

/-! ### Once the frame is opened -/

section
variable {d e : Dev} (h : EdgeWork d e)
include h

theorem EdgeWork.setReg {i k v : Nat} (hi : 0x2000 < i) : EdgeWork d (e.setReg i k v) := h.trans (edgeWork_setReg e v (.inl hi))

theorem EdgeWork.modLib {g : Library → Library} : EdgeWork d (e.modLib g) := ⟨⟨h.numbers, h.tick, h.shadow, h.streams⟩, h.mark⟩

theorem EdgeWork.modSterling {g : Sterling → Sterling} : EdgeWork d (e.modSterling g) :=
  ⟨⟨h.numbers, h.tick, h.shadow, h.streams⟩, h.mark⟩

end

section
variable (d : Dev)

theorem edgeWork_latchLists : EdgeWork d d.latchLists := by
  unfold Dev.latchLists
  refine .trans (edgeWork_foldl (fun d c _ => ?_) d) (edgeWork_foldl (fun d m _ => ?_) _)
  · dsimp only
    split
    · exact .refl d
    · exact edgeWork_of_same rfl rfl rfl rfl
  · exact edgeWork_of_same rfl rfl rfl rfl

theorem edgeWork_copyExponents : EdgeWork d d.copyExponents := by
  unfold Dev.copyExponents
  refine .trans (.trans (edgeWork_foldl (fun d r _ => edgeWork_foldl (fun d i _ => ?_) d) d) (edgeWork_modTick _ rfl rfl))
    (edgeWork_setReg _ _ (.inl (by decide)))
  exact (accessed_wr d _ _).edgeWork

theorem blockWork_prefetchBoundary : BlockWork d d.prefetchBoundary := by
  unfold Dev.prefetchBoundary
  refine .trans (.trans (blockWork_withStk d _) (blockWork_foldl (fun d p _ => ?_) _)) (blockWork_foldl (fun d p _ =>
    blockWork_foldl (fun d s _ => ?_) d) _)
  · exact (blockWork_setReg d _ (by decide) (by unfold fixedEntry; omega)).trans (blockWork_modCluster ..)
  · split
    · split
      · exact blockWork_abortStream ..
      · exact (blockWork_advance ..).trans (blockWork_setStream ..)
    · exact .refl d

theorem edgeWork_takeExt : EdgeWork d d.takeExt := by
  unfold Dev.takeExt
  split
  · exact .refl d
  · exact (((((EdgeWork.refl d).modLib).setReg (by decide)).setReg (by decide)).setReg (by decide)).modSterling
  · exact ((((((EdgeWork.refl d).modLib).setReg (by decide)).setReg (by decide)).setReg (by decide)).setReg (by decide)).modSterling

theorem edgeWork_assign (k : Nat) (id : BitVec 64) : EdgeWork d (d.assign k id) := by
  unfold Dev.assign
  split
  · exact .refl d
  · exact ((noted_bump d _ _ (by decide)).trans (noted_logAppend _ _ _ _ _)).edgeWork.trans (onlyPort_place _ _ _).edgeWork

theorem edgeWork_assignWaiting : EdgeWork d d.assignWaiting := by
  unfold Dev.assignWaiting
  split
  · exact .refl d
  · exact (onlyPort_modPort d _).edgeWork.trans (edgeWork_foldl (fun d w _ => edgeWork_assign d w.1 w.2) _)

theorem edgeWork_thermBoundary (was : Power) : EdgeWork d (d.thermBoundary was) := by
  unfold Dev.thermBoundary
  dsimp only
  split
  · exact ((noted_setReg d _ _ (by decide)).trans (accessed_faultUc ..).noted).edgeWork
  · exact (noted_setReg d _ _ (by decide)).edgeWork

theorem edgeWork_stretch : EdgeWork d d.stretch := by
  unfold Dev.stretch
  split
  · exact .refl d
  · exact ((noted_setReg d _ _ (by decide)).trans (noted_setReg _ _ _ (by decide))).edgeWork

theorem edgeWork_modPower (g : Power → Power) : EdgeWork d (d.modPower g) := edgeWork_of_same rfl rfl rfl rfl

theorem edgeWork_applyGrants (table : List Nat) : EdgeWork d (d.applyGrants table) := by
  unfold Dev.applyGrants
  dsimp only
  refine .trans ?_ (edgeWork_modPower _ _)
  have hset := ((noted_setReg d 4 d.budget (by decide : 0x2010 ≤ 0x7000)).trans (noted_setReg (i := 0x7000) _ 5
    (total ((List.range requesters).map fun i => d.clampRequest i (table.getD i 0))) (by decide)))
  split
  · exact (hset.trans (noted_bump _ _ _ (by decide))).edgeWork
  · exact hset.edgeWork

theorem edgeWork_queueOpens (rs : List OpenRec) : EdgeWork d (d.queueOpens rs) := by
  refine edgeWork_foldl (fun d r _ => ?_) d
  exact edgeWork_setChannel d _ id

theorem edgeWork_armLaunches (ls : List Launch) : EdgeWork d (d.armLaunches ls) :=
  edgeWork_foldl (fun d _ _ => edgeWork_arm d _ _ _ _) d

theorem edgeWork_applyLoss (n frame : Nat) (replayed : Bool) : EdgeWork d (d.applyLoss n frame replayed) := by
  have hdrop : Noted d (if replayed then d else d.dropMember n) := by
    split
    · exact .refl d
    · exact noted_setReg d _ _ (by decide)
  unfold Dev.applyLoss
  dsimp only
  refine .trans (.trans (hdrop.trans ?_).edgeWork (edgeWork_modTick _ rfl rfl)) (noted_logAppend ..).edgeWork
  exact ((noted_setReg _ _ _ (by decide)).trans (noted_bump _ _ _ (by decide))).trans (noted_setReg _ _ _ (by decide))

theorem edgeWork_applyLosses (frame : Nat) : EdgeWork d (d.applyLosses frame) :=
  (edgeWork_modTick d rfl rfl).trans (edgeWork_foldl (fun d _ _ => edgeWork_applyLoss d _ _ _) _)

/-- With no input to replay, what a boundary does about replay is to show its end. -/
theorem edgeWork_replayInputs (s : Fuses) (frame : Nat) (h : d.tick.replayInputs = []) :
    EdgeWork d (d.replayInputs s frame) := by
  unfold Dev.replayInputs
  dsimp only
  rw [h, List.filter_nil, List.foldl_nil]
  have hfired : EdgeWork d (d.modTick fun t => { t with replayInputs := t.replayInputs.filter fun r =>
      !(logKind r ≠ 5 && decide (logFrame r ≤ frame)) }) := by
    refine edgeWork_modTick d ?_ rfl
    unfold tickMark
    dsimp only
    rw [h, List.filter_nil]
  split
  · exact hfired.setReg (by decide)
  · exact hfired

end

/-! ### The frame that is opened -/

/-- The record of a frame as it is opened on tick `n`. -/
def openedFrame (d : Dev) (frame : Nat) : FrameRun :=
  { number := BitVec.ofNat 64 frame, tick := BitVec.ofNat 64 d.tickNumber,
    genTick := (d.tick.next.map (·.genTick)).getD d.drawWord.1, barrier := false, barrierAt := 0, complete := false,
    overrun := false, esSat := false, poison := false, satSkip := false, coresStopped := 0, poisonWrites := 0, refusals := 0,
    faultsUc := 0 }

theorem openFrame_eq (d : Dev) (frame : Nat) : d.openFrame frame = d.drawWord.2.modTick fun t => { t with
    frame := some (openedFrame d frame), fillList := (t.next.map (·.fills)).getD 0, fillCount := (t.next.map (·.fillCount)).getD 0,
    fillNext := 0, firstFrame := false, readySent := false, readyFrom := t.readyFrom.filter (fun p => frame < p.2), missing := [],
    starved := false } := rfl

/-! ### The boundary sequence -/

/-- The frame that runs has been ended, before the edge is taken. -/
def frameEnded (d : Dev) : Dev := ((d.classifyAll 65536).completeFrame).failUnsent

/-- The update items of a header. -/
def headItems (head : Option LoadedHeader) : List (Nat × Nat) :=
  (head.map fun h => h.updates.map fun u => (u.1.toNat * 256 + u.2.1.toNat, u.2.2.toNat)).getD []

/-- From an edge that has been taken to the frame's record: the frame's number, closed channels and pending values. -/
def boundaryTaken (d : Dev) (head : Option LoadedHeader) (frame : Nat) : Dev :=
  ((((d.setReg 0x2000 0x0A frame).resumeLog).closeChannels).applyShadow
    { header := (head.map (·.addr)).getD 0, list := headItems head } true).payWrites

/-- What the boundary does once the frame is open, up to its header. -/
def boundaryRun (d : Dev) (was : Power) (head : Option LoadedHeader) : Dev :=
  let d := ((d.latchLists.copyExponents.prefetchBoundary).takeExt).assignWaiting
  let d := (d.thermBoundary was).stretch
  let d := d.modPower fun x => { x with energy := [], withholding := [], elapsed := 0 }
  match head with
  | some h => ((d.applyGrants h.power).queueOpens h.opens).armLaunches h.launches
  | none => d

/-- The boundary's last part: losses and replayed inputs. -/
def boundaryClosed (d : Dev) (fuses : Fuses) (frame : Nat) : Dev :=
  ((d.modTick fun t => { t with next := none }).applyLosses frame).replayInputs fuses frame

theorem enterEdge_eq {d : Dev} (fuses : Fuses) (haccepted : d.tick.accepted = some .enter) (hstate : d.reg 0x2000 3 = 1) :
    d.enterEdge fuses = boundaryClosed (boundaryRun ((boundaryTaken (frameEnded d).edge (frameEnded d).edge.tick.next
      d.nextFrame).openFrame d.nextFrame) d.power (frameEnded d).edge.tick.next) fuses d.nextFrame := by
  unfold Dev.enterEdge
  rw [if_neg (by rw [haccepted, hstate]; decide)]
  unfold frameEnded
  generalize d.classifyAll 65536 = c
  generalize c.completeFrame.failUnsent = c
  generalize c.edge = c
  unfold boundaryTaken headItems boundaryRun boundaryClosed
  rfl

theorem classifyAll_of_none {d : Dev} (h : d.faults.raised = []) (n : Nat) : d.classifyAll n = d := by
  cases n with
  | zero => rfl
  | succ n => exact if_pos (.inl h)

theorem entryKept_completeFrame {d : Dev} (hrun : d.tickRun = true) : EntryKept d d.completeFrame := by
  unfold Dev.completeFrame
  split
  · exact .refl d
  · next f _ =>
    split
    · exact .refl d
    · have hclosed : EntryKept d (frameClosed d f).failUnsent :=
        (entryKept_frameClosed d f).trans (edgeWork_failUnsent _).toEntryKept
      change EntryKept d (if (frameClosed d f).failUnsent.tickRun then (frameClosed d f).failUnsent
        else (frameClosed d f).failUnsent.applyNow)
      rw [if_pos]
      · exact hclosed
      · rw [← hrun]
        unfold Dev.tickRun
        rw [hclosed.numbers 1 (by decide)]

theorem entryKept_frameEnded {d : Dev} (hrun : d.tickRun = true) (hraised : d.faults.raised = []) : EntryKept d (frameEnded d) := by
  unfold frameEnded
  rw [classifyAll_of_none hraised]
  exact (entryKept_completeFrame hrun).trans (edgeWork_failUnsent _).toEntryKept

theorem headItems_of_none {head : Option LoadedHeader} (h : ∀ x, head = some x → x.updates = []) : headItems head = [] := by
  unfold headItems
  cases head with
  | none => rfl
  | some x =>
    rw [Option.map_some, h x rfl]
    rfl

theorem edgeWork_boundaryTaken {d : Dev} {head : Option LoadedHeader} (frame : Nat) (hshadow : d.shadow = [])
    (hitems : headItems head = []) : EdgeWork (d.setReg 0x2000 0x0A frame) (boundaryTaken d head frame) ∧
      ∀ k, k < 8 → ((boundaryTaken d head frame).channel k).stream = none := by
  unfold boundaryTaken
  rw [hitems]
  have hresumed := edgeWork_resumeLog (d.setReg 0x2000 0x0A frame)
  generalize hr : (d.setReg 0x2000 0x0A frame).resumeLog = r at hresumed
  have hrest : EdgeWork r.closeChannels ((r.closeChannels.applyShadow { header := (head.map (·.addr)).getD 0, list := [] } true).payWrites) :=
    (edgeWork_applyShadow _ (((edgeWork_closeChannels r).shadow.trans hresumed.shadow).trans hshadow) _).trans (edgeWork_payWrites _)
  exact ⟨(hresumed.trans (edgeWork_closeChannels r)).trans hrest, fun k hk => hrest.streams k (closeChannels_closes r hk)⟩

theorem edgeWork_boundaryRun (d : Dev) (was : Power) (head : Option LoadedHeader) : EdgeWork d (boundaryRun d was head) := by
  have hlists : EdgeWork d ((d.latchLists.copyExponents.prefetchBoundary).takeExt).assignWaiting :=
    ((((edgeWork_latchLists d).trans (edgeWork_copyExponents _)).trans (blockWork_prefetchBoundary _).edgeWork).trans
      (edgeWork_takeExt _)).trans (edgeWork_assignWaiting _)
  have hpower : EdgeWork d (((((d.latchLists.copyExponents.prefetchBoundary).takeExt).assignWaiting.thermBoundary was).stretch).modPower
      fun x => { x with energy := [], withholding := [], elapsed := 0 }) :=
    ((hlists.trans (edgeWork_thermBoundary _ was)).trans (edgeWork_stretch _)).trans (edgeWork_modPower _ _)
  unfold boundaryRun
  cases head with
  | none => exact hpower
  | some h =>
    exact ((hpower.trans (edgeWork_applyGrants _ _)).trans (edgeWork_queueOpens _ _)).trans (edgeWork_armLaunches _ _)

theorem edgeWork_boundaryClosed (d : Dev) (fuses : Fuses) (frame : Nat) (h : d.tick.replayInputs = []) :
    EdgeWork (d.modTick fun t => { t with next := none }) (boundaryClosed d fuses frame) := by
  have hlosses := edgeWork_applyLosses (d.modTick fun t => { t with next := none }) frame
  refine hlosses.trans (edgeWork_replayInputs _ fuses frame ?_)
  have hinputs := congrArg (fun x => x.2.2.2.2) hlosses.tick
  exact hinputs.trans h

/-! ### The frame that an ENTER edge enters -/

/-- What is left once a frame has been opened on `d`, the header has been used, and the boundary has run. -/
theorem entered_of_opened {d e g : Dev} {frame : Nat} (hrun : EdgeWork (d.openFrame frame) e)
    (hclosed : EdgeWork (e.modTick fun t => { t with next := none }) g) : ∃ f, g.tick.frame = some f ∧
      f.number = .ofNat 64 frame ∧ f.tick = .ofNat 64 d.tickNumber ∧ f.barrier = false ∧ f.complete = false ∧
      g.tick.next = none ∧ g.tick.accepted = d.tick.accepted ∧ (∀ h, d.tick.next = some h → f.genTick = h.genTick ∧
        g.tick.fillList = h.fills ∧ g.tick.fillCount = h.fillCount) := by
  have hmark : g.tick.frame.map frameMark = some (frameMark (openedFrame d frame)) :=
    hclosed.mark.trans (hrun.mark.trans (by rw [openFrame_eq]; rfl))
  obtain ⟨f, hf, hfmark⟩ := Option.map_eq_some_iff.mp hmark
  have hopened : tickMark (d.openFrame frame).tick = (d.tick.next, d.tick.accepted, (d.tick.next.map (·.fills)).getD 0,
      (d.tick.next.map (·.fillCount)).getD 0, d.tick.replayInputs) := by
    rw [openFrame_eq]
    rfl
  have hran := hrun.tick.trans hopened
  have hend := hclosed.tick
  unfold tickMark at hran hend
  unfold frameMark openedFrame at hfmark
  simp only [Prod.mk.injEq] at hran hend hfmark
  obtain ⟨hnumber, htick, hgen, hbarrier, -, hcomplete⟩ := hfmark
  obtain ⟨-, haccepted, hfills, hcount, -⟩ := hran
  obtain ⟨hnone, haccepted', hfills', hcount', -⟩ := hend
  refine ⟨f, hf, hnumber, htick, hbarrier, hcomplete, hnone, haccepted'.trans haccepted, fun h hnext => ⟨hgen.trans ?_,
    (hfills'.trans hfills).trans ?_, (hcount'.trans hcount).trans ?_⟩⟩
  · rw [hnext]; rfl
  · rw [hnext]; rfl
  · rw [hnext]; rfl

theorem enterEdge_enters {s : State} (haccepted : s.dev.tick.accepted = some .enter) (hstate : s.dev.reg 0x2000 3 = 1)
    (hrun : s.dev.tickRun = true) (hshadow : s.dev.shadow = []) (hraised : s.dev.faults.raised = [])
    (hinputs : s.dev.tick.replayInputs = []) (hupdates : ∀ h, s.dev.tick.next = some h → h.updates = []) :
    ∃ t f, exec .enterEdge s = .next t ∧ t.dev.tickNumber = (s.dev.tickNumber + 1) % 2 ^ 64 ∧
      t.dev.frameNumber = s.dev.nextFrame % 2 ^ 64 ∧ t.dev.tick.frame = some f ∧
      f.number = .ofNat 64 s.dev.nextFrame ∧ f.tick = .ofNat 64 (s.dev.tickNumber + 1) ∧ f.barrier = false ∧
      f.complete = false ∧ t.dev.tick.next = none ∧ t.dev.tick.accepted = none ∧
      (∀ h, s.dev.tick.next = some h → f.genTick = h.genTick ∧ t.dev.tick.fillList = h.fills ∧
        t.dev.tick.fillCount = h.fillCount) ∧
      ∀ k, k < 8 → (t.dev.channel k).stream = none := by
  have hexec := enterEdge_eq s.fuses haccepted hstate
  have hended := entryKept_frameEnded hrun hraised
  obtain ⟨hnumber, -, hframe⟩ := edge_spec (frameEnded s.dev)
  generalize frameEnded s.dev = a at hexec hended hnumber hframe
  generalize a.edge = b at hexec hnumber hframe
  have htick : tickMark b.tick = tickMark { s.dev.tick with accepted := none } := by
    have hmark := hended.tick
    unfold tickMark at hmark ⊢
    simp only [Prod.mk.injEq] at hmark ⊢
    rw [hframe]
    exact ⟨hmark.1, rfl, hmark.2.2.1, hmark.2.2.2.1, hmark.2.2.2.2⟩
  have hnext : b.tick.next = s.dev.tick.next := congrArg Prod.fst htick
  have hbshadow : b.shadow = [] := by
    rw [hframe]
    exact hended.shadow.trans hshadow
  obtain ⟨htaken, hstreams⟩ := edgeWork_boundaryTaken s.dev.nextFrame hbshadow (headItems_of_none (head := b.tick.next)
    (by rw [hnext]; exact hupdates))
  generalize boundaryTaken b b.tick.next s.dev.nextFrame = c at hexec htaken hstreams
  have hctick : tickMark c.tick = tickMark { s.dev.tick with accepted := none } := htaken.tick.trans htick
  have hwork := edgeWork_boundaryRun (c.openFrame s.dev.nextFrame) s.dev.power b.tick.next
  generalize boundaryRun (c.openFrame s.dev.nextFrame) s.dev.power b.tick.next = e at hexec hwork
  have heinputs : e.tick.replayInputs = [] := by
    have hopened : (c.openFrame s.dev.nextFrame).tick.replayInputs = c.tick.replayInputs := by rw [openFrame_eq]; rfl
    exact ((congrArg (fun x => x.2.2.2.2) hwork.tick).trans hopened).trans ((congrArg (fun x => x.2.2.2.2) hctick).trans hinputs)
  have hclosed := edgeWork_boundaryClosed e s.fuses s.dev.nextFrame heinputs
  generalize boundaryClosed e s.fuses s.dev.nextFrame = g at hexec hclosed
  have hnumbers (k : Nat) (hk : k < 0x10) : g.reg 0x2000 k = (b.setReg 0x2000 0x0A s.dev.nextFrame).reg 0x2000 k :=
    (hclosed.numbers k hk).trans ((hwork.numbers k hk).trans (htaken.numbers k hk))
  have hctickNumber : c.tickNumber = (s.dev.tickNumber + 1) % 2 ^ 64 := by
    refine (htaken.numbers 9 (by decide)).trans ?_
    rw [Dev.reg_setReg _ _ _ _ _ _ (by decide) (by decide), if_neg (by decide)]
    refine hnumber.trans ?_
    rw [show a.tickNumber = s.dev.tickNumber from hended.numbers 9 (by decide)]
  obtain ⟨f, hf, hfnumber, hftick, hbarrier, hcomplete, hnone, hacc, hhead⟩ := entered_of_opened hwork hclosed
  refine ⟨s.withDev g, f, congrArg (fun d => Host.Outcome.next (s.withDev d)) hexec, ?_, ?_, hf, hfnumber, ?_, hbarrier, hcomplete,
    hnone, ?_, fun h hh => hhead h ?_, fun k hk => hclosed.streams k (hwork.streams k (hstreams k hk))⟩
  · refine (hnumbers 9 (by decide)).trans ?_
    rw [← htaken.numbers 9 (by decide)]
    exact hctickNumber
  · refine (hnumbers 0x0A (by decide)).trans ?_
    exact Dev.reg_setReg_same ..
  · rw [hftick, hctickNumber]
    exact BitVec.eq_of_toNat_eq (by simp)
  · exact hacc.trans (congrArg (fun x => x.2.1) hctick)
  · exact (congrArg Prod.fst hctick).trans hh

end Sys2Proof.Proofs
end

section
/-! SUPPORT. The frame barrier at one core (08 R243-R246, R249). -/

namespace Sys2Proof.Proofs

open Sys2Proof.Machine Sys2Proof.Terms

/-! ### What the barrier changes at a core -/

/-- The barrier has reached core `n`: of the cores only that one differs, and in memory only its status record. -/
structure Reached (n : Nat) (d e : Dev) : Prop where
  frame : e = { d with mem := e.mem, regs := e.regs, cores := e.cores, tick := { d.tick with frame := e.tick.frame },
                       faults := { d.faults with raised := e.faults.raised } }
  regs : ∀ i k, i ≠ 0x3001 → k < 256 → e.reg i k = d.reg i k
  mark : e.tick.frame.map frameMark = d.tick.frame.map frameMark
  others : ∀ m, m ≠ n → e.core m = d.core m
  records : ∀ m, e.mem.read (coreAddr m 0) 64 = d.mem.read (coreAddr m 0) 64
  bytes : ∀ x, x < coreAddr n 0x40 ∨ coreAddr n 0x80 ≤ x → e.mem.byte x = d.mem.byte x

section
variable {n : Nat} {d e f : Dev}

theorem Reached.refl (n : Nat) (d : Dev) : Reached n d d := ⟨rfl, fun _ _ _ _ => rfl, rfl, fun _ _ => rfl, fun _ => rfl, fun _ _ => rfl⟩

theorem Reached.trans (h : Reached n d e) (h' : Reached n e f) : Reached n d f where
  frame := by rw [h'.frame, h.frame]
  regs i k hi hk := (h'.regs i k hi hk).trans (h.regs i k hi hk)
  mark := h'.mark.trans h.mark
  others m hm := (h'.others m hm).trans (h.others m hm)
  records m := (h'.records m).trans (h.records m)
  bytes x hx := (h'.bytes x hx).trans (h.bytes x hx)

end

section
variable (d : Dev) (n : Nat)

theorem reached_setCore (c : Core) : Reached n d (d.setCore n c) where
  frame := rfl
  regs _ _ _ _ := rfl
  mark := rfl
  others m hm := by rw [Dev.core_setCore, if_neg hm]
  records _ := rfl
  bytes _ _ := rfl

theorem reached_modFrame {g : FrameRun → FrameRun} (hg : ∀ x, frameMark (g x) = frameMark x) : Reached n d (d.modFrame g) where
  frame := rfl
  regs _ _ _ _ := rfl
  mark := (unitWork_modFrame d hg).mark
  others _ _ := rfl
  records _ := rfl
  bytes _ _ := rfl

theorem reached_bump {k : Nat} (v : Nat) (hk : k < 256) : Reached n d (d.bump 0x3001 k v) where
  frame := rfl
  regs i m hi hm := by rw [reg_bump _ _ hk hm, if_neg fun h => hi h.1]
  mark := rfl
  others _ _ := rfl
  records _ := rfl
  bytes _ _ := rfl

theorem reached_modFaults (g : List RaisedFault → List RaisedFault) :
    Reached n d (d.modFaults fun x => { x with raised := g x.raised }) :=
  ⟨rfl, fun _ _ _ _ => rfl, rfl, fun _ _ => rfl, fun _ => rfl, fun _ _ => rfl⟩

theorem reached_faultUc (src unit addr : Nat) (reason status : BitVec 8) (detail : Nat) :
    Reached n d (d.faultUc src unit addr reason status detail) := by
  unfold Dev.faultUc Dev.raise
  dsimp only
  split
  · split
    · exact .refl n d
    · exact reached_modFaults d n (· ++ _)
  · exact reached_modFaults d n (· ++ _)

theorem reached_stopCore (why : CoreStop) : Reached n d (d.stopCore n why) :=
  (reached_setCore d n _).trans (reached_modFrame _ n fun _ => rfl)

/-- The status record of a core lies beside every entry record. -/
theorem reached_writeCoreStatus (state reason stream pc cycle tick residue busy : Nat) :
    Reached n d (d.writeCoreStatus n state reason stream pc cycle tick residue busy) where
  frame := rfl
  regs _ _ _ _ := rfl
  mark := rfl
  others _ _ := rfl
  records m := by
    refine read_write_apart d.mem _ _ ?_
    rw [mkRecord_length]
    unfold coreAddr
    omega
  bytes x hx := by
    refine (Memory.byte_write ..).trans (if_neg ?_)
    rw [mkRecord_length]
    unfold coreAddr at hx ⊢
    omega

end

/-! ### A core that takes part in no call -/

/-- A step at core `n` that leaves it in no call and in or out of the frame as it was. -/
def AtCore (n : Nat) (d e : Dev) : Prop :=
  (d.core n).call = none → Reached n d e ∧ (e.core n).call = none ∧ (e.core n).frame = (d.core n).frame

theorem AtCore.refl (n : Nat) (d : Dev) : AtCore n d d := fun h => ⟨.refl n d, h, rfl⟩

theorem AtCore.trans {n : Nat} {d e f : Dev} (h : AtCore n d e) (h' : AtCore n e f) : AtCore n d f := fun hd => by
  obtain ⟨hreach, hcall, hframe⟩ := h hd
  obtain ⟨hreach', hcall', hframe'⟩ := h' hcall
  exact ⟨hreach.trans hreach', hcall', hframe'.trans hframe⟩

section
variable (d : Dev) (n : Nat)

theorem core_stopCore (why : CoreStop) : (d.stopCore n why).core n = stoppedCore (d.core n) why := by
  obtain ⟨t, ht⟩ := stopCore_eq d n why
  rw [ht]
  exact (Dev.core_setCore d n n _).trans (if_pos rfl)

theorem core_faultUc (src unit addr : Nat) (reason status : BitVec 8) (detail : Nat) :
    (d.faultUc src unit addr reason status detail).core n = d.core n := (accessed_faultUc ..).core n

theorem atCore_programFault (p : Program) (reason : BitVec 8) (pc : Nat) : AtCore n d (d.programFault n p reason pc) := by
  intro hcall
  unfold Dev.programFault
  dsimp only
  split
  · exact ⟨.refl n d, hcall, rfl⟩
  · rw [abortCoreCall_of_none hcall]
    refine ⟨((reached_stopCore d n _).trans (reached_bump _ n 1 (by decide))).trans (reached_faultUc ..), ?_, ?_⟩
    · rw [core_faultUc]
      change ((d.stopCore n _).core n).call = none
      rw [core_stopCore]
      change (d.core n).call.filter _ = none
      rw [hcall]
      rfl
    · rw [core_faultUc]
      change ((d.stopCore n _).core n).frame = _
      rw [core_stopCore]
      rfl

theorem atCore_setCore {c : Core} (hcall : c.call = (d.core n).call) (hframe : c.frame = (d.core n).frame) :
    AtCore n d (d.setCore n c) := fun h => by
  have hcore : (d.setCore n c).core n = c := (Dev.core_setCore d n n c).trans (if_pos rfl)
  exact ⟨reached_setCore d n c, by rw [hcore, hcall, h], by rw [hcore, hframe]⟩

theorem atCore_deviceSignal (e : BitVec 4) : AtCore n d (d.deviceSignal n e) := by
  unfold Dev.deviceSignal
  dsimp only
  split
  · split
    · next c hc =>
      unfold Core.signal? at hc
      dsimp only at hc
      split at hc
      · cases hc
      · cases hc
        exact atCore_setCore d n rfl rfl
    · exact atCore_programFault d n _ _ _
  · exact atCore_setCore d n rfl rfl

theorem AtCore.ite {n : Nat} {d e : Dev} (p : Prop) [Decidable p] (h : AtCore n d e) : AtCore n d (if p then e else d) := by
  split
  · exact h
  · exact .refl n d

theorem atCore_checkPc (p : Program) : AtCore n d (d.checkPc n p) := .ite _ (atCore_programFault d n _ _ _)

theorem atCore_deliverHeld (es : List (BitVec 4)) : AtCore n d (d.deliverHeld n es) :=
  foldl_rel (R := AtCore n) (.refl n) (fun _ _ _ => .trans) (fun d e _ => atCore_deviceSignal d n e) d

/-! ### Program counters that pass -/

theorem checkPc_tin {d : Dev} {n : Nat} (hlow : (d.core n).tin.pc < 0x4000) (halign : (d.core n).tin.pc % 4 = 0) :
    d.checkPc n .tin = d := by
  unfold Dev.checkPc
  refine if_neg ?_
  change ¬(0x4000 < (d.core n).tin.pc + 4 ∨ (d.core n).tin.pc % 4 ≠ 0)
  omega

theorem checkPc_access {d : Dev} {n : Nat} (hlow : (d.core n).acc.pc < 0x4000) (halign : (d.core n).acc.pc % 8 = 0) :
    d.checkPc n .access = d := by
  unfold Dev.checkPc
  refine if_neg ?_
  change ¬(0x4000 < (d.core n).acc.pc + 8 ∨ (d.core n).acc.pc % 8 ≠ 0)
  omega

theorem checkPc_execute {d : Dev} {n : Nat} (hlow : (d.core n).exe.pc < 0x4000) (halign : (d.core n).exe.pc % 8 = 0) :
    d.checkPc n .execute = d := by
  unfold Dev.checkPc
  refine if_neg ?_
  change ¬(0x4000 < (d.core n).exe.pc + 8 ∨ (d.core n).exe.pc % 8 ≠ 0)
  omega

/-- A field of 14 bits keeps the alignment of the word that it begins. -/
theorem bitsAt_mod {v lo m : Nat} (hm : m ∣ 2 ^ 14) (h : v / 2 ^ lo % m = 0) : bitsAt v lo 14 % m = 0 := by
  unfold bitsAt
  rw [Nat.shiftRight_eq_div_pow, Nat.mod_mod_of_dvd _ hm, h]

theorem bitsAt_lt_half (v lo : Nat) : bitsAt v lo 14 < 0x4000 := Nat.mod_lt _ (by decide)

/-! ### The barrier at one core -/

theorem reached_coreBarrier : Reached n d (d.coreBarrier n) := by
  unfold Dev.coreBarrier
  dsimp only
  split
  · exact .refl n d
  · split
    · exact (reached_setCore d n _).trans (reached_modFrame _ n fun _ => rfl)
    · split
      · exact (reached_setCore d n _).trans (reached_writeCoreStatus ..)
      · split
        · refine .trans (.trans (.trans (.trans (reached_setCore d n _) (reached_stopCore _ n _)) (reached_bump _ n 1 (by decide)))
            (reached_faultUc ..)) (reached_setCore _ n _)
        · refine (reached_setCore d n _).trans ((((atCore_deliverHeld _ n _).trans (atCore_checkPc _ n .tin)).trans
            (atCore_checkPc _ n .access)).trans (atCore_checkPc _ n .execute) ?_).1
          rw [Dev.core_setCore, if_pos rfl]
          rfl

end

section
variable {d : Dev} {n : Nat} (hout : (d.core n).frame ≠ .inFrame) (hfree : d.faults.holds (.cluster (n / 16)) = false)
include hout hfree

theorem coreBarrier_of_disabled (hbit : (leNat (d.mem.read (coreAddr n 0) 64)).testBit 0 = false) : d.coreBarrier n =
    (d.setCore n { Core.fresh with frame := .disabled, heldSignals := (d.core n).heldSignals }).writeCoreStatus n 0 0 3 0 8
      d.tickNumber 0 0 := by
  unfold Dev.coreBarrier
  dsimp only
  rw [if_neg hout, if_neg (by rw [hfree]; decide), if_pos (by rw [Dev.rd, hbit]; rfl)]

theorem coreBarrier_of_enabled {r : List Byte} (hr : r = d.mem.read (coreAddr n 0) 64) (hbit : (leNat r).testBit 0 = true)
    (hlow : 12 ≤ leNat r / 2 ^ 16 % 32) (hhigh : leNat r / 2 ^ 16 % 32 ≤ 17) (htin : leNat r / 2 ^ 32 % 4 = 0)
    (hacc : leNat r / 2 ^ 48 % 8 = 0) (hexe : leNat r / 2 ^ 64 % 8 = 0) (hheld : (d.core n).heldSignals = []) :
    d.coreBarrier n = d.setCore n (d.enteredCore n r) := by
  have hread : d.rd (coreAddr n 0) 64 = r := hr.symm
  unfold Dev.coreBarrier
  dsimp only
  rw [hread, if_neg hout, if_neg (by rw [hfree]; decide), if_neg (by rw [hbit]; decide)]
  have hcore : (d.setCore n (d.enteredCore n r)).core n = d.enteredCore n r := (Dev.core_setCore d n n _).trans (if_pos rfl)
  have hlogN : (d.enteredCore n r).logN = leNat r / 2 ^ 16 % 32 := congrArg (· % 2 ^ 5) (Nat.shiftRight_eq_div_pow (leNat r) 16)
  rw [if_neg (by rw [hlogN]; omega), hheld]
  change (((d.setCore n (d.enteredCore n r)).checkPc n .tin).checkPc n .access).checkPc n .execute = _
  rw [checkPc_tin (by rw [hcore]; exact bitsAt_lt_half ..) (by rw [hcore]; exact bitsAt_mod (by decide) htin),
    checkPc_access (by rw [hcore]; exact bitsAt_lt_half ..) (by rw [hcore]; exact bitsAt_mod (by decide) hacc),
    checkPc_execute (by rw [hcore]; exact bitsAt_lt_half ..) (by rw [hcore]; exact bitsAt_mod (by decide) hexe)]

end

end Sys2Proof.Proofs
end

section
/-! SUPPORT. The frame barrier at every core, and what it leaves to drop (08 R243-R246, 11 R354, 12 R381, 14 R422). -/

namespace Sys2Proof.Proofs

open Sys2Proof.Machine Sys2Proof.Terms

/-! ### The barrier core by core -/

/-- The device when the barrier has reached the cores below `k`. -/
def barrierTo (d : Dev) (k : Nat) : Dev := (List.range k).foldl (fun (d : Dev) n => d.coreBarrier n) d

theorem barrierTo_succ (d : Dev) (k : Nat) : barrierTo d (k + 1) = (barrierTo d k).coreBarrier k := by
  unfold barrierTo
  rw [List.range_succ, List.foldl_append]
  rfl

/-- The barrier has reached cores below `k`: those from `k` on, and every entry record, are as they were. -/
structure ReachedTo (k : Nat) (d e : Dev) : Prop where
  frame : e = { d with mem := e.mem, regs := e.regs, cores := e.cores, tick := { d.tick with frame := e.tick.frame },
                       faults := { d.faults with raised := e.faults.raised } }
  regs : ∀ i k, i ≠ 0x3001 → k < 256 → e.reg i k = d.reg i k
  mark : e.tick.frame.map frameMark = d.tick.frame.map frameMark
  others : ∀ m, k ≤ m → e.core m = d.core m
  records : ∀ m, e.mem.read (coreAddr m 0) 64 = d.mem.read (coreAddr m 0) 64

theorem reachedTo_barrierTo (d : Dev) (k : Nat) : ReachedTo k d (barrierTo d k) := by
  induction k with
  | zero => exact ⟨rfl, fun _ _ _ _ => rfl, rfl, fun _ _ => rfl, fun _ => rfl⟩
  | succ k ih =>
    have hstep := reached_coreBarrier (barrierTo d k) k
    rw [← barrierTo_succ] at hstep
    exact { frame := by rw [hstep.frame, ih.frame]
            regs := fun i m hi hm => (hstep.regs i m hi hm).trans (ih.regs i m hi hm)
            mark := hstep.mark.trans ih.mark
            others := fun m hm => (hstep.others m (by omega)).trans (ih.others m (by omega))
            records := fun m => (hstep.records m).trans (ih.records m) }

/-- Cores reached later leave a core, and its status record, as it was reached. -/
theorem barrierTo_of_reached (d : Dev) {n k : Nat} (h : n < k) :
    (barrierTo d k).core n = ((barrierTo d n).coreBarrier n).core n ∧
      ∀ x, coreAddr n 0x40 ≤ x → x < coreAddr n 0x80 →
        (barrierTo d k).mem.byte x = ((barrierTo d n).coreBarrier n).mem.byte x := by
  induction k, h using Nat.le_induction with
  | base =>
    rw [barrierTo_succ]
    exact ⟨rfl, fun _ _ _ => rfl⟩
  | succ k hk ih =>
    have hstep := reached_coreBarrier (barrierTo d k) k
    rw [barrierTo_succ]
    refine ⟨(hstep.others n (by omega)).trans ih.1, fun x hlow hhigh => (hstep.bytes x ?_).trans (ih.2 x hlow hhigh)⟩
    unfold coreAddr at *
    omega

section
variable {k : Nat} {d e : Dev} (h : ReachedTo k d e)
include h

theorem ReachedTo.enteredCore (n : Nat) (r : List Byte) : e.enteredCore n r = d.enteredCore n r := by
  have hnumber : e.tickNumber = d.tickNumber := h.regs _ _ (by decide) (by decide)
  have hlive (s : Nat) : e.live s = d.live s := by
    unfold Dev.live Dev.pset
    rw [h.frame]
  have hclock : e.clock = d.clock := by rw [h.frame]
  unfold Dev.enteredCore
  dsimp only
  rw [hnumber, hclock, hlive]

theorem ReachedTo.holds (b : Block) : e.faults.holds b = d.faults.holds b := by
  rw [h.frame]
  rfl

theorem ReachedTo.cluster (c : Nat) : e.cluster c = d.cluster c := by
  unfold Dev.cluster
  rw [h.frame]

theorem ReachedTo.updUnit (m : Nat) : e.updUnit m = d.updUnit m := by
  unfold Dev.updUnit
  rw [h.frame]

theorem ReachedTo.nothingListed (hd : nothingListed d) : nothingListed e := by
  refine ⟨fun c hc => ?_, fun m hm => ?_⟩
  · rw [h.regs _ _ (by omega) (by decide), h.cluster]
    exact hd.1 c hc
  · rw [h.updUnit]
    exact hd.2 m hm

end

/-! ### A core out of the frame -/

/-- The fields of the status record of a core that its entry record does not enable. -/
def disabledFields (tick : Nat) : List (Nat × Nat × Nat) :=
  [(0, 8, 0), (8, 8, 0), (16, 16, 3), (64, 64, 8), (128, 64, tick), (192, 64, 0), (256, 64, 0)]

theorem disabledRecord_eq (tick : Nat) :
    mkRecord 64 [(0, 8, 0), (8, 8, 0), (16, 2, 3), (18, 14, 0), (64, 64, 8), (128, 64, tick), (192, 64, 0), (256, 64, 0)] =
      mkRecord 64 (disabledFields tick) := by
  rw [mkRecord_eq, mkRecord_eq, disabledFields]
  refine congrArg (leBytes 64) (fieldsValue_cons_congr _ (fieldsValue_cons_congr _ ?_))
  exact fieldsValue_join 16 2 14 3 0 _ (by decide) (by decide)

theorem disabledFields_fit (tick : Nat) : FieldsFit 0 (disabledFields tick) := by simp [FieldsFit, disabledFields]

theorem disabledByte {tick k at_ w v : Nat} (hmem : (at_, w, v) ∈ disabledFields tick) (hk : k < 64) (hlow : at_ ≤ 8 * k)
    (hhigh : 8 * k + 8 ≤ at_ + w) : (mkRecord 64 (disabledFields tick)).getD k 0 = .ofNat 8 (v / 2 ^ (8 * k - at_)) :=
  mkRecord_byte hk (disabledFields_fit tick) hmem hlow hhigh

/-- A byte of the status record that the barrier leaves of such a core. -/
theorem byte_disabled (d : Dev) (n : Nat) {k : Nat} (hk : k < 64) :
    (d.writeCoreStatus n 0 0 3 0 8 d.tickNumber 0 0).mem.byte (coreAddr n 0x40 + k) =
      (mkRecord 64 (disabledFields d.tickNumber)).getD k 0 := by
  unfold Dev.writeCoreStatus
  rw [disabledRecord_eq]
  refine (Memory.byte_write ..).trans ?_
  rw [mkRecord_length, if_pos ⟨Nat.le_add_right _ _, by omega⟩, Nat.add_sub_cancel_left]

section
variable {d : Dev} {n : Nat} (hn : n < 4096) (hout : (d.core n).frame ≠ .inFrame)
  (hfree : d.faults.holds (.cluster (n / 16)) = false) {r : List Byte} (hr : r = d.mem.read (coreAddr n 0) 64)
include hn hout hfree hr

/-- A core that its entry record does not enable, once the barrier has reached every core. -/
theorem barrierTo_of_disabled (hbit : (leNat r).testBit 0 = false) :
    (barrierTo d 4096).core n = { Core.fresh with frame := .disabled, heldSignals := (d.core n).heldSignals } ∧
      (barrierTo d 4096).mem.byte (coreAddr n 0x40) = 0 ∧ (barrierTo d 4096).mem.byte (coreAddr n 0x42) = 3 ∧
      (barrierTo d 4096).mem.byte (coreAddr n 0x48) = 8 := by
  have hto := reachedTo_barrierTo d n
  obtain ⟨hcore, hbytes⟩ := barrierTo_of_reached d hn
  have hsame : (barrierTo d n).core n = d.core n := hto.others n le_rfl
  have hstep := coreBarrier_of_disabled (d := barrierTo d n) (n := n) (by rw [hsame]; exact hout) (by rw [hto.holds]; exact hfree)
    (by rw [hto.records, ← hr]; exact hbit)
  rw [hstep] at hcore hbytes
  have hbyte {k : Nat} (hk : k < 64) : (barrierTo d 4096).mem.byte (coreAddr n 0x40 + k) =
      (mkRecord 64 (disabledFields (barrierTo d n).tickNumber)).getD k 0 :=
    (hbytes _ (Nat.le_add_right _ _) (by unfold coreAddr; omega)).trans (byte_disabled ((barrierTo d n).setCore n _) n hk)
  refine ⟨hcore.trans ?_, (hbyte (by decide : 0 < 64)).trans ?_, (hbyte (by decide : 2 < 64)).trans ?_,
    (hbyte (by decide : 8 < 64)).trans ?_⟩
  · rw [← hsame]
    exact (Dev.core_setCore _ n n _).trans (if_pos rfl)
  · exact disabledByte (at_ := 0) (w := 8) (v := 0) (by simp [disabledFields]) (by decide) (by decide) (by decide)
  · exact disabledByte (at_ := 16) (w := 16) (v := 3) (by simp [disabledFields]) (by decide) (by decide) (by decide)
  · exact disabledByte (at_ := 64) (w := 64) (v := 8) (by simp [disabledFields]) (by decide) (by decide) (by decide)

/-- A core that its entry record enables, once the barrier has reached every core. -/
theorem barrierTo_of_enabled (hbit : (leNat r).testBit 0 = true)
    (hlow : 12 ≤ leNat r / 2 ^ 16 % 32) (hhigh : leNat r / 2 ^ 16 % 32 ≤ 17) (htin : leNat r / 2 ^ 32 % 4 = 0)
    (hacc : leNat r / 2 ^ 48 % 8 = 0) (hexe : leNat r / 2 ^ 64 % 8 = 0) (hheld : (d.core n).heldSignals = []) :
    (barrierTo d 4096).core n = d.enteredCore n r := by
  have hto := reachedTo_barrierTo d n
  have hsame : (barrierTo d n).core n = d.core n := hto.others n le_rfl
  have hstep := coreBarrier_of_enabled (d := barrierTo d n) (n := n) (by rw [hsame]; exact hout) (by rw [hto.holds]; exact hfree)
    (hr.trans (hto.records n).symm) hbit hlow hhigh htin hacc hexe (by rw [hsame]; exact hheld)
  rw [(barrierTo_of_reached d hn).1, hstep, hto.enteredCore]
  exact (Dev.core_setCore _ n n _).trans (if_pos rfl)

end

end Sys2Proof.Proofs
end

section
/-! SUPPORT. After the barrier: what is dropped, and the edges of the tick settled (08 R244, 11 R354, 12 R381, 14 R422). -/

namespace Sys2Proof.Proofs

open Sys2Proof.Machine Sys2Proof.Terms

/-! ### What a cluster drops -/

/-- Only cores of cluster `c` differ, none of them by its frame, and the current frame keeps its boundary and its barrier. -/
structure Dropped (c : Nat) (d e : Dev) : Prop where
  mark : e.tick.frame.map frameMark = d.tick.frame.map frameMark
  others : ∀ m, m / 16 ≠ c → e.core m = d.core m
  frames : ∀ m, (e.core m).frame = (d.core m).frame

/-- A step of cluster `c`, none of whose cores is in the frame. -/
def DropWork (c : Nat) (d e : Dev) : Prop := (∀ m, m / 16 = c → (d.core m).frame ≠ .inFrame) → Dropped c d e

theorem DropWork.refl (c : Nat) (d : Dev) : DropWork c d d := fun _ => ⟨rfl, fun _ _ => rfl, fun _ => rfl⟩

theorem DropWork.trans {c : Nat} {d e f : Dev} (h : DropWork c d e) (h' : DropWork c e f) : DropWork c d f := fun hout => by
  have hfirst := h hout
  have hsecond := h' fun m hm => by
    rw [hfirst.frames m]
    exact hout m hm
  exact ⟨hsecond.mark.trans hfirst.mark, fun m hm => (hsecond.others m hm).trans (hfirst.others m hm),
    fun m => (hsecond.frames m).trans (hfirst.frames m)⟩

/-- What leaves every core alone. -/
theorem dropWork_of_same {c : Nat} {d e : Dev} (hcores : e.cores = d.cores)
    (hmark : e.tick.frame.map frameMark = d.tick.frame.map frameMark) : DropWork c d e := fun _ => by
  have hcore (m : Nat) : e.core m = d.core m := by
    unfold Dev.core
    rw [hcores]
  exact ⟨hmark, fun m _ => hcore m, fun m => by rw [hcore]⟩

theorem Accessed.dropWork {c : Nat} {d e : Dev} (h : Accessed d e) : DropWork c d e := dropWork_of_same h.cores (by rw [h.tick])

section
variable (c : Nat) (d : Dev)

theorem dropWork_modCluster (g : Cluster → Cluster) : DropWork c d (d.modCluster c g) := dropWork_of_same rfl rfl

theorem dropWork_bump (i k n : Nat) : DropWork c d (d.bump i k n) := dropWork_of_same rfl rfl

theorem dropWork_countPoison (b : Bool) : DropWork c d (d.countPoison b) := dropWork_of_same rfl (unitWork_countPoison d b).mark

/-- A signal to a core that is not in the frame is held. -/
theorem dropWork_deviceSignal {n : Nat} (hn : n / 16 = c) (e : BitVec 4) : DropWork c d (d.deviceSignal n e) := fun hout => by
  unfold Dev.deviceSignal
  dsimp only
  rw [if_neg (hout n hn)]
  refine ⟨rfl, fun m hm => ?_, fun m => ?_⟩
  · rw [Dev.core_setCore, if_neg]
    rintro rfl
    exact hm hn
  · rw [Dev.core_setCore]
    split
    · next h => rw [h]
    · rfl

theorem clusterCore_div {k : Nat} (hk : k < 16) : (16 * c + k) / 16 = c := by omega

theorem DropWork.ite {c : Nat} {d e : Dev} (p : Prop) [Decidable p] (h : DropWork c d e) : DropWork c d (if p then e else d) := by
  split
  · exact h
  · exact .refl c d

theorem DropWork.ite_not {c : Nat} {d e : Dev} (p : Prop) [Decidable p] (h : DropWork c d e) : DropWork c d (if p then d else e) := by
  split
  · exact .refl c d
  · exact h

theorem dropWork_writeStreamStatus (old x : StreamRun) : DropWork c d (d.writeStreamStatus c old x) := by
  unfold Dev.writeStreamStatus
  dsimp only
  split
  · exact dropWork_modCluster c d _
  · next m hside =>
    have hwritten : DropWork c d (m.dev.setStream c old { x.after m with phase := .finished }) :=
      (accessed_side hside).dropWork.trans (dropWork_modCluster c _ _)
    refine .trans (.trans (.trans hwritten (.ite _ (dropWork_countPoison c _ _))) (.ite _ (dropWork_bump c _ _ _ _))) (.ite _ ?_)
    exact dropWork_deviceSignal c _ (clusterCore_div c (Nat.mod_lt _ (by decide))) _

theorem dropWork_aborted {d e : Dev} (h : DropWork c d e) (p : Prop) [Decidable p] (x : StreamRun) :
    DropWork c d (if p then e else e.writeStreamStatus c x x) := by
  split
  · exact h
  · exact h.trans (dropWork_writeStreamStatus c e x x)

theorem dropWork_dropStreams : DropWork c d (d.dropStreams c) := by
  unfold Dev.dropStreams
  refine foldl_rel (R := DropWork c) (.refl c) (fun _ _ _ => .trans) (fun d i _ => .ite_not _ ?_) d
  refine dropWork_aborted c ?_ _ _
  exact ((dropWork_bump c d _ _ _).trans (accessed_faultUc ..).dropWork).trans (dropWork_modCluster c _ _)

theorem accessed_writeRecord {d e : Dev} {r : Requester} {a : Nat} {bs : List Byte} (h : d.writeRecord r a bs = some e) :
    Accessed d e := by
  unfold Dev.writeRecord at h
  split at h
  · cases h
  · cases h
    exact accessed_noteProblem ..
  · cases h
    exact accessed_store ..

theorem dropWork_writeJobStatus (j : VeRun) : DropWork c d (d.writeJobStatus c j) := by
  unfold Dev.writeJobStatus
  dsimp only
  split
  · exact dropWork_modCluster c d _
  · next e hwrite =>
    refine .trans (.trans (accessed_writeRecord hwrite).dropWork (.ite _ (dropWork_countPoison c _ _))) (.ite _ ?_)
    exact dropWork_deviceSignal c _ (clusterCore_div c (Nat.mod_lt _ (by decide))) _

theorem dropWork_dropJobs : DropWork c d (d.dropJobs c) := by
  unfold Dev.dropJobs
  refine .trans (dropWork_modCluster c d _) (foldl_rel (R := DropWork c) (.refl c) (fun _ _ _ => .trans) (fun d i _ => ?_) _)
  exact ((dropWork_bump c d _ _ _).trans (accessed_faultUc ..).dropWork).trans (dropWork_writeJobStatus c _ _)

end

/-! ### What the exits keep -/

/-- The current frame keeps its boundary and its barrier, and a core in the frame stays as it is. -/
structure ExitKept (d e : Dev) : Prop where
  mark : e.tick.frame.map frameMark = d.tick.frame.map frameMark
  running : ∀ n, (d.core n).frame = .inFrame → e.core n = d.core n

theorem ExitKept.refl (d : Dev) : ExitKept d d := ⟨rfl, fun _ _ => rfl⟩

theorem ExitKept.trans {d e f : Dev} (h : ExitKept d e) (h' : ExitKept e f) : ExitKept d f where
  mark := h'.mark.trans h.mark
  running n hn := (h'.running n (by rw [h.running n hn, hn])).trans (h.running n hn)

theorem clusterOut_frames {d : Dev} {c : Nat} (h : d.clusterOut c = true) {m : Nat} (hm : m / 16 = c) :
    (d.core m).frame ≠ .inFrame := by
  unfold Dev.clusterOut at h
  rw [List.all_eq_true] at h
  have hmod := h (m % 16) (List.mem_range.mpr (Nat.mod_lt _ (by decide)))
  rw [← hm, Nat.div_add_mod] at hmod
  exact of_decide_eq_true hmod

theorem exitKept_clusterExit (d : Dev) (c : Nat) : ExitKept d (d.clusterExit c) := by
  unfold Dev.clusterExit
  split
  · next hout =>
    have hdrop := ((dropWork_dropStreams c d).trans (dropWork_dropJobs c _)) fun m => clusterOut_frames hout
    exact ⟨hdrop.mark, fun n hn => hdrop.others n fun hc => clusterOut_frames hout hc hn⟩
  · exact .refl d

theorem mem_of_tget {α : Type} {t : Tbl α} {k : Nat} {e v : α} (h : tget t k e = v) (hne : v ≠ e) : (k, v) ∈ t := by
  induction t with
  | nil => exact absurd h.symm hne
  | cons p t ih =>
    obtain ⟨j, w⟩ := p
    unfold tget at h
    split at h
    · next heq => exact heq ▸ h ▸ List.mem_cons_self
    · exact List.mem_cons_of_mem _ (ih h)

/-- The current frame keeps what it has of its boundary and its barrier. -/
def MarkKept (d e : Dev) : Prop := e.tick.frame.map frameMark = d.tick.frame.map frameMark

theorem MarkKept.refl (d : Dev) : MarkKept d d := rfl

theorem MarkKept.trans {d e f : Dev} (h : MarkKept d e) (h' : MarkKept e f) : MarkKept d f := Eq.trans h' h

theorem markKept_writeUpdStatus (d : Dev) (m : Nat) (j : UpdRun) : MarkKept d (d.writeUpdStatus m j) := by
  unfold Dev.writeUpdStatus
  dsimp only
  split
  · rfl
  · next e hwrite =>
    have hpoison : UnitWork d (if j.status = stPoison then e.countPoison false else e) := by
      split
      · exact (accessed_writeRecord hwrite).unitWork.trans (unitWork_countPoison ..)
      · exact (accessed_writeRecord hwrite).unitWork
    split
    · exact (hpoison.trans (unitWork_deviceSignal ..)).mark
    · exact hpoison.mark

theorem markKept_dropUpdates (d : Dev) (m : Nat) : MarkKept d (d.dropUpdates m) := by
  unfold Dev.dropUpdates
  have hset (x : UpdUnit) : MarkKept d (d.setUpdUnit m x) := rfl
  have hbump (d : Dev) : MarkKept d (d.bump (0x9100 + m) 4 1) := rfl
  refine (hset _).trans (foldl_rel (R := MarkKept) .refl (fun _ _ _ => .trans) (fun d i _ => ?_) _)
  refine .trans ?_ (markKept_writeUpdStatus _ m _)
  exact (hbump d).trans (accessed_faultUc ..).unitWork.mark

theorem exitKept_lastExit (d : Dev) : ExitKept d d.lastExit := by
  unfold Dev.lastExit
  split
  · next hout =>
    have hmark : MarkKept d ((List.range 8).foldl (fun d m => d.dropUpdates m) d) :=
      foldl_rel (R := MarkKept) .refl (fun _ _ _ => .trans) (fun d m _ => markKept_dropUpdates d m) d
    refine ⟨hmark, fun n hn => ?_⟩
    have hmem : (n, d.core n) ∈ d.cores := mem_of_tget rfl fun h => by
      rw [h] at hn
      cases hn
    exact absurd hn (of_decide_eq_true (List.all_eq_true.mp hout _ hmem))
  · exact .refl d

theorem exitKept_afterBarrier (d : Dev) : ExitKept d d.afterBarrier := by
  unfold Dev.afterBarrier
  exact (foldl_rel (R := ExitKept) .refl (fun _ _ _ => .trans) (fun d c _ => exitKept_clusterExit d c) d).trans (exitKept_lastExit _)

/-! ### Nothing to drop -/

/-- With nothing listed no core, no byte of memory and no entry changes, and nothing is listed then. -/
def QuietExit (d e : Dev) : Prop :=
  nothingListed d → e.cores = d.cores ∧ e.mem = d.mem ∧ e.regs = d.regs ∧ nothingListed e

theorem QuietExit.refl (d : Dev) : QuietExit d d := fun h => ⟨rfl, rfl, rfl, h⟩

theorem QuietExit.trans {d e f : Dev} (h : QuietExit d e) (h' : QuietExit e f) : QuietExit d f := fun hd => by
  obtain ⟨hcores, hmem, hregs, he⟩ := h hd
  obtain ⟨hcores', hmem', hregs', hf⟩ := h' he
  exact ⟨hcores'.trans hcores, hmem'.trans hmem, hregs'.trans hregs, hf⟩

theorem quietExit_clusterExit (d : Dev) {c : Nat} (hc : c < 256) : QuietExit d (d.clusterExit c) := fun hd => by
  have hstreams : d.dropStreams c = d := by
    unfold Dev.dropStreams
    rw [(hd.1 c hc).1]
    rfl
  have hjobs : d.dropJobs c = d.modCluster c fun y => { y with veNext := max y.veCount y.veNext } := by
    unfold Dev.dropJobs
    dsimp only
    rw [Nat.sub_eq_zero_of_le (hd.1 c hc).2]
    rfl
  unfold Dev.clusterExit
  rw [hstreams, hjobs]
  split
  · refine ⟨rfl, rfl, rfl, fun k hk => ⟨(hd.1 k hk).1, ?_⟩, hd.2⟩
    unfold Dev.modCluster
    rw [Dev.cluster_setCluster]
    split
    · exact le_max_left _ _
    · exact (hd.1 k hk).2
  · exact ⟨rfl, rfl, rfl, hd⟩

theorem quietExit_dropUpdates (d : Dev) {m : Nat} (hm : m < 8) : QuietExit d (d.dropUpdates m) := fun hd => by
  have hnone : d.dropUpdates m = d.setUpdUnit m { d.updUnit m with next := max (d.updUnit m).count (d.updUnit m).next } := by
    unfold Dev.dropUpdates
    dsimp only
    rw [Nat.sub_eq_zero_of_le (hd.2 m hm)]
    rfl
  rw [hnone]
  refine ⟨rfl, rfl, rfl, hd.1, fun k hk => ?_⟩
  rw [Dev.updUnit_setUpdUnit]
  split
  · exact le_max_left _ _
  · exact hd.2 k hk

theorem quietExit_lastExit (d : Dev) : QuietExit d d.lastExit := by
  unfold Dev.lastExit
  split
  · exact foldl_rel (R := QuietExit) .refl (fun _ _ _ => .trans) (fun d m hm => quietExit_dropUpdates d (List.mem_range.mp hm)) d
  · exact .refl d

theorem quietExit_afterBarrier (d : Dev) : QuietExit d d.afterBarrier := by
  have hclusters : QuietExit d ((List.range 256).foldl (fun d c => d.clusterExit c) d) :=
    foldl_rel (R := QuietExit) .refl (fun _ _ _ => .trans) (fun d c hc => quietExit_clusterExit d (List.mem_range.mp hc)) d
  unfold Dev.afterBarrier
  exact hclusters.trans (quietExit_lastExit _)

end Sys2Proof.Proofs
end

section
/-! SUPPORT. The edges of the tick, the barrier and the completion of a frame: the statement (15 R450-R458, 08 R243-R246). -/

namespace Sys2Proof.Proofs

open Sys2Proof.Machine Sys2Proof.Terms

/-! ### The barrier of a frame -/

/-- The device whose frame has its barrier, before a core has seen it. -/
def barrierMarked (d : Dev) : Dev := d.modFrame fun x => { x with barrier := true, barrierAt := d.clock }

theorem barrier_eq {d : Dev} {f : FrameRun} (hframe : d.tick.frame = some f) (hbarrier : f.barrier = false) :
    d.barrier = ((barrierTo (barrierMarked d) 4096).afterBarrier).loadHeader := by
  unfold Dev.barrier
  rw [hframe]
  dsimp only
  rw [if_neg (by rw [hbarrier]; exact Bool.false_ne_true)]
  rfl

theorem loadHeader_of_noRing {d : Dev} (h : d.reg 0x2010 2 = 0) : d.loadHeader = d := by
  unfold Dev.loadHeader
  dsimp only
  exact if_pos (.inr (.inr (.inr h)))

section
variable {d : Dev} {f : FrameRun} (hframe : d.tick.frame = some f) (hbarrier : f.barrier = false)
include hframe hbarrier

theorem barrier_marks : ∃ g, d.barrier.tick.frame = some g ∧ g.barrier = true ∧ g.barrierAt = d.clock ∧ g.number = f.number := by
  have hmark : d.barrier.tick.frame.map frameMark = some (frameMark { f with barrier := true, barrierAt := d.clock }) := by
    rw [barrier_eq hframe hbarrier, (loaderWork_loadHeader _).tickFrame, (exitKept_afterBarrier _).mark,
      (reachedTo_barrierTo _ _).mark]
    change (d.tick.frame.map _).map frameMark = _
    rw [hframe]
    rfl
  obtain ⟨g, hg, hgmark⟩ := Option.map_eq_some_iff.mp hmark
  unfold frameMark at hgmark
  simp only [Prod.mk.injEq] at hgmark
  obtain ⟨hnumber, -, -, hset, hat, -⟩ := hgmark
  exact ⟨g, hg, hset, hat, hnumber⟩

section
variable {n : Nat} (hn : n < 4096) (hout : (d.core n).frame ≠ .inFrame) (hfree : d.faults.holds (.cluster (n / 16)) = false)
  {r : List Byte} (hr : r = d.mem.read (coreAddr n 0) 64)
include hn hout hfree hr

theorem barrier_of_disabled (hbit : (leNat r).testBit 0 = false) (hlisted : nothingListed d) :
    d.barrier.core n = { Core.fresh with frame := .disabled, heldSignals := (d.core n).heldSignals } ∧
      (d.reg 0x2010 2 = 0 → d.barrier.mem.byte (coreAddr n 0x40) = 0 ∧ d.barrier.mem.byte (coreAddr n 0x42) = 3 ∧
        d.barrier.mem.byte (coreAddr n 0x48) = 8) := by
  obtain ⟨hcore, hstate, hstream, hcycle⟩ := barrierTo_of_disabled (d := barrierMarked d) hn hout hfree hr hbit
  have hto := reachedTo_barrierTo (barrierMarked d) 4096
  have hquiet := quietExit_afterBarrier (barrierTo (barrierMarked d) 4096) (hto.nothingListed hlisted)
  rw [barrier_eq hframe hbarrier]
  generalize barrierTo (barrierMarked d) 4096 = x at hcore hstate hstream hcycle hto hquiet
  obtain ⟨hcores, hmem, hregs, -⟩ := hquiet
  generalize x.afterBarrier = y at hcores hmem hregs
  refine ⟨?_, fun hring => ?_⟩
  · unfold Dev.core at hcore ⊢
    rw [(loaderWork_loadHeader y).cores, hcores]
    exact hcore
  · have hnone : y.reg 0x2010 2 = 0 := (reg_congr hregs _ _).trans ((hto.regs _ _ (by decide) (by decide)).trans hring)
    rw [loadHeader_of_noRing hnone, hmem]
    exact ⟨hstate, hstream, hcycle⟩

theorem barrier_of_enabled (hbit : (leNat r).testBit 0 = true)
    (hlow : 12 ≤ leNat r / 2 ^ 16 % 32) (hhigh : leNat r / 2 ^ 16 % 32 ≤ 17) (htin : leNat r / 2 ^ 32 % 4 = 0)
    (hacc : leNat r / 2 ^ 48 % 8 = 0) (hexe : leNat r / 2 ^ 64 % 8 = 0) (hheld : (d.core n).heldSignals = []) :
    d.barrier.core n = d.enteredCore n r := by
  have hcore := barrierTo_of_enabled (d := barrierMarked d) hn hout hfree hr hbit hlow hhigh htin hacc hexe hheld
  have hkept := (exitKept_afterBarrier (barrierTo (barrierMarked d) 4096)).running n (by rw [hcore]; rfl)
  rw [barrier_eq hframe hbarrier]
  have hload := loaderWork_loadHeader (barrierTo (barrierMarked d) 4096).afterBarrier
  generalize barrierTo (barrierMarked d) 4096 = x at hcore hkept hload
  generalize x.afterBarrier = y at hkept hload
  have hsame : y.loadHeader.core n = y.core n := by
    unfold Dev.core
    rw [hload.cores]
  exact (hsame.trans hkept).trans hcore

end

end

/-- Settles O56: an edge and the loader touch only the tick's own entries; the boundary sequence, once the frame is open, keeps
what it has of its boundary; the barrier changes one core at a time, and its record beside every entry record; what is dropped
after it reaches only cores that are out of the frame. -/
theorem tickEdges : Obligations.TickEdges := by
  unfold Obligations.TickEdges
  refine ⟨fun s h => holdEdge_takes h, fun s h => skipEdge_takes h,
    fun s haccepted hstate hrun hshadow hraised hinputs hupdates =>
      enterEdge_enters haccepted hstate hrun hshadow hraised hinputs hupdates,
    fun s f hframe hbarrier => ?_,
    fun s f hframe hopen hdone hraised hrun hsending => frameComplete_closes hframe hopen hdone hraised hrun hsending rfl rfl⟩
  obtain ⟨g, hg, hset, hat, hnumber⟩ := barrier_marks hframe hbarrier
  refine ⟨s.withDev s.dev.barrier, g, rfl, hg, hset, hat, hnumber, fun n hn hout hfree => ⟨fun hbit hlisted => ?_,
    fun hbit hlow hhigh htin hacc hexe hheld => ?_⟩⟩
  · exact barrier_of_disabled hframe hbarrier hn hout hfree rfl hbit hlisted
  · exact barrier_of_enabled hframe hbarrier hn hout hfree rfl hbit hlow hhigh htin hacc hexe hheld

end Sys2Proof.Proofs
end
